-- ==== Sys2Proof/Word.lean ====
section
/-!
DEFINITION. The words of the machine: 8-bit bytes, 32-bit lane words and 64-bit scalar words (spec/03_numbers.md, R83,
R89; spec/08_lane_instructions.md).
-/

namespace Sys2Proof

/-- A byte of memory. -/
abbrev Byte := BitVec 8

/-- A lane's word of a vector register. -/
abbrev Word := BitVec 32

/-- A scalar register. -/
abbrev DWord := BitVec 64

end Sys2Proof
end

