-- ==== Sys2Proof/Config.lean ====
section
/-!
DEFINITION. What the spec leaves open, as opaque constants: nothing in Lean can evaluate one or prove a value of one.
Each is applied to State.tick, which every step advances, so every step meets fresh values (log entry 5).
-/

namespace Sys2Proof.Config

/-- Which of the enabled events and ready courses acts next (R118, R143, R194, R290: timing and arrival order). -/
opaque choose : Nat → Nat

/-- How many CCLK clocks beyond one a step takes (R206, R268, R294, R337, R358, R373: latencies are not modelled). -/
opaque elapse : Nat → Nat

/-- R387, R390. Have the slices room for a new race record? -/
opaque sliceRoom : Nat → Bool

/-- R391, R395, R311. Does this access of a byte meet a stale copy? Arguments: tick, physical address. -/
opaque stale : Nat → Nat → Bool

/-- R275, R290, R301, R307, R365. Which of the values that a racing byte may hold is met. Arguments: tick, address. -/
opaque racing : Nat → Nat → Nat

/-- R390. The device virtual address at which firmware maps the context image at a physical address, both divided by 16 KiB. -/
opaque imageVa : Nat → Nat

/-- R440. The HSS signature of a quote's first bytes under leaf n; its length and bytes are the identity key's. -/
opaque signature : Nat → List Byte → List Byte

/-- R440. Does the boot chain verify the images in flash (LMS signatures under the vendor root key)? -/
opaque bootVerified : Nat → Bool

/-- R440. A digest the boot ROM computes over the flash image (firmware 0, configuration record 1). -/
opaque bootDigest : Nat → Nat → Byte

/-- R441. A field of the 64-byte descriptor of a send ring, whose layout the spec does not give: 0 DSTDEV, 1 SRCDEV, 2 ASPACE,
3 the address, 4 LEN, 5 the sequence number, 6 the source address. -/
opaque sendField : Nat → List Byte → Nat

/-- R153, R417, R418, R419. A byte that the spec leaves to the device: of a private part of a saved state, or of a code table
that was lost. Arguments: tick, position. -/
opaque openByte : Nat → Nat → Byte

end Sys2Proof.Config
end

