-- ==== Sys2Proof/Syntax.lean ====
section
/-!
DEFINITION. The instructions of Folong 3.0: one constructor per row of the opcode table.
The first part holds the encoded members (spec/02_encoding.md, R47 to R77); their arguments are the fields of the
encoding, from the low bit up, and px is the imm25 of a LIMM standing before the member (R75).
The second part holds the rows without an encoding: what the device, its firmware and its host do between two
instructions. Their arguments name the object the event acts on and carry the data that comes from outside.
-/

namespace Sys2Proof

inductive Instr where
  /-- R54. 16-bit move: d receives s, which must carry d's tag or RAW, and d keeps its tag. -/
  | movShort (d : BitVec 6) (s : BitVec 5)
  /-- R54. 16-bit integer add d = d + s, typed by d's tag. -/
  | iaddShort (d : BitVec 6) (s : BitVec 5)
  /-- R54. 16-bit integer subtract d = d - s. -/
  | isubShort (d : BitVec 6) (s : BitVec 5)
  /-- R54. 16-bit bitwise AND d = d & s. -/
  | iandShort (d : BitVec 6) (s : BitVec 5)
  /-- R54. 16-bit bitwise OR d = d | s. -/
  | iorShort (d : BitVec 6) (s : BitVec 5)
  /-- R54. 16-bit bitwise XOR d = d ^ s. -/
  | ixorShort (d : BitVec 6) (s : BitVec 5)
  /-- R54. 16-bit shift left of d by s. -/
  | shlShort (d : BitVec 6) (s : BitVec 5)
  /-- R54. 16-bit logical shift right of d by s. -/
  | shrlShort (d : BitVec 6) (s : BitVec 5)
  /-- R54. 16-bit arithmetic shift right of d by s. -/
  | shraShort (d : BitVec 6) (s : BitVec 5)
  /-- R54. 16-bit integer multiply d = d * s, low 32 bits. -/
  | imulShort (d : BitVec 6) (s : BitVec 5)
  /-- R54. 16-bit F32 add d = d + s. -/
  | faddShort (d : BitVec 6) (s : BitVec 5)
  /-- R54. 16-bit F32 subtract d = d - s. -/
  | fsubShort (d : BitVec 6) (s : BitVec 5)
  /-- R54. 16-bit F32 multiply d = d * s. -/
  | fmulShort (d : BitVec 6) (s : BitVec 5)
  /-- R54. 16-bit F32 minimum of d and s. -/
  | fminShort (d : BitVec 6) (s : BitVec 5)
  /-- R54. 16-bit F32 maximum of d and s. -/
  | fmaxShort (d : BitVec 6) (s : BitVec 5)
  /-- R54. 16-bit move of a signed 5-bit immediate into d, keeping d's tag. -/
  | moviShort (d : BitVec 6) (i : BitVec 5)
  /-- R60. 32-bit no-operation. -/
  | nop
  /-- R218. Raises cause TRAP with a 6-bit code on every lane of the issue set. -/
  | trap (c : BitVec 6)
  /-- R218. Raises cause BREAK with a 6-bit code on every lane of the issue set. -/
  | brk (c : BitVec 6)
  /-- R219. Restarts the course's ready age so other ready courses issue first. -/
  | yield
  /-- R220. Copies a special register into a scalar register. -/
  | rdsr (d : BitVec 6) (n : BitVec 6)
  /-- R220. Writes a scalar register to FPMODE, the only writable special register. -/
  | wrsr (a : BitVec 6) (n : BitVec 6)
  /-- R221. Writes the 64-bit CCLK count since reset into a scalar register. -/
  | clock (d : BitVec 6)
  /-- R220. Clears the course's PROBEF flag. -/
  | prbclr
  /-- R75. Prefix that widens the immediate or offset of the following instruction, issuing with it as one unit. -/
  | limm (i : BitVec 25) (fw : BitVec 32)
  /-- R213. Moves each issue-set lane whose register is nonzero to the branch target; others advance. -/
  | brnz (c : BitVec 7) (o : BitVec 17) (px : Option (BitVec 25))
  /-- R213. Moves each issue-set lane whose register is zero to the branch target; others advance. -/
  | brz (c : BitVec 7) (o : BitVec 17) (px : Option (BitVec 25))
  /-- R214. Moves the issue set to a halfword offset within the overlay. -/
  | jmp (i : BitVec 21) (px : Option (BitVec 25))
  /-- R214. Writes the return code reference to v0 and jumps within the overlay. -/
  | call (i : BitVec 21) (px : Option (BitVec 25))
  /-- R215. Returns each lane to the code reference in a vector register within the same overlay. -/
  | ret (r : BitVec 7)
  /-- R175. Calls an entry of another overlay, or misses to the overlay manager when it is absent. -/
  | callx (o : BitVec 16) (e : BitVec 5)
  /-- R176. Calls, per lane, the code reference held in a vector register, writing the return reference to v0. -/
  | callxr (r : BitVec 7)
  /-- R176. Transfers each lane to the code reference in a vector register, across overlays. -/
  | retx (r : BitVec 7)
  /-- R216. Makes every lane of the issue set exited and removes it from every mask. -/
  | exit
  /-- R217. Advances the issue set and holds the course from issuing for n clocks. -/
  | nap (n : BitVec 21)
  /-- R199. Adds the issue set to mask mN. -/
  | join (m : BitVec 4)
  /-- R199. Removes the issue set from mask mN. -/
  | leave (m : BitVec 4)
  /-- R199. Adds the issue set to mN and sets those lanes waiting on it. -/
  | waitm (m : BitVec 4)
  /-- R199. Copies one mask to another, minus exited and off lanes. -/
  | mmov (m : BitVec 4) (s : BitVec 10) (px : Option (BitVec 25))
  /-- R199. Writes mask mN to a vector register in every lane of the issue set. -/
  | mread (m : BitVec 4) (v : BitVec 7)
  /-- R199. Sets mask mN from a uniform vector value. -/
  | mwrite (m : BitVec 4) (v : BitVec 7)
  /-- R199. Writes the population count of mask mN to a vector register. -/
  | mcount (m : BitVec 4) (v : BitVec 7)
  /-- R211. Waits until the outstanding counters fall to the given limits and the selected tokens are not pending, delivering any token error. -/
  | waitc (l : BitVec 5) (s : BitVec 4) (c : BitVec 4) (t : BitVec 4) (k : BitVec 8)
  /-- R225. Scalar add modulo 2^64. -/
  | sadd (d : BitVec 6) (a : BitVec 6) (b : BitVec 6)
  /-- R225. Scalar subtract. -/
  | ssub (d : BitVec 6) (a : BitVec 6) (b : BitVec 6)
  /-- R225. Scalar multiply, low 64 bits. -/
  | smul (d : BitVec 6) (a : BitVec 6) (b : BitVec 6)
  /-- R225. Scalar bitwise AND. -/
  | sand (d : BitVec 6) (a : BitVec 6) (b : BitVec 6)
  /-- R225. Scalar bitwise OR. -/
  | sor (d : BitVec 6) (a : BitVec 6) (b : BitVec 6)
  /-- R225. Scalar bitwise XOR. -/
  | sxor (d : BitVec 6) (a : BitVec 6) (b : BitVec 6)
  /-- R225. Scalar shift left, zero when the count is 64 or more. -/
  | sshl (d : BitVec 6) (a : BitVec 6) (b : BitVec 6)
  /-- R225. Scalar logical shift right. -/
  | sshrl (d : BitVec 6) (a : BitVec 6) (b : BitVec 6)
  /-- R225. Scalar arithmetic shift right. -/
  | sshra (d : BitVec 6) (a : BitVec 6) (b : BitVec 6)
  /-- R225. Scalar signed minimum. -/
  | smin (d : BitVec 6) (a : BitVec 6) (b : BitVec 6)
  /-- R225. Scalar signed maximum. -/
  | smax (d : BitVec 6) (a : BitVec 6) (b : BitVec 6)
  /-- R225. Scalar unsigned minimum. -/
  | snmin (d : BitVec 6) (a : BitVec 6) (b : BitVec 6)
  /-- R225. Scalar unsigned maximum. -/
  | snmax (d : BitVec 6) (a : BitVec 6) (b : BitVec 6)
  /-- R225. Scalar equality compare writing 1 or 0. -/
  | scmpeq (d : BitVec 6) (a : BitVec 6) (b : BitVec 6)
  /-- R225. Scalar signed less-than compare. -/
  | scmplt (d : BitVec 6) (a : BitVec 6) (b : BitVec 6)
  /-- R225. Scalar unsigned less-than compare. -/
  | scmpnlt (d : BitVec 6) (a : BitVec 6) (b : BitVec 6)
  /-- R225. Scalar select: sd = sa if sd is nonzero, else sb. -/
  | ssel (d : BitVec 6) (a : BitVec 6) (b : BitVec 6)
  /-- R226. Scalar add immediate. -/
  | saddi (d : BitVec 6) (a : BitVec 6) (i : BitVec 10) (px : Option (BitVec 25))
  /-- R226. Scalar AND immediate. -/
  | sandi (d : BitVec 6) (a : BitVec 6) (i : BitVec 10) (px : Option (BitVec 25))
  /-- R226. Scalar OR immediate. -/
  | sori (d : BitVec 6) (a : BitVec 6) (i : BitVec 10) (px : Option (BitVec 25))
  /-- R226. Scalar XOR immediate. -/
  | sxori (d : BitVec 6) (a : BitVec 6) (i : BitVec 10) (px : Option (BitVec 25))
  /-- R226. Scalar shift left by an immediate count. -/
  | sshli (d : BitVec 6) (a : BitVec 6) (i : BitVec 10) (px : Option (BitVec 25))
  /-- R226. Scalar logical shift right by an immediate count. -/
  | sshrli (d : BitVec 6) (a : BitVec 6) (i : BitVec 10) (px : Option (BitVec 25))
  /-- R226. Scalar move immediate. -/
  | smovi (d : BitVec 6) (i : BitVec 10) (px : Option (BitVec 25))
  /-- R226. Scalar compare with immediate for equality. -/
  | scmpeqi (d : BitVec 6) (a : BitVec 6) (i : BitVec 10) (px : Option (BitVec 25))
  /-- R227. Loads 8 bytes of memory into a scalar register. -/
  | sld (d : BitVec 6) (a : BitVec 6) (i : BitVec 10) (px : Option (BitVec 25))
  /-- R227. Stores a scalar register as 8 bytes. -/
  | sst (d : BitVec 6) (a : BitVec 6) (i : BitVec 10) (px : Option (BitVec 25))
  /-- R227. Loads 4 bytes zero-extended into a scalar register. -/
  | sldw (d : BitVec 6) (a : BitVec 6) (i : BitVec 10) (px : Option (BitVec 25))
  /-- R227. Stores the low 4 bytes of a scalar register. -/
  | sstw (d : BitVec 6) (a : BitVec 6) (i : BitVec 10) (px : Option (BitVec 25))
  /-- R228. Lane integer add, wrapping per element. -/
  | iadd (d : BitVec 7) (a : BitVec 7) (b : BitVec 7)
  /-- R228. Lane integer subtract. -/
  | isub (d : BitVec 7) (a : BitVec 7) (b : BitVec 7)
  /-- R228. Lane bitwise AND. -/
  | iand (d : BitVec 7) (a : BitVec 7) (b : BitVec 7)
  /-- R228. Lane bitwise OR. -/
  | ior (d : BitVec 7) (a : BitVec 7) (b : BitVec 7)
  /-- R228. Lane bitwise XOR. -/
  | ixor (d : BitVec 7) (a : BitVec 7) (b : BitVec 7)
  /-- R228. Lane bitwise a AND NOT b. -/
  | andn (d : BitVec 7) (a : BitVec 7) (b : BitVec 7)
  /-- R228. Lane shift left by a per-lane count. -/
  | shl (d : BitVec 7) (a : BitVec 7) (b : BitVec 7)
  /-- R228. Lane logical shift right. -/
  | shrl (d : BitVec 7) (a : BitVec 7) (b : BitVec 7)
  /-- R228. Lane arithmetic shift right. -/
  | shra (d : BitVec 7) (a : BitVec 7) (b : BitVec 7)
  /-- R228. Lane signed minimum. -/
  | imin (d : BitVec 7) (a : BitVec 7) (b : BitVec 7)
  /-- R228. Lane signed maximum. -/
  | imax (d : BitVec 7) (a : BitVec 7) (b : BitVec 7)
  /-- R228. Lane unsigned minimum. -/
  | nmin (d : BitVec 7) (a : BitVec 7) (b : BitVec 7)
  /-- R228. Lane unsigned maximum. -/
  | nmax (d : BitVec 7) (a : BitVec 7) (b : BitVec 7)
  /-- R228. Lane integer absolute value. -/
  | iabs (d : BitVec 7) (a : BitVec 7)
  /-- R228. Lane integer negation, wrapping. -/
  | ineg (d : BitVec 7) (a : BitVec 7)
  /-- R228. Lane move of a into d, giving d the source's tag. -/
  | mov (d : BitVec 7) (a : BitVec 7)
  /-- R229. Lane multiply, low 32 bits. -/
  | imul (d : BitVec 7) (a : BitVec 7) (b : BitVec 7)
  /-- R229. Lane signed multiply, high 32 bits. -/
  | imulhi (d : BitVec 7) (a : BitVec 7) (b : BitVec 7)
  /-- R229. Lane unsigned multiply, high 32 bits. -/
  | nmulhi (d : BitVec 7) (a : BitVec 7) (b : BitVec 7)
  /-- R229. Lane multiply-add a*b+d, low 32 bits. -/
  | imad (d : BitVec 7) (a : BitVec 7) (b : BitVec 7)
  /-- R229. Lane population count, N32 result. -/
  | popc (d : BitVec 7) (a : BitVec 7)
  /-- R229. Lane count of leading zeros, N32 result. -/
  | clz (d : BitVec 7) (a : BitVec 7)
  /-- R229. Lane bit reversal. -/
  | brev (d : BitVec 7) (a : BitVec 7)
  /-- R229. Lane saturating add. -/
  | iaddsat (d : BitVec 7) (a : BitVec 7) (b : BitVec 7)
  /-- R230. Lane add of an immediate. -/
  | iaddi (d : BitVec 7) (a : BitVec 7) (i : BitVec 8) (px : Option (BitVec 25))
  /-- R230. Lane AND with an immediate. -/
  | andi (d : BitVec 7) (a : BitVec 7) (i : BitVec 8) (px : Option (BitVec 25))
  /-- R230. Lane OR with an immediate. -/
  | ori (d : BitVec 7) (a : BitVec 7) (i : BitVec 8) (px : Option (BitVec 25))
  /-- R230. Lane XOR with an immediate. -/
  | xori (d : BitVec 7) (a : BitVec 7) (i : BitVec 8) (px : Option (BitVec 25))
  /-- R230. Lane shift left by an immediate. -/
  | shli (d : BitVec 7) (a : BitVec 7) (i : BitVec 8) (px : Option (BitVec 25))
  /-- R230. Lane logical shift right by an immediate. -/
  | shrli (d : BitVec 7) (a : BitVec 7) (i : BitVec 8) (px : Option (BitVec 25))
  /-- R230. Lane arithmetic shift right by an immediate. -/
  | shrai (d : BitVec 7) (a : BitVec 7) (i : BitVec 8) (px : Option (BitVec 25))
  /-- R230. Writes an immediate to every lane of d with the tag given in the a field. -/
  | movi (d : BitVec 7) (t : BitVec 4) (i : BitVec 8) (px : Option (BitVec 25))
  /-- R231. Lane add of a scalar operand. -/
  | ialusIadd (d : BitVec 7) (a : BitVec 7) (s : BitVec 6)
  /-- R231. Lane subtract of a scalar operand. -/
  | ialusIsub (d : BitVec 7) (a : BitVec 7) (s : BitVec 6)
  /-- R231. Lane AND with a scalar operand. -/
  | ialusAnd (d : BitVec 7) (a : BitVec 7) (s : BitVec 6)
  /-- R231. Lane OR with a scalar operand. -/
  | ialusOr (d : BitVec 7) (a : BitVec 7) (s : BitVec 6)
  /-- R231. Lane XOR with a scalar operand. -/
  | ialusXor (d : BitVec 7) (a : BitVec 7) (s : BitVec 6)
  /-- R231. Lane a AND NOT scalar operand. -/
  | ialusAndn (d : BitVec 7) (a : BitVec 7) (s : BitVec 6)
  /-- R231. Lane shift left by a scalar count. -/
  | ialusShl (d : BitVec 7) (a : BitVec 7) (s : BitVec 6)
  /-- R231. Lane logical shift right by a scalar count. -/
  | ialusShrl (d : BitVec 7) (a : BitVec 7) (s : BitVec 6)
  /-- R231. Lane arithmetic shift right by a scalar count. -/
  | ialusShra (d : BitVec 7) (a : BitVec 7) (s : BitVec 6)
  /-- R231. Lane signed minimum with a scalar operand. -/
  | ialusImin (d : BitVec 7) (a : BitVec 7) (s : BitVec 6)
  /-- R231. Lane signed maximum with a scalar operand. -/
  | ialusImax (d : BitVec 7) (a : BitVec 7) (s : BitVec 6)
  /-- R231. Lane unsigned minimum with a scalar operand. -/
  | ialusNmin (d : BitVec 7) (a : BitVec 7) (s : BitVec 6)
  /-- R231. Lane unsigned maximum with a scalar operand. -/
  | ialusNmax (d : BitVec 7) (a : BitVec 7) (s : BitVec 6)
  /-- R231. IALUS encoding of integer absolute value, behaving as IALU IABS. -/
  | ialusIabs (d : BitVec 7) (a : BitVec 7)
  /-- R232. Lane integer equality compare, all-ones or zero per element. -/
  | icmpEq (d : BitVec 7) (a : BitVec 7) (b : BitVec 7)
  /-- R232. Lane integer inequality compare. -/
  | icmpNe (d : BitVec 7) (a : BitVec 7) (b : BitVec 7)
  /-- R232. Lane signed less-than compare. -/
  | icmpLt (d : BitVec 7) (a : BitVec 7) (b : BitVec 7)
  /-- R232. Lane signed less-or-equal compare. -/
  | icmpLe (d : BitVec 7) (a : BitVec 7) (b : BitVec 7)
  /-- R232. Lane signed greater-than compare. -/
  | icmpGt (d : BitVec 7) (a : BitVec 7) (b : BitVec 7)
  /-- R232. Lane signed greater-or-equal compare. -/
  | icmpGe (d : BitVec 7) (a : BitVec 7) (b : BitVec 7)
  /-- R232. Lane unsigned less-than compare. -/
  | icmpNlt (d : BitVec 7) (a : BitVec 7) (b : BitVec 7)
  /-- R232. Lane unsigned less-or-equal compare. -/
  | icmpNle (d : BitVec 7) (a : BitVec 7) (b : BitVec 7)
  /-- R232. Lane unsigned greater-than compare. -/
  | icmpNgt (d : BitVec 7) (a : BitVec 7) (b : BitVec 7)
  /-- R232. Lane unsigned greater-or-equal compare. -/
  | icmpNge (d : BitVec 7) (a : BitVec 7) (b : BitVec 7)
  /-- R232. Per lane selects a if the old d is nonzero, else b. -/
  | sel (d : BitVec 7) (a : BitVec 7) (b : BitVec 7)
  /-- R233. Lane floating-point add rounded in FPMODE. -/
  | fadd (d : BitVec 7) (a : BitVec 7) (b : BitVec 7)
  /-- R233. Lane floating-point subtract. -/
  | fsub (d : BitVec 7) (a : BitVec 7) (b : BitVec 7)
  /-- R233. Lane floating-point multiply. -/
  | fmul (d : BitVec 7) (a : BitVec 7) (b : BitVec 7)
  /-- R233. Lane floating-point minimum by R85. -/
  | fmin (d : BitVec 7) (a : BitVec 7) (b : BitVec 7)
  /-- R233. Lane floating-point maximum by R85. -/
  | fmax (d : BitVec 7) (a : BitVec 7) (b : BitVec 7)
  /-- R233. Lane floating-point absolute value. -/
  | fabs (d : BitVec 7) (a : BitVec 7)
  /-- R233. Lane floating-point sign flip. -/
  | fneg (d : BitVec 7) (a : BitVec 7)
  /-- R233. Lane magnitude of a with the sign of b. -/
  | fcopysign (d : BitVec 7) (a : BitVec 7) (b : BitVec 7)
  /-- R233. Lane round to an integral value in FPMODE. -/
  | frint (d : BitVec 7) (a : BitVec 7)
  /-- R234. Lane floating-point add of a scalar operand. -/
  | falusFadd (d : BitVec 7) (a : BitVec 7) (s : BitVec 6)
  /-- R234. Lane floating-point subtract of a scalar operand. -/
  | falusFsub (d : BitVec 7) (a : BitVec 7) (s : BitVec 6)
  /-- R234. Lane floating-point multiply by a scalar operand. -/
  | falusFmul (d : BitVec 7) (a : BitVec 7) (s : BitVec 6)
  /-- R234. Lane floating-point minimum with a scalar operand. -/
  | falusFmin (d : BitVec 7) (a : BitVec 7) (s : BitVec 6)
  /-- R234. Lane floating-point maximum with a scalar operand. -/
  | falusFmax (d : BitVec 7) (a : BitVec 7) (s : BitVec 6)
  /-- R233. Lane fused multiply-add a*b+d. -/
  | fma (d : BitVec 7) (a : BitVec 7) (b : BitVec 7)
  /-- R233. Lane fused multiply-subtract a*b-d. -/
  | fms (d : BitVec 7) (a : BitVec 7) (b : BitVec 7)
  /-- R233. Lane fused -(a*b)+d. -/
  | fnma (d : BitVec 7) (a : BitVec 7) (b : BitVec 7)
  /-- R233. Lane fused -(a*b)-d. -/
  | fnms (d : BitVec 7) (a : BitVec 7) (b : BitVec 7)
  /-- R235. Lane ordered-equal floating-point compare. -/
  | fcmpEq (d : BitVec 7) (a : BitVec 7) (b : BitVec 7)
  /-- R235. Lane unordered-or-not-equal compare. -/
  | fcmpNe (d : BitVec 7) (a : BitVec 7) (b : BitVec 7)
  /-- R235. Lane ordered less-than compare. -/
  | fcmpLt (d : BitVec 7) (a : BitVec 7) (b : BitVec 7)
  /-- R235. Lane ordered less-or-equal compare. -/
  | fcmpLe (d : BitVec 7) (a : BitVec 7) (b : BitVec 7)
  /-- R235. Lane ordered greater-than compare. -/
  | fcmpGt (d : BitVec 7) (a : BitVec 7) (b : BitVec 7)
  /-- R235. Lane ordered greater-or-equal compare. -/
  | fcmpGe (d : BitVec 7) (a : BitVec 7) (b : BitVec 7)
  /-- R235. Lane test that either operand is NaN. -/
  | fcmpUn (d : BitVec 7) (a : BitVec 7) (b : BitVec 7)
  /-- R235. Lane test that neither operand is NaN. -/
  | fcmpOrd (d : BitVec 7) (a : BitVec 7) (b : BitVec 7)
  /-- R108. Lane reciprocal by the fixed algorithm. -/
  | rcp (d : BitVec 7) (a : BitVec 7)
  /-- R108. Lane reciprocal square root by the fixed algorithm. -/
  | rsq (d : BitVec 7) (a : BitVec 7)
  /-- R107. Lane correctly rounded square root. -/
  | sqrt (d : BitVec 7) (a : BitVec 7)
  /-- R107. Lane correctly rounded division a / b. -/
  | div (d : BitVec 7) (a : BitVec 7) (b : BitVec 7)
  /-- R108. Lane base-2 exponential by the fixed algorithm. -/
  | exp2 (d : BitVec 7) (a : BitVec 7)
  /-- R108. Lane base-2 logarithm by the fixed algorithm. -/
  | log2 (d : BitVec 7) (a : BitVec 7)
  /-- R108. Lane sine by the fixed algorithm. -/
  | sin (d : BitVec 7) (a : BitVec 7)
  /-- R108. Lane cosine by the fixed algorithm. -/
  | cos (d : BitVec 7) (a : BitVec 7)
  /-- R238. Converts each element of a to the target format in the named rounding mode. -/
  | cvt (d : BitVec 7) (a : BitVec 7) (t : BitVec 4) (m : BitVec 2)
  /-- R239. Writes a's bits to d under a new tag. -/
  | cast (d : BitVec 7) (a : BitVec 7) (t : BitVec 4)
  /-- R239. Packs the low halves of a and b's elements into d. -/
  | pack (d : BitVec 7) (a : BitVec 7) (b : BitVec 7)
  /-- R239. Widens the low half of a's elements exactly. -/
  | unpacklo (d : BitVec 7) (a : BitVec 7)
  /-- R239. Widens the high half of a's elements exactly. -/
  | unpackhi (d : BitVec 7) (a : BitVec 7)
  /-- R240. Decodes eight codebook codes per lane with a block factor into four BF16X2 registers. -/
  | qdec (d : BitVec 5) (a : BitVec 7) (b : BitVec 7)
  /-- R241. Each lane reads a from an indexed source lane of the issue set. -/
  | shfl (d : BitVec 7) (a : BitVec 7) (b : BitVec 7)
  /-- R241. Each lane reads a from the lane delta below. -/
  | shflup (d : BitVec 7) (a : BitVec 7) (b : BitVec 7)
  /-- R241. Each lane reads a from the lane delta above. -/
  | shfldn (d : BitVec 7) (a : BitVec 7) (b : BitVec 7)
  /-- R241. Each lane reads a from the lane at its index XOR b. -/
  | shflx (d : BitVec 7) (a : BitVec 7) (b : BitVec 7)
  /-- R241. Writes the mask of issue-set lanes whose key is nonzero. -/
  | ballot (d : BitVec 7) (a : BitVec 7)
  /-- R241. Writes all ones if every issue-set lane's key is nonzero. -/
  | voteall (d : BitVec 7) (a : BitVec 7)
  /-- R241. Writes all ones if any issue-set lane's key is nonzero. -/
  | voteany (d : BitVec 7) (a : BitVec 7)
  /-- R242. Writes the sum over the issue set to every lane. -/
  | redadd (d : BitVec 7) (a : BitVec 7)
  /-- R242. Writes the minimum over the issue set. -/
  | redmin (d : BitVec 7) (a : BitVec 7)
  /-- R242. Writes the maximum over the issue set. -/
  | redmax (d : BitVec 7) (a : BitVec 7)
  /-- R242. Writes each lane the inclusive prefix sum over the issue set. -/
  | scanadd (d : BitVec 7) (a : BitVec 7)
  /-- R241. Writes the mask of issue-set lanes whose key equals the lane's own. -/
  | matchv (d : BitVec 7) (a : BitVec 7)
  /-- R244. Copies half of a scalar register into every lane of d with a given tag. -/
  | movs (d : BitVec 7) (t : BitVec 4) (h : BitVec 1) (s : BitVec 6)
  /-- R244. Copies a uniform vector value into a scalar register. -/
  | vtos (d : BitVec 6) (a : BitVec 7) (h : BitVec 1)
  /-- R244. Writes each lane its lane number. -/
  | laneid (d : BitVec 7)
  /-- R244. Writes the low or high half of each lane's WID. -/
  | wid (d : BitVec 7) (h : BitVec 1)
  /-- R245. Writes field n of each lane's WID. -/
  | widf (d : BitVec 7) (n : BitVec 3)
  /-- R246. Computes Philox-4x32-10 per lane and writes the first output word. -/
  | rng (d : BitVec 7) (a : BitVec 7) (k : BitVec 6)
  /-- R246. Computes Philox-4x32-10 per lane and writes all four output words. -/
  | rng4 (d : BitVec 5) (a : BitVec 7) (k : BitVec 6)
  /-- R263. Per-lane global load of the given element kind, with per-lane faults and commits. -/
  | ld (d : BitVec 7) (a : BitVec 7) (s : BitVec 6) (k : BitVec 5) (px : Option (BitVec 25))
  /-- R263. Per-lane global store of the given element kind. -/
  | st (d : BitVec 7) (a : BitVec 7) (s : BitVec 6) (k : BitVec 5) (px : Option (BitVec 25))
  /-- R269. Per-lane scratchpad load, switching off out-of-range lanes. -/
  | lds (d : BitVec 7) (a : BitVec 7) (s : BitVec 6) (k : BitVec 5) (px : Option (BitVec 25))
  /-- R269. Per-lane scratchpad store. -/
  | sts (d : BitVec 7) (a : BitVec 7) (s : BitVec 6) (k : BitVec 5) (px : Option (BitVec 25))
  /-- R277. Per-lane global atomic returning the old word. -/
  | atom (d : BitVec 7) (a : BitVec 7) (s : BitVec 6) (o : BitVec 4) (px : Option (BitVec 25))
  /-- R277. Per-lane global atomic reduction returning nothing. -/
  | red (d : BitVec 7) (a : BitVec 7) (s : BitVec 6) (o : BitVec 4) (px : Option (BitVec 25))
  /-- R281. Per-lane scratchpad atomic returning the old word. -/
  | atoms (d : BitVec 7) (a : BitVec 7) (s : BitVec 6) (o : BitVec 4) (px : Option (BitVec 25))
  /-- R281. Per-lane scratchpad atomic reduction returning nothing. -/
  | reds (d : BitVec 7) (a : BitVec 7) (s : BitVec 6) (o : BitVec 4) (px : Option (BitVec 25))
  /-- R394. Acquire, release or both at the named scope. -/
  | fence (o : BitVec 2) (p : BitVec 3)
  /-- R395. Release for one class set and acquire for another at the named scope, discarding stale copies. -/
  | xfence (p : BitVec 3) (a : BitVec 6) (b : BitVec 6)
  /-- R398. Arrives at a consort barrier with release and waits for its generation to complete. -/
  | bar (b : BitVec 10) (px : Option (BitVec 25))
  /-- R398. Arrives at a consort barrier with release and does not wait. -/
  | bararr (b : BitVec 10) (px : Option (BitVec 25))
  /-- R302. Sets an arrival word's TARGET and applies the generation rule. -/
  | armw (v : BitVec 7) (o : BitVec 10) (px : Option (BitVec 25))
  /-- R302. Waits while an arrival word's GEN equals the given value, then returns GEN. -/
  | arwait (v : BitVec 7) (o : BitVec 10) (px : Option (BitVec 25))
  /-- R302. Adds to an arrival word's COUNT after earlier scratchpad stores perform. -/
  | aradd (v : BitVec 7) (o : BitVec 10) (px : Option (BitVec 25))
  /-- R290. Starts an asynchronous one-row copy completing a token. -/
  | cpy (a : BitVec 6) (c : BitVec 6) (k : BitVec 3)
  /-- R290. Starts an asynchronous strided multi-row copy. -/
  | cpy2 (a : BitVec 6) (c : BitVec 6) (k : BitVec 3)
  /-- R290. Starts an asynchronous multicast copy into scratchpads of gang consorts. -/
  | cpym (a : BitVec 6) (c : BitVec 6) (k : BitVec 3)
  /-- R307. Starts a bin scatter of the issue set's rows, bumping bin counters. -/
  | binsc (v : BitVec 7) (t : BitVec 6) (r : BitVec 6) (k : BitVec 3)
  /-- R308. Starts a bin gather of rows back into the scratchpad. -/
  | binga (v : BitVec 6) (t : BitVec 6) (r : BitVec 6) (k : BitVec 3)
  /-- R309. Resets bump counters of a range of bins. -/
  | binrst (t : BitVec 6) (f : BitVec 6)
  /-- R309. Reads a bin's bump counter into every lane. -/
  | binqry (v : BitVec 7) (t : BitVec 6) (b : BitVec 6)
  /-- R319. Checks a tile view and starts filling the non-latest copy of a tile register. -/
  | tfet (t : BitVec 3) (s : BitVec 6) (f : BitVec 3) (n : BitVec 1)
  /-- R327. Enters one 16x16 matrix step on two tile registers into the matrix queue. -/
  | mma (a : BitVec 3) (b : BitVec 3) (l : BitVec 6) (e : BitVec 4) (m : BitVec 1) (n : BitVec 1) (s : BitVec 1) (k : BitVec 1)
  /-- R330. Enters a sequenced loop of tile fetches and matrix steps into the matrix queue. -/
  | mloop (l : BitVec 6) (e : BitVec 4) (n : BitVec 6) (r : BitVec 1) (s : BitVec 1)
  /-- R332. Queues zeroing of an accumulator slot and setting its tag. -/
  | accz (a : BitVec 6) (c : BitVec 6)
  /-- R332. Queues a readout of accumulator entries into a vector register. -/
  | accrd (v : BitVec 7) (a : BitVec 6) (c : BitVec 6)
  /-- R332. Queues a write of a vector register into accumulator entries. -/
  | accwr (v : BitVec 7) (a : BitVec 6)
  /-- R332. Queues a drain of a whole slot into a queue port. -/
  | accdr (q : BitVec 4) (a : BitVec 6) (c : BitVec 6)
  /-- R333. Reports a slot's version, tag, lock and waiting state at issue. -/
  | accver (v : BitVec 7) (a : BitVec 6)
  /-- R332. Queues setting of a slot's version counter. -/
  | accwv (a : BitVec 6) (c : BitVec 6)
  /-- R334. Writes 16 code-table entries into the inactive buffer and advances CTGEN. -/
  | ctset (v : BitVec 7)
  /-- R334. Reads the active code table into a vector register. -/
  | ctget (v : BitVec 7)
  /-- R347. Opens an accumulate-chain epoch, reserving buffers and locking destination slots. -/
  | achopen (a : BitVec 6)
  /-- R348. Binds the consort as a member of a chain's open epoch, waiting for one. -/
  | achjoin (c : BitVec 6)
  /-- R349. Queues the contribution of the consort's slots to a joined chain. -/
  | asend (c : BitVec 6) (q : BitVec 6)
  /-- R350. Waits for all contributions of an own chain epoch and applies the result. -/
  | achwait (v : BitVec 7) (c : BitVec 6)
  /-- R351. Closes a waited epoch or abandons an open one. -/
  | achclose (c : BitVec 6)
  /-- R368. Queues a top-k selection over a memory vector, delivering to a queue port. -/
  | topk (q : BitVec 4) (a : BitVec 6) (k : BitVec 3)
  /-- R370. Queues a softmax over a memory vector, writing the result to memory. -/
  | softmx (q : BitVec 4) (a : BitVec 6) (k : BitVec 3)
  /-- R371. Queues sampling of one index from a memory vector's distribution. -/
  | sample (q : BitVec 4) (a : BitVec 6) (u : BitVec 6) (k : BitVec 3)
  /-- R136. Reads a launch record and places it in the course's pending-launch queue. -/
  | lnch (a : BitVec 6) (q : BitVec 6)
  /-- R137. Hands a record from the scratchpad to a graph node. -/
  | emit (a : BitVec 6) (o : BitVec 6)
  /-- R138. Initialises a join counter after earlier stores are visible. -/
  | jcnew (a : BitVec 6) (n : BitVec 6)
  /-- R138. Decrements a join counter, clamping at zero and waking waiters. -/
  | jcdec (a : BitVec 6) (n : BitVec 6)
  /-- R138. Waits until a join counter reaches zero, then returns ERR and UNDER with acquire. -/
  | jcwait (v : BitVec 7) (a : BitVec 6)
  /-- R139. Registers or releases a mailbox on a doorbell line. -/
  | mbox (v : BitVec 7) (a : BitVec 6) (h : BitVec 6)
  /-- R170. Starts an asynchronous overlay load for the tenant, naming a token. -/
  | ovld (i : BitVec 6) (k : BitVec 3)
  /-- R171. Takes a residency token on an overlay if present. -/
  | ovpin (v : BitVec 7) (i : BitVec 6)
  /-- R172. Returns one residency token on an overlay. -/
  | ovunpin (i : BitVec 6)
  /-- R173. Asks for an overlay to leave the code store for the tenant. -/
  | ovevict (v : BitVec 7) (i : BitVec 6)
  /-- R174. Reports an overlay's residency state. -/
  | ovqry (v : BitVec 7) (i : BitVec 6)
  /-- R249. Binds a queue port to a source or sink. -/
  | qbind (p : BitVec 4) (a : BitVec 6) (b : BitVec 6)
  /-- R249. Waits for engine deliveries, then discards buffered elements and unbinds a port. -/
  | qfree (p : BitVec 4)
  /-- R249. Reports a queue port's binding and level. -/
  | qstat (v : BitVec 7) (a : BitVec 6)
  /-- R125. A host write to a ring's kick register advances WRIDX within the wrap window, or is ignored or halts the queue. -/
  | hostKick (q : Nat) (hi : Bool) (w : BitVec 32)
  /-- R428. A host write through BAR2 performs at its home slice in PCIe order, or is refused outside every window. -/
  | hostBar2Write (off : Nat) (data : List (BitVec 8))
  /-- R428. A host read through BAR2 returns device memory, or all ones when refused. -/
  | hostBar2Read (off : Nat) (n : Nat)
  /-- R429. A write to the MBOXHOST result word registers or releases a mailbox as MBOX does. -/
  | mboxhost (mgmt : Bool)
  /-- R440. Mailbox command 1 returns a quote over the host nonce signed with a fresh identity leaf. -/
  | attestationQuote (req : List (BitVec 8))
  /-- R433. Mailbox command 2, operation 0, writes a queue descriptor. -/
  | queueDefine (req : List (BitVec 8))
  /-- R433. Mailbox command 2, operation 1, enables a queue. -/
  | queueEnable (req : List (BitVec 8))
  /-- R433. Mailbox command 2, operation 2, stops consumption of a queue. -/
  | queueDisable (req : List (BitVec 8))
  /-- R433. Mailbox command 3 sets the power cap between 1,500 W and the TDP. -/
  | setPowerCap (req : List (BitVec 8))
  /-- R433. Mailbox command 4 returns the error counters of one group. -/
  | readErrorCounters (req : List (BitVec 8))
  /-- R433. Mailbox command 5 writes flash, effective at the next reset. -/
  | writeFlash (req : List (BitVec 8))
  /-- R433. A mailbox request with an unknown command code is answered with STATUS 1. -/
  | unknownCommand (req : List (BitVec 8))
  /-- R152. Writing PARTMODE.STOP stops or restarts gang release by every distributor. -/
  | partmodeStop (w : BitVec 64)
  /-- R153. Writing PARTMODE.MODE changes the partition mode when drained, or sets MERR. -/
  | partmodeModeWrite (w : BitVec 64)
  /-- R434. A write to WATCHDOG restarts the 50 ms firmware watchdog count. -/
  | watchdogRestart
  /-- R434. On watchdog expiry the hub resets the firmware complex, sets STOP and FWLOST and raises a host event. -/
  | watchdogExpiry
  /-- R415. CTXCMD op 1 starts pre-emption of the named consort's gang. -/
  | preempt (cmd : BitVec 64)
  /-- R411. CTXCMD op 2 terminates every course of the named consort with cause KILLED. -/
  | kill (cmd : BitVec 64)
  /-- R413. CTXCMD op 3 makes the named parked lanes running, or with no lanes retests re-entry. -/
  | unpark (cmd : BitVec 64)
  /-- R413. CTXCMD op 4 makes named parked lanes take a trap-class cause at their instruction. -/
  | refuse (cmd : BitVec 64)
  /-- R413. A CTXCMD write with OP 5-15 only sets ERR. -/
  | ctxcmdUndefinedOp (cmd : BitVec 64)
  /-- R439. INVALCMD scope 0 drops translations of the 64 KiB page holding VA. -/
  | invalPage (cmd : BitVec 64)
  /-- R439. INVALCMD scope 1 drops translations of the 2 MiB region holding VA. -/
  | inval2mib (cmd : BitVec 64)
  /-- R439. INVALCMD scope 2 drops translations of the 1 GiB region holding VA. -/
  | inval1gib (cmd : BitVec 64)
  /-- R439. INVALCMD scope 3 drops every translation of one address space. -/
  | invalAspace (cmd : BitVec 64)
  /-- R439. INVALCMD scope 4 drops every translation of every address space. -/
  | invalAll (cmd : BitVec 64)
  /-- R439. BUSY clears once every core has dropped the translations and accesses using them have passed translation. -/
  | invalComplete
  /-- R435. A write to a management-window or host register with no behaviour of its own stores its writable fields or clears RW1C bits. -/
  | registerWrite (bar0 : Bool) (off : Nat) (w : BitVec 64)
  /-- R440. Reset stops every core and distributor and runs the boot chain. -/
  | moduleReset
  /-- R443. Junction at 100 °C forces CCLK to 1.2 GHz and sets THERM. -/
  | thermalThrottle
  /-- R443. Junction at 115 °C stops every core and puts HBM in self-refresh until reset. -/
  | thermalTrip
  /-- R443. The hardware steps CCLK in 100 MHz steps to hold the 1 ms average power at the cap. -/
  | powerCapStep (up : Bool)
  /-- R441. A received put is checked, translated and performed at home, or dropped with a negative acknowledgement. -/
  | putReceive (port : Nat) (dstdev : BitVec 20) (srcdev : BitVec 20) (aspace : BitVec 16) (va : BitVec 64) (seq : BitVec 32) (data : List (BitVec 8))
  /-- R441. The link cores send a put described in a send ring after its write index advances. -/
  | putSend (ring : Nat)
  /-- R114. The head record and its header are read and checked when consumed from a resident queue. -/
  | launchRecordConsume (q : Nat)
  /-- R142. A distributor reserves and starts every consort of a gang at once when all fit one pair. -/
  | gangRelease (q : Nat)
  /-- R126. A pending-launch entry is appended to its target queue once earlier stores are visible and room exists. -/
  | pendingLaunchAppend (k : Nat) (c : Nat)
  /-- R128. A graph node's front end accepts a record into the open batch, closing it at R records. -/
  | graphRecordAccept (k : Nat) (c : Nat) (q : Nat)
  /-- R128. T clocks after its first record a batch closes and becomes the node queue's head. -/
  | graphBatchTimeout (q : Nat)
  /-- R131. An arrival at a doorbell line starts the handler from IDLE or counts while RUNNING. -/
  | mailboxArrival
  /-- R133. The handler record is read and appended to TQUEUE once room exists, or the append fails. -/
  | handlerAppend (m : Nat)
  /-- R116. At launch retirement the join counter is decremented with ERR as needed, waiting for fault service if absent. -/
  | jcRetireDecrement (n : Nat)
  /-- R216. A course with no live lanes retires once its counters, tokens, launches and port deliveries are done. -/
  | courseRetire (k : Nat) (c : Nat)
  /-- R138. A join counter reaching zero completes waiting JCWAITs with acquire and lets swapped-out waiters re-enter. -/
  | jcwaitWake (k : Nat) (c : Nat)
  /-- R414. A consort whose every course is idle or retired starts the save sequence. -/
  | swapOut (k : Nat)
  /-- R415. After the drains end, courses release, explicit state is saved and the consort leaves the core. -/
  | contextSave (k : Nat)
  /-- R420. A re-entering consort is placed with its gang, its overlays and explicit state restored before first issue. -/
  | consortResume (k : Nat)
  /-- R217. A nap's clock count expires and the course may issue again. -/
  | napExpiry (k : Nat) (c : Nat)
  /-- R207. A failed slot-transfer CRC stops the core, discards unchecked instructions and parks running lanes with PORT_FAIL. -/
  | portCheckFail
  /-- R256. A page walk ends absent, denied or translated. -/
  | translationWalk (aspace : BitVec 16) (va : BitVec 64)
  /-- R437. Fault records held in the hub are written in order as ring room returns. -/
  | faultRingFlush
  /-- R156. A register-cache fill arrives, possibly evicting a victim line. -/
  | registerFill (k : Nat) (c : Nat) (r : Nat)
  /-- R158. A dirty evictable register line is written back to its context image. -/
  | lineWriteback (k : Nat) (c : Nat) (r : Nat)
  /-- R263. Load data returns and is written to the lanes' registers. -/
  | loadReturn (id : Nat)
  /-- R266. A store performs at its die slice and then at home, invalidating copies and updating records. -/
  | storePerform (id : Nat)
  /-- R279. A combining-buffer entry closes on 64 clocks, 16 requests or a non-merging request and goes home. -/
  | combineClose (id : Nat)
  /-- R280. The home atomic unit performs a request and returns results. -/
  | atomPerform (id : Nat)
  /-- R381. A release completes once its region closure has been applied at every record-holding point. -/
  | releaseClosure (k : Nat) (c : Nat)
  /-- R167. An overlay load finishes landing and digesting, becoming RESIDENT and completing its token, or fails. -/
  | overlayLoadComplete (id : Nat)
  /-- R165. A load waiting for frames retries victim selection when frames may have become available. -/
  | overlayFrameRetry (id : Nat)
  /-- R165. An instance's 65,536-clock protection ends, making it eligible as a victim. -/
  | frameProtectionExpiry (id : Nat)
  /-- R470. A fetch finding its overlay absent starts a load with no token and waits. -/
  | fetchAbsentLoad (k : Nat) (c : Nat)
  /-- R290. A chunk of a copy lands at each destination and updates its arrival word, or faults. -/
  | copyChunk (id : Nat) (n : Nat)
  /-- R290. When every chunk has landed or failed, tracked ranges are released, any mailbox arrival made and the token completed. -/
  | copyComplete (id : Nat)
  /-- R307. A bin scatter writes its row codes and completes its token when its rows have performed. -/
  | binScatterComplete (id : Nat)
  /-- R308. A bin gather's rows land and its token completes. -/
  | binGatherComplete (id : Nat)
  /-- R303. An arrival word's generation change completes a waiting ARWAIT with acquire. -/
  | arwaitWake (k : Nat) (c : Nat)
  /-- R319. A tile copy becomes FULL when every byte and block factor has arrived, or EMPTY on failure. -/
  | tfetFillComplete (id : Nat)
  /-- R320. After 256 clocks waiting for pins a TFET reads its remaining lines unpinned. -/
  | tilePinTimeout (id : Nat)
  /-- R324. A waiting matrix-queue entry whose version, lock and tiles qualify is admitted and advances the version. -/
  | matrixAdmit (id : Nat)
  /-- R446. An admitted matrix-queue operation performs and leaves the queue. -/
  | matrixPerform (id : Nat)
  /-- R325. A queue entry waiting 2^20 clocks is removed and its course gets a matrix error. -/
  | versionWait (id : Nat)
  /-- R336. The oldest matrix error is delivered at the course's next issue in place of the instruction. -/
  | matrixErrorDelivery (k : Nat) (c : Nat)
  /-- R332. An ACCDR pushes slot elements into its port as room allows and completes at its last push. -/
  | accdrPush (id : Nat)
  /-- R99. A CTSET stalled 2^20 clocks takes CODE_TABLE_BUSY with no effect. -/
  | codeTableBusy (k : Nat) (c : Nat)
  /-- R247. A course stalled 2^20 clocks on ports or launch queues takes QUEUE_STALL. -/
  | queueStall (k : Nat) (c : Nat)
  /-- R348. A waiting ACHJOIN binds to the oldest open epoch that lists the consort. -/
  | achjoinBind (k : Nat) (c : Nat)
  /-- R353. Contribution flits land in reserved buffers and update the exact sums or packets. -/
  | acnFlitLanding (n : Nat)
  /-- R352. An ORDERED packet adds a member's contribution and moves on when the next buffer is reserved. -/
  | acnOrderedForward (k : Nat) (chn : BitVec 2)
  /-- R350. When all contributions are in, the result is applied, versions advance, locks clear and status is written. -/
  | achwaitComplete (k : Nat) (c : Nat)
  /-- R361. The selection engine takes the oldest eligible operation and reserves a result buffer. -/
  | selServe (id : Nat)
  /-- R361. A selection operation's results are whole in its buffer and its token completes. -/
  | selResultReady (id : Nat)
  /-- R361. Result elements pass from a buffer into their port as room allows. -/
  | selDeliver (id : Nat)
  /-- R370. SOFTMX completes its token when every destination element has performed at home. -/
  | softmxComplete (id : Nat)
  /-- R78. Issue of a bit pattern that is not an instruction (reserved major, unused fn, nonzero reserved field, forbidden combination) raises ILLEGAL, or acts as NOP and sets PROBEF in probe mode. -/
  | undefinedEncoding (enc : BitVec 32)
  /-- R48. An issue whose first or second halfword lies at or beyond the overlay's LEN raises ILLEGAL with sub-cause 2. -/
  | fetchBeyondOverlay
  /-- R118. Firmware's service of a fault record lets a FAULTED queue, a waiting copy, tile fetch, selection operation, overlay load, pending launch or join-counter update retry its translation. -/
  | faultService (what : Nat) (id : Nat)
  /-- R121. Firmware makes queues resident or not resident, at each quantum or when a resident queue becomes BLOCKED or FAULTED. -/
  | residentSetChange (qs : List Nat)
  /-- R207. Firmware enables half width on a core whose port failed, so its parked consorts can be unparked there. -/
  | halfWidthEnable
  /-- R160. Firmware closes a core to the distributor after pre-empting its consorts. -/
  | coreDisable
  /-- R153. During a partition change firmware writes back and invalidates every L1 and replica slice and empties every code store. -/
  | writeBackAndInvalidate
  /-- R150. Firmware adds context areas to a partition's pool, letting a gang blocked on an empty pool be placed. -/
  | contextPoolRefill (ctx : Nat) (aux : Nat)
  /-- R442. A pseudo-channel or HBM rows beyond the spares are retired, or slice ways are disabled, in service, raising REPLACE_REQUEST. -/
  | resourceRetirement (detail : BitVec 32)
  /-- R443. The module enters power state Idle, stopping distributors and putting HBM in self-refresh. -/
  | powerStateIdle
  /-- R443. The host places the function in PCIe D3cold, power state Off. -/
  | pcieD3cold
  deriving DecidableEq, Repr

end Sys2Proof
end

