-- ==== Sys2Proof/WellFormed.lean ====
section
/-!
DEFINITION. The limits on the fields of an encoded instruction (spec/02_encoding.md, R50, R51, R59, R61 to R64, R68, R70,
and the places R78 collects): a word whose fields break one of them is an undefined encoding.
-/

namespace Sys2Proof

/-- R75, R226. A prefix on a member whose 64-bit value is bounded by its own low bits must be zero. -/
def pxZero (px : Option (BitVec 25)) : Bool := px == none || px == some 0

/-- R75, R199, R398. The same where the value is truncated to 32 bits: the ten low bits and the 22 of the prefix above them. -/
def pxLow (px : Option (BitVec 25)) : Bool := (px.getD 0).setWidth 22 == 0#22

/-- R67, R68. Pair kinds need an even register, quad kinds a multiple of 4, and neither may name a queue port. -/
def kindOk (k : BitVec 5) (d : BitVec 7) : Bool :=
  k < 16 || (d < 112 && (if k < 24 then d.toNat % 2 == 0 else d.toNat % 4 == 0))

/-- R237. The targets CVT accepts: F32, BF16X2, F16X2, I32, N32, I16X2, I8X4 and I4X8. -/
def cvtTarget (t : BitVec 4) : Bool := 0 < t && t < 9

/-- R50, R51, R58 to R71. The limits on one instruction's fields. The rows without an encoding have no fields to
limit; what may follow a LIMM is checked by the decoder (Instr.wf). -/
def Instr.fieldsOk : Instr → Bool
  | .movShort _ _ => true
  | .iaddShort _ _ => true
  | .isubShort _ _ => true
  | .iandShort _ _ => true
  | .iorShort _ _ => true
  | .ixorShort _ _ => true
  | .shlShort _ _ => true
  | .shrlShort _ _ => true
  | .shraShort _ _ => true
  | .imulShort _ _ => true
  | .faddShort _ _ => true
  | .fsubShort _ _ => true
  | .fmulShort _ _ => true
  | .fminShort _ _ => true
  | .fmaxShort _ _ => true
  | .moviShort _ _ => true
  | .nop => true
  | .trap _ => true
  | .brk _ => true
  | .yield => true
  | .rdsr _ n => n < 9
  | .wrsr _ n => n == 7
  | .clock _ => true
  | .prbclr => true
  | .limm _ _ => true
  | .brnz c _ _ => c < 112
  | .brz c _ _ => c < 112
  | .jmp _ _ => true
  | .call _ _ => true
  | .ret r => r < 112
  | .callx _ _ => true
  | .callxr r => r < 112
  | .retx r => r < 112
  | .exit => true
  | .nap _ => true
  | .join m => m < 12
  | .leave m => m < 12
  | .waitm m => m < 12
  | .mmov m s px => m < 12 && s < 12 && pxLow px
  | .mread m _ => m < 12
  | .mwrite m _ => m < 12
  | .mcount m _ => m < 12
  | .waitc _ _ _ _ _ => true
  | .sadd _ _ _ => true
  | .ssub _ _ _ => true
  | .smul _ _ _ => true
  | .sand _ _ _ => true
  | .sor _ _ _ => true
  | .sxor _ _ _ => true
  | .sshl _ _ _ => true
  | .sshrl _ _ _ => true
  | .sshra _ _ _ => true
  | .smin _ _ _ => true
  | .smax _ _ _ => true
  | .snmin _ _ _ => true
  | .snmax _ _ _ => true
  | .scmpeq _ _ _ => true
  | .scmplt _ _ _ => true
  | .scmpnlt _ _ _ => true
  | .ssel _ _ _ => true
  | .saddi _ _ _ _ => true
  | .sandi _ _ _ _ => true
  | .sori _ _ _ _ => true
  | .sxori _ _ _ _ => true
  | .sshli _ _ i px => i < 64 && pxZero px
  | .sshrli _ _ i px => i < 64 && pxZero px
  | .smovi _ _ _ => true
  | .scmpeqi _ _ _ _ => true
  | .sld _ _ _ _ => true
  | .sst _ _ _ _ => true
  | .sldw _ _ _ _ => true
  | .sstw _ _ _ _ => true
  | .iadd _ _ _ => true
  | .isub _ _ _ => true
  | .iand _ _ _ => true
  | .ior _ _ _ => true
  | .ixor _ _ _ => true
  | .andn _ _ _ => true
  | .shl _ _ _ => true
  | .shrl _ _ _ => true
  | .shra _ _ _ => true
  | .imin _ _ _ => true
  | .imax _ _ _ => true
  | .nmin _ _ _ => true
  | .nmax _ _ _ => true
  | .iabs _ _ => true
  | .ineg _ _ => true
  | .mov _ _ => true
  | .imul _ _ _ => true
  | .imulhi _ _ _ => true
  | .nmulhi _ _ _ => true
  | .imad _ _ _ => true
  | .popc _ _ => true
  | .clz _ _ => true
  | .brev _ _ => true
  | .iaddsat _ _ _ => true
  | .iaddi _ _ _ _ => true
  | .andi _ _ _ _ => true
  | .ori _ _ _ _ => true
  | .xori _ _ _ _ => true
  | .shli _ _ _ _ => true
  | .shrli _ _ _ _ => true
  | .shrai _ _ _ _ => true
  | .movi _ t _ _ => t < 12
  | .ialusIadd _ _ _ => true
  | .ialusIsub _ _ _ => true
  | .ialusAnd _ _ _ => true
  | .ialusOr _ _ _ => true
  | .ialusXor _ _ _ => true
  | .ialusAndn _ _ _ => true
  | .ialusShl _ _ _ => true
  | .ialusShrl _ _ _ => true
  | .ialusShra _ _ _ => true
  | .ialusImin _ _ _ => true
  | .ialusImax _ _ _ => true
  | .ialusNmin _ _ _ => true
  | .ialusNmax _ _ _ => true
  | .ialusIabs _ _ => true
  | .icmpEq _ _ _ => true
  | .icmpNe _ _ _ => true
  | .icmpLt _ _ _ => true
  | .icmpLe _ _ _ => true
  | .icmpGt _ _ _ => true
  | .icmpGe _ _ _ => true
  | .icmpNlt _ _ _ => true
  | .icmpNle _ _ _ => true
  | .icmpNgt _ _ _ => true
  | .icmpNge _ _ _ => true
  | .sel _ _ _ => true
  | .fadd _ _ _ => true
  | .fsub _ _ _ => true
  | .fmul _ _ _ => true
  | .fmin _ _ _ => true
  | .fmax _ _ _ => true
  | .fabs _ _ => true
  | .fneg _ _ => true
  | .fcopysign _ _ _ => true
  | .frint _ _ => true
  | .falusFadd _ _ _ => true
  | .falusFsub _ _ _ => true
  | .falusFmul _ _ _ => true
  | .falusFmin _ _ _ => true
  | .falusFmax _ _ _ => true
  | .fma _ _ _ => true
  | .fms _ _ _ => true
  | .fnma _ _ _ => true
  | .fnms _ _ _ => true
  | .fcmpEq _ _ _ => true
  | .fcmpNe _ _ _ => true
  | .fcmpLt _ _ _ => true
  | .fcmpLe _ _ _ => true
  | .fcmpGt _ _ _ => true
  | .fcmpGe _ _ _ => true
  | .fcmpUn _ _ _ => true
  | .fcmpOrd _ _ _ => true
  | .rcp _ _ => true
  | .rsq _ _ => true
  | .sqrt _ _ => true
  | .div _ _ _ => true
  | .exp2 _ _ => true
  | .log2 _ _ => true
  | .sin _ _ => true
  | .cos _ _ => true
  | .cvt _ _ t _ => cvtTarget t
  | .cast _ _ t => t < 12
  | .pack _ _ _ => true
  | .unpacklo _ _ => true
  | .unpackhi _ _ => true
  | .qdec d _ _ => d < 28
  | .shfl _ _ _ => true
  | .shflup _ _ _ => true
  | .shfldn _ _ _ => true
  | .shflx _ _ _ => true
  | .ballot _ _ => true
  | .voteall _ _ => true
  | .voteany _ _ => true
  | .redadd _ _ => true
  | .redmin _ _ => true
  | .redmax _ _ => true
  | .scanadd _ _ => true
  | .matchv _ _ => true
  | .movs _ t _ _ => t < 12
  | .vtos _ _ _ => true
  | .laneid _ => true
  | .wid _ _ => true
  | .widf _ n => n < 6
  | .rng _ _ k => k < 63
  | .rng4 d _ k => k < 63 && d < 28
  | .ld d a _ k _ => a < 112 && kindOk k d
  | .st d a _ k _ => a < 112 && kindOk k d && k != 1 && k != 3
  | .lds d a _ k _ => a < 112 && kindOk k d
  | .sts d a _ k _ => a < 112 && kindOk k d && k != 1 && k != 3
  | .atom d a _ o _ => d < 112 && a < 112 && !(o == 9 && d == 111)
  | .red d a _ o _ => d < 112 && a < 112 && o != 8 && o != 9
  | .atoms d a _ o _ => d < 112 && a < 112 && !(o == 9 && d == 111) && o != 11
  | .reds d a _ o _ => d < 112 && a < 112 && o != 8 && o != 9 && o != 11
  | .fence _ p => p < 5
  | .xfence p a b => p < 5 && a != 0 && b != 0
  | .bar b px => b < 16 && pxLow px
  | .bararr b px => b < 16 && pxLow px
  | .armw _ _ _ => true
  | .arwait _ _ _ => true
  | .aradd _ _ _ => true
  | .cpy a _ _ => a < 63
  | .cpy2 a _ _ => a < 61
  | .cpym a _ _ => a < 63
  | .binsc v _ _ _ => v < 112
  | .binga v _ _ _ => v < 56
  | .binrst _ _ => true
  | .binqry _ _ _ => true
  | .tfet _ s f n => f < 6 && !(n == 1 && f < 4) && s < 62
  | .mma _ _ _ _ _ _ _ _ => true
  | .mloop _ _ n _ _ => n < 59
  | .accz _ _ => true
  | .accrd _ _ _ => true
  | .accwr _ _ => true
  | .accdr _ _ _ => true
  | .accver _ _ => true
  | .accwv _ _ => true
  | .ctset _ => true
  | .ctget _ => true
  | .achopen a => a < 63
  | .achjoin _ => true
  | .asend _ _ => true
  | .achwait _ _ => true
  | .achclose _ => true
  | .topk _ a _ => a < 61
  | .softmx _ a _ => a < 61
  | .sample _ a _ _ => a < 61
  | .lnch _ _ => true
  | .emit _ _ => true
  | .jcnew _ _ => true
  | .jcdec _ _ => true
  | .jcwait _ _ => true
  | .mbox _ _ _ => true
  | .ovld _ _ => true
  | .ovpin _ _ => true
  | .ovunpin _ => true
  | .ovevict _ _ => true
  | .ovqry _ _ => true
  | .qbind _ _ _ => true
  | .qfree _ => true
  | .qstat v _ => v < 112
  | .hostKick _ _ _ => true
  | .hostBar2Write _ _ => true
  | .hostBar2Read _ _ => true
  | .mboxhost _ => true
  | .attestationQuote _ => true
  | .queueDefine _ => true
  | .queueEnable _ => true
  | .queueDisable _ => true
  | .setPowerCap _ => true
  | .readErrorCounters _ => true
  | .writeFlash _ => true
  | .unknownCommand _ => true
  | .partmodeStop _ => true
  | .partmodeModeWrite _ => true
  | .watchdogRestart => true
  | .watchdogExpiry => true
  | .preempt _ => true
  | .kill _ => true
  | .unpark _ => true
  | .refuse _ => true
  | .ctxcmdUndefinedOp _ => true
  | .invalPage _ => true
  | .inval2mib _ => true
  | .inval1gib _ => true
  | .invalAspace _ => true
  | .invalAll _ => true
  | .invalComplete => true
  | .registerWrite _ _ _ => true
  | .moduleReset => true
  | .thermalThrottle => true
  | .thermalTrip => true
  | .powerCapStep _ => true
  | .putReceive _ _ _ _ _ _ _ => true
  | .putSend _ => true
  | .launchRecordConsume _ => true
  | .gangRelease _ => true
  | .pendingLaunchAppend _ _ => true
  | .graphRecordAccept _ _ _ => true
  | .graphBatchTimeout _ => true
  | .mailboxArrival => true
  | .handlerAppend _ => true
  | .jcRetireDecrement _ => true
  | .courseRetire _ _ => true
  | .jcwaitWake _ _ => true
  | .swapOut _ => true
  | .contextSave _ => true
  | .consortResume _ => true
  | .napExpiry _ _ => true
  | .portCheckFail => true
  | .translationWalk _ _ => true
  | .faultRingFlush => true
  | .registerFill _ _ _ => true
  | .lineWriteback _ _ _ => true
  | .loadReturn _ => true
  | .storePerform _ => true
  | .combineClose _ => true
  | .atomPerform _ => true
  | .releaseClosure _ _ => true
  | .overlayLoadComplete _ => true
  | .overlayFrameRetry _ => true
  | .frameProtectionExpiry _ => true
  | .fetchAbsentLoad _ _ => true
  | .copyChunk _ _ => true
  | .copyComplete _ => true
  | .binScatterComplete _ => true
  | .binGatherComplete _ => true
  | .arwaitWake _ _ => true
  | .tfetFillComplete _ => true
  | .tilePinTimeout _ => true
  | .matrixAdmit _ => true
  | .matrixPerform _ => true
  | .versionWait _ => true
  | .matrixErrorDelivery _ _ => true
  | .accdrPush _ => true
  | .codeTableBusy _ _ => true
  | .queueStall _ _ => true
  | .achjoinBind _ _ => true
  | .acnFlitLanding _ => true
  | .acnOrderedForward _ _ => true
  | .achwaitComplete _ _ => true
  | .selServe _ => true
  | .selResultReady _ => true
  | .selDeliver _ => true
  | .softmxComplete _ => true
  | .undefinedEncoding _ => true
  | .fetchBeyondOverlay => true
  | .faultService _ _ => true
  | .residentSetChange _ => true
  | .halfWidthEnable => true
  | .coreDisable => true
  | .writeBackAndInvalidate => true
  | .contextPoolRefill _ _ => true
  | .resourceRetirement _ => true
  | .powerStateIdle => true
  | .pcieD3cold => true

end Sys2Proof
end

