-- ==== Sys2Proof/Decode.lean ====
section
/-!
DEFINITION. The decoder and the encoder (spec/02_encoding.md, R47 to R78), over little-endian halfwords.
The decoder reads the member and its fields, then checks the limits of WellFormed, and accepts a word only if encoding
the result gives the word back: a reserved bit that is set (R58) is a bit no member produces.
-/

namespace Sys2Proof

/-- How an instruction stands in code: form H, one word, a LIMM pair of its own, or no encoding at all. -/
inductive Shape where
  | short | word | pair | event
  deriving DecidableEq, Repr

/-- R47, R53, R56. The shape of each instruction. -/
def Instr.shape : Instr → Shape
  | .movShort _ _ => .short
  | .iaddShort _ _ => .short
  | .isubShort _ _ => .short
  | .iandShort _ _ => .short
  | .iorShort _ _ => .short
  | .ixorShort _ _ => .short
  | .shlShort _ _ => .short
  | .shrlShort _ _ => .short
  | .shraShort _ _ => .short
  | .imulShort _ _ => .short
  | .faddShort _ _ => .short
  | .fsubShort _ _ => .short
  | .fmulShort _ _ => .short
  | .fminShort _ _ => .short
  | .fmaxShort _ _ => .short
  | .moviShort _ _ => .short
  | .nop => .word
  | .trap _ => .word
  | .brk _ => .word
  | .yield => .word
  | .rdsr _ _ => .word
  | .wrsr _ _ => .word
  | .clock _ => .word
  | .prbclr => .word
  | .limm _ _ => .pair
  | .brnz _ _ _ => .word
  | .brz _ _ _ => .word
  | .jmp _ _ => .word
  | .call _ _ => .word
  | .ret _ => .word
  | .callx _ _ => .word
  | .callxr _ => .word
  | .retx _ => .word
  | .exit => .word
  | .nap _ => .word
  | .join _ => .word
  | .leave _ => .word
  | .waitm _ => .word
  | .mmov _ _ _ => .word
  | .mread _ _ => .word
  | .mwrite _ _ => .word
  | .mcount _ _ => .word
  | .waitc _ _ _ _ _ => .word
  | .sadd _ _ _ => .word
  | .ssub _ _ _ => .word
  | .smul _ _ _ => .word
  | .sand _ _ _ => .word
  | .sor _ _ _ => .word
  | .sxor _ _ _ => .word
  | .sshl _ _ _ => .word
  | .sshrl _ _ _ => .word
  | .sshra _ _ _ => .word
  | .smin _ _ _ => .word
  | .smax _ _ _ => .word
  | .snmin _ _ _ => .word
  | .snmax _ _ _ => .word
  | .scmpeq _ _ _ => .word
  | .scmplt _ _ _ => .word
  | .scmpnlt _ _ _ => .word
  | .ssel _ _ _ => .word
  | .saddi _ _ _ _ => .word
  | .sandi _ _ _ _ => .word
  | .sori _ _ _ _ => .word
  | .sxori _ _ _ _ => .word
  | .sshli _ _ _ _ => .word
  | .sshrli _ _ _ _ => .word
  | .smovi _ _ _ => .word
  | .scmpeqi _ _ _ _ => .word
  | .sld _ _ _ _ => .word
  | .sst _ _ _ _ => .word
  | .sldw _ _ _ _ => .word
  | .sstw _ _ _ _ => .word
  | .iadd _ _ _ => .word
  | .isub _ _ _ => .word
  | .iand _ _ _ => .word
  | .ior _ _ _ => .word
  | .ixor _ _ _ => .word
  | .andn _ _ _ => .word
  | .shl _ _ _ => .word
  | .shrl _ _ _ => .word
  | .shra _ _ _ => .word
  | .imin _ _ _ => .word
  | .imax _ _ _ => .word
  | .nmin _ _ _ => .word
  | .nmax _ _ _ => .word
  | .iabs _ _ => .word
  | .ineg _ _ => .word
  | .mov _ _ => .word
  | .imul _ _ _ => .word
  | .imulhi _ _ _ => .word
  | .nmulhi _ _ _ => .word
  | .imad _ _ _ => .word
  | .popc _ _ => .word
  | .clz _ _ => .word
  | .brev _ _ => .word
  | .iaddsat _ _ _ => .word
  | .iaddi _ _ _ _ => .word
  | .andi _ _ _ _ => .word
  | .ori _ _ _ _ => .word
  | .xori _ _ _ _ => .word
  | .shli _ _ _ _ => .word
  | .shrli _ _ _ _ => .word
  | .shrai _ _ _ _ => .word
  | .movi _ _ _ _ => .word
  | .ialusIadd _ _ _ => .word
  | .ialusIsub _ _ _ => .word
  | .ialusAnd _ _ _ => .word
  | .ialusOr _ _ _ => .word
  | .ialusXor _ _ _ => .word
  | .ialusAndn _ _ _ => .word
  | .ialusShl _ _ _ => .word
  | .ialusShrl _ _ _ => .word
  | .ialusShra _ _ _ => .word
  | .ialusImin _ _ _ => .word
  | .ialusImax _ _ _ => .word
  | .ialusNmin _ _ _ => .word
  | .ialusNmax _ _ _ => .word
  | .ialusIabs _ _ => .word
  | .icmpEq _ _ _ => .word
  | .icmpNe _ _ _ => .word
  | .icmpLt _ _ _ => .word
  | .icmpLe _ _ _ => .word
  | .icmpGt _ _ _ => .word
  | .icmpGe _ _ _ => .word
  | .icmpNlt _ _ _ => .word
  | .icmpNle _ _ _ => .word
  | .icmpNgt _ _ _ => .word
  | .icmpNge _ _ _ => .word
  | .sel _ _ _ => .word
  | .fadd _ _ _ => .word
  | .fsub _ _ _ => .word
  | .fmul _ _ _ => .word
  | .fmin _ _ _ => .word
  | .fmax _ _ _ => .word
  | .fabs _ _ => .word
  | .fneg _ _ => .word
  | .fcopysign _ _ _ => .word
  | .frint _ _ => .word
  | .falusFadd _ _ _ => .word
  | .falusFsub _ _ _ => .word
  | .falusFmul _ _ _ => .word
  | .falusFmin _ _ _ => .word
  | .falusFmax _ _ _ => .word
  | .fma _ _ _ => .word
  | .fms _ _ _ => .word
  | .fnma _ _ _ => .word
  | .fnms _ _ _ => .word
  | .fcmpEq _ _ _ => .word
  | .fcmpNe _ _ _ => .word
  | .fcmpLt _ _ _ => .word
  | .fcmpLe _ _ _ => .word
  | .fcmpGt _ _ _ => .word
  | .fcmpGe _ _ _ => .word
  | .fcmpUn _ _ _ => .word
  | .fcmpOrd _ _ _ => .word
  | .rcp _ _ => .word
  | .rsq _ _ => .word
  | .sqrt _ _ => .word
  | .div _ _ _ => .word
  | .exp2 _ _ => .word
  | .log2 _ _ => .word
  | .sin _ _ => .word
  | .cos _ _ => .word
  | .cvt _ _ _ _ => .word
  | .cast _ _ _ => .word
  | .pack _ _ _ => .word
  | .unpacklo _ _ => .word
  | .unpackhi _ _ => .word
  | .qdec _ _ _ => .word
  | .shfl _ _ _ => .word
  | .shflup _ _ _ => .word
  | .shfldn _ _ _ => .word
  | .shflx _ _ _ => .word
  | .ballot _ _ => .word
  | .voteall _ _ => .word
  | .voteany _ _ => .word
  | .redadd _ _ => .word
  | .redmin _ _ => .word
  | .redmax _ _ => .word
  | .scanadd _ _ => .word
  | .matchv _ _ => .word
  | .movs _ _ _ _ => .word
  | .vtos _ _ _ => .word
  | .laneid _ => .word
  | .wid _ _ => .word
  | .widf _ _ => .word
  | .rng _ _ _ => .word
  | .rng4 _ _ _ => .word
  | .ld _ _ _ _ _ => .word
  | .st _ _ _ _ _ => .word
  | .lds _ _ _ _ _ => .word
  | .sts _ _ _ _ _ => .word
  | .atom _ _ _ _ _ => .word
  | .red _ _ _ _ _ => .word
  | .atoms _ _ _ _ _ => .word
  | .reds _ _ _ _ _ => .word
  | .fence _ _ => .word
  | .xfence _ _ _ => .word
  | .bar _ _ => .word
  | .bararr _ _ => .word
  | .armw _ _ _ => .word
  | .arwait _ _ _ => .word
  | .aradd _ _ _ => .word
  | .cpy _ _ _ => .word
  | .cpy2 _ _ _ => .word
  | .cpym _ _ _ => .word
  | .binsc _ _ _ _ => .word
  | .binga _ _ _ _ => .word
  | .binrst _ _ => .word
  | .binqry _ _ _ => .word
  | .tfet _ _ _ _ => .word
  | .mma _ _ _ _ _ _ _ _ => .word
  | .mloop _ _ _ _ _ => .word
  | .accz _ _ => .word
  | .accrd _ _ _ => .word
  | .accwr _ _ => .word
  | .accdr _ _ _ => .word
  | .accver _ _ => .word
  | .accwv _ _ => .word
  | .ctset _ => .word
  | .ctget _ => .word
  | .achopen _ => .word
  | .achjoin _ => .word
  | .asend _ _ => .word
  | .achwait _ _ => .word
  | .achclose _ => .word
  | .topk _ _ _ => .word
  | .softmx _ _ _ => .word
  | .sample _ _ _ _ => .word
  | .lnch _ _ => .word
  | .emit _ _ => .word
  | .jcnew _ _ => .word
  | .jcdec _ _ => .word
  | .jcwait _ _ => .word
  | .mbox _ _ _ => .word
  | .ovld _ _ => .word
  | .ovpin _ _ => .word
  | .ovunpin _ => .word
  | .ovevict _ _ => .word
  | .ovqry _ _ => .word
  | .qbind _ _ _ => .word
  | .qfree _ => .word
  | .qstat _ _ => .word
  | .hostKick _ _ _ => .event
  | .hostBar2Write _ _ => .event
  | .hostBar2Read _ _ => .event
  | .mboxhost _ => .event
  | .attestationQuote _ => .event
  | .queueDefine _ => .event
  | .queueEnable _ => .event
  | .queueDisable _ => .event
  | .setPowerCap _ => .event
  | .readErrorCounters _ => .event
  | .writeFlash _ => .event
  | .unknownCommand _ => .event
  | .partmodeStop _ => .event
  | .partmodeModeWrite _ => .event
  | .watchdogRestart => .event
  | .watchdogExpiry => .event
  | .preempt _ => .event
  | .kill _ => .event
  | .unpark _ => .event
  | .refuse _ => .event
  | .ctxcmdUndefinedOp _ => .event
  | .invalPage _ => .event
  | .inval2mib _ => .event
  | .inval1gib _ => .event
  | .invalAspace _ => .event
  | .invalAll _ => .event
  | .invalComplete => .event
  | .registerWrite _ _ _ => .event
  | .moduleReset => .event
  | .thermalThrottle => .event
  | .thermalTrip => .event
  | .powerCapStep _ => .event
  | .putReceive _ _ _ _ _ _ _ => .event
  | .putSend _ => .event
  | .launchRecordConsume _ => .event
  | .gangRelease _ => .event
  | .pendingLaunchAppend _ _ => .event
  | .graphRecordAccept _ _ _ => .event
  | .graphBatchTimeout _ => .event
  | .mailboxArrival => .event
  | .handlerAppend _ => .event
  | .jcRetireDecrement _ => .event
  | .courseRetire _ _ => .event
  | .jcwaitWake _ _ => .event
  | .swapOut _ => .event
  | .contextSave _ => .event
  | .consortResume _ => .event
  | .napExpiry _ _ => .event
  | .portCheckFail => .event
  | .translationWalk _ _ => .event
  | .faultRingFlush => .event
  | .registerFill _ _ _ => .event
  | .lineWriteback _ _ _ => .event
  | .loadReturn _ => .event
  | .storePerform _ => .event
  | .combineClose _ => .event
  | .atomPerform _ => .event
  | .releaseClosure _ _ => .event
  | .overlayLoadComplete _ => .event
  | .overlayFrameRetry _ => .event
  | .frameProtectionExpiry _ => .event
  | .fetchAbsentLoad _ _ => .event
  | .copyChunk _ _ => .event
  | .copyComplete _ => .event
  | .binScatterComplete _ => .event
  | .binGatherComplete _ => .event
  | .arwaitWake _ _ => .event
  | .tfetFillComplete _ => .event
  | .tilePinTimeout _ => .event
  | .matrixAdmit _ => .event
  | .matrixPerform _ => .event
  | .versionWait _ => .event
  | .matrixErrorDelivery _ _ => .event
  | .accdrPush _ => .event
  | .codeTableBusy _ _ => .event
  | .queueStall _ _ => .event
  | .achjoinBind _ _ => .event
  | .acnFlitLanding _ => .event
  | .acnOrderedForward _ _ => .event
  | .achwaitComplete _ _ => .event
  | .selServe _ => .event
  | .selResultReady _ => .event
  | .selDeliver _ => .event
  | .softmxComplete _ => .event
  | .undefinedEncoding _ => .event
  | .fetchBeyondOverlay => .event
  | .faultService _ _ => .event
  | .residentSetChange _ => .event
  | .halfWidthEnable => .event
  | .coreDisable => .event
  | .writeBackAndInvalidate => .event
  | .contextPoolRefill _ _ => .event
  | .resourceRetirement _ => .event
  | .powerStateIdle => .event
  | .pcieD3cold => .event

/-- R75. The imm25 of the LIMM before an instruction that takes one. -/
def Instr.px? : Instr → Option (BitVec 25)
  | .movShort _ _ => none
  | .iaddShort _ _ => none
  | .isubShort _ _ => none
  | .iandShort _ _ => none
  | .iorShort _ _ => none
  | .ixorShort _ _ => none
  | .shlShort _ _ => none
  | .shrlShort _ _ => none
  | .shraShort _ _ => none
  | .imulShort _ _ => none
  | .faddShort _ _ => none
  | .fsubShort _ _ => none
  | .fmulShort _ _ => none
  | .fminShort _ _ => none
  | .fmaxShort _ _ => none
  | .moviShort _ _ => none
  | .nop => none
  | .trap _ => none
  | .brk _ => none
  | .yield => none
  | .rdsr _ _ => none
  | .wrsr _ _ => none
  | .clock _ => none
  | .prbclr => none
  | .limm _ _ => none
  | .brnz _ _ px => px
  | .brz _ _ px => px
  | .jmp _ px => px
  | .call _ px => px
  | .ret _ => none
  | .callx _ _ => none
  | .callxr _ => none
  | .retx _ => none
  | .exit => none
  | .nap _ => none
  | .join _ => none
  | .leave _ => none
  | .waitm _ => none
  | .mmov _ _ px => px
  | .mread _ _ => none
  | .mwrite _ _ => none
  | .mcount _ _ => none
  | .waitc _ _ _ _ _ => none
  | .sadd _ _ _ => none
  | .ssub _ _ _ => none
  | .smul _ _ _ => none
  | .sand _ _ _ => none
  | .sor _ _ _ => none
  | .sxor _ _ _ => none
  | .sshl _ _ _ => none
  | .sshrl _ _ _ => none
  | .sshra _ _ _ => none
  | .smin _ _ _ => none
  | .smax _ _ _ => none
  | .snmin _ _ _ => none
  | .snmax _ _ _ => none
  | .scmpeq _ _ _ => none
  | .scmplt _ _ _ => none
  | .scmpnlt _ _ _ => none
  | .ssel _ _ _ => none
  | .saddi _ _ _ px => px
  | .sandi _ _ _ px => px
  | .sori _ _ _ px => px
  | .sxori _ _ _ px => px
  | .sshli _ _ _ px => px
  | .sshrli _ _ _ px => px
  | .smovi _ _ px => px
  | .scmpeqi _ _ _ px => px
  | .sld _ _ _ px => px
  | .sst _ _ _ px => px
  | .sldw _ _ _ px => px
  | .sstw _ _ _ px => px
  | .iadd _ _ _ => none
  | .isub _ _ _ => none
  | .iand _ _ _ => none
  | .ior _ _ _ => none
  | .ixor _ _ _ => none
  | .andn _ _ _ => none
  | .shl _ _ _ => none
  | .shrl _ _ _ => none
  | .shra _ _ _ => none
  | .imin _ _ _ => none
  | .imax _ _ _ => none
  | .nmin _ _ _ => none
  | .nmax _ _ _ => none
  | .iabs _ _ => none
  | .ineg _ _ => none
  | .mov _ _ => none
  | .imul _ _ _ => none
  | .imulhi _ _ _ => none
  | .nmulhi _ _ _ => none
  | .imad _ _ _ => none
  | .popc _ _ => none
  | .clz _ _ => none
  | .brev _ _ => none
  | .iaddsat _ _ _ => none
  | .iaddi _ _ _ px => px
  | .andi _ _ _ px => px
  | .ori _ _ _ px => px
  | .xori _ _ _ px => px
  | .shli _ _ _ px => px
  | .shrli _ _ _ px => px
  | .shrai _ _ _ px => px
  | .movi _ _ _ px => px
  | .ialusIadd _ _ _ => none
  | .ialusIsub _ _ _ => none
  | .ialusAnd _ _ _ => none
  | .ialusOr _ _ _ => none
  | .ialusXor _ _ _ => none
  | .ialusAndn _ _ _ => none
  | .ialusShl _ _ _ => none
  | .ialusShrl _ _ _ => none
  | .ialusShra _ _ _ => none
  | .ialusImin _ _ _ => none
  | .ialusImax _ _ _ => none
  | .ialusNmin _ _ _ => none
  | .ialusNmax _ _ _ => none
  | .ialusIabs _ _ => none
  | .icmpEq _ _ _ => none
  | .icmpNe _ _ _ => none
  | .icmpLt _ _ _ => none
  | .icmpLe _ _ _ => none
  | .icmpGt _ _ _ => none
  | .icmpGe _ _ _ => none
  | .icmpNlt _ _ _ => none
  | .icmpNle _ _ _ => none
  | .icmpNgt _ _ _ => none
  | .icmpNge _ _ _ => none
  | .sel _ _ _ => none
  | .fadd _ _ _ => none
  | .fsub _ _ _ => none
  | .fmul _ _ _ => none
  | .fmin _ _ _ => none
  | .fmax _ _ _ => none
  | .fabs _ _ => none
  | .fneg _ _ => none
  | .fcopysign _ _ _ => none
  | .frint _ _ => none
  | .falusFadd _ _ _ => none
  | .falusFsub _ _ _ => none
  | .falusFmul _ _ _ => none
  | .falusFmin _ _ _ => none
  | .falusFmax _ _ _ => none
  | .fma _ _ _ => none
  | .fms _ _ _ => none
  | .fnma _ _ _ => none
  | .fnms _ _ _ => none
  | .fcmpEq _ _ _ => none
  | .fcmpNe _ _ _ => none
  | .fcmpLt _ _ _ => none
  | .fcmpLe _ _ _ => none
  | .fcmpGt _ _ _ => none
  | .fcmpGe _ _ _ => none
  | .fcmpUn _ _ _ => none
  | .fcmpOrd _ _ _ => none
  | .rcp _ _ => none
  | .rsq _ _ => none
  | .sqrt _ _ => none
  | .div _ _ _ => none
  | .exp2 _ _ => none
  | .log2 _ _ => none
  | .sin _ _ => none
  | .cos _ _ => none
  | .cvt _ _ _ _ => none
  | .cast _ _ _ => none
  | .pack _ _ _ => none
  | .unpacklo _ _ => none
  | .unpackhi _ _ => none
  | .qdec _ _ _ => none
  | .shfl _ _ _ => none
  | .shflup _ _ _ => none
  | .shfldn _ _ _ => none
  | .shflx _ _ _ => none
  | .ballot _ _ => none
  | .voteall _ _ => none
  | .voteany _ _ => none
  | .redadd _ _ => none
  | .redmin _ _ => none
  | .redmax _ _ => none
  | .scanadd _ _ => none
  | .matchv _ _ => none
  | .movs _ _ _ _ => none
  | .vtos _ _ _ => none
  | .laneid _ => none
  | .wid _ _ => none
  | .widf _ _ => none
  | .rng _ _ _ => none
  | .rng4 _ _ _ => none
  | .ld _ _ _ _ px => px
  | .st _ _ _ _ px => px
  | .lds _ _ _ _ px => px
  | .sts _ _ _ _ px => px
  | .atom _ _ _ _ px => px
  | .red _ _ _ _ px => px
  | .atoms _ _ _ _ px => px
  | .reds _ _ _ _ px => px
  | .fence _ _ => none
  | .xfence _ _ _ => none
  | .bar _ px => px
  | .bararr _ px => px
  | .armw _ _ px => px
  | .arwait _ _ px => px
  | .aradd _ _ px => px
  | .cpy _ _ _ => none
  | .cpy2 _ _ _ => none
  | .cpym _ _ _ => none
  | .binsc _ _ _ _ => none
  | .binga _ _ _ _ => none
  | .binrst _ _ => none
  | .binqry _ _ _ => none
  | .tfet _ _ _ _ => none
  | .mma _ _ _ _ _ _ _ _ => none
  | .mloop _ _ _ _ _ => none
  | .accz _ _ => none
  | .accrd _ _ _ => none
  | .accwr _ _ => none
  | .accdr _ _ _ => none
  | .accver _ _ => none
  | .accwv _ _ => none
  | .ctset _ => none
  | .ctget _ => none
  | .achopen _ => none
  | .achjoin _ => none
  | .asend _ _ => none
  | .achwait _ _ => none
  | .achclose _ => none
  | .topk _ _ _ => none
  | .softmx _ _ _ => none
  | .sample _ _ _ _ => none
  | .lnch _ _ => none
  | .emit _ _ => none
  | .jcnew _ _ => none
  | .jcdec _ _ => none
  | .jcwait _ _ => none
  | .mbox _ _ _ => none
  | .ovld _ _ => none
  | .ovpin _ _ => none
  | .ovunpin _ => none
  | .ovevict _ _ => none
  | .ovqry _ _ => none
  | .qbind _ _ _ => none
  | .qfree _ => none
  | .qstat _ _ => none
  | .hostKick _ _ _ => none
  | .hostBar2Write _ _ => none
  | .hostBar2Read _ _ => none
  | .mboxhost _ => none
  | .attestationQuote _ => none
  | .queueDefine _ => none
  | .queueEnable _ => none
  | .queueDisable _ => none
  | .setPowerCap _ => none
  | .readErrorCounters _ => none
  | .writeFlash _ => none
  | .unknownCommand _ => none
  | .partmodeStop _ => none
  | .partmodeModeWrite _ => none
  | .watchdogRestart => none
  | .watchdogExpiry => none
  | .preempt _ => none
  | .kill _ => none
  | .unpark _ => none
  | .refuse _ => none
  | .ctxcmdUndefinedOp _ => none
  | .invalPage _ => none
  | .inval2mib _ => none
  | .inval1gib _ => none
  | .invalAspace _ => none
  | .invalAll _ => none
  | .invalComplete => none
  | .registerWrite _ _ _ => none
  | .moduleReset => none
  | .thermalThrottle => none
  | .thermalTrip => none
  | .powerCapStep _ => none
  | .putReceive _ _ _ _ _ _ _ => none
  | .putSend _ => none
  | .launchRecordConsume _ => none
  | .gangRelease _ => none
  | .pendingLaunchAppend _ _ => none
  | .graphRecordAccept _ _ _ => none
  | .graphBatchTimeout _ => none
  | .mailboxArrival => none
  | .handlerAppend _ => none
  | .jcRetireDecrement _ => none
  | .courseRetire _ _ => none
  | .jcwaitWake _ _ => none
  | .swapOut _ => none
  | .contextSave _ => none
  | .consortResume _ => none
  | .napExpiry _ _ => none
  | .portCheckFail => none
  | .translationWalk _ _ => none
  | .faultRingFlush => none
  | .registerFill _ _ _ => none
  | .lineWriteback _ _ _ => none
  | .loadReturn _ => none
  | .storePerform _ => none
  | .combineClose _ => none
  | .atomPerform _ => none
  | .releaseClosure _ _ => none
  | .overlayLoadComplete _ => none
  | .overlayFrameRetry _ => none
  | .frameProtectionExpiry _ => none
  | .fetchAbsentLoad _ _ => none
  | .copyChunk _ _ => none
  | .copyComplete _ => none
  | .binScatterComplete _ => none
  | .binGatherComplete _ => none
  | .arwaitWake _ _ => none
  | .tfetFillComplete _ => none
  | .tilePinTimeout _ => none
  | .matrixAdmit _ => none
  | .matrixPerform _ => none
  | .versionWait _ => none
  | .matrixErrorDelivery _ _ => none
  | .accdrPush _ => none
  | .codeTableBusy _ _ => none
  | .queueStall _ _ => none
  | .achjoinBind _ _ => none
  | .acnFlitLanding _ => none
  | .acnOrderedForward _ _ => none
  | .achwaitComplete _ _ => none
  | .selServe _ => none
  | .selResultReady _ => none
  | .selDeliver _ => none
  | .softmxComplete _ => none
  | .undefinedEncoding _ => none
  | .fetchBeyondOverlay => none
  | .faultService _ _ => none
  | .residentSetChange _ => none
  | .halfWidthEnable => none
  | .coreDisable => none
  | .writeBackAndInvalidate => none
  | .contextPoolRefill _ _ => none
  | .resourceRetirement _ => none
  | .powerStateIdle => none
  | .pcieD3cold => none

/-- R75. The instruction widened by a LIMM with imm25 = p; none for a member that takes no prefix. -/
def Instr.withPx (p : BitVec 25) : Instr → Option Instr
  | .movShort _ _ => none
  | .iaddShort _ _ => none
  | .isubShort _ _ => none
  | .iandShort _ _ => none
  | .iorShort _ _ => none
  | .ixorShort _ _ => none
  | .shlShort _ _ => none
  | .shrlShort _ _ => none
  | .shraShort _ _ => none
  | .imulShort _ _ => none
  | .faddShort _ _ => none
  | .fsubShort _ _ => none
  | .fmulShort _ _ => none
  | .fminShort _ _ => none
  | .fmaxShort _ _ => none
  | .moviShort _ _ => none
  | .nop => none
  | .trap _ => none
  | .brk _ => none
  | .yield => none
  | .rdsr _ _ => none
  | .wrsr _ _ => none
  | .clock _ => none
  | .prbclr => none
  | .limm _ _ => none
  | .brnz c o _ => some (.brnz c o (some p))
  | .brz c o _ => some (.brz c o (some p))
  | .jmp i _ => some (.jmp i (some p))
  | .call i _ => some (.call i (some p))
  | .ret _ => none
  | .callx _ _ => none
  | .callxr _ => none
  | .retx _ => none
  | .exit => none
  | .nap _ => none
  | .join _ => none
  | .leave _ => none
  | .waitm _ => none
  | .mmov m s _ => some (.mmov m s (some p))
  | .mread _ _ => none
  | .mwrite _ _ => none
  | .mcount _ _ => none
  | .waitc _ _ _ _ _ => none
  | .sadd _ _ _ => none
  | .ssub _ _ _ => none
  | .smul _ _ _ => none
  | .sand _ _ _ => none
  | .sor _ _ _ => none
  | .sxor _ _ _ => none
  | .sshl _ _ _ => none
  | .sshrl _ _ _ => none
  | .sshra _ _ _ => none
  | .smin _ _ _ => none
  | .smax _ _ _ => none
  | .snmin _ _ _ => none
  | .snmax _ _ _ => none
  | .scmpeq _ _ _ => none
  | .scmplt _ _ _ => none
  | .scmpnlt _ _ _ => none
  | .ssel _ _ _ => none
  | .saddi d a i _ => some (.saddi d a i (some p))
  | .sandi d a i _ => some (.sandi d a i (some p))
  | .sori d a i _ => some (.sori d a i (some p))
  | .sxori d a i _ => some (.sxori d a i (some p))
  | .sshli d a i _ => some (.sshli d a i (some p))
  | .sshrli d a i _ => some (.sshrli d a i (some p))
  | .smovi d i _ => some (.smovi d i (some p))
  | .scmpeqi d a i _ => some (.scmpeqi d a i (some p))
  | .sld d a i _ => some (.sld d a i (some p))
  | .sst d a i _ => some (.sst d a i (some p))
  | .sldw d a i _ => some (.sldw d a i (some p))
  | .sstw d a i _ => some (.sstw d a i (some p))
  | .iadd _ _ _ => none
  | .isub _ _ _ => none
  | .iand _ _ _ => none
  | .ior _ _ _ => none
  | .ixor _ _ _ => none
  | .andn _ _ _ => none
  | .shl _ _ _ => none
  | .shrl _ _ _ => none
  | .shra _ _ _ => none
  | .imin _ _ _ => none
  | .imax _ _ _ => none
  | .nmin _ _ _ => none
  | .nmax _ _ _ => none
  | .iabs _ _ => none
  | .ineg _ _ => none
  | .mov _ _ => none
  | .imul _ _ _ => none
  | .imulhi _ _ _ => none
  | .nmulhi _ _ _ => none
  | .imad _ _ _ => none
  | .popc _ _ => none
  | .clz _ _ => none
  | .brev _ _ => none
  | .iaddsat _ _ _ => none
  | .iaddi d a i _ => some (.iaddi d a i (some p))
  | .andi d a i _ => some (.andi d a i (some p))
  | .ori d a i _ => some (.ori d a i (some p))
  | .xori d a i _ => some (.xori d a i (some p))
  | .shli d a i _ => some (.shli d a i (some p))
  | .shrli d a i _ => some (.shrli d a i (some p))
  | .shrai d a i _ => some (.shrai d a i (some p))
  | .movi d t i _ => some (.movi d t i (some p))
  | .ialusIadd _ _ _ => none
  | .ialusIsub _ _ _ => none
  | .ialusAnd _ _ _ => none
  | .ialusOr _ _ _ => none
  | .ialusXor _ _ _ => none
  | .ialusAndn _ _ _ => none
  | .ialusShl _ _ _ => none
  | .ialusShrl _ _ _ => none
  | .ialusShra _ _ _ => none
  | .ialusImin _ _ _ => none
  | .ialusImax _ _ _ => none
  | .ialusNmin _ _ _ => none
  | .ialusNmax _ _ _ => none
  | .ialusIabs _ _ => none
  | .icmpEq _ _ _ => none
  | .icmpNe _ _ _ => none
  | .icmpLt _ _ _ => none
  | .icmpLe _ _ _ => none
  | .icmpGt _ _ _ => none
  | .icmpGe _ _ _ => none
  | .icmpNlt _ _ _ => none
  | .icmpNle _ _ _ => none
  | .icmpNgt _ _ _ => none
  | .icmpNge _ _ _ => none
  | .sel _ _ _ => none
  | .fadd _ _ _ => none
  | .fsub _ _ _ => none
  | .fmul _ _ _ => none
  | .fmin _ _ _ => none
  | .fmax _ _ _ => none
  | .fabs _ _ => none
  | .fneg _ _ => none
  | .fcopysign _ _ _ => none
  | .frint _ _ => none
  | .falusFadd _ _ _ => none
  | .falusFsub _ _ _ => none
  | .falusFmul _ _ _ => none
  | .falusFmin _ _ _ => none
  | .falusFmax _ _ _ => none
  | .fma _ _ _ => none
  | .fms _ _ _ => none
  | .fnma _ _ _ => none
  | .fnms _ _ _ => none
  | .fcmpEq _ _ _ => none
  | .fcmpNe _ _ _ => none
  | .fcmpLt _ _ _ => none
  | .fcmpLe _ _ _ => none
  | .fcmpGt _ _ _ => none
  | .fcmpGe _ _ _ => none
  | .fcmpUn _ _ _ => none
  | .fcmpOrd _ _ _ => none
  | .rcp _ _ => none
  | .rsq _ _ => none
  | .sqrt _ _ => none
  | .div _ _ _ => none
  | .exp2 _ _ => none
  | .log2 _ _ => none
  | .sin _ _ => none
  | .cos _ _ => none
  | .cvt _ _ _ _ => none
  | .cast _ _ _ => none
  | .pack _ _ _ => none
  | .unpacklo _ _ => none
  | .unpackhi _ _ => none
  | .qdec _ _ _ => none
  | .shfl _ _ _ => none
  | .shflup _ _ _ => none
  | .shfldn _ _ _ => none
  | .shflx _ _ _ => none
  | .ballot _ _ => none
  | .voteall _ _ => none
  | .voteany _ _ => none
  | .redadd _ _ => none
  | .redmin _ _ => none
  | .redmax _ _ => none
  | .scanadd _ _ => none
  | .matchv _ _ => none
  | .movs _ _ _ _ => none
  | .vtos _ _ _ => none
  | .laneid _ => none
  | .wid _ _ => none
  | .widf _ _ => none
  | .rng _ _ _ => none
  | .rng4 _ _ _ => none
  | .ld d a s k _ => some (.ld d a s k (some p))
  | .st d a s k _ => some (.st d a s k (some p))
  | .lds d a s k _ => some (.lds d a s k (some p))
  | .sts d a s k _ => some (.sts d a s k (some p))
  | .atom d a s o _ => some (.atom d a s o (some p))
  | .red d a s o _ => some (.red d a s o (some p))
  | .atoms d a s o _ => some (.atoms d a s o (some p))
  | .reds d a s o _ => some (.reds d a s o (some p))
  | .fence _ _ => none
  | .xfence _ _ _ => none
  | .bar b _ => some (.bar b (some p))
  | .bararr b _ => some (.bararr b (some p))
  | .armw v o _ => some (.armw v o (some p))
  | .arwait v o _ => some (.arwait v o (some p))
  | .aradd v o _ => some (.aradd v o (some p))
  | .cpy _ _ _ => none
  | .cpy2 _ _ _ => none
  | .cpym _ _ _ => none
  | .binsc _ _ _ _ => none
  | .binga _ _ _ _ => none
  | .binrst _ _ => none
  | .binqry _ _ _ => none
  | .tfet _ _ _ _ => none
  | .mma _ _ _ _ _ _ _ _ => none
  | .mloop _ _ _ _ _ => none
  | .accz _ _ => none
  | .accrd _ _ _ => none
  | .accwr _ _ => none
  | .accdr _ _ _ => none
  | .accver _ _ => none
  | .accwv _ _ => none
  | .ctset _ => none
  | .ctget _ => none
  | .achopen _ => none
  | .achjoin _ => none
  | .asend _ _ => none
  | .achwait _ _ => none
  | .achclose _ => none
  | .topk _ _ _ => none
  | .softmx _ _ _ => none
  | .sample _ _ _ _ => none
  | .lnch _ _ => none
  | .emit _ _ => none
  | .jcnew _ _ => none
  | .jcdec _ _ => none
  | .jcwait _ _ => none
  | .mbox _ _ _ => none
  | .ovld _ _ => none
  | .ovpin _ _ => none
  | .ovunpin _ => none
  | .ovevict _ _ => none
  | .ovqry _ _ => none
  | .qbind _ _ _ => none
  | .qfree _ => none
  | .qstat _ _ => none
  | .hostKick _ _ _ => none
  | .hostBar2Write _ _ => none
  | .hostBar2Read _ _ => none
  | .mboxhost _ => none
  | .attestationQuote _ => none
  | .queueDefine _ => none
  | .queueEnable _ => none
  | .queueDisable _ => none
  | .setPowerCap _ => none
  | .readErrorCounters _ => none
  | .writeFlash _ => none
  | .unknownCommand _ => none
  | .partmodeStop _ => none
  | .partmodeModeWrite _ => none
  | .watchdogRestart => none
  | .watchdogExpiry => none
  | .preempt _ => none
  | .kill _ => none
  | .unpark _ => none
  | .refuse _ => none
  | .ctxcmdUndefinedOp _ => none
  | .invalPage _ => none
  | .inval2mib _ => none
  | .inval1gib _ => none
  | .invalAspace _ => none
  | .invalAll _ => none
  | .invalComplete => none
  | .registerWrite _ _ _ => none
  | .moduleReset => none
  | .thermalThrottle => none
  | .thermalTrip => none
  | .powerCapStep _ => none
  | .putReceive _ _ _ _ _ _ _ => none
  | .putSend _ => none
  | .launchRecordConsume _ => none
  | .gangRelease _ => none
  | .pendingLaunchAppend _ _ => none
  | .graphRecordAccept _ _ _ => none
  | .graphBatchTimeout _ => none
  | .mailboxArrival => none
  | .handlerAppend _ => none
  | .jcRetireDecrement _ => none
  | .courseRetire _ _ => none
  | .jcwaitWake _ _ => none
  | .swapOut _ => none
  | .contextSave _ => none
  | .consortResume _ => none
  | .napExpiry _ _ => none
  | .portCheckFail => none
  | .translationWalk _ _ => none
  | .faultRingFlush => none
  | .registerFill _ _ _ => none
  | .lineWriteback _ _ _ => none
  | .loadReturn _ => none
  | .storePerform _ => none
  | .combineClose _ => none
  | .atomPerform _ => none
  | .releaseClosure _ _ => none
  | .overlayLoadComplete _ => none
  | .overlayFrameRetry _ => none
  | .frameProtectionExpiry _ => none
  | .fetchAbsentLoad _ _ => none
  | .copyChunk _ _ => none
  | .copyComplete _ => none
  | .binScatterComplete _ => none
  | .binGatherComplete _ => none
  | .arwaitWake _ _ => none
  | .tfetFillComplete _ => none
  | .tilePinTimeout _ => none
  | .matrixAdmit _ => none
  | .matrixPerform _ => none
  | .versionWait _ => none
  | .matrixErrorDelivery _ _ => none
  | .accdrPush _ => none
  | .codeTableBusy _ _ => none
  | .queueStall _ _ => none
  | .achjoinBind _ _ => none
  | .acnFlitLanding _ => none
  | .acnOrderedForward _ _ => none
  | .achwaitComplete _ _ => none
  | .selServe _ => none
  | .selResultReady _ => none
  | .selDeliver _ => none
  | .softmxComplete _ => none
  | .undefinedEncoding _ => none
  | .fetchBeyondOverlay => none
  | .faultService _ _ => none
  | .residentSetChange _ => none
  | .halfWidthEnable => none
  | .coreDisable => none
  | .writeBackAndInvalidate => none
  | .contextPoolRefill _ _ => none
  | .resourceRetirement _ => none
  | .powerStateIdle => none
  | .pcieD3cold => none

/-- R53 to R77. The member's own word (16 or 32 bits), without the LIMM before it; for limm the LIMM's own word. -/
def encodeWord : Instr → Nat
  | .movShort d s => 0 + d.toNat * 32 + s.toNat * 2048
  | .iaddShort d s => 2 + d.toNat * 32 + s.toNat * 2048
  | .isubShort d s => 4 + d.toNat * 32 + s.toNat * 2048
  | .iandShort d s => 6 + d.toNat * 32 + s.toNat * 2048
  | .iorShort d s => 8 + d.toNat * 32 + s.toNat * 2048
  | .ixorShort d s => 10 + d.toNat * 32 + s.toNat * 2048
  | .shlShort d s => 12 + d.toNat * 32 + s.toNat * 2048
  | .shrlShort d s => 14 + d.toNat * 32 + s.toNat * 2048
  | .shraShort d s => 16 + d.toNat * 32 + s.toNat * 2048
  | .imulShort d s => 18 + d.toNat * 32 + s.toNat * 2048
  | .faddShort d s => 20 + d.toNat * 32 + s.toNat * 2048
  | .fsubShort d s => 22 + d.toNat * 32 + s.toNat * 2048
  | .fmulShort d s => 24 + d.toNat * 32 + s.toNat * 2048
  | .fminShort d s => 26 + d.toNat * 32 + s.toNat * 2048
  | .fmaxShort d s => 28 + d.toNat * 32 + s.toNat * 2048
  | .moviShort d i => 30 + d.toNat * 32 + i.toNat * 2048
  | .nop => 1
  | .trap c => 33554433 + c.toNat * 524288
  | .brk c => 67108865 + c.toNat * 524288
  | .yield => 100663297
  | .rdsr d n => 134217729 + d.toNat * 128 + n.toNat * 524288
  | .wrsr a n => 167772161 + a.toNat * 8192 + n.toNat * 524288
  | .clock d => 201326593 + d.toNat * 128
  | .prbclr => 234881025
  | .limm i _ => 3 + i.toNat * 128
  | .brnz c o _ => 5 + c.toNat * 128 + o.toNat * 32768
  | .brz c o _ => 16389 + c.toNat * 128 + o.toNat * 32768
  | .jmp i _ => 7 + i.toNat * 2048
  | .call i _ => 135 + i.toNat * 2048
  | .ret r => 263 + r.toNat * 2048
  | .callx o e => 391 + o.toNat * 2048 + e.toNat * 134217728
  | .callxr r => 519 + r.toNat * 2048
  | .retx r => 647 + r.toNat * 2048
  | .exit => 775
  | .nap n => 903 + n.toNat * 2048
  | .join m => 9 + m.toNat * 2048
  | .leave m => 137 + m.toNat * 2048
  | .waitm m => 265 + m.toNat * 2048
  | .mmov m s _ => 393 + m.toNat * 2048 + s.toNat * 4194304
  | .mread m v => 521 + m.toNat * 2048 + v.toNat * 32768
  | .mwrite m v => 649 + m.toNat * 2048 + v.toNat * 32768
  | .mcount m v => 777 + m.toNat * 2048 + v.toNat * 32768
  | .waitc l s c t k => 11 + l.toNat * 128 + s.toNat * 4096 + c.toNat * 65536 + t.toNat * 1048576 + k.toNat * 16777216
  | .sadd d a b => 13 + d.toNat * 128 + a.toNat * 8192 + b.toNat * 524288
  | .ssub d a b => 33554445 + d.toNat * 128 + a.toNat * 8192 + b.toNat * 524288
  | .smul d a b => 67108877 + d.toNat * 128 + a.toNat * 8192 + b.toNat * 524288
  | .sand d a b => 100663309 + d.toNat * 128 + a.toNat * 8192 + b.toNat * 524288
  | .sor d a b => 134217741 + d.toNat * 128 + a.toNat * 8192 + b.toNat * 524288
  | .sxor d a b => 167772173 + d.toNat * 128 + a.toNat * 8192 + b.toNat * 524288
  | .sshl d a b => 201326605 + d.toNat * 128 + a.toNat * 8192 + b.toNat * 524288
  | .sshrl d a b => 234881037 + d.toNat * 128 + a.toNat * 8192 + b.toNat * 524288
  | .sshra d a b => 268435469 + d.toNat * 128 + a.toNat * 8192 + b.toNat * 524288
  | .smin d a b => 301989901 + d.toNat * 128 + a.toNat * 8192 + b.toNat * 524288
  | .smax d a b => 335544333 + d.toNat * 128 + a.toNat * 8192 + b.toNat * 524288
  | .snmin d a b => 369098765 + d.toNat * 128 + a.toNat * 8192 + b.toNat * 524288
  | .snmax d a b => 402653197 + d.toNat * 128 + a.toNat * 8192 + b.toNat * 524288
  | .scmpeq d a b => 436207629 + d.toNat * 128 + a.toNat * 8192 + b.toNat * 524288
  | .scmplt d a b => 469762061 + d.toNat * 128 + a.toNat * 8192 + b.toNat * 524288
  | .scmpnlt d a b => 503316493 + d.toNat * 128 + a.toNat * 8192 + b.toNat * 524288
  | .ssel d a b => 536870925 + d.toNat * 128 + a.toNat * 8192 + b.toNat * 524288
  | .saddi d a i _ => 15 + d.toNat * 128 + a.toNat * 8192 + i.toNat * 4194304
  | .sandi d a i _ => 524303 + d.toNat * 128 + a.toNat * 8192 + i.toNat * 4194304
  | .sori d a i _ => 1048591 + d.toNat * 128 + a.toNat * 8192 + i.toNat * 4194304
  | .sxori d a i _ => 1572879 + d.toNat * 128 + a.toNat * 8192 + i.toNat * 4194304
  | .sshli d a i _ => 2097167 + d.toNat * 128 + a.toNat * 8192 + i.toNat * 4194304
  | .sshrli d a i _ => 2621455 + d.toNat * 128 + a.toNat * 8192 + i.toNat * 4194304
  | .smovi d i _ => 3145743 + d.toNat * 128 + i.toNat * 4194304
  | .scmpeqi d a i _ => 3670031 + d.toNat * 128 + a.toNat * 8192 + i.toNat * 4194304
  | .sld d a i _ => 17 + d.toNat * 128 + a.toNat * 8192 + i.toNat * 4194304
  | .sst d a i _ => 524305 + d.toNat * 128 + a.toNat * 8192 + i.toNat * 4194304
  | .sldw d a i _ => 1048593 + d.toNat * 128 + a.toNat * 8192 + i.toNat * 4194304
  | .sstw d a i _ => 1572881 + d.toNat * 128 + a.toNat * 8192 + i.toNat * 4194304
  | .iadd d a b => 19 + d.toNat * 128 + a.toNat * 16384 + b.toNat * 2097152
  | .isub d a b => 268435475 + d.toNat * 128 + a.toNat * 16384 + b.toNat * 2097152
  | .iand d a b => 536870931 + d.toNat * 128 + a.toNat * 16384 + b.toNat * 2097152
  | .ior d a b => 805306387 + d.toNat * 128 + a.toNat * 16384 + b.toNat * 2097152
  | .ixor d a b => 1073741843 + d.toNat * 128 + a.toNat * 16384 + b.toNat * 2097152
  | .andn d a b => 1342177299 + d.toNat * 128 + a.toNat * 16384 + b.toNat * 2097152
  | .shl d a b => 1610612755 + d.toNat * 128 + a.toNat * 16384 + b.toNat * 2097152
  | .shrl d a b => 1879048211 + d.toNat * 128 + a.toNat * 16384 + b.toNat * 2097152
  | .shra d a b => 2147483667 + d.toNat * 128 + a.toNat * 16384 + b.toNat * 2097152
  | .imin d a b => 2415919123 + d.toNat * 128 + a.toNat * 16384 + b.toNat * 2097152
  | .imax d a b => 2684354579 + d.toNat * 128 + a.toNat * 16384 + b.toNat * 2097152
  | .nmin d a b => 2952790035 + d.toNat * 128 + a.toNat * 16384 + b.toNat * 2097152
  | .nmax d a b => 3221225491 + d.toNat * 128 + a.toNat * 16384 + b.toNat * 2097152
  | .iabs d a => 3489660947 + d.toNat * 128 + a.toNat * 16384
  | .ineg d a => 3758096403 + d.toNat * 128 + a.toNat * 16384
  | .mov d a => 4026531859 + d.toNat * 128 + a.toNat * 16384
  | .imul d a b => 21 + d.toNat * 128 + a.toNat * 16384 + b.toNat * 2097152
  | .imulhi d a b => 268435477 + d.toNat * 128 + a.toNat * 16384 + b.toNat * 2097152
  | .nmulhi d a b => 536870933 + d.toNat * 128 + a.toNat * 16384 + b.toNat * 2097152
  | .imad d a b => 805306389 + d.toNat * 128 + a.toNat * 16384 + b.toNat * 2097152
  | .popc d a => 1073741845 + d.toNat * 128 + a.toNat * 16384
  | .clz d a => 1342177301 + d.toNat * 128 + a.toNat * 16384
  | .brev d a => 1610612757 + d.toNat * 128 + a.toNat * 16384
  | .iaddsat d a b => 1879048213 + d.toNat * 128 + a.toNat * 16384 + b.toNat * 2097152
  | .iaddi d a i _ => 23 + d.toNat * 128 + a.toNat * 16384 + i.toNat * 16777216
  | .andi d a i _ => 2097175 + d.toNat * 128 + a.toNat * 16384 + i.toNat * 16777216
  | .ori d a i _ => 4194327 + d.toNat * 128 + a.toNat * 16384 + i.toNat * 16777216
  | .xori d a i _ => 6291479 + d.toNat * 128 + a.toNat * 16384 + i.toNat * 16777216
  | .shli d a i _ => 8388631 + d.toNat * 128 + a.toNat * 16384 + i.toNat * 16777216
  | .shrli d a i _ => 10485783 + d.toNat * 128 + a.toNat * 16384 + i.toNat * 16777216
  | .shrai d a i _ => 12582935 + d.toNat * 128 + a.toNat * 16384 + i.toNat * 16777216
  | .movi d t i _ => 14680087 + d.toNat * 128 + t.toNat * 16384 + i.toNat * 16777216
  | .ialusIadd d a s => 25 + d.toNat * 128 + a.toNat * 16384 + s.toNat * 2097152
  | .ialusIsub d a s => 134217753 + d.toNat * 128 + a.toNat * 16384 + s.toNat * 2097152
  | .ialusAnd d a s => 268435481 + d.toNat * 128 + a.toNat * 16384 + s.toNat * 2097152
  | .ialusOr d a s => 402653209 + d.toNat * 128 + a.toNat * 16384 + s.toNat * 2097152
  | .ialusXor d a s => 536870937 + d.toNat * 128 + a.toNat * 16384 + s.toNat * 2097152
  | .ialusAndn d a s => 671088665 + d.toNat * 128 + a.toNat * 16384 + s.toNat * 2097152
  | .ialusShl d a s => 805306393 + d.toNat * 128 + a.toNat * 16384 + s.toNat * 2097152
  | .ialusShrl d a s => 939524121 + d.toNat * 128 + a.toNat * 16384 + s.toNat * 2097152
  | .ialusShra d a s => 1073741849 + d.toNat * 128 + a.toNat * 16384 + s.toNat * 2097152
  | .ialusImin d a s => 1207959577 + d.toNat * 128 + a.toNat * 16384 + s.toNat * 2097152
  | .ialusImax d a s => 1342177305 + d.toNat * 128 + a.toNat * 16384 + s.toNat * 2097152
  | .ialusNmin d a s => 1476395033 + d.toNat * 128 + a.toNat * 16384 + s.toNat * 2097152
  | .ialusNmax d a s => 1610612761 + d.toNat * 128 + a.toNat * 16384 + s.toNat * 2097152
  | .ialusIabs d a => 1744830489 + d.toNat * 128 + a.toNat * 16384
  | .icmpEq d a b => 27 + d.toNat * 128 + a.toNat * 16384 + b.toNat * 2097152
  | .icmpNe d a b => 268435483 + d.toNat * 128 + a.toNat * 16384 + b.toNat * 2097152
  | .icmpLt d a b => 536870939 + d.toNat * 128 + a.toNat * 16384 + b.toNat * 2097152
  | .icmpLe d a b => 805306395 + d.toNat * 128 + a.toNat * 16384 + b.toNat * 2097152
  | .icmpGt d a b => 1073741851 + d.toNat * 128 + a.toNat * 16384 + b.toNat * 2097152
  | .icmpGe d a b => 1342177307 + d.toNat * 128 + a.toNat * 16384 + b.toNat * 2097152
  | .icmpNlt d a b => 1610612763 + d.toNat * 128 + a.toNat * 16384 + b.toNat * 2097152
  | .icmpNle d a b => 1879048219 + d.toNat * 128 + a.toNat * 16384 + b.toNat * 2097152
  | .icmpNgt d a b => 2147483675 + d.toNat * 128 + a.toNat * 16384 + b.toNat * 2097152
  | .icmpNge d a b => 2415919131 + d.toNat * 128 + a.toNat * 16384 + b.toNat * 2097152
  | .sel d a b => 2684354587 + d.toNat * 128 + a.toNat * 16384 + b.toNat * 2097152
  | .fadd d a b => 29 + d.toNat * 128 + a.toNat * 16384 + b.toNat * 2097152
  | .fsub d a b => 268435485 + d.toNat * 128 + a.toNat * 16384 + b.toNat * 2097152
  | .fmul d a b => 536870941 + d.toNat * 128 + a.toNat * 16384 + b.toNat * 2097152
  | .fmin d a b => 805306397 + d.toNat * 128 + a.toNat * 16384 + b.toNat * 2097152
  | .fmax d a b => 1073741853 + d.toNat * 128 + a.toNat * 16384 + b.toNat * 2097152
  | .fabs d a => 1342177309 + d.toNat * 128 + a.toNat * 16384
  | .fneg d a => 1610612765 + d.toNat * 128 + a.toNat * 16384
  | .fcopysign d a b => 1879048221 + d.toNat * 128 + a.toNat * 16384 + b.toNat * 2097152
  | .frint d a => 2147483677 + d.toNat * 128 + a.toNat * 16384
  | .falusFadd d a s => 31 + d.toNat * 128 + a.toNat * 16384 + s.toNat * 2097152
  | .falusFsub d a s => 134217759 + d.toNat * 128 + a.toNat * 16384 + s.toNat * 2097152
  | .falusFmul d a s => 268435487 + d.toNat * 128 + a.toNat * 16384 + s.toNat * 2097152
  | .falusFmin d a s => 402653215 + d.toNat * 128 + a.toNat * 16384 + s.toNat * 2097152
  | .falusFmax d a s => 536870943 + d.toNat * 128 + a.toNat * 16384 + s.toNat * 2097152
  | .fma d a b => 33 + d.toNat * 128 + a.toNat * 16384 + b.toNat * 2097152
  | .fms d a b => 268435489 + d.toNat * 128 + a.toNat * 16384 + b.toNat * 2097152
  | .fnma d a b => 536870945 + d.toNat * 128 + a.toNat * 16384 + b.toNat * 2097152
  | .fnms d a b => 805306401 + d.toNat * 128 + a.toNat * 16384 + b.toNat * 2097152
  | .fcmpEq d a b => 35 + d.toNat * 128 + a.toNat * 16384 + b.toNat * 2097152
  | .fcmpNe d a b => 268435491 + d.toNat * 128 + a.toNat * 16384 + b.toNat * 2097152
  | .fcmpLt d a b => 536870947 + d.toNat * 128 + a.toNat * 16384 + b.toNat * 2097152
  | .fcmpLe d a b => 805306403 + d.toNat * 128 + a.toNat * 16384 + b.toNat * 2097152
  | .fcmpGt d a b => 1073741859 + d.toNat * 128 + a.toNat * 16384 + b.toNat * 2097152
  | .fcmpGe d a b => 1342177315 + d.toNat * 128 + a.toNat * 16384 + b.toNat * 2097152
  | .fcmpUn d a b => 1610612771 + d.toNat * 128 + a.toNat * 16384 + b.toNat * 2097152
  | .fcmpOrd d a b => 1879048227 + d.toNat * 128 + a.toNat * 16384 + b.toNat * 2097152
  | .rcp d a => 37 + d.toNat * 128 + a.toNat * 16384
  | .rsq d a => 268435493 + d.toNat * 128 + a.toNat * 16384
  | .sqrt d a => 536870949 + d.toNat * 128 + a.toNat * 16384
  | .div d a b => 805306405 + d.toNat * 128 + a.toNat * 16384 + b.toNat * 2097152
  | .exp2 d a => 1073741861 + d.toNat * 128 + a.toNat * 16384
  | .log2 d a => 1342177317 + d.toNat * 128 + a.toNat * 16384
  | .sin d a => 1610612773 + d.toNat * 128 + a.toNat * 16384
  | .cos d a => 1879048229 + d.toNat * 128 + a.toNat * 16384
  | .cvt d a t m => 39 + d.toNat * 128 + a.toNat * 16384 + t.toNat * 2097152 + m.toNat * 33554432
  | .cast d a t => 268435495 + d.toNat * 128 + a.toNat * 16384 + t.toNat * 2097152
  | .pack d a b => 536870951 + d.toNat * 128 + a.toNat * 16384 + b.toNat * 2097152
  | .unpacklo d a => 805306407 + d.toNat * 128 + a.toNat * 16384
  | .unpackhi d a => 1073741863 + d.toNat * 128 + a.toNat * 16384
  | .qdec d a b => 1342177319 + d.toNat * 512 + a.toNat * 16384 + b.toNat * 2097152
  | .shfl d a b => 41 + d.toNat * 128 + a.toNat * 16384 + b.toNat * 2097152
  | .shflup d a b => 268435497 + d.toNat * 128 + a.toNat * 16384 + b.toNat * 2097152
  | .shfldn d a b => 536870953 + d.toNat * 128 + a.toNat * 16384 + b.toNat * 2097152
  | .shflx d a b => 805306409 + d.toNat * 128 + a.toNat * 16384 + b.toNat * 2097152
  | .ballot d a => 1073741865 + d.toNat * 128 + a.toNat * 16384
  | .voteall d a => 1342177321 + d.toNat * 128 + a.toNat * 16384
  | .voteany d a => 1610612777 + d.toNat * 128 + a.toNat * 16384
  | .redadd d a => 1879048233 + d.toNat * 128 + a.toNat * 16384
  | .redmin d a => 2147483689 + d.toNat * 128 + a.toNat * 16384
  | .redmax d a => 2415919145 + d.toNat * 128 + a.toNat * 16384
  | .scanadd d a => 2684354601 + d.toNat * 128 + a.toNat * 16384
  | .matchv d a => 2952790057 + d.toNat * 128 + a.toNat * 16384
  | .movs d t h s => 43 + d.toNat * 128 + t.toNat * 16384 + h.toNat * 262144 + s.toNat * 2097152
  | .vtos d a h => 268435499 + d.toNat * 128 + a.toNat * 16384 + h.toNat * 2097152
  | .laneid d => 536870955 + d.toNat * 128
  | .wid d h => 805306411 + d.toNat * 128 + h.toNat * 16384
  | .widf d n => 1073741867 + d.toNat * 128 + n.toNat * 16384
  | .rng d a k => 45 + d.toNat * 128 + a.toNat * 16384 + k.toNat * 2097152
  | .rng4 d a k => 268435501 + d.toNat * 512 + a.toNat * 16384 + k.toNat * 2097152
  | .ld d a s k _ => 47 + d.toNat * 128 + a.toNat * 16384 + s.toNat * 2097152 + k.toNat * 134217728
  | .st d a s k _ => 49 + d.toNat * 128 + a.toNat * 16384 + s.toNat * 2097152 + k.toNat * 134217728
  | .lds d a s k _ => 51 + d.toNat * 128 + a.toNat * 16384 + s.toNat * 2097152 + k.toNat * 134217728
  | .sts d a s k _ => 53 + d.toNat * 128 + a.toNat * 16384 + s.toNat * 2097152 + k.toNat * 134217728
  | .atom d a s o _ => 55 + d.toNat * 128 + a.toNat * 16384 + s.toNat * 2097152 + o.toNat * 134217728
  | .red d a s o _ => 2147483703 + d.toNat * 128 + a.toNat * 16384 + s.toNat * 2097152 + o.toNat * 134217728
  | .atoms d a s o _ => 57 + d.toNat * 128 + a.toNat * 16384 + s.toNat * 2097152 + o.toNat * 134217728
  | .reds d a s o _ => 2147483705 + d.toNat * 128 + a.toNat * 16384 + s.toNat * 2097152 + o.toNat * 134217728
  | .fence o p => 59 + o.toNat * 128 + p.toNat * 512
  | .xfence p a b => 33554491 + p.toNat * 512 + a.toNat * 8192 + b.toNat * 524288
  | .bar b _ => 61 + b.toNat * 4194304
  | .bararr b _ => 189 + b.toNat * 4194304
  | .armw v o _ => 317 + v.toNat * 32768 + o.toNat * 4194304
  | .arwait v o _ => 445 + v.toNat * 32768 + o.toNat * 4194304
  | .aradd v o _ => 573 + v.toNat * 32768 + o.toNat * 4194304
  | .cpy a c k => 63 + a.toNat * 16384 + c.toNat * 1048576 + k.toNat * 536870912
  | .cpy2 a c k => 67108927 + a.toNat * 16384 + c.toNat * 1048576 + k.toNat * 536870912
  | .cpym a c k => 134217791 + a.toNat * 16384 + c.toNat * 1048576 + k.toNat * 536870912
  | .binsc v t r k => 65 + v.toNat * 128 + t.toNat * 16384 + r.toNat * 1048576 + k.toNat * 536870912
  | .binga v t r k => 67108929 + v.toNat * 256 + t.toNat * 16384 + r.toNat * 1048576 + k.toNat * 536870912
  | .binrst t f => 134217793 + t.toNat * 16384 + f.toNat * 1048576
  | .binqry v t b => 201326657 + v.toNat * 128 + t.toNat * 16384 + b.toNat * 1048576
  | .tfet t s f n => 67 + t.toNat * 128 + s.toNat * 1024 + f.toNat * 65536 + n.toNat * 524288
  | .mma a b l e m n s k => 69 + a.toNat * 128 + b.toNat * 1024 + l.toNat * 8192 + e.toNat * 524288 + m.toNat * 8388608 + n.toNat * 16777216 + s.toNat * 33554432 + k.toNat * 67108864
  | .mloop l e n r s => 71 + l.toNat * 8192 + e.toNat * 524288 + n.toNat * 8388608 + r.toNat * 536870912 + s.toNat * 1073741824
  | .accz a c => 73 + a.toNat * 16384 + c.toNat * 1048576
  | .accrd v a c => 67108937 + v.toNat * 128 + a.toNat * 16384 + c.toNat * 1048576
  | .accwr v a => 134217801 + v.toNat * 128 + a.toNat * 16384
  | .accdr q a c => 201341001 + q.toNat * 128 + a.toNat * 16384 + c.toNat * 1048576
  | .accver v a => 268435529 + v.toNat * 128 + a.toNat * 16384
  | .accwv a c => 335544393 + a.toNat * 16384 + c.toNat * 1048576
  | .ctset v => 75 + v.toNat * 128
  | .ctget v => 67108939 + v.toNat * 128
  | .achopen a => 77 + a.toNat * 16384
  | .achjoin c => 67108941 + c.toNat * 16384
  | .asend c q => 134217805 + c.toNat * 16384 + q.toNat * 1048576
  | .achwait v c => 201326669 + v.toNat * 128 + c.toNat * 16384
  | .achclose c => 268435533 + c.toNat * 16384
  | .topk q a k => 14415 + q.toNat * 128 + a.toNat * 16384 + k.toNat * 536870912
  | .softmx q a k => 67123279 + q.toNat * 128 + a.toNat * 16384 + k.toNat * 536870912
  | .sample q a u k => 134232143 + q.toNat * 128 + a.toNat * 16384 + u.toNat * 1048576 + k.toNat * 536870912
  | .lnch a q => 81 + a.toNat * 16384 + q.toNat * 1048576
  | .emit a o => 67108945 + a.toNat * 16384 + o.toNat * 1048576
  | .jcnew a n => 134217809 + a.toNat * 16384 + n.toNat * 1048576
  | .jcdec a n => 201326673 + a.toNat * 16384 + n.toNat * 1048576
  | .jcwait v a => 268435537 + v.toNat * 128 + a.toNat * 16384
  | .mbox v a h => 335544401 + v.toNat * 128 + a.toNat * 16384 + h.toNat * 1048576
  | .ovld i k => 83 + i.toNat * 16384 + k.toNat * 536870912
  | .ovpin v i => 67108947 + v.toNat * 128 + i.toNat * 16384
  | .ovunpin i => 134217811 + i.toNat * 16384
  | .ovevict v i => 201326675 + v.toNat * 128 + i.toNat * 16384
  | .ovqry v i => 268435539 + v.toNat * 128 + i.toNat * 16384
  | .qbind p a b => 14421 + p.toNat * 128 + a.toNat * 16384 + b.toNat * 1048576
  | .qfree p => 67123285 + p.toNat * 128
  | .qstat v a => 134217813 + v.toNat * 128 + a.toNat * 16384
  | .hostKick _ _ _ => 0
  | .hostBar2Write _ _ => 0
  | .hostBar2Read _ _ => 0
  | .mboxhost _ => 0
  | .attestationQuote _ => 0
  | .queueDefine _ => 0
  | .queueEnable _ => 0
  | .queueDisable _ => 0
  | .setPowerCap _ => 0
  | .readErrorCounters _ => 0
  | .writeFlash _ => 0
  | .unknownCommand _ => 0
  | .partmodeStop _ => 0
  | .partmodeModeWrite _ => 0
  | .watchdogRestart => 0
  | .watchdogExpiry => 0
  | .preempt _ => 0
  | .kill _ => 0
  | .unpark _ => 0
  | .refuse _ => 0
  | .ctxcmdUndefinedOp _ => 0
  | .invalPage _ => 0
  | .inval2mib _ => 0
  | .inval1gib _ => 0
  | .invalAspace _ => 0
  | .invalAll _ => 0
  | .invalComplete => 0
  | .registerWrite _ _ _ => 0
  | .moduleReset => 0
  | .thermalThrottle => 0
  | .thermalTrip => 0
  | .powerCapStep _ => 0
  | .putReceive _ _ _ _ _ _ _ => 0
  | .putSend _ => 0
  | .launchRecordConsume _ => 0
  | .gangRelease _ => 0
  | .pendingLaunchAppend _ _ => 0
  | .graphRecordAccept _ _ _ => 0
  | .graphBatchTimeout _ => 0
  | .mailboxArrival => 0
  | .handlerAppend _ => 0
  | .jcRetireDecrement _ => 0
  | .courseRetire _ _ => 0
  | .jcwaitWake _ _ => 0
  | .swapOut _ => 0
  | .contextSave _ => 0
  | .consortResume _ => 0
  | .napExpiry _ _ => 0
  | .portCheckFail => 0
  | .translationWalk _ _ => 0
  | .faultRingFlush => 0
  | .registerFill _ _ _ => 0
  | .lineWriteback _ _ _ => 0
  | .loadReturn _ => 0
  | .storePerform _ => 0
  | .combineClose _ => 0
  | .atomPerform _ => 0
  | .releaseClosure _ _ => 0
  | .overlayLoadComplete _ => 0
  | .overlayFrameRetry _ => 0
  | .frameProtectionExpiry _ => 0
  | .fetchAbsentLoad _ _ => 0
  | .copyChunk _ _ => 0
  | .copyComplete _ => 0
  | .binScatterComplete _ => 0
  | .binGatherComplete _ => 0
  | .arwaitWake _ _ => 0
  | .tfetFillComplete _ => 0
  | .tilePinTimeout _ => 0
  | .matrixAdmit _ => 0
  | .matrixPerform _ => 0
  | .versionWait _ => 0
  | .matrixErrorDelivery _ _ => 0
  | .accdrPush _ => 0
  | .codeTableBusy _ _ => 0
  | .queueStall _ _ => 0
  | .achjoinBind _ _ => 0
  | .acnFlitLanding _ => 0
  | .acnOrderedForward _ _ => 0
  | .achwaitComplete _ _ => 0
  | .selServe _ => 0
  | .selResultReady _ => 0
  | .selDeliver _ => 0
  | .softmxComplete _ => 0
  | .undefinedEncoding _ => 0
  | .fetchBeyondOverlay => 0
  | .faultService _ _ => 0
  | .residentSetChange _ => 0
  | .halfWidthEnable => 0
  | .coreDisable => 0
  | .writeBackAndInvalidate => 0
  | .contextPoolRefill _ _ => 0
  | .resourceRetirement _ => 0
  | .powerStateIdle => 0
  | .pcieD3cold => 0

/-- R53, R54. The 16-bit form H. -/
def rawShort (w : Nat) : Option Instr :=
  match w / 2 % 16 with
  | 0 => some (.movShort (.ofNat 6 (w / 32)) (.ofNat 5 (w / 2048)))
  | 1 => some (.iaddShort (.ofNat 6 (w / 32)) (.ofNat 5 (w / 2048)))
  | 2 => some (.isubShort (.ofNat 6 (w / 32)) (.ofNat 5 (w / 2048)))
  | 3 => some (.iandShort (.ofNat 6 (w / 32)) (.ofNat 5 (w / 2048)))
  | 4 => some (.iorShort (.ofNat 6 (w / 32)) (.ofNat 5 (w / 2048)))
  | 5 => some (.ixorShort (.ofNat 6 (w / 32)) (.ofNat 5 (w / 2048)))
  | 6 => some (.shlShort (.ofNat 6 (w / 32)) (.ofNat 5 (w / 2048)))
  | 7 => some (.shrlShort (.ofNat 6 (w / 32)) (.ofNat 5 (w / 2048)))
  | 8 => some (.shraShort (.ofNat 6 (w / 32)) (.ofNat 5 (w / 2048)))
  | 9 => some (.imulShort (.ofNat 6 (w / 32)) (.ofNat 5 (w / 2048)))
  | 10 => some (.faddShort (.ofNat 6 (w / 32)) (.ofNat 5 (w / 2048)))
  | 11 => some (.fsubShort (.ofNat 6 (w / 32)) (.ofNat 5 (w / 2048)))
  | 12 => some (.fmulShort (.ofNat 6 (w / 32)) (.ofNat 5 (w / 2048)))
  | 13 => some (.fminShort (.ofNat 6 (w / 32)) (.ofNat 5 (w / 2048)))
  | 14 => some (.fmaxShort (.ofNat 6 (w / 32)) (.ofNat 5 (w / 2048)))
  | 15 => some (.moviShort (.ofNat 6 (w / 32)) (.ofNat 5 (w / 2048)))
  | _ => none

/-- R77. Major 0x00, before the checks on its fields. -/
def rawSys (w : Nat) : Option Instr :=
  match w / 33554432 % 128 with
  | 0 => some (.nop)
  | 1 => some (.trap (.ofNat 6 (w / 524288)))
  | 2 => some (.brk (.ofNat 6 (w / 524288)))
  | 3 => some (.yield)
  | 4 => some (.rdsr (.ofNat 6 (w / 128)) (.ofNat 6 (w / 524288)))
  | 5 => some (.wrsr (.ofNat 6 (w / 8192)) (.ofNat 6 (w / 524288)))
  | 6 => some (.clock (.ofNat 6 (w / 128)))
  | 7 => some (.prbclr)
  | _ => none

/-- R77. Major 0x02, before the checks on its fields. -/
def rawBr (w : Nat) : Option Instr :=
  match w / 16384 % 2 with
  | 0 => some (.brnz (.ofNat 7 (w / 128)) (.ofNat 17 (w / 32768)) none)
  | 1 => some (.brz (.ofNat 7 (w / 128)) (.ofNat 17 (w / 32768)) none)
  | _ => none

/-- R77. Major 0x03, before the checks on its fields. -/
def rawCtl (w : Nat) : Option Instr :=
  match w / 128 % 16 with
  | 0 => some (.jmp (.ofNat 21 (w / 2048)) none)
  | 1 => some (.call (.ofNat 21 (w / 2048)) none)
  | 2 => some (.ret (.ofNat 7 (w / 2048)))
  | 3 => some (.callx (.ofNat 16 (w / 2048)) (.ofNat 5 (w / 134217728)))
  | 4 => some (.callxr (.ofNat 7 (w / 2048)))
  | 5 => some (.retx (.ofNat 7 (w / 2048)))
  | 6 => some (.exit)
  | 7 => some (.nap (.ofNat 21 (w / 2048)))
  | _ => none

/-- R77. Major 0x04, before the checks on its fields. -/
def rawMask (w : Nat) : Option Instr :=
  match w / 128 % 16 with
  | 0 => some (.join (.ofNat 4 (w / 2048)))
  | 1 => some (.leave (.ofNat 4 (w / 2048)))
  | 2 => some (.waitm (.ofNat 4 (w / 2048)))
  | 3 => some (.mmov (.ofNat 4 (w / 2048)) (.ofNat 10 (w / 4194304)) none)
  | 4 => some (.mread (.ofNat 4 (w / 2048)) (.ofNat 7 (w / 32768)))
  | 5 => some (.mwrite (.ofNat 4 (w / 2048)) (.ofNat 7 (w / 32768)))
  | 6 => some (.mcount (.ofNat 4 (w / 2048)) (.ofNat 7 (w / 32768)))
  | _ => none

/-- R77. Major 0x05, before the checks on its fields. -/
def rawWaitc (w : Nat) : Option Instr :=
  some (.waitc (.ofNat 5 (w / 128)) (.ofNat 4 (w / 4096)) (.ofNat 4 (w / 65536)) (.ofNat 4 (w / 1048576)) (.ofNat 8 (w / 16777216)))

/-- R77. Major 0x06, before the checks on its fields. -/
def rawSalu (w : Nat) : Option Instr :=
  match w / 33554432 % 128 with
  | 0 => some (.sadd (.ofNat 6 (w / 128)) (.ofNat 6 (w / 8192)) (.ofNat 6 (w / 524288)))
  | 1 => some (.ssub (.ofNat 6 (w / 128)) (.ofNat 6 (w / 8192)) (.ofNat 6 (w / 524288)))
  | 2 => some (.smul (.ofNat 6 (w / 128)) (.ofNat 6 (w / 8192)) (.ofNat 6 (w / 524288)))
  | 3 => some (.sand (.ofNat 6 (w / 128)) (.ofNat 6 (w / 8192)) (.ofNat 6 (w / 524288)))
  | 4 => some (.sor (.ofNat 6 (w / 128)) (.ofNat 6 (w / 8192)) (.ofNat 6 (w / 524288)))
  | 5 => some (.sxor (.ofNat 6 (w / 128)) (.ofNat 6 (w / 8192)) (.ofNat 6 (w / 524288)))
  | 6 => some (.sshl (.ofNat 6 (w / 128)) (.ofNat 6 (w / 8192)) (.ofNat 6 (w / 524288)))
  | 7 => some (.sshrl (.ofNat 6 (w / 128)) (.ofNat 6 (w / 8192)) (.ofNat 6 (w / 524288)))
  | 8 => some (.sshra (.ofNat 6 (w / 128)) (.ofNat 6 (w / 8192)) (.ofNat 6 (w / 524288)))
  | 9 => some (.smin (.ofNat 6 (w / 128)) (.ofNat 6 (w / 8192)) (.ofNat 6 (w / 524288)))
  | 10 => some (.smax (.ofNat 6 (w / 128)) (.ofNat 6 (w / 8192)) (.ofNat 6 (w / 524288)))
  | 11 => some (.snmin (.ofNat 6 (w / 128)) (.ofNat 6 (w / 8192)) (.ofNat 6 (w / 524288)))
  | 12 => some (.snmax (.ofNat 6 (w / 128)) (.ofNat 6 (w / 8192)) (.ofNat 6 (w / 524288)))
  | 13 => some (.scmpeq (.ofNat 6 (w / 128)) (.ofNat 6 (w / 8192)) (.ofNat 6 (w / 524288)))
  | 14 => some (.scmplt (.ofNat 6 (w / 128)) (.ofNat 6 (w / 8192)) (.ofNat 6 (w / 524288)))
  | 15 => some (.scmpnlt (.ofNat 6 (w / 128)) (.ofNat 6 (w / 8192)) (.ofNat 6 (w / 524288)))
  | 16 => some (.ssel (.ofNat 6 (w / 128)) (.ofNat 6 (w / 8192)) (.ofNat 6 (w / 524288)))
  | _ => none

/-- R77. Major 0x07, before the checks on its fields. -/
def rawSalui (w : Nat) : Option Instr :=
  match w / 524288 % 8 with
  | 0 => some (.saddi (.ofNat 6 (w / 128)) (.ofNat 6 (w / 8192)) (.ofNat 10 (w / 4194304)) none)
  | 1 => some (.sandi (.ofNat 6 (w / 128)) (.ofNat 6 (w / 8192)) (.ofNat 10 (w / 4194304)) none)
  | 2 => some (.sori (.ofNat 6 (w / 128)) (.ofNat 6 (w / 8192)) (.ofNat 10 (w / 4194304)) none)
  | 3 => some (.sxori (.ofNat 6 (w / 128)) (.ofNat 6 (w / 8192)) (.ofNat 10 (w / 4194304)) none)
  | 4 => some (.sshli (.ofNat 6 (w / 128)) (.ofNat 6 (w / 8192)) (.ofNat 10 (w / 4194304)) none)
  | 5 => some (.sshrli (.ofNat 6 (w / 128)) (.ofNat 6 (w / 8192)) (.ofNat 10 (w / 4194304)) none)
  | 6 => some (.smovi (.ofNat 6 (w / 128)) (.ofNat 10 (w / 4194304)) none)
  | 7 => some (.scmpeqi (.ofNat 6 (w / 128)) (.ofNat 6 (w / 8192)) (.ofNat 10 (w / 4194304)) none)
  | _ => none

/-- R77. Major 0x08, before the checks on its fields. -/
def rawSmem (w : Nat) : Option Instr :=
  match w / 524288 % 8 with
  | 0 => some (.sld (.ofNat 6 (w / 128)) (.ofNat 6 (w / 8192)) (.ofNat 10 (w / 4194304)) none)
  | 1 => some (.sst (.ofNat 6 (w / 128)) (.ofNat 6 (w / 8192)) (.ofNat 10 (w / 4194304)) none)
  | 2 => some (.sldw (.ofNat 6 (w / 128)) (.ofNat 6 (w / 8192)) (.ofNat 10 (w / 4194304)) none)
  | 3 => some (.sstw (.ofNat 6 (w / 128)) (.ofNat 6 (w / 8192)) (.ofNat 10 (w / 4194304)) none)
  | _ => none

/-- R77. Major 0x09, before the checks on its fields. -/
def rawIalu (w : Nat) : Option Instr :=
  match w / 268435456 % 16 with
  | 0 => some (.iadd (.ofNat 7 (w / 128)) (.ofNat 7 (w / 16384)) (.ofNat 7 (w / 2097152)))
  | 1 => some (.isub (.ofNat 7 (w / 128)) (.ofNat 7 (w / 16384)) (.ofNat 7 (w / 2097152)))
  | 2 => some (.iand (.ofNat 7 (w / 128)) (.ofNat 7 (w / 16384)) (.ofNat 7 (w / 2097152)))
  | 3 => some (.ior (.ofNat 7 (w / 128)) (.ofNat 7 (w / 16384)) (.ofNat 7 (w / 2097152)))
  | 4 => some (.ixor (.ofNat 7 (w / 128)) (.ofNat 7 (w / 16384)) (.ofNat 7 (w / 2097152)))
  | 5 => some (.andn (.ofNat 7 (w / 128)) (.ofNat 7 (w / 16384)) (.ofNat 7 (w / 2097152)))
  | 6 => some (.shl (.ofNat 7 (w / 128)) (.ofNat 7 (w / 16384)) (.ofNat 7 (w / 2097152)))
  | 7 => some (.shrl (.ofNat 7 (w / 128)) (.ofNat 7 (w / 16384)) (.ofNat 7 (w / 2097152)))
  | 8 => some (.shra (.ofNat 7 (w / 128)) (.ofNat 7 (w / 16384)) (.ofNat 7 (w / 2097152)))
  | 9 => some (.imin (.ofNat 7 (w / 128)) (.ofNat 7 (w / 16384)) (.ofNat 7 (w / 2097152)))
  | 10 => some (.imax (.ofNat 7 (w / 128)) (.ofNat 7 (w / 16384)) (.ofNat 7 (w / 2097152)))
  | 11 => some (.nmin (.ofNat 7 (w / 128)) (.ofNat 7 (w / 16384)) (.ofNat 7 (w / 2097152)))
  | 12 => some (.nmax (.ofNat 7 (w / 128)) (.ofNat 7 (w / 16384)) (.ofNat 7 (w / 2097152)))
  | 13 => some (.iabs (.ofNat 7 (w / 128)) (.ofNat 7 (w / 16384)))
  | 14 => some (.ineg (.ofNat 7 (w / 128)) (.ofNat 7 (w / 16384)))
  | 15 => some (.mov (.ofNat 7 (w / 128)) (.ofNat 7 (w / 16384)))
  | _ => none

/-- R77. Major 0x0a, before the checks on its fields. -/
def rawIalu2 (w : Nat) : Option Instr :=
  match w / 268435456 % 16 with
  | 0 => some (.imul (.ofNat 7 (w / 128)) (.ofNat 7 (w / 16384)) (.ofNat 7 (w / 2097152)))
  | 1 => some (.imulhi (.ofNat 7 (w / 128)) (.ofNat 7 (w / 16384)) (.ofNat 7 (w / 2097152)))
  | 2 => some (.nmulhi (.ofNat 7 (w / 128)) (.ofNat 7 (w / 16384)) (.ofNat 7 (w / 2097152)))
  | 3 => some (.imad (.ofNat 7 (w / 128)) (.ofNat 7 (w / 16384)) (.ofNat 7 (w / 2097152)))
  | 4 => some (.popc (.ofNat 7 (w / 128)) (.ofNat 7 (w / 16384)))
  | 5 => some (.clz (.ofNat 7 (w / 128)) (.ofNat 7 (w / 16384)))
  | 6 => some (.brev (.ofNat 7 (w / 128)) (.ofNat 7 (w / 16384)))
  | 7 => some (.iaddsat (.ofNat 7 (w / 128)) (.ofNat 7 (w / 16384)) (.ofNat 7 (w / 2097152)))
  | _ => none

/-- R77. Major 0x0b, before the checks on its fields. -/
def rawIalui (w : Nat) : Option Instr :=
  match w / 2097152 % 8 with
  | 0 => some (.iaddi (.ofNat 7 (w / 128)) (.ofNat 7 (w / 16384)) (.ofNat 8 (w / 16777216)) none)
  | 1 => some (.andi (.ofNat 7 (w / 128)) (.ofNat 7 (w / 16384)) (.ofNat 8 (w / 16777216)) none)
  | 2 => some (.ori (.ofNat 7 (w / 128)) (.ofNat 7 (w / 16384)) (.ofNat 8 (w / 16777216)) none)
  | 3 => some (.xori (.ofNat 7 (w / 128)) (.ofNat 7 (w / 16384)) (.ofNat 8 (w / 16777216)) none)
  | 4 => some (.shli (.ofNat 7 (w / 128)) (.ofNat 7 (w / 16384)) (.ofNat 8 (w / 16777216)) none)
  | 5 => some (.shrli (.ofNat 7 (w / 128)) (.ofNat 7 (w / 16384)) (.ofNat 8 (w / 16777216)) none)
  | 6 => some (.shrai (.ofNat 7 (w / 128)) (.ofNat 7 (w / 16384)) (.ofNat 8 (w / 16777216)) none)
  | 7 => some (.movi (.ofNat 7 (w / 128)) (.ofNat 4 (w / 16384)) (.ofNat 8 (w / 16777216)) none)
  | _ => none

/-- R77. Major 0x0c, before the checks on its fields. -/
def rawIalus (w : Nat) : Option Instr :=
  match w / 134217728 % 32 with
  | 0 => some (.ialusIadd (.ofNat 7 (w / 128)) (.ofNat 7 (w / 16384)) (.ofNat 6 (w / 2097152)))
  | 1 => some (.ialusIsub (.ofNat 7 (w / 128)) (.ofNat 7 (w / 16384)) (.ofNat 6 (w / 2097152)))
  | 2 => some (.ialusAnd (.ofNat 7 (w / 128)) (.ofNat 7 (w / 16384)) (.ofNat 6 (w / 2097152)))
  | 3 => some (.ialusOr (.ofNat 7 (w / 128)) (.ofNat 7 (w / 16384)) (.ofNat 6 (w / 2097152)))
  | 4 => some (.ialusXor (.ofNat 7 (w / 128)) (.ofNat 7 (w / 16384)) (.ofNat 6 (w / 2097152)))
  | 5 => some (.ialusAndn (.ofNat 7 (w / 128)) (.ofNat 7 (w / 16384)) (.ofNat 6 (w / 2097152)))
  | 6 => some (.ialusShl (.ofNat 7 (w / 128)) (.ofNat 7 (w / 16384)) (.ofNat 6 (w / 2097152)))
  | 7 => some (.ialusShrl (.ofNat 7 (w / 128)) (.ofNat 7 (w / 16384)) (.ofNat 6 (w / 2097152)))
  | 8 => some (.ialusShra (.ofNat 7 (w / 128)) (.ofNat 7 (w / 16384)) (.ofNat 6 (w / 2097152)))
  | 9 => some (.ialusImin (.ofNat 7 (w / 128)) (.ofNat 7 (w / 16384)) (.ofNat 6 (w / 2097152)))
  | 10 => some (.ialusImax (.ofNat 7 (w / 128)) (.ofNat 7 (w / 16384)) (.ofNat 6 (w / 2097152)))
  | 11 => some (.ialusNmin (.ofNat 7 (w / 128)) (.ofNat 7 (w / 16384)) (.ofNat 6 (w / 2097152)))
  | 12 => some (.ialusNmax (.ofNat 7 (w / 128)) (.ofNat 7 (w / 16384)) (.ofNat 6 (w / 2097152)))
  | 13 => some (.ialusIabs (.ofNat 7 (w / 128)) (.ofNat 7 (w / 16384)))
  | _ => none

/-- R77. Major 0x0d, before the checks on its fields. -/
def rawIcmp (w : Nat) : Option Instr :=
  match w / 268435456 % 16 with
  | 0 => some (.icmpEq (.ofNat 7 (w / 128)) (.ofNat 7 (w / 16384)) (.ofNat 7 (w / 2097152)))
  | 1 => some (.icmpNe (.ofNat 7 (w / 128)) (.ofNat 7 (w / 16384)) (.ofNat 7 (w / 2097152)))
  | 2 => some (.icmpLt (.ofNat 7 (w / 128)) (.ofNat 7 (w / 16384)) (.ofNat 7 (w / 2097152)))
  | 3 => some (.icmpLe (.ofNat 7 (w / 128)) (.ofNat 7 (w / 16384)) (.ofNat 7 (w / 2097152)))
  | 4 => some (.icmpGt (.ofNat 7 (w / 128)) (.ofNat 7 (w / 16384)) (.ofNat 7 (w / 2097152)))
  | 5 => some (.icmpGe (.ofNat 7 (w / 128)) (.ofNat 7 (w / 16384)) (.ofNat 7 (w / 2097152)))
  | 6 => some (.icmpNlt (.ofNat 7 (w / 128)) (.ofNat 7 (w / 16384)) (.ofNat 7 (w / 2097152)))
  | 7 => some (.icmpNle (.ofNat 7 (w / 128)) (.ofNat 7 (w / 16384)) (.ofNat 7 (w / 2097152)))
  | 8 => some (.icmpNgt (.ofNat 7 (w / 128)) (.ofNat 7 (w / 16384)) (.ofNat 7 (w / 2097152)))
  | 9 => some (.icmpNge (.ofNat 7 (w / 128)) (.ofNat 7 (w / 16384)) (.ofNat 7 (w / 2097152)))
  | 10 => some (.sel (.ofNat 7 (w / 128)) (.ofNat 7 (w / 16384)) (.ofNat 7 (w / 2097152)))
  | _ => none

/-- R77. Major 0x0e, before the checks on its fields. -/
def rawFalu (w : Nat) : Option Instr :=
  match w / 268435456 % 16 with
  | 0 => some (.fadd (.ofNat 7 (w / 128)) (.ofNat 7 (w / 16384)) (.ofNat 7 (w / 2097152)))
  | 1 => some (.fsub (.ofNat 7 (w / 128)) (.ofNat 7 (w / 16384)) (.ofNat 7 (w / 2097152)))
  | 2 => some (.fmul (.ofNat 7 (w / 128)) (.ofNat 7 (w / 16384)) (.ofNat 7 (w / 2097152)))
  | 3 => some (.fmin (.ofNat 7 (w / 128)) (.ofNat 7 (w / 16384)) (.ofNat 7 (w / 2097152)))
  | 4 => some (.fmax (.ofNat 7 (w / 128)) (.ofNat 7 (w / 16384)) (.ofNat 7 (w / 2097152)))
  | 5 => some (.fabs (.ofNat 7 (w / 128)) (.ofNat 7 (w / 16384)))
  | 6 => some (.fneg (.ofNat 7 (w / 128)) (.ofNat 7 (w / 16384)))
  | 7 => some (.fcopysign (.ofNat 7 (w / 128)) (.ofNat 7 (w / 16384)) (.ofNat 7 (w / 2097152)))
  | 8 => some (.frint (.ofNat 7 (w / 128)) (.ofNat 7 (w / 16384)))
  | _ => none

/-- R77. Major 0x0f, before the checks on its fields. -/
def rawFalus (w : Nat) : Option Instr :=
  match w / 134217728 % 32 with
  | 0 => some (.falusFadd (.ofNat 7 (w / 128)) (.ofNat 7 (w / 16384)) (.ofNat 6 (w / 2097152)))
  | 1 => some (.falusFsub (.ofNat 7 (w / 128)) (.ofNat 7 (w / 16384)) (.ofNat 6 (w / 2097152)))
  | 2 => some (.falusFmul (.ofNat 7 (w / 128)) (.ofNat 7 (w / 16384)) (.ofNat 6 (w / 2097152)))
  | 3 => some (.falusFmin (.ofNat 7 (w / 128)) (.ofNat 7 (w / 16384)) (.ofNat 6 (w / 2097152)))
  | 4 => some (.falusFmax (.ofNat 7 (w / 128)) (.ofNat 7 (w / 16384)) (.ofNat 6 (w / 2097152)))
  | _ => none

/-- R77. Major 0x10, before the checks on its fields. -/
def rawFfma (w : Nat) : Option Instr :=
  match w / 268435456 % 16 with
  | 0 => some (.fma (.ofNat 7 (w / 128)) (.ofNat 7 (w / 16384)) (.ofNat 7 (w / 2097152)))
  | 1 => some (.fms (.ofNat 7 (w / 128)) (.ofNat 7 (w / 16384)) (.ofNat 7 (w / 2097152)))
  | 2 => some (.fnma (.ofNat 7 (w / 128)) (.ofNat 7 (w / 16384)) (.ofNat 7 (w / 2097152)))
  | 3 => some (.fnms (.ofNat 7 (w / 128)) (.ofNat 7 (w / 16384)) (.ofNat 7 (w / 2097152)))
  | _ => none

/-- R77. Major 0x11, before the checks on its fields. -/
def rawFcmp (w : Nat) : Option Instr :=
  match w / 268435456 % 16 with
  | 0 => some (.fcmpEq (.ofNat 7 (w / 128)) (.ofNat 7 (w / 16384)) (.ofNat 7 (w / 2097152)))
  | 1 => some (.fcmpNe (.ofNat 7 (w / 128)) (.ofNat 7 (w / 16384)) (.ofNat 7 (w / 2097152)))
  | 2 => some (.fcmpLt (.ofNat 7 (w / 128)) (.ofNat 7 (w / 16384)) (.ofNat 7 (w / 2097152)))
  | 3 => some (.fcmpLe (.ofNat 7 (w / 128)) (.ofNat 7 (w / 16384)) (.ofNat 7 (w / 2097152)))
  | 4 => some (.fcmpGt (.ofNat 7 (w / 128)) (.ofNat 7 (w / 16384)) (.ofNat 7 (w / 2097152)))
  | 5 => some (.fcmpGe (.ofNat 7 (w / 128)) (.ofNat 7 (w / 16384)) (.ofNat 7 (w / 2097152)))
  | 6 => some (.fcmpUn (.ofNat 7 (w / 128)) (.ofNat 7 (w / 16384)) (.ofNat 7 (w / 2097152)))
  | 7 => some (.fcmpOrd (.ofNat 7 (w / 128)) (.ofNat 7 (w / 16384)) (.ofNat 7 (w / 2097152)))
  | _ => none

/-- R77. Major 0x12, before the checks on its fields. -/
def rawFspec (w : Nat) : Option Instr :=
  match w / 268435456 % 16 with
  | 0 => some (.rcp (.ofNat 7 (w / 128)) (.ofNat 7 (w / 16384)))
  | 1 => some (.rsq (.ofNat 7 (w / 128)) (.ofNat 7 (w / 16384)))
  | 2 => some (.sqrt (.ofNat 7 (w / 128)) (.ofNat 7 (w / 16384)))
  | 3 => some (.div (.ofNat 7 (w / 128)) (.ofNat 7 (w / 16384)) (.ofNat 7 (w / 2097152)))
  | 4 => some (.exp2 (.ofNat 7 (w / 128)) (.ofNat 7 (w / 16384)))
  | 5 => some (.log2 (.ofNat 7 (w / 128)) (.ofNat 7 (w / 16384)))
  | 6 => some (.sin (.ofNat 7 (w / 128)) (.ofNat 7 (w / 16384)))
  | 7 => some (.cos (.ofNat 7 (w / 128)) (.ofNat 7 (w / 16384)))
  | _ => none

/-- R77. Major 0x13, before the checks on its fields. -/
def rawCvt (w : Nat) : Option Instr :=
  match w / 268435456 % 16 with
  | 0 => some (.cvt (.ofNat 7 (w / 128)) (.ofNat 7 (w / 16384)) (.ofNat 4 (w / 2097152)) (.ofNat 2 (w / 33554432)))
  | 1 => some (.cast (.ofNat 7 (w / 128)) (.ofNat 7 (w / 16384)) (.ofNat 4 (w / 2097152)))
  | 2 => some (.pack (.ofNat 7 (w / 128)) (.ofNat 7 (w / 16384)) (.ofNat 7 (w / 2097152)))
  | 3 => some (.unpacklo (.ofNat 7 (w / 128)) (.ofNat 7 (w / 16384)))
  | 4 => some (.unpackhi (.ofNat 7 (w / 128)) (.ofNat 7 (w / 16384)))
  | 5 => some (.qdec (.ofNat 5 (w / 512)) (.ofNat 7 (w / 16384)) (.ofNat 7 (w / 2097152)))
  | _ => none

/-- R77. Major 0x14, before the checks on its fields. -/
def rawXlane (w : Nat) : Option Instr :=
  match w / 268435456 % 16 with
  | 0 => some (.shfl (.ofNat 7 (w / 128)) (.ofNat 7 (w / 16384)) (.ofNat 7 (w / 2097152)))
  | 1 => some (.shflup (.ofNat 7 (w / 128)) (.ofNat 7 (w / 16384)) (.ofNat 7 (w / 2097152)))
  | 2 => some (.shfldn (.ofNat 7 (w / 128)) (.ofNat 7 (w / 16384)) (.ofNat 7 (w / 2097152)))
  | 3 => some (.shflx (.ofNat 7 (w / 128)) (.ofNat 7 (w / 16384)) (.ofNat 7 (w / 2097152)))
  | 4 => some (.ballot (.ofNat 7 (w / 128)) (.ofNat 7 (w / 16384)))
  | 5 => some (.voteall (.ofNat 7 (w / 128)) (.ofNat 7 (w / 16384)))
  | 6 => some (.voteany (.ofNat 7 (w / 128)) (.ofNat 7 (w / 16384)))
  | 7 => some (.redadd (.ofNat 7 (w / 128)) (.ofNat 7 (w / 16384)))
  | 8 => some (.redmin (.ofNat 7 (w / 128)) (.ofNat 7 (w / 16384)))
  | 9 => some (.redmax (.ofNat 7 (w / 128)) (.ofNat 7 (w / 16384)))
  | 10 => some (.scanadd (.ofNat 7 (w / 128)) (.ofNat 7 (w / 16384)))
  | 11 => some (.matchv (.ofNat 7 (w / 128)) (.ofNat 7 (w / 16384)))
  | _ => none

/-- R77. Major 0x15, before the checks on its fields. -/
def rawMisc (w : Nat) : Option Instr :=
  match w / 268435456 % 16 with
  | 0 => some (.movs (.ofNat 7 (w / 128)) (.ofNat 4 (w / 16384)) (.ofNat 1 (w / 262144)) (.ofNat 6 (w / 2097152)))
  | 1 => some (.vtos (.ofNat 6 (w / 128)) (.ofNat 7 (w / 16384)) (.ofNat 1 (w / 2097152)))
  | 2 => some (.laneid (.ofNat 7 (w / 128)))
  | 3 => some (.wid (.ofNat 7 (w / 128)) (.ofNat 1 (w / 16384)))
  | 4 => some (.widf (.ofNat 7 (w / 128)) (.ofNat 3 (w / 16384)))
  | _ => none

/-- R77. Major 0x16, before the checks on its fields. -/
def rawRng (w : Nat) : Option Instr :=
  match w / 268435456 % 16 with
  | 0 => some (.rng (.ofNat 7 (w / 128)) (.ofNat 7 (w / 16384)) (.ofNat 6 (w / 2097152)))
  | 1 => some (.rng4 (.ofNat 5 (w / 512)) (.ofNat 7 (w / 16384)) (.ofNat 6 (w / 2097152)))
  | _ => none

/-- R77. Major 0x17, before the checks on its fields. -/
def rawLd (w : Nat) : Option Instr :=
  some (.ld (.ofNat 7 (w / 128)) (.ofNat 7 (w / 16384)) (.ofNat 6 (w / 2097152)) (.ofNat 5 (w / 134217728)) none)

/-- R77. Major 0x18, before the checks on its fields. -/
def rawSt (w : Nat) : Option Instr :=
  some (.st (.ofNat 7 (w / 128)) (.ofNat 7 (w / 16384)) (.ofNat 6 (w / 2097152)) (.ofNat 5 (w / 134217728)) none)

/-- R77. Major 0x19, before the checks on its fields. -/
def rawLds (w : Nat) : Option Instr :=
  some (.lds (.ofNat 7 (w / 128)) (.ofNat 7 (w / 16384)) (.ofNat 6 (w / 2097152)) (.ofNat 5 (w / 134217728)) none)

/-- R77. Major 0x1a, before the checks on its fields. -/
def rawSts (w : Nat) : Option Instr :=
  some (.sts (.ofNat 7 (w / 128)) (.ofNat 7 (w / 16384)) (.ofNat 6 (w / 2097152)) (.ofNat 5 (w / 134217728)) none)

/-- R77. Major 0x1b, before the checks on its fields. -/
def rawAtom (w : Nat) : Option Instr :=
  match w / 2147483648 % 2 with
  | 0 => some (.atom (.ofNat 7 (w / 128)) (.ofNat 7 (w / 16384)) (.ofNat 6 (w / 2097152)) (.ofNat 4 (w / 134217728)) none)
  | 1 => some (.red (.ofNat 7 (w / 128)) (.ofNat 7 (w / 16384)) (.ofNat 6 (w / 2097152)) (.ofNat 4 (w / 134217728)) none)
  | _ => none

/-- R77. Major 0x1c, before the checks on its fields. -/
def rawAtoms (w : Nat) : Option Instr :=
  match w / 2147483648 % 2 with
  | 0 => some (.atoms (.ofNat 7 (w / 128)) (.ofNat 7 (w / 16384)) (.ofNat 6 (w / 2097152)) (.ofNat 4 (w / 134217728)) none)
  | 1 => some (.reds (.ofNat 7 (w / 128)) (.ofNat 7 (w / 16384)) (.ofNat 6 (w / 2097152)) (.ofNat 4 (w / 134217728)) none)
  | _ => none

/-- R77. Major 0x1d, before the checks on its fields. -/
def rawFence (w : Nat) : Option Instr :=
  match w / 33554432 % 128 with
  | 0 => some (.fence (.ofNat 2 (w / 128)) (.ofNat 3 (w / 512)))
  | 1 => some (.xfence (.ofNat 3 (w / 512)) (.ofNat 6 (w / 8192)) (.ofNat 6 (w / 524288)))
  | _ => none

/-- R77. Major 0x1e, before the checks on its fields. -/
def rawBar (w : Nat) : Option Instr :=
  match w / 128 % 16 with
  | 0 => some (.bar (.ofNat 10 (w / 4194304)) none)
  | 1 => some (.bararr (.ofNat 10 (w / 4194304)) none)
  | 2 => some (.armw (.ofNat 7 (w / 32768)) (.ofNat 10 (w / 4194304)) none)
  | 3 => some (.arwait (.ofNat 7 (w / 32768)) (.ofNat 10 (w / 4194304)) none)
  | 4 => some (.aradd (.ofNat 7 (w / 32768)) (.ofNat 10 (w / 4194304)) none)
  | _ => none

/-- R77. Major 0x1f, before the checks on its fields. -/
def rawCpy (w : Nat) : Option Instr :=
  match w / 67108864 % 8 with
  | 0 => some (.cpy (.ofNat 6 (w / 16384)) (.ofNat 6 (w / 1048576)) (.ofNat 3 (w / 536870912)))
  | 1 => some (.cpy2 (.ofNat 6 (w / 16384)) (.ofNat 6 (w / 1048576)) (.ofNat 3 (w / 536870912)))
  | 2 => some (.cpym (.ofNat 6 (w / 16384)) (.ofNat 6 (w / 1048576)) (.ofNat 3 (w / 536870912)))
  | _ => none

/-- R77. Major 0x20, before the checks on its fields. -/
def rawBin (w : Nat) : Option Instr :=
  match w / 67108864 % 8 with
  | 0 => some (.binsc (.ofNat 7 (w / 128)) (.ofNat 6 (w / 16384)) (.ofNat 6 (w / 1048576)) (.ofNat 3 (w / 536870912)))
  | 1 => some (.binga (.ofNat 6 (w / 256)) (.ofNat 6 (w / 16384)) (.ofNat 6 (w / 1048576)) (.ofNat 3 (w / 536870912)))
  | 2 => some (.binrst (.ofNat 6 (w / 16384)) (.ofNat 6 (w / 1048576)))
  | 3 => some (.binqry (.ofNat 7 (w / 128)) (.ofNat 6 (w / 16384)) (.ofNat 6 (w / 1048576)))
  | _ => none

/-- R77. Major 0x21, before the checks on its fields. -/
def rawTfet (w : Nat) : Option Instr :=
  some (.tfet (.ofNat 3 (w / 128)) (.ofNat 6 (w / 1024)) (.ofNat 3 (w / 65536)) (.ofNat 1 (w / 524288)))

/-- R77. Major 0x22, before the checks on its fields. -/
def rawMma (w : Nat) : Option Instr :=
  some (.mma (.ofNat 3 (w / 128)) (.ofNat 3 (w / 1024)) (.ofNat 6 (w / 8192)) (.ofNat 4 (w / 524288)) (.ofNat 1 (w / 8388608)) (.ofNat 1 (w / 16777216)) (.ofNat 1 (w / 33554432)) (.ofNat 1 (w / 67108864)))

/-- R77. Major 0x23, before the checks on its fields. -/
def rawMloop (w : Nat) : Option Instr :=
  some (.mloop (.ofNat 6 (w / 8192)) (.ofNat 4 (w / 524288)) (.ofNat 6 (w / 8388608)) (.ofNat 1 (w / 536870912)) (.ofNat 1 (w / 1073741824)))

/-- R77. Major 0x24, before the checks on its fields. -/
def rawAcc (w : Nat) : Option Instr :=
  match w / 67108864 % 8 with
  | 0 => some (.accz (.ofNat 6 (w / 16384)) (.ofNat 6 (w / 1048576)))
  | 1 => some (.accrd (.ofNat 7 (w / 128)) (.ofNat 6 (w / 16384)) (.ofNat 6 (w / 1048576)))
  | 2 => some (.accwr (.ofNat 7 (w / 128)) (.ofNat 6 (w / 16384)))
  | 3 => some (.accdr (.ofNat 4 (w / 128)) (.ofNat 6 (w / 16384)) (.ofNat 6 (w / 1048576)))
  | 4 => some (.accver (.ofNat 7 (w / 128)) (.ofNat 6 (w / 16384)))
  | 5 => some (.accwv (.ofNat 6 (w / 16384)) (.ofNat 6 (w / 1048576)))
  | _ => none

/-- R77. Major 0x25, before the checks on its fields. -/
def rawCtab (w : Nat) : Option Instr :=
  match w / 67108864 % 8 with
  | 0 => some (.ctset (.ofNat 7 (w / 128)))
  | 1 => some (.ctget (.ofNat 7 (w / 128)))
  | _ => none

/-- R77. Major 0x26, before the checks on its fields. -/
def rawAcn (w : Nat) : Option Instr :=
  match w / 67108864 % 8 with
  | 0 => some (.achopen (.ofNat 6 (w / 16384)))
  | 1 => some (.achjoin (.ofNat 6 (w / 16384)))
  | 2 => some (.asend (.ofNat 6 (w / 16384)) (.ofNat 6 (w / 1048576)))
  | 3 => some (.achwait (.ofNat 7 (w / 128)) (.ofNat 6 (w / 16384)))
  | 4 => some (.achclose (.ofNat 6 (w / 16384)))
  | _ => none

/-- R77. Major 0x27, before the checks on its fields. -/
def rawVsel (w : Nat) : Option Instr :=
  match w / 67108864 % 8 with
  | 0 => some (.topk (.ofNat 4 (w / 128)) (.ofNat 6 (w / 16384)) (.ofNat 3 (w / 536870912)))
  | 1 => some (.softmx (.ofNat 4 (w / 128)) (.ofNat 6 (w / 16384)) (.ofNat 3 (w / 536870912)))
  | 2 => some (.sample (.ofNat 4 (w / 128)) (.ofNat 6 (w / 16384)) (.ofNat 6 (w / 1048576)) (.ofNat 3 (w / 536870912)))
  | _ => none

/-- R77. Major 0x28, before the checks on its fields. -/
def rawLaunch (w : Nat) : Option Instr :=
  match w / 67108864 % 8 with
  | 0 => some (.lnch (.ofNat 6 (w / 16384)) (.ofNat 6 (w / 1048576)))
  | 1 => some (.emit (.ofNat 6 (w / 16384)) (.ofNat 6 (w / 1048576)))
  | 2 => some (.jcnew (.ofNat 6 (w / 16384)) (.ofNat 6 (w / 1048576)))
  | 3 => some (.jcdec (.ofNat 6 (w / 16384)) (.ofNat 6 (w / 1048576)))
  | 4 => some (.jcwait (.ofNat 7 (w / 128)) (.ofNat 6 (w / 16384)))
  | 5 => some (.mbox (.ofNat 7 (w / 128)) (.ofNat 6 (w / 16384)) (.ofNat 6 (w / 1048576)))
  | _ => none

/-- R77. Major 0x29, before the checks on its fields. -/
def rawOvl (w : Nat) : Option Instr :=
  match w / 67108864 % 8 with
  | 0 => some (.ovld (.ofNat 6 (w / 16384)) (.ofNat 3 (w / 536870912)))
  | 1 => some (.ovpin (.ofNat 7 (w / 128)) (.ofNat 6 (w / 16384)))
  | 2 => some (.ovunpin (.ofNat 6 (w / 16384)))
  | 3 => some (.ovevict (.ofNat 7 (w / 128)) (.ofNat 6 (w / 16384)))
  | 4 => some (.ovqry (.ofNat 7 (w / 128)) (.ofNat 6 (w / 16384)))
  | _ => none

/-- R77. Major 0x2a, before the checks on its fields. -/
def rawQue (w : Nat) : Option Instr :=
  match w / 67108864 % 8 with
  | 0 => some (.qbind (.ofNat 4 (w / 128)) (.ofNat 6 (w / 16384)) (.ofNat 6 (w / 1048576)))
  | 1 => some (.qfree (.ofNat 4 (w / 128)))
  | 2 => some (.qstat (.ofNat 7 (w / 128)) (.ofNat 6 (w / 16384)))
  | _ => none

/-- R56, R77. The member a 32-bit word names, before the checks on its fields (LIMM apart). -/
def rawWord (w : Nat) : Option Instr :=
  match w / 2 % 64 with
  | 0 => rawSys w
  | 2 => rawBr w
  | 3 => rawCtl w
  | 4 => rawMask w
  | 5 => rawWaitc w
  | 6 => rawSalu w
  | 7 => rawSalui w
  | 8 => rawSmem w
  | 9 => rawIalu w
  | 10 => rawIalu2 w
  | 11 => rawIalui w
  | 12 => rawIalus w
  | 13 => rawIcmp w
  | 14 => rawFalu w
  | 15 => rawFalus w
  | 16 => rawFfma w
  | 17 => rawFcmp w
  | 18 => rawFspec w
  | 19 => rawCvt w
  | 20 => rawXlane w
  | 21 => rawMisc w
  | 22 => rawRng w
  | 23 => rawLd w
  | 24 => rawSt w
  | 25 => rawLds w
  | 26 => rawSts w
  | 27 => rawAtom w
  | 28 => rawAtoms w
  | 29 => rawFence w
  | 30 => rawBar w
  | 31 => rawCpy w
  | 32 => rawBin w
  | 33 => rawTfet w
  | 34 => rawMma w
  | 35 => rawMloop w
  | 36 => rawAcc w
  | 37 => rawCtab w
  | 38 => rawAcn w
  | 39 => rawVsel w
  | 40 => rawLaunch w
  | 41 => rawOvl w
  | 42 => rawQue w
  | _ => none


/-- R56 to R78. A 32-bit word other than a LIMM: its member, when the word is a defined encoding. -/
def decodeWord (w : Nat) : Option Instr :=
  match rawWord w with
  | some i => if i.fieldsOk && encodeWord i == w then some i else none
  | none => none

/-- R53 to R55. Every halfword with bit 0 clear is a defined instruction. -/
def decodeShort (w : Nat) : Option Instr := rawShort w

/-- R75. May this word follow a LIMM as a defined instruction that takes no prefix? A 16-bit instruction, a second
LIMM, or a defined member that withPx does not widen. -/
def limmFollower (fw : Nat) : Bool :=
  if fw % 2 = 0 then fw < 65536
  else if fw / 2 % 64 = 1 then true
  else match decodeWord fw with
    | some i => (i.withPx 0).isNone
    | none => false

/-- R50 to R75. A well-formed instruction: its fields are within their limits, and a limm stands before a defined
instruction that takes no prefix. -/
def Instr.wf : Instr → Bool
  | .limm _ fw => limmFollower fw.toNat
  | i => i.fieldsOk

/-- R75. What a decoder finds at a code reference. Lengths are in halfwords. undefined carries ENC (R79): the
encoding of the pattern, of the follower where a LIMM stands before it. short asks for halfwords that are not there. -/
inductive Decoded where
  | instr (i : Instr) (len : Nat)
  | undefined (enc : BitVec 32) (len : Nat)
  | short
  deriving DecidableEq, Repr

/-- R47. The 32-bit word of two halfwords, the lower one first. -/
def word2 (lo hi : BitVec 16) : Nat := lo.toNat + 65536 * hi.toNat

/-- R75, R78. What follows a LIMM whose imm25 is p. -/
def decodeAfterLimm (p : BitVec 25) : List (BitVec 16) → Decoded
  | [] => .short
  | h :: rest =>
    if h.toNat % 2 = 0 then .instr (.limm p (.ofNat 32 h.toNat)) 3
    else match rest with
      | [] => .short
      | h' :: _ =>
        let w := word2 h h'
        if w / 2 % 64 = 1 then .instr (.limm p (.ofNat 32 w)) 4
        else match decodeWord w with
          | none => .undefined (.ofNat 32 w) 4
          | some i =>
            match i.withPx p with
            | none => .instr (.limm p (.ofNat 32 w)) 4
            | some j => if j.fieldsOk then .instr j 4 else .undefined (.ofNat 32 w) 4

/-- R47, R48, R78. Decoding starts at whatever halfword lpc names. Total: every list of halfwords has one answer. -/
def decode : List (BitVec 16) → Decoded
  | [] => .short
  | h :: rest =>
    if h.toNat % 2 = 0 then
      match decodeShort h.toNat with
      | some i => .instr i 1
      | none => .undefined (.ofNat 32 h.toNat) 1
    else match rest with
      | [] => .short
      | h' :: rest' =>
        let w := word2 h h'
        if w / 2 % 64 = 1 then decodeAfterLimm (.ofNat 25 (w / 128)) rest'
        else match decodeWord w with
          | some i => .instr i 2
          | none => .undefined (.ofNat 32 w) 2

/-- R47. Two bytes of code, the lower address first, as one halfword; a last odd byte is dropped. -/
def halfwords : List (BitVec 8) → List (BitVec 16)
  | a :: b :: rest => BitVec.ofNat 16 (a.toNat + 256 * b.toNat) :: halfwords rest
  | _ => []

/-- R47. The decoder on any bytes. -/
def decodeBytes (bs : List (BitVec 8)) : Decoded := decode (halfwords bs)

/-- R47. A word of 32 bits as its two halfwords. -/
def split2 (w : Nat) : List (BitVec 16) := [.ofNat 16 w, .ofNat 16 (w / 65536)]

/-- R75. The LIMM whose imm25 is p. -/
def limmWord (p : BitVec 25) : Nat := 3 + p.toNat * 128

/-- R47, R53 to R77. The halfwords of a well-formed instruction that has an encoding, its LIMM included. -/
def encode (i : Instr) : List (BitVec 16) :=
  match i.shape with
  | .short => [.ofNat 16 (encodeWord i)]
  | .event => []
  | .pair =>
    match i with
    | .limm p fw => split2 (limmWord p) ++ (if fw.toNat % 2 = 0 then [.ofNat 16 fw.toNat] else split2 fw.toNat)
    | _ => []
  | .word =>
    match i.px? with
    | none => split2 (encodeWord i)
    | some p => split2 (limmWord p) ++ split2 (encodeWord i)

/-- R47. The length of an instruction in halfwords, its LIMM included. -/
def Instr.len (i : Instr) : Nat := (encode i).length

/-- The instruction this decoder reads from the bits w, numbered from the least significant bit of the first halfword
up; every bit above nbits is zero, up to the longest instruction (a LIMM and a 32-bit word). -/
def decodeTableWord (nbits w : Nat) : Option Instr :=
  let v := w % 2 ^ nbits
  match decode [.ofNat 16 v, .ofNat 16 (v / 65536), .ofNat 16 (v / 4294967296), .ofNat 16 (v / 281474976710656)] with
  | .instr i _ => some i
  | _ => none

end Sys2Proof
end

