-- ==== Sys2Proof/Machine/State.lean ====
section
/-!
DEFINITION. Everything the spec gives the machine, as plain data, and the machine right after reset
(spec/16_retirement_and_host.md R440; INVENTORY.md lists each field with its rule and its reset value).
The model is one module whose configuration record enables one core (R145, R209), so a module's state is one core, the
memory it reaches, the work queues, the hub, and what the host and firmware have put in.
-/

namespace Sys2Proof.Machine

open Host (Cell)

/-- Why a step stops with no next state. -/
inductive Fault where
  /-- Raised by the hub's own accesses (a queue's descriptor at a kick, the exit and fault rings, a context area and its
  auxiliary area) when an address that firmware gave lies where R252 has no memory (regions 2 to 127, or memory dies 24 to 31), or
  gives a context area outside the partition (R17). The spec gives such an access no effect (log entry 28). Safe: the model stops where hardware would do something unstated. -/
  | noSuchAddress (pa : Nat)
  deriving DecidableEq, Repr

/-- Why an instruction has no meaning. -/
inductive Refusal where
  /-- Raised by the dispatcher for an instruction whose meaning is not written. Safe. -/
  | notModelled (mnemonic : String)
  /-- Raised by an event of the device (a row without an encoding) in a state where its own rule says that it cannot
  happen: nothing in flight, or the condition it waits for does not hold. Safe: step never chooses such an event. -/
  | notEnabled
  deriving DecidableEq, Repr

/-- R402. The cause codes. -/
inductive Cause where
  | exit | illegal | profile | format | uniform | badHandle | xlateAbsent | xlateDenied | misalign | race | recordFull
  | copyRights | multicastPartial | binOverflow | acnNorecv | acnBadchain | acnReserve | versionWait | queueStall
  | overlayMiss | launchBad | queueBad | trap | brk | poison | portFail | killed | lanesOff | codeTableBusy | maskDeadlock
  deriving DecidableEq, Repr

/-- R191. The state of a lane. -/
inductive LaneState where
  | running | parked | off | exited
  | waiting (m : BitVec 4)
  deriving DecidableEq, Repr

/-- R83, R92. A vector register: 32 lane words and a format tag. -/
structure VReg where
  tag : BitVec 4
  lanes : Vector Word 32
  deriving DecidableEq, Repr

/-- R295. The state of a token. -/
inductive TokState where
  | free | pending
  | error (cause : Cause)
  deriving DecidableEq, Repr

/-- R295, R297. A token with what an error keeps. -/
structure Token where
  st : TokState
  /-- R297 DST. -/
  dst : Bool
  /-- R297 ADDR: the first faulting address. -/
  addr : BitVec 56
  /-- R293. Failed destinations of a multicast, and the detail code of the lowest. -/
  failed : BitVec 16
  detail : BitVec 8
  deriving DecidableEq, Repr

/-- R247. An element of a queue port or channel. -/
structure Elem where
  val : Word
  tag : BitVec 4
  deriving DecidableEq, Repr

/-- R247 to R249. A queue port of a course. -/
structure Port where
  bound : Bool
  kind : BitVec 3
  chan : BitVec 3
  /-- The s2 of QBIND: a mailbox number (KIND 4) or a node's address (KIND 5). -/
  arg : DWord
  elems : List Elem
  dropped : Nat
  /-- KIND 5: elements pushed and not yet delivered to the node. -/
  part : List Word
  /-- KIND 5: a delivery waits for fault service. -/
  waiting : Bool
  deriving DecidableEq, Repr

/-- R126. An entry of a course's pending-launch queue: the record, its target, and the number below which every store of
the course must be visible first. waiting: the append waits for fault service. -/
structure Pending where
  bytes : List Byte
  queue : Nat
  upTo : Nat
  /-- The region that the LNCH ended as a release (R379), and the engine operations that were incomplete then (R381). -/
  region : BitVec 32
  but : List Nat
  waiting : Bool
  deriving DecidableEq, Repr

/-- R335, R336. A matrix error not yet delivered. -/
structure MatrixError where
  cause : Cause
  opk : BitVec 3
  slot : BitVec 6
  expv : BitVec 4
  tile : BitVec 3
  ref : BitVec 32
  seq : Nat
  deriving DecidableEq, Repr

/-- R76, R79, R192. The instruction being issued: its course, its own code reference, the reference its lanes rest at (its
LIMM's, where it has one), its issue set, its length in halfwords and its encoding; and the lanes issued with it that REFUSE let
go, which take their causes there and do not execute it (R413). -/
structure Issue where
  k : Nat
  c : Nat
  own : BitVec 32
  at_ : BitVec 32
  set : BitVec 32
  len : Nat
  enc : BitVec 32
  refused : BitVec 32
  deriving DecidableEq, Repr

/-- What keeps a course from issuing although it has an issue set. -/
inductive Hold where
  | none
  /-- R217. NAP: not before this clock. -/
  | nap (until_ : Nat)
  /-- R381, R395. A release of this region at a scope whose closure is not complete, for the classes it names, but for the engine
  operations that were incomplete when it issued. -/
  | closing (scope : Nat) (region : BitVec 32) (classes : BitVec 6) (but : List Nat)
  /-- R398. Held at barrier b until its generation differs from g. -/
  | bar (b : BitVec 4) (g : BitVec 32)
  /-- R302. ARWAIT at this scratchpad offset, for a generation other than g, as it was issued. -/
  | arwait (off : Nat) (g : Word) (v : BitVec 7) (iss : Issue)
  /-- R138. JCWAIT for the counter at this physical address, as it was issued; woken holds the counter's upper bits once it was
  zero. -/
  | jcwait (pa : Nat) (v : BitVec 7) (woken : Option Word) (iss : Issue)
  /-- R348. ACHJOIN of the chain that scalar register a names, as it was issued. -/
  | achjoin (a : BitVec 6) (iss : Issue)
  /-- R350. ACHWAIT of the chain that scalar register a names, as it was issued. -/
  | achwait (v : BitVec 7) (a : BitVec 6) (iss : Issue)
  deriving DecidableEq, Repr

/-- R136, R247, R334. What a stalled instruction waits for, where the spec limits the wait to 2^20 clocks; and a WAITC that
waits (R211, R336). -/
inductive StallWhy where
  | port | launch | ctset | achopen | waitc | other
  deriving DecidableEq, Repr

/-- An instruction that has not issued because of a stall: the clock at which the stall began, the issue as it was last tried,
the landing buffers it holds (R347), and the port it waits at (R404; 0 where it waits at none). -/
structure Stall where
  why : StallWhy
  since : Nat
  iss : Issue
  buffers : Nat
  reg : Nat
  /-- R383. The stores at the die slices when a FENCE.sc reached issue. -/
  drain : List Nat
  deriving DecidableEq, Repr

/-- R155 to R158. A register line of a course that stands in the register cache. -/
structure RegLine where
  reg : Nat
  dirty : Bool
  lastUse : Nat
  deriving DecidableEq, Repr

/-- R413. A lane that REFUSE let go: the cause it takes at its instruction, which stands at ref. -/
structure RefusedLane where
  cause : BitVec 8
  lane : Nat
  ref : BitVec 32
  deriving DecidableEq, Repr

/-- R167, R186. What a failed load of code means to a lane: the cause it takes at its instruction, which stands at ref, and the
address that failed; once: the lanes that issue first take it, and no others (R186, a token-held overlay). -/
structure FetchFault where
  cause : Cause
  va : BitVec 56
  lane : Nat
  ref : BitVec 32
  once : Bool
  deriving DecidableEq, Repr

/-- R202, R207, R406. What a trap entry replaced in its lanes, and what its delivery consumed, until the clock at which its transfer
passes its check: it is put back where that transfer fails. tokens holds the tokens whose errors were delivered. -/
structure TrapEntry where
  upTo : Nat
  lanes : BitVec 32
  lpc : Vector (BitVec 32) 32
  link : VReg
  hmask : BitVec 32
  trapcause : BitVec 8
  trapinfo : DWord
  missref : DWord
  lastref : BitVec 40
  ntraps : BitVec 32
  tokens : List (Nat × Token)
  refused : List RefusedLane
  merrs : List MatrixError
  fetchFault : List FetchFault
  deriving DecidableEq, Repr

/-- R202, R207, R247. An issued instruction whose slot transfer will fail its check: the clock of its issue, and how many elements it
has popped of which channels. Nothing else of it takes effect, and the elements stay where they are, at the head. -/
structure Unchecked where
  since : Nat
  pops : List (Nat × Nat)
  deriving DecidableEq, Repr

/-- R410, R425. How a course was ended before its lanes exited. -/
structure Termination where
  cls : BitVec 3
  cause : Cause
  lanes : BitVec 32
  ref : BitVec 32
  deriving DecidableEq, Repr

/-- R154, R191. A course: its context image and what else belongs to it. -/
structure Course where
  idx : Nat
  lpc : Vector (BitVec 32) 32
  lane : Vector LaneState 32
  lapped : BitVec 32
  v : Vector VReg 112
  s : Vector DWord 64
  m : Vector (BitVec 32) 12
  fpmode : BitVec 3
  probef : Bool
  fmask : BitVec 32
  missref : DWord
  trapcause : BitVec 8
  trapinfo : DWord
  hmask : BitVec 32
  lastref : BitVec 40
  ntraps : BitVec 32
  tokens : Vector Token 8
  /-- R210. The outstanding-operation counters. -/
  loads : Nat
  stores : Nat
  copies : Nat
  tiles : Nat
  /-- R380. -/
  region : BitVec 32
  ports : Vector Port 16
  pending : List Pending
  merrs : List MatrixError
  hold : Hold
  stall : Option Stall
  /-- R156. The clock in which the next instruction became ready. -/
  age : Nat
  lines : List RegLine
  /-- Addresses and kinds of access at which lanes parked (R413 REFUSE). -/
  parkAddr : Vector DWord 32
  parkWr : BitVec 32
  /-- R196, R207. Lanes that PORT_FAIL parked. -/
  portParked : BitVec 32
  /-- R413. Causes that REFUSE has given lanes and that their next issue takes. -/
  refused : List RefusedLane
  term : Option Termination
  /-- R425. The last EXIT, and the lanes that executed EXIT. -/
  exitRef : BitVec 32
  exitMask : BitVec 32
  retired : Bool
  /-- R425, R426. The two words of the status record, once retired. -/
  status : DWord × DWord
  /-- R167, R186. Failed loads whose causes lanes of this course have still to take. -/
  fetchFault : List FetchFault
  /-- R406. The trap entry of the last issue, whose transfer may still fail. -/
  entered : Option TrapEntry
  /-- R202, R207. The issued instruction that a port failure will discard (log entry 23). -/
  unchecked : Option Unchecked
  /-- R470. A load for this course's fetch waits for firmware to service the overlay table's page. -/
  fetchWait : Bool
  deriving DecidableEq, Repr

/-- R313. The state of a tile copy. -/
inductive TileState where
  | empty | filling | full
  deriving DecidableEq, Repr

/-- R313. One copy of a tile register. factors: for each row its blocks and their D_b. -/
structure TileCopy where
  st : TileState
  tag : BitVec 4
  rows : Nat
  klen : Nat
  k0 : Nat
  narrow : Bool
  data : List (List Byte)
  factors : List (List (Nat × Word))
  /-- R320. Pins it holds. -/
  pins : Nat
  deriving DecidableEq, Repr

/-- R313, R314. A tile register: two copies, and which is the latest. -/
structure Tile where
  c0 : TileCopy
  c1 : TileCopy
  latest : Bool
  deriving DecidableEq, Repr

/-- R322. An accumulator slot. -/
structure Slot where
  entries : Vector (BitVec 40) 256
  i40 : Bool
  ver : BitVec 16
  lock : Bool
  deriving DecidableEq, Repr

/-- R397. A barrier. -/
structure Barrier where
  gen : BitVec 32
  arr : BitVec 16
  deriving DecidableEq, Repr

/-- R168. An entry of the residency-token table. -/
structure RToken where
  ov : BitVec 16
  count : Nat
  deriving DecidableEq, Repr

/-- R291. A tracked range: bytes lo to hi of the scratchpad, held by operation op. -/
structure Track where
  op : Nat
  lo : Nat
  hi : Nat
  deriving DecidableEq, Repr

/-- R344. The state of a chain. -/
inductive ChainState where
  | closed | opened | waited
  deriving DecidableEq, Repr

/-- R353. An exact sum with its flags. -/
structure ExactSum where
  x : Int
  nan : Bool
  pinf : Bool
  ninf : Bool
  deriving DecidableEq, Repr

/-- R344, R347, R352, R353. One of a consort's four receiving chains. got: contributions in (EXACT: landed). contribs: those
that stand in members' buffers (ORDERED); packet: the sum on its way; passed: the members it has left behind. -/
structure Chain where
  st : ChainState
  epoch : Nat
  exact : Bool
  four : Bool
  slot : BitVec 6
  ebase : Int
  members : BitVec 64
  n : Nat
  i40 : Bool
  got : BitVec 64
  broken : BitVec 64
  tagerr : Bool
  sums : List (List ExactSum)
  contribs : List (Nat × List (List (BitVec 40)))
  packet : Option (List (List (BitVec 40)))
  passed : Nat
  deriving DecidableEq, Repr

/-- R348. A member's binding to an epoch. -/
structure Binding where
  rcv : BitVec 6
  chn : BitVec 2
  epoch : Nat
  four : Bool
  exact : Bool
  i40 : Bool
  owner : Nat
  sent : Bool
  deriving DecidableEq, Repr

/-- R113. A launch header. -/
structure Header where
  khw : BitVec 32
  traph : BitVec 32
  ovmgr : BitVec 32
  scratch : Nat
  otaddr : DWord
  courses : Nat
  accslots : Nat
  prio : Nat
  hflags : BitVec 8
  deriving DecidableEq, Repr

/-- R112. A launch record. -/
structure LRecord where
  jc : Bool
  cref : BitVec 32
  frame : DWord
  jcaddr : DWord
  widbase : DWord
  widw : List Nat
  cpg : Nat
  ngang : Nat
  deriving DecidableEq, Repr

/-- R147, R415. Where a consort stands. -/
inductive Place where
  | resident | draining (kind : Nat) | saved (kind : Nat) | retired
  deriving DecidableEq, Repr

/-- R311, R391, R395. A byte whose replaced value an engine's buffer or another copy may still return: its address and
old value, the class, course and operation that wrote it, and the arrival words that count it (R303). blind: a store or an
atomic has invalidated the copies of its line from which loads could return it (R266, R280). also: the writes to its line since, each
with its class, course and operation. -/
structure StaleByte where
  pa : Nat
  old : Byte
  cls : Nat
  k : Nat
  c : Nat
  op : Nat
  arw : List Nat
  blind : Bool
  also : List (Nat × Nat × Nat × Nat)
  deriving DecidableEq, Repr

/-- R147, R148. A consort and everything allocated to it. -/
structure Consort where
  id : Nat
  launch : Nat
  queue : Nat
  aspace : BitVec 16
  hdr : Header
  gang : Nat
  num : Nat
  cpg : Nat
  widbase : DWord
  widw : List Nat
  /-- R150. Context-area address. -/
  ctx : Nat
  place : Place
  resumed : Bool
  placedAt : Nat
  /-- R156. The clock of its last placement on the core. -/
  onSince : Nat
  /-- R141, R414. Since when it may re-enter; none while it may not. -/
  readyAt : Option Nat
  killPending : Bool
  /-- R356. KILL has ended it: its chains no longer exist. -/
  killed : Bool
  /-- R146. First scratchpad granule held on the core. -/
  spBase : Nat
  scratch : List Cell
  spoison : List Nat
  /-- R311. Scratchpad bytes (pa is the offset) that another class may still see as they were. -/
  sstale : List StaleByte
  tracks : List Track
  tiles : Vector Tile 8
  slots : Vector Slot 64
  bars : Vector Barrier 16
  channels : Vector (List Elem) 8
  rtokens : List RToken
  /-- R99, R338, R421. While it is saved: the entries of the code-table buffer that was not active, which operations that wait
  may hold. -/
  spareTab : List (BitVec 16)
  chains : Vector Chain 4
  bindings : List Binding
  courses : List Course
  /-- R186. Overlays that must be RESIDENT before its first issue on the core. -/
  need : List (BitVec 16)
  /-- R186. Its re-entry waits for firmware to service an absent overlay entry. -/
  entryWait : Bool
  deriving DecidableEq, Repr

/-- R266, R384. Where a store has performed. -/
inductive StoreAt where
  | issued | die
  deriving DecidableEq, Repr

/-- R263, R266. A store on its way home. cells: physical byte addresses with the bytes. epoch: the number of releases at
consort scope or wider the course had issued (R384). The stores counter falls when the
last store of one instruction (op) performs. -/
structure Store where
  id : Nat
  op : Nat
  k : Nat
  c : Nat
  at_ : StoreAt
  epoch : Nat
  cells : List Cell
  deriving DecidableEq, Repr

/-- R263. A load whose data is on its way to registers: (register, lane, word), the tag, and a scalar destination. -/
structure Load where
  id : Nat
  k : Nat
  c : Nat
  regs : List Nat
  words : List (Nat × Nat × Word)
  tag : BitVec 4
  scalar : Option (Nat × DWord)
  deriving DecidableEq, Repr

/-- R277, R278. One lane's operand of an atomic request. -/
structure AtomLane where
  lane : Nat
  x : Word
  c : Word
  deriving DecidableEq, Repr

/-- R278, R279. A request of one instruction to one word. behind: the stores to the word that stood at the die slice when it issued
(R378, R382). -/
structure AtomReq where
  k : Nat
  c : Nat
  op : Nat
  dest : Option Nat
  tag : BitVec 4
  lanes : List AtomLane
  va : DWord
  epoch : Nat
  region : BitVec 32
  checked : Bool
  behind : List Nat
  deriving DecidableEq, Repr

/-- R279. A word's requests: combining (open) in the buffer, or on their way home. -/
structure Atomic where
  id : Nat
  pa : Nat
  code : BitVec 4
  open_ : Bool
  opened : Nat
  reqs : List AtomReq
  deriving DecidableEq, Repr

/-- R381, R387, R390. A race record of a 32-byte sector. eng: the bytes that engine operations wrote, by operation. area: its place
in its stack's record area, where it has spilled. -/
structure Record where
  sector : Nat
  k : Nat
  c : Nat
  mask : BitVec 32
  region : BitVec 32
  atomic : Bool
  eng : List (Nat × BitVec 32)
  area : Option Nat
  deriving DecidableEq, Repr

/-- R381, R387. The highest region of a course closed at a scope (1 consort, 2 die, 3 package), but for the writes of the engine
operations that were incomplete at that release. -/
structure Closed where
  k : Nat
  c : Nat
  scope : Nat
  region : BitVec 32
  but : List Nat
  deriving DecidableEq, Repr

/-- R258. A cached translation: pages of 2^shift bytes. -/
structure TlbEntry where
  aspace : BitVec 16
  vpn : Nat
  shift : Nat
  base : Nat
  r : Bool
  w : Bool
  chk : BitVec 2
  deriving DecidableEq, Repr

/-- R252, R263 to R284, R376 to R392. Memory and everything on its way to or from it. -/
structure MemSys where
  /-- Device and host memory as the home slices hold it, in canonical form. -/
  mem : List Cell
  /-- R283. Poisoned 32-byte sectors. -/
  poison : List Nat
  stores : List Store
  loads : List Load
  atoms : List Atomic
  records : List Record
  closed : List Closed
  /-- R384. Releases at consort scope or wider issued by each course: (k, c, count). -/
  epochs : List (Nat × Nat × Nat)
  tlb : List TlbEntry
  /-- R311, R391, R395. -/
  stale : List StaleByte
  deriving DecidableEq, Repr

/-- R164. State of a residency entry. -/
inductive InstState where
  | loading | resident
  deriving DecidableEq, Repr

/-- R28. The fields of an overlay entry. -/
structure OvEntry where
  base : DWord
  len : Nat
  oflags : BitVec 16
  nentry : Nat
  entryoff : List Nat
  digest : List Byte
  deriving DecidableEq, Repr

/-- R170, R183. An address space that waits for a SHAREABLE first load of another tenant: its own table, overlay, entry
and the tokens that wait. -/
structure Joiner where
  aspace : BitVec 16
  ot : DWord
  ov : BitVec 16
  entry : OvEntry
  tokens : List (Nat × Nat × Nat)
  deriving DecidableEq, Repr

/-- R162. One tenant's view of an instance: its address space, its overlay table and its overlay id. -/
structure Sharer where
  aspace : BitVec 16
  ot : DWord
  ov : BitVec 16
  deriving DecidableEq, Repr

/-- R162, R164, R167. An overlay instance. waiters: tokens (consort, course, token) its load completes. joiners: address
spaces that wait for its verification. -/
structure Inst where
  uid : Nat
  owner : BitVec 16
  sharers : List Sharer
  entry : OvEntry
  st : InstState
  verified : Bool
  bytes : List Byte
  /-- R165. Frames are allocated. -/
  framed : Bool
  waiting : Bool
  waiters : List (Nat × Nat × Nat)
  joiners : List Joiner
  fetched : Bool
  lastFetch : Nat
  residentAt : Nat
  deriving DecidableEq, Repr

/-- R319. A tile fetch in flight. chk: the HFLAGS.CHECKED default of its consort. -/
structure TileFill where
  id : Nat
  k : Nat
  c : Nat
  t : Nat
  copy : Bool
  base : DWord
  stride : Nat
  rowBytes : Nat
  scales : DWord
  region : BitVec 32
  waiting : Bool
  since : Nat
  unpinned : Bool
  ref : BitVec 32
  seq : Nat
  deriving DecidableEq, Repr

/-- R327 to R332, R349. What an entry of the matrix queue does. -/
inductive MqOp where
  | mma (ta : Nat) (ca : Bool) (tb : Nat) (cb : Bool) (nega negb sat kview : Bool) (gen : BitVec 32)
  | mloop (reuse sat : Bool) (desc : List DWord) (gen : BitVec 32) (step : Nat)
  | accz (i40 : Bool)
  | accrd (v : BitVec 7) (fmt : BitVec 2) (row col : Nat) (set : BitVec 32)
  | accwr (vals : VReg) (row col : Nat) (set : BitVec 32)
  | accdr (q : BitVec 4) (fmt : BitVec 2) (pushed : Nat)
  | accwv (ver : BitVec 16)
  | asend (rcv : BitVec 6) (chn : BitVec 2) (epoch : Nat) (i40 exact four : Bool)
  deriving DecidableEq, Repr

/-- R324. An entry of the matrix queue. failed: a fetch failure its bound copy has met (R335). -/
structure MqEntry where
  id : Nat
  k : Nat
  c : Nat
  op : MqOp
  slots : List Nat
  expv : BitVec 4
  ref : BitVec 32
  since : Nat
  admitted : Bool
  /-- An MLOOP's slots that take no step because of their tag (R330). -/
  skip : List Nat
  failed : Option Cause
  waiting : Bool
  /-- R338. An MLOOP's K step has begun: it has met an absent translation. -/
  inStep : Bool
  region : BitVec 32
  deriving DecidableEq, Repr

/-- R341, R353. A contribution packet in the mesh, to the chain of a receiver. -/
structure Packet where
  rcv : Nat
  chn : BitVec 2
  epoch : Nat
  member : Nat
  data : List (List (BitVec 40))
  deriving DecidableEq, Repr

/-- R363. A selection operation: kind 0 TOPK, 1 SOFTMX, 2 SAMPLE. -/
structure SelOp where
  id : Nat
  k : Nat
  c : Nat
  kind : Nat
  port : BitVec 4
  src : DWord
  ctl : DWord
  par : DWord
  dst : DWord
  u : DWord
  tok : BitVec 3
  region : BitVec 32
  ref : BitVec 32
  served : Bool
  waiting : Bool
  /-- R365. What each pass has read, widened; the last list is the pass in progress. -/
  reads : List (List Word)
  /-- R384. -/
  epoch : Nat
  deriving DecidableEq, Repr

/-- R361. A result buffer held. -/
structure SelBuf where
  id : Nat
  k : Nat
  c : Nat
  port : BitVec 4
  elems : List Elem
  deriving DecidableEq, Repr

/-- R290. A destination of a copy. -/
structure CopyDest where
  num : Nat
  cid : Nat
  failed : Option (BitVec 8)
  left : Nat
  deriving DecidableEq, Repr

/-- R290. A chunk still to move: source and destination address (or offset), and length. -/
structure Chunk where
  src : DWord
  dst : DWord
  len : Nat
  deriving DecidableEq, Repr

/-- R290 to R293. A copy in flight. -/
structure Copy where
  id : Nat
  k : Nat
  c : Nat
  tok : BitVec 3
  srcSp : Bool
  dstSp : Bool
  multi : Bool
  arw : Option Nat
  /-- R131, R312. The registration of a mailbox that its completion arrives at. -/
  mbx : Option Nat
  chunks : List Chunk
  dests : List CopyDest
  region : BitVec 32
  /-- R384. -/
  epoch : Nat
  ref : BitVec 32
  waiting : Bool
  error : Option (Cause × Bool × BitVec 56)
  deriving DecidableEq, Repr

/-- R307, R308. A lane of a bin operation: its bin, its row code (gather) or position (scatter), the scratchpad offset of
its row, and whether its position is one in the overflow bin. -/
structure BinLane where
  lane : Nat
  bin : Nat
  row : Nat
  off : Nat
  ovr : Bool
  deriving DecidableEq, Repr

/-- R304. What an operation keeps of an entry of its table. -/
structure BinEntry where
  bin : Nat
  base : DWord
  cap : Nat
  deriving DecidableEq, Repr

/-- R307, R308. A bin operation in flight: lanes still to serve, and the row codes decided. -/
structure BinOp where
  id : Nat
  k : Nat
  c : Nat
  tok : BitVec 3
  gather : Bool
  table : DWord
  nbins : Nat
  rowb : Nat
  ovf : Nat
  entries : List BinEntry
  bumped : Bool
  todo : List BinLane
  lanes : BitVec 32
  codes : List (Nat × Word)
  v : BitVec 7
  region : BitVec 32
  /-- R384. -/
  epoch : Nat
  ref : BitVec 32
  waiting : Bool
  error : Option (Cause × Bool × BitVec 56)
  deriving DecidableEq, Repr

/-- One core. -/
structure CoreSt where
  openToWork : Bool
  halfWidth : Bool
  portFailed : Bool
  /-- R207. The halves whose slots are retired: bit 0 half A, bit 1 half B. -/
  halves : BitVec 2
  /-- R201. The latest issues: clock, consort and course. -/
  issues : List (Nat × Nat × Nat)
  /-- R203, R204. Slots claimed: clock, up and down per half. -/
  slotUse : List (Nat × Nat × Nat)
  insts : List Inst
  /-- R163. The address spaces that hold a local tenant number. -/
  tenants : List (BitVec 16)
  ctgen : BitVec 32
  ctab : Vector (BitVec 16) 32
  mq : List MqEntry
  tfills : List TileFill
  packets : List Packet
  selq : List SelOp
  selbufs : List SelBuf
  copies : List Copy
  bins : List BinOp
  deriving DecidableEq, Repr

/-- R127, R128. A batch of a graph node's records: the physical address of the node's descriptor, its template, R, its
record size, the clock at which it closes although it is not whole, and the indices of its records in the queue. -/
structure Batch where
  node : Nat
  tmpl : DWord
  rpl : Nat
  recsz : Nat
  until_ : Option Nat
  idxs : List Nat
  deriving DecidableEq, Repr

/-- R118 to R121, R128. What the device keeps of a queue beside its descriptor. -/
structure QRun where
  q : Nat
  resident : Bool
  blocked : Bool
  faulted : Bool
  /-- The launch whose record stands at the head, consumed and not wholly released. -/
  head : Option Nat
  /-- R128. Open batches, by node, and closed ones, oldest first. -/
  opened : List Batch
  closed : List Batch
  /-- R150. BLOCKED because the pool of context areas was empty; firmware has had its event. -/
  starved : Bool
  deriving DecidableEq, Repr

/-- R112, R116. A launch whose consorts have not all retired. -/
structure Launch where
  id : Nat
  queue : Nat
  aspace : BitVec 16
  lr : LRecord
  hdr : Header
  inline : List Byte
  s0 : Nat
  released : Nat
  live : Nat
  err : Bool
  /-- R128. The node whose batch it is. -/
  node : Option Nat
  /-- R131. The mailbox whose handler it is, and its doorbell line. -/
  mbox : Option Nat
  bell : Option DWord
  /-- RDIDX of its record, and the bytes it takes in the ring, freed when its last gang is released. -/
  rd : Nat
  length : Nat
  deriving DecidableEq, Repr

/-- R116. A join-counter decrement the device still has to make. -/
structure JcWork where
  aspace : BitVec 16
  addr : DWord
  err : Bool
  waiting : Bool
  deriving DecidableEq, Repr

/-- R130. A mailbox. -/
structure Mailbox where
  num : Nat
  /-- The model's own: which registration of the number it is (R139, R312). -/
  uid : Nat
  doorbell : DWord
  handler : DWord
  aspace : BitVec 16
  running : Bool
  count : Nat
  deriving DecidableEq, Repr

/-- R133. A handler record that is to be appended. -/
structure Append where
  mbox : Nat
  doorbell : DWord
  handler : DWord
  aspace : BitVec 16
  waiting : Bool
  deriving DecidableEq, Repr

/-- R131. A handler record that stands in a queue: where, its mailbox (none once released), and its doorbell line. -/
structure Handler where
  queue : Nat
  idx : Nat
  mbox : Option Nat
  doorbell : DWord
  deriving DecidableEq, Repr

/-- R117 to R140. Queues, launches and mailboxes. -/
structure WorkSt where
  qrun : List QRun
  /-- R120. The queue served last, per priority. -/
  lastServed : List (Nat × Nat)
  launches : List Launch
  jcwork : List JcWork
  mailboxes : List Mailbox
  /-- R131. Arrivals at mailboxes, in order. -/
  arrivals : List Nat
  appends : List Append
  /-- R131. Handler records appended to a queue and not yet consumed. -/
  handlers : List Handler
  /-- R150. Context areas free, in firmware's order. -/
  pool : List Nat
  deriving DecidableEq, Repr

/-- R412. A fault record, as its fields. -/
structure FaultRecord where
  kind : Nat
  cause : Nat
  access : Nat
  course : Nat
  aspace : BitVec 16
  lanes : BitVec 32
  cref : BitVec 32
  ctx : Nat
  addr : DWord
  deriving DecidableEq, Repr

/-- R427. An exit ring's registers. -/
structure ExitRing where
  base : DWord
  size : BitVec 32
  wr : BitVec 32
  rd : BitVec 32
  lost : BitVec 16
  mode : BitVec 2
  deriving DecidableEq, Repr

/-- R429, R435. The MBOXHOST words. -/
structure MboxHost where
  doorbell : DWord
  handler : DWord
  aspace : BitVec 16
  result : BitVec 32
  deriving DecidableEq, Repr

/-- R441. A send ring that firmware has registered: base, entries, aspace of its words, write-index word, read index. -/
structure SendRing where
  base : DWord
  size : Nat
  aspace : BitVec 16
  windex : DWord
  rd : Nat
  deriving DecidableEq, Repr

/-- What the outside sees. -/
inductive Output where
  | readReply (bytes : List Byte)
  | nack (dev : BitVec 20) (seq : BitVec 32)
  | put (dstdev srcdev : BitVec 20) (aspace : BitVec 16) (va : DWord) (seq : BitVec 32) (data : List Byte)
  | response (bytes : List Byte)
  | interrupt
  | firmwareInterrupt
  | firmwareReset
  deriving DecidableEq, Repr

/-- What the outside does to the machine (log entry 4): an event of the opcode table; a read of BAR0, of BAR4 or of the management
window, at an offset and of a number of bytes (R429, R432, R435); the host taking the pending MSI-X interrupt (R430); an event
that firmware sends the host (R429); a send ring that firmware registers (R441); an error that is counted (R442); an uncorrectable
error in a sector of device memory or in a word of a scratchpad (R283); the measured 1 ms average power, in watts (R443); the
context area of a saved consort moved with its pages to another address (R153). -/
inductive Input where
  | row (e : Instr)
  | readBar0 (off n : Nat)
  | readBar4 (off n : Nat)
  | readMgmt (off n : Nat)
  | takeInterrupt
  | message (detail : Nat) (addr : DWord)
  | sendRing (r : SendRing)
  | errorCounted (group unit : Nat)
  | sectorError (pa : Nat)
  | scratchError (k off : Nat)
  | power (watts : Nat)
  | moveArea (k ctx aux : Nat)
  deriving DecidableEq, Repr

/-- R427 to R443. The hub die: host registers, the management window, configuration. -/
structure Hub where
  fp16 : Bool
  devid : BitVec 20
  pmode : BitVec 2
  stop : Bool
  merr : Bool
  cclk : Nat
  powerCap : Nat
  /-- R443. The 1 ms average power, as last measured. -/
  power : Nat
  pstate : BitVec 4
  fwlost : Bool
  therm : Bool
  kerr : Bool
  werr : Bool
  bootok : Bool
  replace : Bool
  /-- R440, R443. Every core and distributor is stopped. -/
  stopped : Bool
  tripped : Bool
  /-- R434, R435. Microseconds left, and the clocks of the one that runs. -/
  watchdog : BitVec 32
  wdClocks : Nat
  ctxaddr : DWord
  ctxcmd : DWord
  qdtbase : DWord
  astbase : DWord
  invalva : DWord
  invalcmd : DWord
  invalBusy : Bool
  /-- R439. INVALVA as the invalidation in progress found it. -/
  invalFrom : DWord
  exits : Vector ExitRing 8
  frbase : DWord
  frsize : BitVec 32
  frwr : BitVec 32
  frrd : BitVec 32
  frien : Bool
  recarea : Vector DWord 24
  windows : Vector (DWord × DWord) 256
  mboxBar0 : MboxHost
  mboxMgmt : MboxHost
  evBase : DWord
  evSize : BitVec 16
  evRd : BitVec 16
  evWr : BitVec 16
  evLost : BitVec 16
  evEn : Bool
  /-- R430. An interrupt is pending on MSI-X vector 0. -/
  msix : Bool
  /-- R437. Fault records that wait in the hub, oldest first. -/
  faults : List FaultRecord
  bar4Req : List Byte
  bar4Resp : List Byte
  bar4Bell : BitVec 32
  /-- R433. Error counters of the five groups. -/
  counters : List (List DWord)
  flash : List Cell
  fwDigest : List Byte
  cfgDigest : List Byte
  leaf : BitVec 32
  sends : List SendRing
  putDropped : Nat
  seqs : List (BitVec 20 × Nat × BitVec 32)
  deriving DecidableEq, Repr

/-- The machine. -/
structure State where
  /-- R221. CCLK clocks since module reset. -/
  clock : Nat
  /-- The model's own: the steps taken, to which every open value is applied (log entry 5). -/
  tick : Nat
  /-- The model's own: the next number for an operation in flight. -/
  nextId : Nat
  /-- The model's own: the instruction being issued (log entry 6). -/
  iss : Issue
  consorts : List Consort
  core : CoreSt
  ms : MemSys
  work : WorkSt
  hub : Hub
  /-- What the outside does next, oldest first (log entry 4). -/
  inputs : List Input
  /-- What the outside has been given (log entry 4). -/
  outbox : List Output
  deriving DecidableEq, Repr

/-! The blank pieces a course and a consort start from (R93, R115, R148). -/

def VReg.zero : VReg := { tag := 0, lanes := Vector.replicate 32 0 }

def Token.fresh : Token := { st := .free, dst := false, addr := 0, failed := 0, detail := 0 }

def Port.unbound : Port :=
  { bound := false, kind := 0, chan := 0, arg := 0, elems := [], dropped := 0, part := [], waiting := false }

/-- R93, R115, R190 to R217, R295, R380, R403, R404. A course at its start; lpc, s0 and s1 are set at placement. -/
def Course.blank : Course :=
  { idx := 0, lpc := Vector.replicate 32 0, lane := Vector.replicate 32 .running, lapped := 0
    v := Vector.replicate 112 VReg.zero, s := Vector.replicate 64 0, m := Vector.replicate 12 0
    fpmode := 0, probef := false, fmask := 0, missref := 0, trapcause := 0, trapinfo := 0, hmask := 0
    lastref := 0, ntraps := 0, tokens := Vector.replicate 8 Token.fresh
    loads := 0, stores := 0, copies := 0, tiles := 0, region := 1
    ports := Vector.replicate 16 Port.unbound, pending := [], merrs := [], hold := .none, stall := none, age := 0
    lines := [], parkAddr := Vector.replicate 32 0, parkWr := 0, portParked := 0, refused := [], term := none
    exitRef := 0, exitMask := 0, retired := false, status := (0, 0), fetchFault := [], entered := none, unchecked := none
    fetchWait := false }

def TileCopy.blank : TileCopy :=
  { st := .empty, tag := 0, rows := 0, klen := 0, k0 := 0, narrow := false, data := [], factors := []
    pins := 0 }

def Tile.blank : Tile := { c0 := TileCopy.blank, c1 := TileCopy.blank, latest := false }

def Slot.blank : Slot := { entries := Vector.replicate 256 0, i40 := false, ver := 0, lock := false }

def Chain.blank : Chain :=
  { st := .closed, epoch := 0, exact := false, four := false, slot := 0, ebase := 0, members := 0, n := 0, i40 := false
    got := 0, broken := 0, tagerr := false, sums := [], contribs := [], packet := none, passed := 0 }

def Header.blank : Header :=
  { khw := 0, traph := 0, ovmgr := 0, scratch := 0, otaddr := 0, courses := 0, accslots := 0, prio := 0, hflags := 0 }

/-- R148. A consort at its first start, before its identity and courses are set. -/
def Consort.blank : Consort :=
  { id := 0, launch := 0, queue := 0, aspace := 0, hdr := Header.blank, gang := 0, num := 0, cpg := 1, widbase := 0
    widw := [5, 0, 0, 0, 0, 0], ctx := 0, place := .resident, resumed := false, placedAt := 0, onSince := 0, readyAt := none
    killPending := false, killed := false, spBase := 0, scratch := [], spoison := [], sstale := [], tracks := []
    tiles := Vector.replicate 8 Tile.blank, slots := Vector.replicate 64 Slot.blank
    bars := Vector.replicate 16 { gen := 0, arr := 0 }, channels := Vector.replicate 8 [], rtokens := [], spareTab := []
    chains := Vector.replicate 4 Chain.blank, bindings := [], courses := [], need := [], entryWait := false }

def Issue.blank : Issue := { k := 0, c := 0, own := 0, at_ := 0, set := 0, len := 2, enc := 0, refused := 0 }

/-- R440. The core at reset: empty and not yet issuing (Hub.stopped). -/
def CoreSt.reset : CoreSt :=
  { openToWork := true, halfWidth := false, portFailed := false, halves := 0, issues := [], slotUse := [], insts := [], tenants := [], ctgen := 0
    ctab := Vector.replicate 32 0, mq := [], tfills := [], packets := [], selq := [], selbufs := [], copies := []
    bins := [] }

def MemSys.reset : MemSys :=
  { mem := [], poison := [], stores := [], loads := [], atoms := [], records := [], closed := [], epochs := []
    tlb := [], stale := [] }

def WorkSt.reset : WorkSt :=
  { qrun := [], lastServed := [], launches := [], jcwork := [], mailboxes := [], arrivals := [], appends := [], handlers := []
    pool := [] }

def ExitRing.reset : ExitRing := { base := 0, size := 0, wr := 0, rd := 0, lost := 0, mode := 0 }

def MboxHost.reset : MboxHost := { doorbell := 0, handler := 0, aspace := 0, result := 0 }

/-- R152, R413, R427 to R443. The hub at reset; the values of the configuration record are named in log entry 3. -/
def Hub.reset : Hub :=
  { fp16 := true, devid := 0, pmode := 0, stop := false, merr := false, cclk := 2400, powerCap := 5500, power := 0, pstate := 0
    fwlost := false, therm := false, kerr := false, werr := false, bootok := false, replace := false
    stopped := true, tripped := false, watchdog := 50000, wdClocks := 0, ctxaddr := 0, ctxcmd := 0, qdtbase := 0, astbase := 0
    invalva := 0, invalcmd := 0, invalBusy := false, invalFrom := 0, exits := Vector.replicate 8 ExitRing.reset
    frbase := 0, frsize := 0, frwr := 0, frrd := 0, frien := false, recarea := Vector.replicate 24 0
    windows := Vector.replicate 256 (0, 0), mboxBar0 := MboxHost.reset, mboxMgmt := MboxHost.reset
    evBase := 0, evSize := 0, evRd := 0, evWr := 0, evLost := 0, evEn := false, msix := false, faults := []
    bar4Req := List.replicate 4096 0, bar4Resp := List.replicate 4096 0, bar4Bell := 0
    counters := [], flash := [], fwDigest := List.replicate 32 0, cfgDigest := List.replicate 32 0, leaf := 0
    sends := [], putDropped := 0, seqs := [] }

/-- R440. The machine right after reset: every core and distributor stopped, no consort, no queue resident. -/
def State.reset : State :=
  { clock := 0, tick := 0, nextId := 1, iss := Issue.blank, consorts := [], core := CoreSt.reset, ms := MemSys.reset
    work := WorkSt.reset, hub := Hub.reset, inputs := [], outbox := [] }

end Sys2Proof.Machine
end

