-- ==== Sys2Proof/Machine/Base.lean ====
section
/-!
DEFINITION. The plainest operations that every other file uses: lists, vectors and masks, numbers and bytes, and finding and
changing the parts of State (spec/01_binary_and_assembly.md R19, R30; spec/02_encoding.md R75; spec/06_overlays.md R162).
-/

namespace Sys2Proof.Machine

/-! ### Lists, vectors and masks -/

/-- Entry i of a vector, d where there is none. -/
def vget {α : Type} {n : Nat} (v : Vector α n) (d : α) (i : Nat) : α := v.toList.getD i d

/-- The vector with entry i replaced; unchanged where there is none. -/
def vset {α : Type} {n : Nat} (v : Vector α n) (i : Nat) (x : α) : Vector α n := v.setIfInBounds i x

/-- The vector whose entry i is f i. -/
def vof {α : Type} (n : Nat) (f : Nat → α) : Vector α n := ⟨⟨(List.range n).map f⟩, by simp⟩

/-- Is bit l of a lane mask set? -/
def bit (m : BitVec 32) (l : Nat) : Bool := m.getLsbD l

/-- The lanes of a mask, ascending. -/
def lanesOf (m : BitVec 32) : List Nat := (List.range 32).filter (bit m)

/-- The mask of the lanes below 32 for which p holds. -/
def maskOf (p : Nat → Bool) : BitVec 32 :=
  BitVec.ofNat 32 ((List.range 32).foldr (fun l acc => if p l then 2 ^ l + acc else acc) 0)

/-- The lowest lane of a mask, 0 when it is empty. -/
def lowest (m : BitVec 32) : Nat := (lanesOf m).headD 0

/-- The number of lanes of a mask. -/
def popcount (m : BitVec 32) : Nat := (lanesOf m).length

/-- The sum of a list. -/
def total (xs : List Nat) : Nat := xs.foldl (· + ·) 0

/-- The first entry of a list that p picks, replaced by f of it. -/
def modFirst {α : Type} (p : α → Bool) (f : α → α) : List α → List α
  | [] => []
  | x :: xs => if p x then f x :: xs else x :: modFirst p f xs

/-- Run an update over a list of arguments, in order. -/
def forAll {α β : Type} (xs : List β) (s : α) (f : α → β → α) : α := xs.foldl f s

/-- Bits [hi:lo] of a number, as the spec writes them. -/
def field (x hi lo : Nat) : Nat := x / 2 ^ lo % 2 ^ (hi + 1 - lo)

/-- A number of n bytes, least significant first (R19). -/
def leNat : List Byte → Nat
  | [] => 0
  | b :: bs => b.toNat + 256 * leNat bs

/-- The n bytes of a number, least significant first (R19). -/
def leBytes : Nat → Nat → List Byte
  | 0, _ => []
  | n + 1, x => BitVec.ofNat 8 x :: leBytes n (x / 256)

/-- Bits [n-1:0] of x as a two's complement number. -/
def sextInt (n x : Nat) : Int :=
  let y := x % 2 ^ n
  if 2 ^ n ≤ 2 * y then (y : Int) - (2 ^ n : Nat) else (y : Int)

/-- R75. An immediate of n bits, with imm25 above it where a LIMM stands before the instruction, sign-extended. -/
def immInt (n x : Nat) (px : Option (BitVec 25)) : Int :=
  match px with
  | none => sextInt n x
  | some p => sextInt (n + 25) (p.toNat * 2 ^ n + x % 2 ^ n)

/-- R75. The 32-bit value of an immediate. -/
def imm32 (n x : Nat) (px : Option (BitVec 25)) : BitVec 32 := BitVec.ofInt 32 (immInt n x px)

/-- R75. The 64-bit value of an immediate. -/
def imm64 (n x : Nat) (px : Option (BitVec 25)) : DWord := BitVec.ofInt 64 (immInt n x px)

/-- R67, R75. The memory offset of an M or AT form: the LIMM's value, or zero. -/
def memOff (px : Option (BitVec 25)) : DWord :=
  match px with
  | none => 0
  | some p => BitVec.ofInt 64 (sextInt 25 p.toNat)

/-! ### Consorts and courses -/

def State.cons (s : State) (k : Nat) : Consort := (s.consorts.find? (·.id == k)).getD Consort.blank

def Consort.crs (q : Consort) (c : Nat) : Course := (q.courses.find? (·.idx == c)).getD Course.blank

def State.crs (s : State) (k c : Nat) : Course := (s.cons k).crs c

/-- The issuing consort and course. -/
def State.mine (s : State) : Consort := s.cons s.iss.k

def State.me (s : State) : Course := s.crs s.iss.k s.iss.c

def State.modCons (s : State) (k : Nat) (f : Consort → Consort) : State :=
  { s with consorts := modFirst (·.id == k) f s.consorts }

def Consort.modCrs (q : Consort) (c : Nat) (f : Course → Course) : Consort :=
  { q with courses := modFirst (·.idx == c) f q.courses }

def State.modCrs (s : State) (k c : Nat) (f : Course → Course) : State := s.modCons k (·.modCrs c f)

def State.modMe (s : State) (f : Course → Course) : State := s.modCrs s.iss.k s.iss.c f

def State.modMine (s : State) (f : Consort → Consort) : State := s.modCons s.iss.k f

def State.modMs (s : State) (f : MemSys → MemSys) : State := { s with ms := f s.ms }

def State.modCore (s : State) (f : CoreSt → CoreSt) : State := { s with core := f s.core }

def State.modHub (s : State) (f : Hub → Hub) : State := { s with hub := f s.hub }

def State.modWork (s : State) (f : WorkSt → WorkSt) : State := { s with work := f s.work }

/-- Does the issuing course exist? -/
def State.issuing (s : State) : Bool :=
  (s.consorts.find? (·.id == s.iss.k)).any (fun q => (q.courses.find? (·.idx == s.iss.c)).isSome)

/-- R30. The fields of the kernel header word. -/
def Header.vregs (h : Header) : Nat := field h.khw.toNat 19 13
def Header.sregs (h : Header) : Nat := 2 * (field h.khw.toNat 12 8 + 1)
def Header.producer (h : Header) : Nat := field h.khw.toNat 7 4
def Header.ntiles (h : Header) : Nat := field h.khw.toNat 3 0
def Header.compat (h : Header) : Bool := h.khw.getLsbD 21
def Header.probe (h : Header) : Bool := h.khw.getLsbD 20
/-- R113. HFLAGS. -/
def Header.checked (h : Header) : Bool := h.hflags.getLsbD 0
def Header.ctabbed (h : Header) : Bool := h.hflags.getLsbD 1

/-- Scalar register n of the issuing course. -/
def State.getS (s : State) (n : Nat) : DWord := vget s.me.s 0 n

def Course.setS (c : Course) (n : Nat) (x : DWord) : Course := { c with s := vset c.s n x }

def State.setS (s : State) (n : Nat) (x : DWord) : State := s.modMe (·.setS n x)

/-- Lane l of a vector register value. -/
def VReg.at (r : VReg) (l : Nat) : Word := vget r.lanes 0 l

/-- Vector register n of a course. -/
def Course.getV (c : Course) (n : Nat) : VReg := vget c.v VReg.zero n

/-- R195. Register n written in the lanes of set by f, with a tag; the other lanes keep their words. -/
def Course.putV (c : Course) (n : Nat) (tag : BitVec 4) (set : BitVec 32) (f : Nat → Word) : Course :=
  { c with v := vset c.v n { tag := tag, lanes := vof 32 (fun l => if bit set l then f l else (c.getV n).at l) } }

/-- R47. The reference n halfwords after r, in the same overlay. -/
def refAdd (r : BitVec 32) (n : Nat) : BitVec 32 :=
  BitVec.ofNat 32 (r.toNat / 65536 * 65536 + (r.toNat % 65536 + n) % 65536)

/-- The overlay id of a code reference (R27). -/
def refOv (r : BitVec 32) : BitVec 16 := BitVec.ofNat 16 (r.toNat / 65536)

/-- The lanes of set take the references f l. -/
def Course.setLpc (c : Course) (set : BitVec 32) (f : Nat → BitVec 32) : Course :=
  { c with lpc := vof 32 (fun l => if bit set l then f l else vget c.lpc 0 l) }

def Course.lpcAt (c : Course) (l : Nat) : BitVec 32 := vget c.lpc 0 l

def Course.laneAt (c : Course) (l : Nat) : LaneState := vget c.lane .off l

/-- The lanes of set take a state. -/
def Course.setLane (c : Course) (set : BitVec 32) (x : LaneState) : Course :=
  { c with lane := vof 32 (fun l => if bit set l then x else c.laneAt l) }

/-- The lanes in a state. -/
def Course.inState (c : Course) (p : LaneState → Bool) : BitVec 32 := maskOf (fun l => p (c.laneAt l))

def Course.running (c : Course) : BitVec 32 := c.inState (· == .running)
def Course.parkedLanes (c : Course) : BitVec 32 := c.inState (· == .parked)
def LaneState.isWaiting : LaneState → Bool
  | .waiting _ => true
  | _ => false
def Course.waitingLanes (c : Course) : BitVec 32 := c.inState LaneState.isWaiting
/-- R199. Lanes exited or off. -/
def Course.gone (c : Course) : BitVec 32 := c.inState (fun x => x == .exited || x == .off)

/-- R47. The lanes of set move past the instruction being issued. -/
def State.advance (s : State) (set : BitVec 32) : State :=
  s.modMe (·.setLpc set (fun _ => refAdd s.iss.at_ s.iss.len))

/-- The whole issue set moves past the instruction; a stall, if there was one, has ended. -/
def State.done (s : State) : State :=
  (s.advance s.iss.set).modMe (fun c => { c with stall := none })

/-! ### Residency (R162, R166) -/

/-- Does an instance hold overlay ov for a tenant's table? -/
def Inst.serves (i : Inst) (aspace : BitVec 16) (ot : DWord) (ov : BitVec 16) : Bool :=
  i.sharers.any (fun h => h.aspace == aspace && h.ot == ot && h.ov == ov)

def State.inst (s : State) (aspace : BitVec 16) (ot : DWord) (ov : BitVec 16) : Option Inst :=
  s.core.insts.find? (fun i => i.serves aspace ot ov)

/-- The instance a consort sees of an overlay of its own table. -/
def State.instFor (s : State) (q : Consort) (ov : BitVec 16) : Option Inst := s.inst q.aspace q.hdr.otaddr ov

end Sys2Proof.Machine
end

