-- ==== Sys2Proof/Machine/Xlate.lean ====
section
/-!
DEFINITION. Bytes of home memory, physical addresses, translation, and reading the tables of device memory: the overlay table
among them (spec/09_memory_access.md R252 to R259, R283; spec/00_scope.md R10 to R17; spec/01_binary_and_assembly.md R28, R29).
-/

namespace Sys2Proof.Machine

open Host (Cell)

/-! ### Bytes -/

/-- The canonical form: addresses strictly rising, and no entry equal to what an unlisted address reads as (zero). -/
abbrev Memory.wf (m : List Cell) : Prop := m.Pairwise (fun x y => x.1 < y.1) ∧ ∀ x ∈ m, x.2 ≠ 0

/-- What an address holds; an unlisted one reads zero (log entry 2). -/
def memGet : List Cell → Nat → Byte
  | [], _ => 0
  | x :: xs, a => bif x.1.beq a then x.2 else memGet xs a

/-- Writing a byte; writing zero removes the entry. -/
def memSet : List Cell → Nat → Byte → List Cell
  | [], a, b => if b = 0 then [] else [(a, b)]
  | x :: xs, a, b =>
    if x.1 < a then x :: memSet xs a b
    else if x.1 = a then (if b = 0 then xs else (a, b) :: xs)
    else if b = 0 then x :: xs else (a, b) :: x :: xs

/-- n bytes from an address up. -/
def memRead (m : List Cell) (a n : Nat) : List Byte := (List.range n).map (fun i => memGet m (a + i))

/-- Bytes written from an address up, in order. -/
def memWrite (m : List Cell) (a : Nat) : List Byte → List Cell
  | [] => m
  | b :: bs => memWrite (memSet m a b) (a + 1) bs

/-- Single bytes written, in order. -/
def memCells (m : List Cell) (cs : List Cell) : List Cell := cs.foldl (fun m x => memSet m x.1 x.2) m

/-- Home memory written from an address up. -/
def State.poke (s : State) (a : Nat) (bs : List Byte) : State := s.modMs (fun x => { x with mem := memWrite x.mem a bs })

/-- A little-endian number in home memory. -/
def State.peek (s : State) (a n : Nat) : Nat := leNat (memRead s.ms.mem a n)

/-! ### Physical addresses (R10, R11, R252) and partitions (R16, R151) -/

/-- R252. Is a physical address in the host region? -/
def isHost (pa : Nat) : Bool := pa / 2 ^ 41 == 1

/-- R10. The memory die of a device address. -/
def dieOf (pa : Nat) : Nat := pa / 2 ^ 36 % 32

/-- R11, R252. Does a physical address exist? -/
def paExists (pa : Nat) : Bool := isHost pa || (pa / 2 ^ 41 == 0 && dieOf pa < 24)

/-- R8, R16. The memory dies of the partition that holds pair 0, whose core this is: all in P1, those of one row in P2,
those of one pair in P8. -/
def partDies (mode : BitVec 2) : Nat := if mode = 0 then 24 else if mode = 1 then 12 else 3

/-- R151. Is an existing address in the partition? The host region is outside every partition's bound. -/
def inPart (mode : BitVec 2) (pa : Nat) : Bool := isHost pa || dieOf pa < partDies mode

def pageOk (mode : BitVec 2) (pa : Nat) : Bool := paExists pa && inPart mode pa

/-! ### Translation (R254 to R258, R436) -/

/-- R256. How a walk ends. The number of absent is the physical address of the entry whose V is 0 (R259). -/
inductive Walk where
  | absent (entry : Nat)
  | denied
  | leaf (e : TlbEntry)
  deriving DecidableEq, Repr

def walkLeaf (mode : BitVec 2) (aspace : BitVec 16) (va e shift : Nat) : Walk :=
  let base := field e 47 12 * 4096
  if field e 63 48 ≠ 0 ∨ field e 11 7 ≠ 0 ∨ field e 5 4 = 3 ∨ base % 2 ^ shift ≠ 0 ∨ !pageOk mode base then .denied
  else .leaf { aspace := aspace, vpn := va / 2 ^ shift, shift := shift, base := base
               r := field e 2 2 == 1, w := field e 3 3 == 1, chk := BitVec.ofNat 2 (field e 5 4) }

/-- R255. Is a pointer entry malformed? Only V and ADDR may be set, and the next table must be aligned and exist. -/
def badPointer (mode : BitVec 2) (e align : Nat) : Bool :=
  let base := field e 47 12 * 4096
  field e 63 48 ≠ 0 || field e 11 1 ≠ 0 || base % align ≠ 0 || !pageOk mode base

/-- R254 to R256, R436. The walk for an address in an address space, over home memory. R17 and R256 bound a walk's table levels by the
partition; the entry of the one address-space table is read wherever memory exists, and PS = 1 in a level-2 leaf ends the walk Denied
(the model's choices, log entry 72). -/
def State.walk (s : State) (aspace : BitVec 16) (va : DWord) : Walk :=
  let mode := s.hub.pmode
  let a := va.toNat
  if a / 2 ^ 56 ≠ 0 then .denied
  else
    let ast := s.hub.astbase.toNat + 8 * aspace.toNat
    let root := s.peek ast 8
    if !paExists ast || field root 0 0 = 0 || field root 63 48 ≠ 0 || field root 19 1 ≠ 0 then .denied
    else
      let l1 := field root 47 20 * 2 ^ 20 + 8 * (a / 2 ^ 39)
      if !pageOk mode l1 then .denied
      else
        let e1 := s.peek l1 8
        if field e1 0 0 = 0 then .absent l1
        else if badPointer mode e1 4096 then .denied
        else
          let l2 := field e1 47 12 * 4096 + 8 * field a 38 30
          let e2 := s.peek l2 8
          if field e2 0 0 = 0 then .absent l2
          else if field e2 1 1 = 1 then
            (if field e2 6 6 = 1 then .denied else walkLeaf mode aspace a e2 30)
          else if badPointer mode e2 (2 ^ 17) then .denied
          else
            let l3 := field e2 47 12 * 4096 + 8 * field a 29 16
            let e3 := s.peek l3 8
            if field e3 0 0 = 0 then .absent l3
            else if field e3 1 1 = 0 then .denied
            else walkLeaf mode aspace a e3 (if field e3 6 6 = 1 then 21 else 16)

def TlbEntry.covers (e : TlbEntry) (aspace : BitVec 16) (va : DWord) : Bool :=
  e.aspace == aspace && e.vpn == va.toNat / 2 ^ e.shift

/-- R17, R258, R284. The translation an access uses: the walk's, or, where a held translation within the partition differs from it, either
of the two, and for every byte of the page the same. -/
def State.lookup (s : State) (aspace : BitVec 16) (va : DWord) : Walk :=
  let w := s.walk aspace va
  match s.ms.tlb.find? (fun e => e.covers aspace va) with
  | some e => if w = .leaf e then w else if pageOk s.hub.pmode e.base && Config.stale s.tick (2 ^ 61 + e.vpn) then .leaf e else w
  | none => w

/-- R258. A translation that was used is held. -/
def State.hold (s : State) (aspace : BitVec 16) (va : DWord) : State :=
  match s.walk aspace va with
  | .leaf e => if s.ms.tlb.contains e then s else s.modMs (fun x => { x with tlb := x.tlb ++ [e] })
  | _ => s

/-- The outcome of translating and checking permission (R257). -/
inductive Xlat where
  | ok (pa : Nat) (checked : Bool)
  | denied
  | absent (entry : Nat)
  deriving DecidableEq, Repr

/-- R254 to R257, R386. Translate one address for an access that reads or writes; chkDefault is the HFLAGS.CHECKED of
the accessing consort's header. -/
def State.xlate (s : State) (aspace : BitVec 16) (chkDefault : Bool) (va : DWord) (rd wr : Bool) : Xlat :=
  match s.lookup aspace va with
  | .denied => .denied
  | .absent e => .absent e
  | .leaf e =>
    let pa := e.base + va.toNat % 2 ^ e.shift
    if (rd && !e.r) || (wr && !e.w) then .denied
    else .ok pa (!isHost pa && (e.chk == 2 || (e.chk == 0 && chkDefault)))

/-- n consecutive addresses translated, byte by byte; the first that fails decides, with its address. -/
def State.xlateRange (s : State) (aspace : BitVec 16) (chkDefault : Bool) (va : DWord) (rd wr : Bool) :
    Nat → Except (Xlat × DWord) (List (Nat × Bool))
  | 0 => .ok []
  | n + 1 =>
    match s.xlateRange aspace chkDefault va rd wr n with
    | .error x => .error x
    | .ok xs =>
      let a := va + BitVec.ofNat 64 n
      match s.xlate aspace chkDefault a rd wr with
      | .ok pa ch => .ok (xs ++ [(pa, ch)])
      | x => .error (x, a)

/-- Does a physical byte lie in a poisoned sector (R283)? -/
def State.poisoned (s : State) (pa : Nat) : Bool := s.ms.poison.contains (pa / 32)

/-! ### Tables in device memory -/

/-- How reading a range of device virtual memory ends. -/
inductive Fetched where
  | bytes (bs : List Byte) (pa : Nat)
  | absent (entry : Nat) (va : DWord)
  | denied (va : DWord)
  | poison (va : DWord)
  deriving DecidableEq, Repr

/-- R254 to R257, R283. n bytes of home memory at a virtual address, read with permission R and no race check. -/
def State.fetchVa (s : State) (aspace : BitVec 16) (va : DWord) (n : Nat) : Fetched :=
  match s.xlateRange aspace false va true false n with
  | .error (.absent e, a) => .absent e a
  | .error (_, a) => .denied a
  | .ok pas =>
    match ((pas.map (·.1)).zip (List.range n)).find? (fun x => s.poisoned x.1) with
    | some x => .poison (va + BitVec.ofNat 64 x.2)
    | none => .bytes (pas.map (fun x => memGet s.ms.mem x.1)) ((pas.head?.map (·.1)).getD 0)

/-! ### The overlay table (R28, R29) -/

/-- R28. COUNT of a consort's overlay table. -/
def State.fetchCount (s : State) (q : Consort) : Fetched := s.fetchVa q.aspace q.hdr.otaddr 4

/-- R28. The entry of overlay ov. -/
def State.fetchEntry (s : State) (q : Consort) (ov : Nat) : Fetched :=
  s.fetchVa q.aspace (q.hdr.otaddr + BitVec.ofNat 64 (128 * (ov + 1))) 128

/-- R28. The fields of an overlay entry. -/
def OvEntry.ofBytes (bs : List Byte) : OvEntry :=
  { base := BitVec.ofNat 64 (leNat (bs.take 8)), len := leNat ((bs.drop 8).take 4)
    oflags := BitVec.ofNat 16 (leNat ((bs.drop 12).take 2)), nentry := (bs.getD 14 0).toNat
    entryoff := (List.range 32).map (fun i => leNat ((bs.drop (0x30 + 2 * i)).take 2))
    digest := (bs.drop 0x10).take 32 }

/-- R28. OFLAGS[0]. -/
def OvEntry.shareable (e : OvEntry) : Bool := e.oflags.getLsbD 0

/-- R27, R29. Is an overlay id below COUNT? 0xFFFF is never valid. -/
def validId (count ov : Nat) : Bool := ov < count && ov < 0xFFFF

/-- R29. Is an entry well formed? -/
def OvEntry.ok (e : OvEntry) : Bool := 2 ≤ e.len && e.len ≤ 65536 && e.len % 2 == 0 && e.base.toNat % 256 == 0

end Sys2Proof.Machine
end

