-- ==== Sys2Proof/Machine/Ops.lean ====
section
/-!
DEFINITION. The named operations over registers, lanes, masks and ports, and taking a trap, shared by every meaning:
spec/07_issue_and_control.md (R190 to R199, R213), spec/08_lane_instructions.md (R247, R248),
spec/15_interruption.md (R401 to R410), spec/06_overlays.md (R178 to R182).
-/

namespace Sys2Proof.Machine

/-! ### Masks and lane states (R192 to R199) -/

/-- R196, R211. The instruction that a course stands at while it waits in it: no other lane of the course issues meanwhile (log
entry 66). -/
def Course.standing (c : Course) : Option Issue :=
  match c.hold with
  | .arwait _ _ _ iss => some iss
  | .jcwait _ _ _ iss => some iss
  | .achjoin _ iss => some iss
  | .achwait _ _ iss => some iss
  | _ => (c.stall.filter (·.why == .waitc)).map (·.iss)

/-- R192. The issue set, with the lapped marks as they stand after forming it; none when the course has none. While the course
waits in an instruction its issue set is that instruction's. -/
def Course.issueSet (c : Course) : Option (BitVec 32 × BitVec 32) :=
  let run := c.running
  let stay := ((c.standing.map (·.set)).getD 0) &&& run
  if run = 0 then none
  else if stay ≠ 0 then some (stay, c.lapped)
  else
    let fresh := run &&& ~~~c.lapped
    let (cand, laps) := if fresh = 0 then (run, 0#32) else (fresh, c.lapped)
    let low := (lanesOf cand).foldl (fun m l => min m (c.lpcAt l).toNat) (2 ^ 32)
    some (maskOf (fun l => bit cand l && (c.lpcAt l).toNat == low), laps)

/-- Mask register n. -/
def Course.getM (c : Course) (n : Nat) : BitVec 32 := vget c.m 0 n

def Course.setM (c : Course) (n : Nat) (x : BitVec 32) : Course := { c with m := vset c.m n x }

/-- The lanes that wait on mask n. -/
def Course.waitingOn (c : Course) (n : Nat) : BitVec 32 := c.inState (· == .waiting (BitVec.ofNat 4 n))

/-- R156, R200. The stall of the instruction that the issue set of a course stands at. -/
def Course.stalled (c : Course) : Option Stall :=
  match c.issueSet with
  | some (set, _) => c.stall.filter (fun st => st.iss.at_ == c.lpcAt (lowest set))
  | none => none

/-- R157. Register lines that have been written are dirty. -/
def Course.soil (c : Course) (rs : List Nat) : Course :=
  { c with lines := c.lines.map (fun l => if rs.contains l.reg then { l with dirty := true } else l) }

/-- R198. Release mask n if every member waits on it and some lane does. What a failed load gave a waiting lane it takes where it
goes on (R186). -/
def Course.release1 (c : Course) (n : Nat) : Course :=
  let w := c.waitingOn n
  if w ≠ 0 ∧ c.getM n &&& ~~~w = 0 then
    let ret := refAdd (c.lpcAt (lowest w)) 2
    let move (f : FetchFault) : FetchFault := if bit w f.lane ∧ f.ref = c.lpcAt f.lane then { f with ref := ret } else f
    { ((c.setLane w .running).setLpc w (fun _ => ret)) with fetchFault := c.fetchFault.map move }
  else c

/-- R198. The condition is tested for every mask. -/
def Course.releaseMasks (c : Course) : Course := forAll (List.range 12) c Course.release1

/-- R197, R407. The lanes of set become exited or off: they leave every mask, the handler mask and the lapped marks. -/
def Course.leave (c : Course) (set : BitVec 32) (x : LaneState) : Course :=
  ({ (c.setLane set x) with
      m := vof 12 (fun n => c.getM n &&& ~~~set), hmask := c.hmask &&& ~~~set, lapped := c.lapped &&& ~~~set }
    ).releaseMasks

/-- R196, R216. No lane of the course runs, waits or is parked. -/
def Course.ended (c : Course) : Bool := c.running = 0 && c.waitingLanes = 0 && c.parkedLanes = 0

/-! ### Causes and TRAPINFO (R401 to R404) -/

/-- R402. -/
def Cause.code : Cause → BitVec 8
  | .exit => 0x00 | .illegal => 0x01 | .profile => 0x02 | .format => 0x03 | .uniform => 0x04 | .badHandle => 0x05
  | .xlateAbsent => 0x06 | .xlateDenied => 0x07 | .misalign => 0x08 | .race => 0x09 | .recordFull => 0x0A
  | .copyRights => 0x0B | .multicastPartial => 0x0C | .binOverflow => 0x0D | .acnNorecv => 0x0E | .acnBadchain => 0x0F
  | .acnReserve => 0x10 | .versionWait => 0x11 | .queueStall => 0x12 | .overlayMiss => 0x13 | .launchBad => 0x14
  | .queueBad => 0x15 | .trap => 0x16 | .brk => 0x17 | .poison => 0x18 | .portFail => 0x19 | .killed => 0x1A
  | .lanesOff => 0x1B | .codeTableBusy => 0x1C | .maskDeadlock => 0x1D

/-- Every cause, for looking a code up. -/
def Cause.all : List Cause :=
  [.exit, .illegal, .profile, .format, .uniform, .badHandle, .xlateAbsent, .xlateDenied, .misalign, .race, .recordFull,
   .copyRights, .multicastPartial, .binOverflow, .acnNorecv, .acnBadchain, .acnReserve, .versionWait, .queueStall,
   .overlayMiss, .launchBad, .queueBad, .trap, .brk, .poison, .portFail, .killed, .lanesOff, .codeTableBusy,
   .maskDeadlock]

def Cause.ofCode (n : BitVec 8) : Option Cause := Cause.all.find? (fun c => c.code == n)

/-- R402. The causes of trap class. -/
def Cause.trapClass : Cause → Bool
  | .exit | .xlateAbsent | .binOverflow | .launchBad | .queueBad | .portFail | .killed | .lanesOff => false
  | _ => true

/-- R79. ENC, SUB and REG. -/
def info79 (enc : BitVec 32) (sub reg : Nat) : DWord := BitVec.ofNat 64 (enc.toNat * 2 ^ 32 + sub * 256 + reg)

/-- R260. LANE, WR, SCR and ADDR. -/
def info260 (lane : Nat) (wr scr : Bool) (addr : Nat) : DWord :=
  BitVec.ofNat 64 (lane * 2 ^ 59 + wr.toNat * 2 ^ 58 + scr.toNat * 2 ^ 57 + addr % 2 ^ 56)

/-! ### Breaking the chain bindings of a course (R355) -/

/-- R355. Consort number num's contribution to an epoch of chain n of a consort of its gang becomes broken. -/
def Consort.breakMember (q : Consort) (n : Nat) (epoch : Nat) (num : Nat) : Consort :=
  let ch := vget q.chains Chain.blank n
  if ch.st = .opened ∧ ch.epoch = epoch ∧ !ch.got.getLsbD num ∧ !ch.broken.getLsbD num ∧ ch.members.getLsbD num then
    { q with chains := vset q.chains n { ch with broken := ch.broken ||| (1#64 <<< num) } }
  else q

/-- The members of a list, ascending. -/
def memberList (m : BitVec 64) : List Nat := (List.range 64).filter (fun i => m.getLsbD i)

/-- R142. Do two consorts belong to one gang? -/
def Consort.mateOf (q r : Consort) : Bool := r.launch == q.launch && r.gang == q.gang

/-- R352. Does the packet of the epoch of a binding of consort q wait in the buffers that the binding reserves? -/
def State.packetIn (s : State) (q : Consort) (b : Binding) : Bool :=
  !b.exact && s.consorts.any (fun r => q.mateOf r && r.num == b.rcv.toNat &&
    (let h := vget r.chains Chain.blank b.chn.toNat
     h.st == .opened && h.epoch == b.epoch && h.packet.isSome && (memberList h.members)[h.passed]? == some q.num))

/-- R352, R355. Bindings of consort k that will contribute nothing are released; one whose buffers hold a packet keeps them until
the packet has moved on. -/
def State.dropBindings (s : State) (k : Nat) (p : Binding → Bool) : State :=
  s.modCons k (fun q =>
    { q with bindings := q.bindings.flatMap (fun b =>
        if !p b then [b] else if s.packetIn q b then [{ b with sent := true }] else []) })

/-- R355. The unsent bindings that course c of consort k owns become broken contributions. -/
def State.breakBindings (s : State) (k c : Nat) : State :=
  let q := s.cons k
  let own (b : Binding) : Bool := b.owner == c && !b.sent
  forAll (q.bindings.filter own) (s.dropBindings k own) (fun s b =>
    { s with consorts := s.consorts.map (fun r =>
        if q.mateOf r && r.num == b.rcv.toNat && r.place != .retired
        then r.breakMember b.chn.toNat b.epoch q.num else r) })

/-! ### Termination and trap entry (R405 to R410) -/

/-- R410. A course ends: every lane exits and it issues nothing more. -/
def State.terminate (s : State) (k c : Nat) (t : Termination) : State :=
  (s.modCrs k c (fun x =>
      { (x.leave 0xFFFFFFFF#32 .exited) with term := some (x.term.getD t), hold := .none, stall := none, refused := []
                                             fetchFault := [], entered := none })
    ).breakBindings k c

/-- A trap-class cause that lanes take: the lanes, the cause and TRAPINFO (that of its lowest lane). -/
structure TrapGroup where
  cause : Cause
  lanes : BitVec 32
  info : DWord
  deriving DecidableEq, Repr

/-- R409. The trap state after a delivery. -/
def Course.trapState (c : Course) (ref : BitVec 32) (cause : Cause) (info : DWord) (d : BitVec 32) : Course :=
  { c with
    hmask := c.hmask ||| d
    trapcause := cause.code
    trapinfo := info
    lastref := BitVec.ofNat 40 (cause.code.toNat * 2 ^ 32 + ref.toNat)
    ntraps := if c.ntraps = 0xFFFFFFFF#32 then c.ntraps else c.ntraps + 1 }

/-- R179. MISSREF. -/
def missref (kind ov : Nat) (from_ : BitVec 32) : DWord := BitVec.ofNat 64 (kind * 2 ^ 61 + ov * 2 ^ 32 + from_.toNat)

/-- R177, R193. Lanes of set whose target is at or below the instruction's own reference (inclusive), or below it, are
lapped. -/
def Course.lapTo (c : Course) (set : BitVec 32) (own : BitVec 32) (inclusive : Bool) : Course :=
  let laps := maskOf (fun l => bit set l &&
    (if inclusive then decide ((c.lpcAt l).toNat ≤ own.toNat) else decide ((c.lpcAt l).toNat < own.toNat)))
  { c with lapped := c.lapped ||| laps }

/-- R202, R207, R406. What an entry of lanes d into the handler at a clock replaces; link is the trap link register. -/
def Course.beforeEntry (c : Course) (clock : Nat) (d : BitVec 32) (link : Nat) : TrapEntry :=
  { upTo := clock + 2, lanes := d, lpc := c.lpc, link := c.getV link, hmask := c.hmask, trapcause := c.trapcause
    trapinfo := c.trapinfo, missref := c.missref, lastref := c.lastref, ntraps := c.ntraps, tokens := [], refused := [], merrs := []
    fetchFault := [] }

/-- R207. Of what a course has consumed since it was `was`, the entry it now makes keeps hold. -/
def Course.keepConsumed (x was : Course) : Course :=
  { x with entered := x.entered.map (fun e => { e with
      tokens := (List.range 8).filterMap (fun n =>
        let t := vget was.tokens Token.fresh n
        match t.st, (vget x.tokens Token.fresh n).st with
        | .error _, .free => some (n, t)
        | _, _ => none)
      refused := was.refused.filter (fun r => !x.refused.contains r)
      merrs := was.merrs.filter (fun r => !x.merrs.contains r)
      fetchFault := was.fetchFault.filter (fun r => !x.fetchFault.contains r) }) }

/-- R29. Has a handler that is absent no code to bring in: an overlay id that is not below COUNT, or a malformed entry? Where the
table cannot be read, the transfer goes on as a miss (log entry 11). -/
def State.handlerBad (s : State) (q : Consort) : Bool :=
  let ov := (refOv q.hdr.traph).toNat
  match s.fetchCount q with
  | .bytes cnt _ => !validId (leNat cnt) ov || (match s.fetchEntry q ov with
      | .bytes bs _ => !(OvEntry.ofBytes bs).ok
      | _ => false)
  | _ => false

/-- R406, R182. The delivered lanes d of course c of consort k enter the trap handler, each with its return reference; a
handler whose overlay is absent is reached through the overlay manager (R177: lanes that go down to it are lapped), and
without a manager the course ends; it ends with BAD_HANDLE where the table has no such handler (R29, log entry 11). ref is the
reference of the instruction. -/
def State.enterHandler (s : State) (k c : Nat) (ref : BitVec 32) (ret : Nat → BitVec 32) (g : TrapGroup) : State :=
  let q := s.cons k
  let d := g.lanes
  let link := q.hdr.vregs - 1
  let dead : Termination := { cls := 1, cause := g.cause, lanes := d, ref := ref }
  if q.hdr.traph = 0xFFFFFFFF#32 then s.terminate k c dead
  else
    let enter (target : BitVec 32) (x : Course) : Course :=
      { ((((x.putV link 5 d ret).setLpc d (fun _ => target)).setLane d .running).trapState ref g.cause g.info d) with
        lapped := x.lapped &&& ~~~d, stall := none, entered := some (x.beforeEntry s.clock d link) }
    match s.instFor q (refOv q.hdr.traph) with
    | some _ => s.modCrs k c (enter q.hdr.traph)
    | none =>
      if s.handlerBad q then s.terminate k c { dead with cause := .badHandle }
      else if q.hdr.ovmgr = 0xFFFFFFFF#32 then s.terminate k c dead
      else s.modCrs k c (fun x =>
        { ((enter q.hdr.ovmgr x).lapTo d ref false) with missref := missref 4 (refOv q.hdr.traph).toNat q.hdr.traph })

/-- R413. The lanes issued with the present instruction of course (k, c) that REFUSE let go and that have not taken their causes. -/
def State.refusedNow (s : State) (k c : Nat) : BitVec 32 :=
  let x := s.crs k c
  if k = s.iss.k ∧ c = s.iss.c then
    maskOf (fun l => bit s.iss.refused l && bit x.running l && !bit x.lapped l && x.lpcAt l == s.iss.at_)
  else 0

/-- R413. The causes of those lanes, as trap groups. -/
def State.refusedGroups (s : State) (k c : Nat) : List TrapGroup :=
  let x := s.crs k c
  let now := s.refusedNow k c
  if now = 0 then []
  else Cause.all.filterMap (fun cause =>
    let lanes := maskOf (fun l => bit now l && x.refused.any (fun r => r.cause == cause.code && r.lane == l && r.ref == s.iss.at_))
    let l := lowest lanes
    if lanes = 0 then none
    else some { cause := cause, lanes := lanes, info := info260 l (bit x.parkWr l) false (vget x.parkAddr 0 l).toNat })

/-- R413. Refused lanes that have taken their causes are refused no longer. -/
def Course.unrefuse (c : Course) (g : TrapGroup) : Course :=
  { c with refused := c.refused.filter (fun r => !(bit g.lanes r.lane && r.cause == g.cause.code)) }

/-- R405, R407. The causes that lanes of one issue have taken, by group, are resolved: the cause of the lowest lane is
delivered to the lanes that took it, the other trapping lanes stay with a lapped mark; while HMASK is nonzero a cause of a handling
lane ends the course and one of other lanes is not delivered. -/
def State.resolve (s : State) (k c : Nat) (ref : BitVec 32) (ret : Nat → BitVec 32) (gs : List TrapGroup) : State :=
  let x := s.crs k c
  let all := gs.foldl (fun m g => m ||| g.lanes) 0
  let pick (among : BitVec 32) : Option TrapGroup := (gs.find? (fun g => bit g.lanes (lowest among))).map (fun g =>
    { g with lanes := gs.foldl (fun m h => if h.cause = g.cause then m ||| h.lanes else m) 0 })
  let lap (keep : BitVec 32) (s : State) : State :=
    s.modCrs k c (fun x => { x with lapped := x.lapped ||| (all &&& ~~~keep) })
  if all = 0 then s
  else if x.hmask = 0 then
    match pick all with
    | some g => ((lap g.lanes s).modCrs k c (·.unrefuse g)).enterHandler k c ref ret g
    | none => s
  else if all &&& x.hmask = 0 then (lap 0 s).modCrs k c (fun x => { x with stall := none })
  else match pick (all &&& x.hmask) with
    | some g => s.terminate k c { cls := 1, cause := g.cause, lanes := g.lanes, ref := ref }
    | none => s

/-- R405, R413. The causes that lanes of one issue have taken are resolved, with those that REFUSE gave lanes issued with them. -/
def State.deliver (s : State) (k c : Nat) (ref : BitVec 32) (ret : Nat → BitVec 32) (gs : List TrapGroup) : State :=
  match s.refusedGroups k c with
  | [] => s.resolve k c ref ret gs
  | rs =>
    let now := s.refusedNow k c
    s.resolve k c ref (fun l => if bit now l then s.iss.at_ else ret l) (gs ++ rs)

/-- R196. When lanes wait and none runs or is parked, the waiting lanes take MASK_DEADLOCK at their WAITM. -/
def State.checkDeadlock (s : State) (k c : Nat) : State :=
  let x := s.crs k c
  let w := x.waitingLanes
  if w ≠ 0 ∧ x.running = 0 ∧ x.parkedLanes = 0 then
    s.deliver k c (x.lpcAt (lowest w)) x.lpcAt
      [{ cause := .maskDeadlock, lanes := w, info := BitVec.ofNat 64 w.toNat }]
  else s

/-- R80, R405, R408. Every lane issued takes a cause at the instruction, with the given TRAPINFO; the return reference is the
instruction, or its LIMM. -/
def State.trapWhole (s : State) (cause : Cause) (info : DWord) : State :=
  s.deliver s.iss.k s.iss.c s.iss.own (fun _ => s.iss.at_)
    [{ cause := cause, lanes := s.iss.set ||| s.refusedNow s.iss.k s.iss.c, info := info }]

/-- R404. A whole-issue cause with the layout of R79, SUB = 0 and REG the operand at fault. -/
def State.fail (s : State) (cause : Cause) (reg : Nat) : State := s.trapWhole cause (info79 s.iss.enc 0 reg)

/-- R32. An operand beyond the declared counts. -/
def State.failCount (s : State) (reg : Nat) : State := s.trapWhole .illegal (info79 s.iss.enc 1 reg)

/-- R247, R200. The instruction does not issue: nothing of it is done, and the course waits, at a port where reg names one.
The clock of the limit runs on from the first stall of the same kind at the instruction. -/
def State.stallAt (s : State) (why : StallWhy) (reg : Nat) : State :=
  s.modMe (fun c =>
    let fresh : Stall := { why := why, since := s.clock, iss := s.iss, buffers := 0, reg := reg, drain := [] }
    { c with
      stall := match c.stall with
        | some st => if st.why = why ∧ st.iss.at_ = s.iss.at_ then some { st with iss := s.iss, reg := reg } else some fresh
        | none => some fresh })

/-- R200. A stall at no port. -/
def State.stallFor (s : State) (why : StallWhy) : State := s.stallAt why 0

/-! ### The miss path (R178, R180) -/

/-- R178, R180. The lanes of set miss an overlay: to the manager, or OVERLAY_MISS where there is none. -/
def State.miss (s : State) (set : BitVec 32) (kind : Nat) (ov : BitVec 16) : State :=
  let q := s.mine
  let mr := missref kind ov.toNat s.iss.own
  let s1 := s.modMe (fun c => { c with missref := mr })
  if q.hdr.ovmgr = 0xFFFFFFFF#32 then
    s1.deliver s.iss.k s.iss.c s.iss.own (fun _ => s.iss.at_)
      [{ cause := .overlayMiss, lanes := set, info := mr }]
  else s1.modMe (fun c => (c.setLpc set (fun _ => q.hdr.ovmgr)).lapTo set s.iss.own false)

/-! ### Queue ports (R247, R248) -/

/-- Does a 7-bit operand name a queue port (R49)? -/
def isPort (v : BitVec 7) : Bool := 112 ≤ v.toNat

/-- The port an operand names. -/
def portOf (v : BitVec 7) : Nat := v.toNat - 112

def Course.port (c : Course) (q : Nat) : Port := vget c.ports Port.unbound q

def Course.setPort (c : Course) (q : Nat) (p : Port) : Course := { c with ports := vset c.ports q p }

/-- R248. KINDs 0, 1, 2 and 4 are sources; 3 and 5 are sinks. -/
def Port.isSource (p : Port) : Bool := p.bound && (p.kind = 0 || p.kind = 1 || p.kind = 2 || p.kind = 4)
def Port.isSink (p : Port) : Bool := p.bound && (p.kind = 3 || p.kind = 5)

/-- R202, R247. The elements at the head of channel n that instructions not past their checks have popped: they are no other's. -/
def Consort.popped (q : Consort) (n : Nat) : Nat :=
  total (q.courses.flatMap (fun x => match x.unchecked with
    | some u => (u.pops.filter (·.1 == n)).map (·.2)
    | none => []))

/-- The elements a source port offers: its own, or its channel's. -/
def State.portElems (s : State) (k c q : Nat) : List Elem :=
  let p := (s.crs k c).port q
  if p.kind = 2 then (vget (s.cons k).channels [] p.chan.toNat).drop ((s.cons k).popped p.chan.toNat) else p.elems

/-- R247, R332. The room of a sink port, or of its channel, that queued ACCRDs hold for their readouts. -/
def State.portHeld (s : State) (k c q : Nat) : Nat :=
  let p := (s.crs k c).port q
  let same (e : MqEntry) (v : BitVec 7) : Bool :=
    let o := (s.crs k e.c).port (portOf v)
    e.k == k && isPort v && (if p.kind = 3 then o.bound && o.kind == 3 && o.chan == p.chan else e.c == c && portOf v == q)
  total (s.core.mq.map (fun e => match e.op with
    | .accrd v _ _ _ set => if same e v then popcount set else 0
    | _ => 0))

/-- R247, R248. Free room of a sink port, in elements. -/
def State.portRoom (s : State) (k c q : Nat) : Nat :=
  let p := (s.crs k c).port q
  (if p.kind = 3 then 64 - (vget (s.cons k).channels [] p.chan.toNat).length else 64 - p.part.length) - s.portHeld k c q

/-- The first n elements leave a source port. -/
def State.portDrop (s : State) (k c q n : Nat) : State :=
  let p := (s.crs k c).port q
  if p.kind = 2 then
    s.modCons k (fun r =>
      let es := vget r.channels [] p.chan.toNat
      let m := r.popped p.chan.toNat
      { r with channels := vset r.channels p.chan.toNat (es.take m ++ es.drop (m + n)) })
  else s.modCrs k c (fun x => x.setPort q { p with elems := p.elems.drop n })

/-- Elements enter a sink port, in order. -/
def State.portPush (s : State) (k c q : Nat) (es : List Elem) : State :=
  let p := (s.crs k c).port q
  if p.kind = 3 then
    s.modCons k (fun r => { r with channels := vset r.channels p.chan.toNat (vget r.channels [] p.chan.toNat ++ es) })
  else s.modCrs k c (fun x => x.setPort q { p with part := p.part ++ es.map (·.val) })

/-- Elements of an engine enter a source port (R248, KINDs 0, 1 and 4). -/
def State.portFeed (s : State) (k c q : Nat) (es : List Elem) : State :=
  s.modCrs k c (fun x => let p := x.port q; x.setPort q { p with elems := p.elems ++ es })

end Sys2Proof.Machine
end

