-- ==== Sys2Proof/Machine/Num.lean ====
section
/-!
DEFINITION. Number formats and exact arithmetic with one rounding (spec/03_numbers.md R83 to R91, R105). A value is an
exact dyadic number, an infinity or a NaN; operations are exact, and rounding to a format is one function.
-/

namespace Sys2Proof.Machine

/-- R83. A floating-point format: exponent bits, fraction bits, bias. -/
structure Fmt where
  eb : Nat
  mb : Nat
  bias : Nat
  deriving DecidableEq, Repr

def F32 : Fmt := { eb := 8, mb := 23, bias := 127 }
def BF16 : Fmt := { eb := 8, mb := 7, bias := 127 }
def F16 : Fmt := { eb := 5, mb := 10, bias := 15 }
def AX40 : Fmt := { eb := 8, mb := 31, bias := 127 }

/-- The exponent field of all ones. -/
def Fmt.emax (f : Fmt) : Nat := 2 ^ f.eb - 1

/-- R83. The canonical NaN. -/
def Fmt.nan (f : Fmt) : Nat := f.emax * 2 ^ f.mb + 2 ^ (f.mb - 1)

def Fmt.sign (f : Fmt) (neg : Bool) : Nat := if neg then 2 ^ (f.eb + f.mb) else 0

/-- A value: NaN, an infinity, or (−1)^neg × m × 2^e; m = 0 is a zero with its sign. -/
inductive Num where
  | nan
  | inf (neg : Bool)
  | num (neg : Bool) (m : Nat) (e : Int)
  deriving DecidableEq, Repr

/-- R83. The value of an element's bits. -/
def Fmt.val (f : Fmt) (x : Nat) : Num :=
  let neg := field x (f.eb + f.mb) (f.eb + f.mb) == 1
  let ex := x / 2 ^ f.mb % 2 ^ f.eb
  let fr := x % 2 ^ f.mb
  if ex = f.emax then (if fr = 0 then .inf neg else .nan)
  else if ex = 0 then .num neg fr (1 - (f.bias : Int) - f.mb)
  else .num neg (2 ^ f.mb + fr) ((ex : Int) - f.bias - f.mb)

/-- R87. Does a magnitude with remainder rem of unit (nonzero) round away from zero? -/
def roundsUp (rm : BitVec 2) (neg odd : Bool) (rem unit : Nat) : Bool :=
  if rem = 0 then false
  else if rm = 0 then (if 2 * rem = unit then odd else decide (unit < 2 * rem))
  else if rm = 1 then false
  else if rm = 2 then !neg
  else neg

/-- R87. An overflow, by mode: an infinity or the largest finite value. -/
def Fmt.over (f : Fmt) (rm : BitVec 2) (neg : Bool) : Nat :=
  f.sign neg + (if rm = 0 || (rm = 2 && !neg) || (rm = 3 && neg) then f.emax * 2 ^ f.mb else f.emax * 2 ^ f.mb - 1)

/-- R87. The bits of a value rounded once to a format. -/
def Fmt.round (f : Fmt) (rm : BitVec 2) : Num → Nat
  | .nan => f.nan
  | .inf neg => f.sign neg + f.emax * 2 ^ f.mb
  | .num neg m e =>
    if m = 0 then f.sign neg
    else
      let top := (Nat.log2 m : Int) + e
      let q := max top (1 - (f.bias : Int)) - f.mb
      let sh := q - e
      let mant := if sh ≤ 0 then m * 2 ^ (-sh).toNat
        else
          let u := 2 ^ sh.toNat
          m / u + (if roundsUp rm neg (m / u % 2 == 1) (m % u) u then 1 else 0)
      let be := (q + f.mb + f.bias - 1).toNat
      let r := be * 2 ^ f.mb + mant
      if f.emax * 2 ^ f.mb ≤ r then f.over rm neg else f.sign neg + r

/-- R88. FTZ on an element's bits: a subnormal becomes a zero of the same sign. -/
def Fmt.flush (f : Fmt) (ftz : Bool) (x : Nat) : Nat :=
  if ftz && x / 2 ^ f.mb % 2 ^ f.eb == 0 then f.sign (field x (f.eb + f.mb) (f.eb + f.mb) == 1) else x

/-- The signed mantissa of a finite value at exponent e (at or below its own). -/
def scaled (neg : Bool) (m : Nat) (e low : Int) : Int :=
  let v : Int := (m * 2 ^ (e - low).toNat : Nat)
  if neg then -v else v

/-- A value from a signed mantissa; zero takes the given sign. -/
def Num.ofInt (x : Int) (e : Int) (zneg : Bool) : Num :=
  if x = 0 then .num zneg 0 0 else .num (decide (x < 0)) x.natAbs e

/-- R87. The exact sum; an exact zero of opposite signs is +0, −0 under RDN. -/
def Num.add (rm : BitVec 2) : Num → Num → Num
  | .nan, _ => .nan
  | _, .nan => .nan
  | .inf a, .inf b => if a = b then .inf a else .nan
  | .inf a, _ => .inf a
  | _, .inf b => .inf b
  | .num n1 m1 e1, .num n2 m2 e2 =>
    let low := min e1 e2
    Num.ofInt (scaled n1 m1 e1 low + scaled n2 m2 e2 low) low (if n1 = n2 then n1 else rm == 3)

def Num.neg : Num → Num
  | .nan => .nan
  | .inf a => .inf (!a)
  | .num n m e => .num (!n) m e

/-- The exact product. -/
def Num.mul : Num → Num → Num
  | .nan, _ => .nan
  | _, .nan => .nan
  | .inf a, .inf b => .inf (a != b)
  | .inf a, .num n m _ => if m = 0 then .nan else .inf (a != n)
  | .num n m _, .inf a => if m = 0 then .nan else .inf (a != n)
  | .num n1 m1 e1, .num n2 m2 e2 => .num (n1 != n2) (m1 * m2) (e1 + e2)

/-- The quotient, exact or with a sticky bit far below any format's last place. -/
def Num.div : Num → Num → Num
  | .nan, _ => .nan
  | _, .nan => .nan
  | .inf _, .inf _ => .nan
  | .inf a, .num n _ _ => .inf (a != n)
  | .num n _ _, .inf a => .num (n != a) 0 0
  | .num n1 m1 e1, .num n2 m2 e2 =>
    if m2 = 0 then (if m1 = 0 then .nan else .inf (n1 != n2))
    else
      let k := 100 + Nat.log2 m2
      let q := m1 * 2 ^ k / m2
      .num (n1 != n2) (2 * q + (if m1 * 2 ^ k % m2 = 0 then 0 else 1)) (e1 - e2 - k - 1)

/-- The integer square root of x below 2^(2n), bit by bit. -/
def isqrt (x : Nat) : Nat → Nat
  | 0 => 0
  | n + 1 =>
    let r := isqrt (x / 4) n
    if (2 * r + 1) * (2 * r + 1) ≤ x then 2 * r + 1 else 2 * r

/-- The square root, exact or with a sticky bit; −0 gives −0 and other negatives NaN. -/
def Num.sqrt : Num → Num
  | .nan => .nan
  | .inf neg => if neg then .nan else .inf false
  | .num neg m e =>
    if m = 0 then .num neg 0 0
    else if neg then .nan
    else
      let (m', e') := if e % 2 = 0 then (m * 2 ^ 120, e - 120) else (m * 2 ^ 121, e - 121)
      let r := isqrt m' 100
      .num false (2 * r + (if r * r = m' then 0 else 1)) (e' / 2 - 1)

/-- a < b, a = b, or unordered; zeros of either sign are equal. -/
inductive Ord3 where
  | lt | eq | gt | un
  deriving DecidableEq, Repr

def Num.cmp : Num → Num → Ord3
  | .nan, _ => .un
  | _, .nan => .un
  | .inf a, .inf b => if a = b then .eq else if a then .lt else .gt
  | .inf a, _ => if a then .lt else .gt
  | _, .inf b => if b then .gt else .lt
  | .num n1 m1 e1, .num n2 m2 e2 =>
    let low := min e1 e2
    let x := scaled n1 m1 e1 low
    let y := scaled n2 m2 e2 low
    if x < y then .lt else if x = y then .eq else .gt

/-- R85. The minimum (or maximum) of two elements' bits. -/
def Fmt.minmax (f : Fmt) (mx : Bool) (x y : Nat) : Nat :=
  let neg (b : Nat) : Bool := field b (f.eb + f.mb) (f.eb + f.mb) == 1
  match (f.val x).cmp (f.val y) with
  | .lt => if mx then y else x
  | .gt => if mx then x else y
  | .eq => if neg x == mx then y else x
  | .un =>
    if f.val x = .nan then (if f.val y = .nan then f.nan else y) else x

/-- F32 addition, RNE (R87). -/
def addF32 (x y : Word) : Word := BitVec.ofNat 32 (F32.round 0 ((F32.val x.toNat).add 0 (F32.val y.toNat)))

def mulF32 (x y : Word) : Word := BitVec.ofNat 32 (F32.round 0 ((F32.val x.toNat).mul (F32.val y.toNat)))

def negF32 (x : Word) : Word := x ^^^ 0x80000000#32

/-- R105. An integer clamped to n bits, two's complement. -/
def clampInt (n : Nat) (x : Int) : Int :=
  if x < -(2 ^ (n - 1) : Nat) then -(2 ^ (n - 1) : Nat) else if (2 ^ (n - 1) : Nat) ≤ x then (2 ^ (n - 1) : Nat) - 1 else x

/-- An integer clamped to n bits, unsigned. -/
def clampNat (n : Nat) (x : Int) : Int := if x < 0 then 0 else if (2 ^ n : Nat) ≤ x then (2 ^ n : Nat) - 1 else x

/-- A finite value rounded to an integer, by mode. -/
def roundInt (rm : BitVec 2) (neg : Bool) (m : Nat) (e : Int) : Int :=
  let mag : Nat :=
    if 0 ≤ e then m * 2 ^ e.toNat
    else
      let u := 2 ^ (-e).toNat
      m / u + (if roundsUp rm neg (m / u % 2 == 1) (m % u) u then 1 else 0)
  if neg then -(mag : Int) else (mag : Int)

/-- ⌊x⌋ of a finite value. -/
def floorInt (neg : Bool) (m : Nat) (e : Int) : Int := roundInt 3 neg m e

end Sys2Proof.Machine
end

