-- ==== Sys2Proof/Machine/Operands.lean ====
section
/-!
DEFINITION. Operand forms: the registers an instruction names (R32, R49 to R51), reading vector sources and queue ports
(R247), the type rule (R52, R55, R223), writing a destination, and the order of the checks (R80).
-/

namespace Sys2Proof.Machine

/-- A register operand. -/
inductive Opnd where
  | v (n : Nat) | s (n : Nat) | t (n : Nat)
  deriving DecidableEq, Repr

def vgroup (n k : Nat) : List Opnd := (List.range k).map (fun i => .v (n + i))
def sgroup (n k : Nat) : List Opnd := (List.range k).map (fun i => .s (n + i))
def tgroup (k : Nat) : List Opnd := (List.range k).map .t

/-- R67. How many registers an element kind names. -/
def kindRegs (k : BitVec 5) : Nat := if k.toNat < 16 then 1 else if k.toNat < 24 then 2 else 4

/-- R32. The register operands of an instruction, in the order a, b, d, s1, s2 in which the first beyond its count is named (the
model's choice, log entry 55). -/
def Instr.names : Instr → List Opnd
  | .movShort d s => [.v s.toNat, .v d.toNat]
  | .iaddShort d s => [.v d.toNat, .v s.toNat]
  | .isubShort d s => [.v d.toNat, .v s.toNat]
  | .iandShort d s => [.v d.toNat, .v s.toNat]
  | .iorShort d s => [.v d.toNat, .v s.toNat]
  | .ixorShort d s => [.v d.toNat, .v s.toNat]
  | .shlShort d s => [.v d.toNat, .v s.toNat]
  | .shrlShort d s => [.v d.toNat, .v s.toNat]
  | .shraShort d s => [.v d.toNat, .v s.toNat]
  | .imulShort d s => [.v d.toNat, .v s.toNat]
  | .faddShort d s => [.v d.toNat, .v s.toNat]
  | .fsubShort d s => [.v d.toNat, .v s.toNat]
  | .fmulShort d s => [.v d.toNat, .v s.toNat]
  | .fminShort d s => [.v d.toNat, .v s.toNat]
  | .fmaxShort d s => [.v d.toNat, .v s.toNat]
  | .moviShort d _ => [.v d.toNat]
  | .nop => []
  | .trap _ => []
  | .brk _ => []
  | .yield => []
  | .rdsr d _ => [.s d.toNat]
  | .wrsr a _ => [.s a.toNat]
  | .clock d => [.s d.toNat]
  | .prbclr => []
  | .limm _ _ => []
  | .brnz c _ _ => [.v c.toNat]
  | .brz c _ _ => [.v c.toNat]
  | .jmp _ _ => []
  | .call _ _ => [.v 0]
  | .ret r => [.v r.toNat]
  | .callx _ _ => [.v 0]
  | .callxr r => [.v r.toNat, .v 0]
  | .retx r => [.v r.toNat]
  | .exit => []
  | .nap _ => []
  | .join _ => []
  | .leave _ => []
  | .waitm _ => []
  | .mmov _ _ _ => []
  | .mread _ v => [.v v.toNat]
  | .mwrite _ v => [.v v.toNat]
  | .mcount _ v => [.v v.toNat]
  | .waitc _ _ _ _ _ => []
  | .sadd d a b => [.s a.toNat, .s b.toNat, .s d.toNat]
  | .ssub d a b => [.s a.toNat, .s b.toNat, .s d.toNat]
  | .smul d a b => [.s a.toNat, .s b.toNat, .s d.toNat]
  | .sand d a b => [.s a.toNat, .s b.toNat, .s d.toNat]
  | .sor d a b => [.s a.toNat, .s b.toNat, .s d.toNat]
  | .sxor d a b => [.s a.toNat, .s b.toNat, .s d.toNat]
  | .sshl d a b => [.s a.toNat, .s b.toNat, .s d.toNat]
  | .sshrl d a b => [.s a.toNat, .s b.toNat, .s d.toNat]
  | .sshra d a b => [.s a.toNat, .s b.toNat, .s d.toNat]
  | .smin d a b => [.s a.toNat, .s b.toNat, .s d.toNat]
  | .smax d a b => [.s a.toNat, .s b.toNat, .s d.toNat]
  | .snmin d a b => [.s a.toNat, .s b.toNat, .s d.toNat]
  | .snmax d a b => [.s a.toNat, .s b.toNat, .s d.toNat]
  | .scmpeq d a b => [.s a.toNat, .s b.toNat, .s d.toNat]
  | .scmplt d a b => [.s a.toNat, .s b.toNat, .s d.toNat]
  | .scmpnlt d a b => [.s a.toNat, .s b.toNat, .s d.toNat]
  | .ssel d a b => [.s a.toNat, .s b.toNat, .s d.toNat]
  | .saddi d a _ _ => [.s a.toNat, .s d.toNat]
  | .sandi d a _ _ => [.s a.toNat, .s d.toNat]
  | .sori d a _ _ => [.s a.toNat, .s d.toNat]
  | .sxori d a _ _ => [.s a.toNat, .s d.toNat]
  | .sshli d a _ _ => [.s a.toNat, .s d.toNat]
  | .sshrli d a _ _ => [.s a.toNat, .s d.toNat]
  | .smovi d _ _ => [.s d.toNat]
  | .scmpeqi d a _ _ => [.s a.toNat, .s d.toNat]
  | .sld d a _ _ => [.s a.toNat, .s d.toNat]
  | .sst d a _ _ => [.s a.toNat, .s d.toNat]
  | .sldw d a _ _ => [.s a.toNat, .s d.toNat]
  | .sstw d a _ _ => [.s a.toNat, .s d.toNat]
  | .iadd d a b => [.v a.toNat, .v b.toNat, .v d.toNat]
  | .isub d a b => [.v a.toNat, .v b.toNat, .v d.toNat]
  | .iand d a b => [.v a.toNat, .v b.toNat, .v d.toNat]
  | .ior d a b => [.v a.toNat, .v b.toNat, .v d.toNat]
  | .ixor d a b => [.v a.toNat, .v b.toNat, .v d.toNat]
  | .andn d a b => [.v a.toNat, .v b.toNat, .v d.toNat]
  | .shl d a b => [.v a.toNat, .v b.toNat, .v d.toNat]
  | .shrl d a b => [.v a.toNat, .v b.toNat, .v d.toNat]
  | .shra d a b => [.v a.toNat, .v b.toNat, .v d.toNat]
  | .imin d a b => [.v a.toNat, .v b.toNat, .v d.toNat]
  | .imax d a b => [.v a.toNat, .v b.toNat, .v d.toNat]
  | .nmin d a b => [.v a.toNat, .v b.toNat, .v d.toNat]
  | .nmax d a b => [.v a.toNat, .v b.toNat, .v d.toNat]
  | .iabs d a => [.v a.toNat, .v d.toNat]
  | .ineg d a => [.v a.toNat, .v d.toNat]
  | .mov d a => [.v a.toNat, .v d.toNat]
  | .imul d a b => [.v a.toNat, .v b.toNat, .v d.toNat]
  | .imulhi d a b => [.v a.toNat, .v b.toNat, .v d.toNat]
  | .nmulhi d a b => [.v a.toNat, .v b.toNat, .v d.toNat]
  | .imad d a b => [.v a.toNat, .v b.toNat, .v d.toNat]
  | .popc d a => [.v a.toNat, .v d.toNat]
  | .clz d a => [.v a.toNat, .v d.toNat]
  | .brev d a => [.v a.toNat, .v d.toNat]
  | .iaddsat d a b => [.v a.toNat, .v b.toNat, .v d.toNat]
  | .iaddi d a _ _ => [.v a.toNat, .v d.toNat]
  | .andi d a _ _ => [.v a.toNat, .v d.toNat]
  | .ori d a _ _ => [.v a.toNat, .v d.toNat]
  | .xori d a _ _ => [.v a.toNat, .v d.toNat]
  | .shli d a _ _ => [.v a.toNat, .v d.toNat]
  | .shrli d a _ _ => [.v a.toNat, .v d.toNat]
  | .shrai d a _ _ => [.v a.toNat, .v d.toNat]
  | .movi d _ _ _ => [.v d.toNat]
  | .ialusIadd d a s => [.v a.toNat, .v d.toNat, .s s.toNat]
  | .ialusIsub d a s => [.v a.toNat, .v d.toNat, .s s.toNat]
  | .ialusAnd d a s => [.v a.toNat, .v d.toNat, .s s.toNat]
  | .ialusOr d a s => [.v a.toNat, .v d.toNat, .s s.toNat]
  | .ialusXor d a s => [.v a.toNat, .v d.toNat, .s s.toNat]
  | .ialusAndn d a s => [.v a.toNat, .v d.toNat, .s s.toNat]
  | .ialusShl d a s => [.v a.toNat, .v d.toNat, .s s.toNat]
  | .ialusShrl d a s => [.v a.toNat, .v d.toNat, .s s.toNat]
  | .ialusShra d a s => [.v a.toNat, .v d.toNat, .s s.toNat]
  | .ialusImin d a s => [.v a.toNat, .v d.toNat, .s s.toNat]
  | .ialusImax d a s => [.v a.toNat, .v d.toNat, .s s.toNat]
  | .ialusNmin d a s => [.v a.toNat, .v d.toNat, .s s.toNat]
  | .ialusNmax d a s => [.v a.toNat, .v d.toNat, .s s.toNat]
  | .ialusIabs d a => [.v a.toNat, .v d.toNat]
  | .icmpEq d a b => [.v a.toNat, .v b.toNat, .v d.toNat]
  | .icmpNe d a b => [.v a.toNat, .v b.toNat, .v d.toNat]
  | .icmpLt d a b => [.v a.toNat, .v b.toNat, .v d.toNat]
  | .icmpLe d a b => [.v a.toNat, .v b.toNat, .v d.toNat]
  | .icmpGt d a b => [.v a.toNat, .v b.toNat, .v d.toNat]
  | .icmpGe d a b => [.v a.toNat, .v b.toNat, .v d.toNat]
  | .icmpNlt d a b => [.v a.toNat, .v b.toNat, .v d.toNat]
  | .icmpNle d a b => [.v a.toNat, .v b.toNat, .v d.toNat]
  | .icmpNgt d a b => [.v a.toNat, .v b.toNat, .v d.toNat]
  | .icmpNge d a b => [.v a.toNat, .v b.toNat, .v d.toNat]
  | .sel d a b => [.v a.toNat, .v b.toNat, .v d.toNat]
  | .fadd d a b => [.v a.toNat, .v b.toNat, .v d.toNat]
  | .fsub d a b => [.v a.toNat, .v b.toNat, .v d.toNat]
  | .fmul d a b => [.v a.toNat, .v b.toNat, .v d.toNat]
  | .fmin d a b => [.v a.toNat, .v b.toNat, .v d.toNat]
  | .fmax d a b => [.v a.toNat, .v b.toNat, .v d.toNat]
  | .fabs d a => [.v a.toNat, .v d.toNat]
  | .fneg d a => [.v a.toNat, .v d.toNat]
  | .fcopysign d a b => [.v a.toNat, .v b.toNat, .v d.toNat]
  | .frint d a => [.v a.toNat, .v d.toNat]
  | .falusFadd d a s => [.v a.toNat, .v d.toNat, .s s.toNat]
  | .falusFsub d a s => [.v a.toNat, .v d.toNat, .s s.toNat]
  | .falusFmul d a s => [.v a.toNat, .v d.toNat, .s s.toNat]
  | .falusFmin d a s => [.v a.toNat, .v d.toNat, .s s.toNat]
  | .falusFmax d a s => [.v a.toNat, .v d.toNat, .s s.toNat]
  | .fma d a b => [.v a.toNat, .v b.toNat, .v d.toNat]
  | .fms d a b => [.v a.toNat, .v b.toNat, .v d.toNat]
  | .fnma d a b => [.v a.toNat, .v b.toNat, .v d.toNat]
  | .fnms d a b => [.v a.toNat, .v b.toNat, .v d.toNat]
  | .fcmpEq d a b => [.v a.toNat, .v b.toNat, .v d.toNat]
  | .fcmpNe d a b => [.v a.toNat, .v b.toNat, .v d.toNat]
  | .fcmpLt d a b => [.v a.toNat, .v b.toNat, .v d.toNat]
  | .fcmpLe d a b => [.v a.toNat, .v b.toNat, .v d.toNat]
  | .fcmpGt d a b => [.v a.toNat, .v b.toNat, .v d.toNat]
  | .fcmpGe d a b => [.v a.toNat, .v b.toNat, .v d.toNat]
  | .fcmpUn d a b => [.v a.toNat, .v b.toNat, .v d.toNat]
  | .fcmpOrd d a b => [.v a.toNat, .v b.toNat, .v d.toNat]
  | .rcp d a => [.v a.toNat, .v d.toNat]
  | .rsq d a => [.v a.toNat, .v d.toNat]
  | .sqrt d a => [.v a.toNat, .v d.toNat]
  | .div d a b => [.v a.toNat, .v b.toNat, .v d.toNat]
  | .exp2 d a => [.v a.toNat, .v d.toNat]
  | .log2 d a => [.v a.toNat, .v d.toNat]
  | .sin d a => [.v a.toNat, .v d.toNat]
  | .cos d a => [.v a.toNat, .v d.toNat]
  | .cvt d a _ _ => [.v a.toNat, .v d.toNat]
  | .cast d a _ => [.v a.toNat, .v d.toNat]
  | .pack d a b => [.v a.toNat, .v b.toNat, .v d.toNat]
  | .unpacklo d a => [.v a.toNat, .v d.toNat]
  | .unpackhi d a => [.v a.toNat, .v d.toNat]
  | .qdec d a b => [.v a.toNat, .v b.toNat] ++ vgroup (4 * d.toNat) 4
  | .shfl d a b => [.v a.toNat, .v b.toNat, .v d.toNat]
  | .shflup d a b => [.v a.toNat, .v b.toNat, .v d.toNat]
  | .shfldn d a b => [.v a.toNat, .v b.toNat, .v d.toNat]
  | .shflx d a b => [.v a.toNat, .v b.toNat, .v d.toNat]
  | .ballot d a => [.v a.toNat, .v d.toNat]
  | .voteall d a => [.v a.toNat, .v d.toNat]
  | .voteany d a => [.v a.toNat, .v d.toNat]
  | .redadd d a => [.v a.toNat, .v d.toNat]
  | .redmin d a => [.v a.toNat, .v d.toNat]
  | .redmax d a => [.v a.toNat, .v d.toNat]
  | .scanadd d a => [.v a.toNat, .v d.toNat]
  | .matchv d a => [.v a.toNat, .v d.toNat]
  | .movs d _ _ s => [.v d.toNat, .s s.toNat]
  | .vtos d a _ => [.v a.toNat, .s d.toNat]
  | .laneid d => [.v d.toNat]
  | .wid d _ => [.v d.toNat]
  | .widf d _ => [.v d.toNat]
  | .rng d a k => [.v a.toNat, .v d.toNat] ++ sgroup k.toNat 2
  | .rng4 d a k => [.v a.toNat] ++ vgroup (4 * d.toNat) 4 ++ sgroup k.toNat 2
  | .ld d a s k _ => [.v a.toNat] ++ vgroup d.toNat (kindRegs k) ++ [.s s.toNat]
  | .st d a s k _ => [.v a.toNat] ++ vgroup d.toNat (kindRegs k) ++ [.s s.toNat]
  | .lds d a s k _ => [.v a.toNat] ++ vgroup d.toNat (kindRegs k) ++ [.s s.toNat]
  | .sts d a s k _ => [.v a.toNat] ++ vgroup d.toNat (kindRegs k) ++ [.s s.toNat]
  | .atom d a s o _ => [.v a.toNat] ++ vgroup d.toNat (if o == 9 then 2 else 1) ++ [.s s.toNat]
  | .red d a s o _ => [.v a.toNat] ++ vgroup d.toNat (if o == 9 then 2 else 1) ++ [.s s.toNat]
  | .atoms d a s o _ => [.v a.toNat] ++ vgroup d.toNat (if o == 9 then 2 else 1) ++ [.s s.toNat]
  | .reds d a s o _ => [.v a.toNat] ++ vgroup d.toNat (if o == 9 then 2 else 1) ++ [.s s.toNat]
  | .fence _ _ => []
  | .xfence _ _ _ => []
  | .bar _ _ => []
  | .bararr _ _ => []
  | .armw v _ _ => [.v v.toNat]
  | .arwait v _ _ => [.v v.toNat]
  | .aradd v _ _ => [.v v.toNat]
  | .cpy a c _ => sgroup a.toNat 2 ++ [.s c.toNat]
  | .cpy2 a c _ => sgroup a.toNat 4 ++ [.s c.toNat]
  | .cpym a c _ => sgroup a.toNat 2 ++ [.s c.toNat]
  | .binsc v t r _ => [.v v.toNat, .s t.toNat, .s r.toNat]
  | .binga v t r _ => vgroup (2 * v.toNat) 2 ++ [.s t.toNat, .s r.toNat]
  | .binrst t f => [.s t.toNat, .s f.toNat]
  | .binqry v t b => [.v v.toNat, .s t.toNat, .s b.toNat]
  | .tfet t s _ _ => [.t t.toNat] ++ sgroup s.toNat 3
  | .mma a b _ _ _ _ _ _ => [.t a.toNat, .t b.toNat]
  | .mloop _ _ n r _ => tgroup (if r == 1 then 4 else 2) ++ sgroup n.toNat 6
  | .accz a c => [.s a.toNat, .s c.toNat]
  | .accrd v a c => [.v v.toNat, .s a.toNat, .s c.toNat]
  | .accwr v a => [.v v.toNat, .s a.toNat]
  | .accdr _ a c => [.s a.toNat, .s c.toNat]
  | .accver v a => [.v v.toNat, .s a.toNat]
  | .accwv a c => [.s a.toNat, .s c.toNat]
  | .ctset v => [.v v.toNat]
  | .ctget v => [.v v.toNat]
  | .achopen a => sgroup a.toNat 2
  | .achjoin c => [.s c.toNat]
  | .asend c q => [.s c.toNat, .s q.toNat]
  | .achwait v c => [.v v.toNat, .s c.toNat]
  | .achclose c => [.s c.toNat]
  | .topk _ a _ => sgroup a.toNat 4
  | .softmx _ a _ => sgroup a.toNat 4
  | .sample _ a u _ => sgroup a.toNat 4 ++ [.s u.toNat]
  | .lnch a q => [.s a.toNat, .s q.toNat]
  | .emit a o => [.s a.toNat, .s o.toNat]
  | .jcnew a n => [.s a.toNat, .s n.toNat]
  | .jcdec a n => [.s a.toNat, .s n.toNat]
  | .jcwait v a => [.v v.toNat, .s a.toNat]
  | .mbox v a h => [.v v.toNat, .s a.toNat, .s h.toNat]
  | .ovld i _ => [.s i.toNat]
  | .ovpin v i => [.v v.toNat, .s i.toNat]
  | .ovunpin i => [.s i.toNat]
  | .ovevict v i => [.v v.toNat, .s i.toNat]
  | .ovqry v i => [.v v.toNat, .s i.toNat]
  | .qbind _ a b => [.s a.toNat, .s b.toNat]
  | .qfree _ => []
  | .qstat v a => [.v v.toNat, .s a.toNat]
  | .hostKick _ _ _ => []
  | .hostBar2Write _ _ => []
  | .hostBar2Read _ _ => []
  | .mboxhost _ => []
  | .attestationQuote _ => []
  | .queueDefine _ => []
  | .queueEnable _ => []
  | .queueDisable _ => []
  | .setPowerCap _ => []
  | .readErrorCounters _ => []
  | .writeFlash _ => []
  | .unknownCommand _ => []
  | .partmodeStop _ => []
  | .partmodeModeWrite _ => []
  | .watchdogRestart => []
  | .watchdogExpiry => []
  | .preempt _ => []
  | .kill _ => []
  | .unpark _ => []
  | .refuse _ => []
  | .ctxcmdUndefinedOp _ => []
  | .invalPage _ => []
  | .inval2mib _ => []
  | .inval1gib _ => []
  | .invalAspace _ => []
  | .invalAll _ => []
  | .invalComplete => []
  | .registerWrite _ _ _ => []
  | .moduleReset => []
  | .thermalThrottle => []
  | .thermalTrip => []
  | .powerCapStep _ => []
  | .putReceive _ _ _ _ _ _ _ => []
  | .putSend _ => []
  | .launchRecordConsume _ => []
  | .gangRelease _ => []
  | .pendingLaunchAppend _ _ => []
  | .graphRecordAccept _ _ _ => []
  | .graphBatchTimeout _ => []
  | .mailboxArrival => []
  | .handlerAppend _ => []
  | .jcRetireDecrement _ => []
  | .courseRetire _ _ => []
  | .jcwaitWake _ _ => []
  | .swapOut _ => []
  | .contextSave _ => []
  | .consortResume _ => []
  | .napExpiry _ _ => []
  | .portCheckFail => []
  | .translationWalk _ _ => []
  | .faultRingFlush => []
  | .registerFill _ _ _ => []
  | .lineWriteback _ _ _ => []
  | .loadReturn _ => []
  | .storePerform _ => []
  | .combineClose _ => []
  | .atomPerform _ => []
  | .releaseClosure _ _ => []
  | .overlayLoadComplete _ => []
  | .overlayFrameRetry _ => []
  | .frameProtectionExpiry _ => []
  | .fetchAbsentLoad _ _ => []
  | .copyChunk _ _ => []
  | .copyComplete _ => []
  | .binScatterComplete _ => []
  | .binGatherComplete _ => []
  | .arwaitWake _ _ => []
  | .tfetFillComplete _ => []
  | .tilePinTimeout _ => []
  | .matrixAdmit _ => []
  | .matrixPerform _ => []
  | .versionWait _ => []
  | .matrixErrorDelivery _ _ => []
  | .accdrPush _ => []
  | .codeTableBusy _ _ => []
  | .queueStall _ _ => []
  | .achjoinBind _ _ => []
  | .acnFlitLanding _ => []
  | .acnOrderedForward _ _ => []
  | .achwaitComplete _ _ => []
  | .selServe _ => []
  | .selResultReady _ => []
  | .selDeliver _ => []
  | .softmxComplete _ => []
  | .undefinedEncoding _ => []
  | .fetchBeyondOverlay => []
  | .faultService _ _ => []
  | .residentSetChange _ => []
  | .halfWidthEnable => []
  | .coreDisable => []
  | .writeBackAndInvalidate => []
  | .contextPoolRefill _ _ => []
  | .resourceRetirement _ => []
  | .powerStateIdle => []
  | .pcieD3cold => []

/-- R32. Is an operand beyond the counts the header declares? Queue ports are not limited. -/
def Opnd.over (h : Header) : Opnd → Bool
  | .v n => n < 112 && h.vregs ≤ n
  | .s n => h.sregs ≤ n
  | .t n => h.ntiles ≤ n

/-- The number a fault reports. -/
def Opnd.num : Opnd → Nat
  | .v n => n
  | .s n => n
  | .t n => n

/-- R32. The first operand beyond its count; of a group that crosses it, the first member beyond (the model's choice, log entry 55). -/
def State.overCount (s : State) (i : Instr) : Option Nat :=
  ((Instr.names i).find? (Opnd.over s.mine.hdr)).map Opnd.num

/-- R32, R80. An instruction whose operands are within the declared counts does f; any other raises ILLEGAL. -/
def State.gate (s : State) (i : Instr) (f : State → State) : Host.Outcome State Fault Refusal :=
  match s.overCount i with
  | some r => .next (s.failCount r)
  | none => .next (f s)

/-! ### Vector sources and destinations -/

/-- A vector source: its operand, and for a role operand the tags it accepts (R223). -/
structure Src where
  v : BitVec 7
  role : Option (List (BitVec 4))

def Src.typed (v : BitVec 7) : Src := { v := v, role := none }
def Src.of (v : BitVec 7) (tags : List (BitVec 4)) : Src := { v := v, role := some tags }

/-- Every assigned tag (R92). -/
def anyTag : List (BitVec 4) := [0, 1, 2, 3, 4, 5, 6, 7, 8, 9, 10, 11]

/-- R247. The first operand that names a port the wrong way: a source port that is none, or a sink that is none. -/
def State.portMisuse (s : State) (srcs : List (BitVec 7)) (dst : Option (BitVec 7)) : Option Nat :=
  match srcs.find? (fun v => isPort v && !(s.me.port (portOf v)).isSource) with
  | some v => some v.toNat
  | none => match dst with
    | some d => if isPort d && !(s.me.port (portOf d)).isSink then some d.toNat else none
    | none => none

/-- R247. The elements one operand pops for n lanes, and the state without them; none when the port lacks them. -/
def State.popOne (s : State) (v : BitVec 7) (n : Nat) : Option (State × List Elem) :=
  if isPort v then
    let es := s.portElems s.iss.k s.iss.c (portOf v)
    if es.length < n then none else some (s.portDrop s.iss.k s.iss.c (portOf v) n, es.take n)
  else some (s, [])

/-- R247. All pops of an instruction, in order. -/
def State.popAll (s : State) (n : Nat) : List (BitVec 7) → Option (State × List (List Elem))
  | [] => some (s, [])
  | v :: vs =>
    match s.popOne v n with
    | none => none
    | some (s1, es) =>
      match s1.popAll n vs with
      | none => none
      | some (s2, rest) => some (s2, es :: rest)

/-- R247, R404. The first operand whose port lacks the elements it pops. -/
def State.lacking (s : State) (n : Nat) : List (BitVec 7) → Nat
  | [] => 0
  | v :: vs =>
    match s.popOne v n with
    | none => v.toNat
    | some (s1, _) => s1.lacking n vs

/-- The position of lane l among the lanes of set. -/
def laneRank (set : BitVec 32) (l : Nat) : Nat := ((lanesOf set).filter (· < l)).length

/-- R247. A source's value: the register, or the popped elements given to the lanes of the issue set in order. -/
def State.srcVal (s : State) (v : BitVec 7) (es : List Elem) : VReg :=
  if isPort v then
    { tag := (es.head?.map (·.tag)).getD 0
      lanes := vof 32 (fun l =>
        if bit s.iss.set l then ((es.drop (laneRank s.iss.set l)).head?.map (·.val)).getD 0 else 0) }
  else s.me.getV v.toNat

/-- R247. Do the elements of one pop carry different tags? -/
def mixedTags (es : List Elem) : Bool :=
  match es with
  | [] => false
  | e :: rest => rest.any (fun x => x.tag != e.tag)

/-- R247. Taking the sources of an instruction that pushes `pushes` elements per lane to dst: either the state after the
pops and each source's elements and value, or the state the instruction ends in (BAD_HANDLE, a stall). Nothing is popped unless all
is. R80 does not list a port's misuse: it is decided after PROFILE, before FORMAT and UNIFORM (the model's choice, log entry 72). -/
def State.takeSrcs (s : State) (srcs : List (BitVec 7)) (dst : Option (BitVec 7)) (pushes : Nat) :
    Except State (State × List (List Elem × VReg)) :=
  let n := popcount s.iss.set
  match s.portMisuse srcs dst with
  | some r => .error (s.fail .badHandle r)
  | none =>
    match s.popAll n srcs with
    | none => .error (s.stallAt .port (s.lacking n srcs))
    | some (s1, pops) =>
      match dst.filter (fun d => isPort d && s1.portRoom s.iss.k s.iss.c (portOf d) < pushes * n) with
      | some d => .error (s.stallAt .port d.toNat)
      | none => .ok (s1, (srcs.zip pops).map (fun x => (x.2, s.srcVal x.1 x.2)))

/-- R93, R247. A source that no instruction accepts: a pop of mixed tags, or a reserved tag. -/
def badSource (x : List Elem × VReg) : Bool := mixedTags x.1 || 12 ≤ x.2.tag.toNat

/-- R93, R247. The sources of an instruction that accepts every assigned tag: the state after the pops and the values, or the state
the instruction ends in, FORMAT among them. -/
def State.readSrcs (s : State) (srcs : List (BitVec 7)) (dst : Option (BitVec 7)) (pushes : Nat) :
    Except State (State × List VReg) :=
  match s.takeSrcs srcs dst pushes with
  | .error t => .error t
  | .ok (s1, xs) =>
    match (srcs.zip xs).find? (fun x => badSource x.2) with
    | some x => .error (s.fail .format x.1.toNat)
    | none => .ok (s1, xs.map (·.2))

/-- R49, R195, R247. A result for every lane of the issue set: to a register, or pushed in ascending lane order. -/
def State.writeDst (s : State) (d : BitVec 7) (tag : BitVec 4) (f : Nat → Word) : State :=
  if isPort d then
    s.portPush s.iss.k s.iss.c (portOf d) ((lanesOf s.iss.set).map (fun l => { val := f l, tag := tag }))
  else s.modMe (fun c => c.putV d.toNat tag s.iss.set f)

/-- R52 rule 1. The type that the tags of typed sources in field order give. -/
def typeOf (tags : List (BitVec 4)) : BitVec 4 := (tags.find? (· != 0)).getD 0

/-- R52 rules 2 to 4. Is a typed source of type ty at fault: a RAW one where none is accepted, one of another tag, or one of a type that
the member does not accept? -/
def tagFault (ty : BitVec 4) (accept : List (BitVec 4)) (rawOk : Bool) (tag : BitVec 4) : Bool :=
  if tag = 0 then !rawOk else tag != ty || !accept.contains ty

/-- R52, R223, R247. Is a source at fault, as a typed source or in its role? -/
def Src.fault (x : Src) (ty : BitVec 4) (accept : List (BitVec 4)) (rawOk : Bool) (y : List Elem × VReg) : Bool :=
  badSource y || (match x.role with
    | some tags => !tags.contains y.2.tag
    | none => tagFault ty accept rawOk y.2.tag)

/-- R2, R34. An instruction that needs the FP16 datapath on a part without it: PROFILE, or a NOP that sets PROBEF. -/
def State.noProfile (s : State) : State :=
  if s.mine.hdr.probe then s.done.modMe (fun c => { c with probef := true })
  else s.trapWhole .profile (info79 s.iss.enc 0 0)

/-- R52, R247. The type that the typed sources' tags give, as the operands stand: of a port, the tag of its first element to pop. -/
def State.standingType (s : State) (srcs : List Src) : BitVec 4 :=
  let vs := srcs.map (·.v)
  let tags : List (BitVec 4) := match s.popAll (popcount s.iss.set) vs with
    | some (_, pops) => (vs.zip pops).map (fun x => (s.srcVal x.1 x.2).tag)
    | none => vs.map (fun v => if isPort v then ((s.portElems s.iss.k s.iss.c (portOf v)).head?.map (·.tag)).getD 0 else (s.me.getV v.toNat).tag)
  (((srcs.zip tags).find? (fun x => x.1.role.isNone && x.2 != 0)).map (·.2)).getD 0

/-- R247. Does an instruction not issue, because a port it names rightly lacks the elements or the room? -/
def State.portStalls (s : State) (srcs : List (BitVec 7)) (dst : Option (BitVec 7)) (pushes : Nat) : Bool :=
  let n := popcount s.iss.set
  (s.portMisuse srcs dst).isNone && (match s.popAll n srcs with
    | none => true
    | some (s1, _) => dst.any (fun d => isPort d && s1.portRoom s.iss.k s.iss.c (portOf d) < pushes * n))

/-- R2, R80. Does an instruction that issues need FP16 arithmetic on a part without it? -/
def State.lacksFp16 (s : State) (srcs : List Src) (d : Option (BitVec 7)) (fp : Bool) : Bool :=
  fp && !s.hub.fp16 && !s.portStalls (srcs.map (·.v)) d 1 && s.standingType srcs == 3

/-- R52, R80, R223, R247, R404. A vector instruction up to its effect: PROFILE, then reading the sources, FORMAT at the first that is at
fault in field order, and the member's own check (UNIFORM or a bad handle). Either the state it ends in, or the state after the
pops, the type and the values. -/
def State.vecRead (s : State) (srcs : List Src) (d : Option (BitVec 7)) (fp : Bool) (accept : List (BitVec 4)) (rawOk : Bool)
    (check : List VReg → Option (Cause × Nat)) : Except State (State × BitVec 4 × List VReg) :=
  if s.lacksFp16 srcs d fp then .error s.noProfile
  else match s.takeSrcs (srcs.map (·.v)) d 1 with
  | .error t => .error t
  | .ok (s1, ys) =>
    let xs := srcs.zip ys
    let ty := typeOf ((xs.filter (fun x => x.1.role.isNone)).map (·.2.2.tag))
    match xs.find? (fun x => x.1.fault ty accept rawOk x.2) with
    | some x => .error (s.fail .format x.1.v.toNat)
    | none =>
      match check (ys.map (·.2)) with
      | some (c, r) => .error (s.fail c r)
      | none => .ok (s1, ty, ys.map (·.2))

/-- R195, R224. A vector instruction with one result: f gives the result's tag and lanes from the type and the values; d is
written, or pushed, for the issue set. -/
def State.vec (s : State) (srcs : List Src) (d : BitVec 7) (fp : Bool) (accept : List (BitVec 4)) (rawOk : Bool)
    (f : BitVec 4 → List VReg → BitVec 4 × (Nat → Word)) : State :=
  match s.vecRead srcs (some d) fp accept rawOk (fun _ => none) with
  | .error t => t
  | .ok (s1, ty, vs) => (s1.writeDst d (f ty vs).1 (f ty vs).2).done

/-- No check of the member's own. -/
def noCheck : List VReg → Option (Cause × Nat) := fun _ => none

/-- Source n of the values read. -/
def arg (vs : List VReg) (n : Nat) : VReg := vs.getD n VReg.zero

/-- R55. A 16-bit instruction whose type is the tag of d: the tags it accepts for d, and for s given d's tag. -/
def State.short (s : State) (d : BitVec 6) (sOp : Option (BitVec 5)) (accept : List (BitVec 4))
    (sTag : BitVec 4 → BitVec 4 → Bool) (f : BitVec 4 → Word → Word → Word) : State :=
  let dv := s.me.getV d.toNat
  let sv := match sOp with
    | some r => s.me.getV r.toNat
    | none => VReg.zero
  if !accept.contains dv.tag then s.fail .format d.toNat
  else match sOp with
    | some r =>
      if !sTag dv.tag sv.tag then s.fail .format r.toNat
      else (s.modMe (fun c => c.putV d.toNat dv.tag s.iss.set (fun l => f dv.tag (dv.at l) (sv.at l)))).done
    | none => (s.modMe (fun c => c.putV d.toNat dv.tag s.iss.set (fun l => f dv.tag (dv.at l) 0))).done

/-- Do the lanes of the issue set hold different words? (UNIFORM) -/
def differs (set : BitVec 32) (x : VReg) : Bool := (lanesOf set).any (fun l => x.at l != x.at (lowest set))

end Sys2Proof.Machine
end

