-- ==== Sys2Proof/Machine/Flags.lean ====
section
/-!
DEFINITION. Elements of a lane word and the results that stand for conditions: comparison masks (R232, R235), scalar
comparisons (R225, R226), and FPMODE (R86 to R88). The machine keeps no condition flags: a comparison writes a register.
-/

namespace Sys2Proof.Machine

/-! ### Elements (R83, R89, R92) -/

/-- R83, R89. Element width of a tag. -/
def elemBits (t : BitVec 4) : Nat :=
  if t = 2 || t = 3 || t = 6 then 16 else if t = 7 then 8 else if t = 8 then 4 else 32

/-- Element k of a word of w-bit elements. -/
def elem (w : Nat) (x : Word) (k : Nat) : Nat := x.toNat / 2 ^ (w * k) % 2 ^ w

/-- The word whose w-bit elements are f 0, f 1, …. -/
def packElems (w n : Nat) (f : Nat → Nat) : Word :=
  BitVec.ofNat 32 ((List.range n).foldr (fun k acc => f k % 2 ^ w * 2 ^ (w * k) + acc) 0)

/-- An element-wise operation on words of w-bit elements. -/
def map1 (w : Nat) (f : Nat → Nat) (x : Word) : Word := packElems w (32 / w) (fun k => f (elem w x k))

def map2 (w : Nat) (f : Nat → Nat → Nat) (x y : Word) : Word :=
  packElems w (32 / w) (fun k => f (elem w x k) (elem w y k))

def map3 (w : Nat) (f : Nat → Nat → Nat → Nat) (x y z : Word) : Word :=
  packElems w (32 / w) (fun k => f (elem w x k) (elem w y k) (elem w z k))

/-- The two's complement bits of an integer in w bits. -/
def wrapBits (w : Nat) (x : Int) : Nat := (x % (2 ^ w : Nat)).toNat

/-- R89. The integer an element stands for: unsigned for N32, else two's complement. -/
def intVal (t : BitVec 4) (x : Nat) : Int := if t = 5 then (x : Int) else sextInt (elemBits t) x

/-- R89, R105. An integer clamped to the range of an element. -/
def clampTo (t : BitVec 4) (x : Int) : Nat :=
  if t = 5 then (clampNat 32 x).toNat else wrapBits (elemBits t) (clampInt (elemBits t) x)

/-! ### Conditions -/

/-- R232, R235. A condition's element: all ones, or zero. -/
def condElem (w : Nat) (c : Bool) : Nat := if c then 2 ^ w - 1 else 0

/-- R232. The relations of ICMP. -/
inductive Rel where
  | eq | ne | lt | le | gt | ge
  deriving DecidableEq, Repr

def Rel.holds (r : Rel) (x y : Int) : Bool :=
  match r with
  | .eq => x == y
  | .ne => x != y
  | .lt => decide (x < y)
  | .le => decide (x ≤ y)
  | .gt => decide (y < x)
  | .ge => decide (y ≤ x)

/-- R232. The result of an integer comparison of words of a type. -/
def intCond (r : Rel) (t : BitVec 4) (x y : Word) : Word :=
  map2 (elemBits t) (fun a b => condElem (elemBits t) (r.holds (intVal t a) (intVal t b))) x y

/-- R235. The relations of FCMP over an ordering of two values. -/
inductive FRel where
  | eq | ne | lt | le | gt | ge | un | ord
  deriving DecidableEq, Repr

def FRel.holds (r : FRel) (o : Ord3) : Bool :=
  match r with
  | .eq => o == .eq
  | .ne => o != .eq
  | .lt => o == .lt
  | .le => o == .lt || o == .eq
  | .gt => o == .gt
  | .ge => o == .gt || o == .eq
  | .un => o == .un
  | .ord => o != .un

/-- R225, R226. A scalar comparison's value. -/
def scalarCond (c : Bool) : DWord := if c then 1 else 0

/-! ### FPMODE (R86) -/

/-- R86. RM of the issuing course. -/
def State.rm (s : State) : BitVec 2 := BitVec.ofNat 2 s.me.fpmode.toNat

/-- R86. FTZ of the issuing course. -/
def State.ftz (s : State) : Bool := s.me.fpmode.getLsbD 2

/-- R83. The element format of a floating-point tag. -/
def fmtOf (t : BitVec 4) : Fmt := if t = 1 then F32 else if t = 2 then BF16 else F16

/-- R88. The value an operation with FTZ reads. -/
def Fmt.read (f : Fmt) (ftz : Bool) (x : Nat) : Num := f.val (f.flush ftz x)

/-- R87, R88. The bits an operation with FTZ writes. -/
def Fmt.write (f : Fmt) (rm : BitVec 2) (ftz : Bool) (x : Num) : Nat := f.flush ftz (f.round rm x)

/-- R235. The result of a floating-point comparison of words of a type. -/
def floatCond (r : FRel) (ftz : Bool) (t : BitVec 4) (x y : Word) : Word :=
  map2 (elemBits t) (fun a b =>
    condElem (elemBits t) (r.holds (((fmtOf t).read ftz a).cmp ((fmtOf t).read ftz b)))) x y

end Sys2Proof.Machine
end

