-- ==== Sys2Proof/Machine/Lane.lean ====
section
/-!
DEFINITION. The integer lane instructions: IALU, IALU2, IALUI, IALUS, ICMP with SEL, and their 16-bit forms
(spec/08_lane_instructions.md R228 to R232; spec/02_encoding.md R52 to R55).
-/

namespace Sys2Proof.Machine

/-! ### Forms -/

/-- The types of the members: I32 and N32; these and the packed integers; the signed ones. -/
def wordInts : List (BitVec 4) := [4, 5]
def allInts : List (BitVec 4) := [4, 5, 6, 7, 8]
def signedInts : List (BitVec 4) := [4, 6, 7, 8]

/-- R228. Two typed sources. -/
def State.lane2 (s : State) (d a b : BitVec 7) (accept : List (BitVec 4)) (rawOk : Bool) (f : BitVec 4 → Word → Word → Word) :
    State :=
  s.vec [Src.typed a, Src.typed b] d false accept rawOk (fun t vs => (t, fun l => f t ((arg vs 0).at l) ((arg vs 1).at l)))

/-- R228. A typed source and a role count. -/
def State.laneShift (s : State) (d a b : BitVec 7) (f : Word → Nat → Word) : State :=
  s.vec [Src.typed a, Src.of b wordInts] d false wordInts false
    (fun t vs => (t, fun l => f ((arg vs 0).at l) ((arg vs 1).at l).toNat))

/-- R228, R230, R231. One typed source. -/
def State.lane1 (s : State) (d a : BitVec 7) (accept : List (BitVec 4)) (rawOk : Bool) (f : BitVec 4 → Word → Word) : State :=
  s.vec [Src.typed a] d false accept rawOk (fun t vs => (t, fun l => f t ((arg vs 0).at l)))

/-- R229. One typed source and a result of tag N32. -/
def State.laneCount (s : State) (d a : BitVec 7) (f : Word → Word) : State :=
  s.vec [Src.typed a] d false wordInts false (fun _ vs => (5, fun l => f ((arg vs 0).at l)))

/-- R231. The scalar operand's word. -/
def State.lowWord (s : State) (n : BitVec 6) : Word := (s.getS n.toNat).setWidth 32

/-! ### Values per lane (R228, R229) -/

def valueIadd (t : BitVec 4) (x y : Word) : Word := map2 (elemBits t) (fun a b => a + b) x y
def valueIsub (t : BitVec 4) (x y : Word) : Word := map2 (elemBits t) (fun a b => a + 2 ^ elemBits t - b) x y
def valueShl (x : Word) (n : Nat) : Word := if 32 ≤ n then 0 else x <<< n
def valueShrl (x : Word) (n : Nat) : Word := if 32 ≤ n then 0 else x >>> n
def valueShra (x : Word) (n : Nat) : Word := x.sshiftRight (min n 31)
def valueImin (t : BitVec 4) (x y : Word) : Word :=
  map2 (elemBits t) (fun a b => if intVal t a ≤ intVal t b then a else b) x y
def valueImax (t : BitVec 4) (x y : Word) : Word :=
  map2 (elemBits t) (fun a b => if intVal t a ≤ intVal t b then b else a) x y
/-- R228. The most negative code gives itself. -/
def valueIabs (t : BitVec 4) (x : Word) : Word :=
  map1 (elemBits t) (fun a => wrapBits (elemBits t) (sextInt (elemBits t) a).natAbs) x
def valueIneg (t : BitVec 4) (x : Word) : Word := map1 (elemBits t) (fun a => 2 ^ elemBits t - a) x
def valueImulhi (x y : Word) : Word := BitVec.ofInt 32 (x.toInt * y.toInt / 2 ^ 32)
def valueNmulhi (x y : Word) : Word := BitVec.ofNat 32 (x.toNat * y.toNat / 2 ^ 32)
def valuePopc (x : Word) : Word := BitVec.ofNat 32 (popcount x)
def valueClz (x : Word) : Word := if x = 0 then 32 else BitVec.ofNat 32 (31 - Nat.log2 x.toNat)
def valueBrev (x : Word) : Word := maskOf (fun l => bit x (31 - l))
def valueIaddsat (t : BitVec 4) (x y : Word) : Word :=
  map2 (elemBits t) (fun a b => clampTo t (intVal t a + intVal t b)) x y

/-! ### IALU (R228) -/

/-- R228. IADD. -/
def execIadd (d a b : BitVec 7) (s : State) : Host.Outcome State Fault Refusal :=
  s.gate (.iadd d a b) (fun s => s.lane2 d a b allInts false valueIadd)

/-- R228. ISUB. -/
def execIsub (d a b : BitVec 7) (s : State) : Host.Outcome State Fault Refusal :=
  s.gate (.isub d a b) (fun s => s.lane2 d a b allInts false valueIsub)

/-- R228. AND. -/
def execIand (d a b : BitVec 7) (s : State) : Host.Outcome State Fault Refusal :=
  s.gate (.iand d a b) (fun s => s.lane2 d a b anyTag true (fun _ x y => x &&& y))

/-- R228. OR. -/
def execIor (d a b : BitVec 7) (s : State) : Host.Outcome State Fault Refusal :=
  s.gate (.ior d a b) (fun s => s.lane2 d a b anyTag true (fun _ x y => x ||| y))

/-- R228. XOR. -/
def execIxor (d a b : BitVec 7) (s : State) : Host.Outcome State Fault Refusal :=
  s.gate (.ixor d a b) (fun s => s.lane2 d a b anyTag true (fun _ x y => x ^^^ y))

/-- R228. ANDN. -/
def execAndn (d a b : BitVec 7) (s : State) : Host.Outcome State Fault Refusal :=
  s.gate (.andn d a b) (fun s => s.lane2 d a b anyTag true (fun _ x y => x &&& ~~~y))

/-- R228. SHL. -/
def execShl (d a b : BitVec 7) (s : State) : Host.Outcome State Fault Refusal :=
  s.gate (.shl d a b) (fun s => s.laneShift d a b valueShl)

/-- R228. SHRL. -/
def execShrl (d a b : BitVec 7) (s : State) : Host.Outcome State Fault Refusal :=
  s.gate (.shrl d a b) (fun s => s.laneShift d a b valueShrl)

/-- R228. SHRA. -/
def execShra (d a b : BitVec 7) (s : State) : Host.Outcome State Fault Refusal :=
  s.gate (.shra d a b) (fun s => s.laneShift d a b valueShra)

/-- R228. IMIN. -/
def execImin (d a b : BitVec 7) (s : State) : Host.Outcome State Fault Refusal :=
  s.gate (.imin d a b) (fun s => s.lane2 d a b signedInts false valueImin)

/-- R228. IMAX. -/
def execImax (d a b : BitVec 7) (s : State) : Host.Outcome State Fault Refusal :=
  s.gate (.imax d a b) (fun s => s.lane2 d a b signedInts false valueImax)

/-- R228. NMIN. -/
def execNmin (d a b : BitVec 7) (s : State) : Host.Outcome State Fault Refusal :=
  s.gate (.nmin d a b) (fun s => s.lane2 d a b [5] false valueImin)

/-- R228. NMAX. -/
def execNmax (d a b : BitVec 7) (s : State) : Host.Outcome State Fault Refusal :=
  s.gate (.nmax d a b) (fun s => s.lane2 d a b [5] false valueImax)

/-- R228. IABS. -/
def execIabs (d a : BitVec 7) (s : State) : Host.Outcome State Fault Refusal :=
  s.gate (.iabs d a) (fun s => s.lane1 d a signedInts false valueIabs)

/-- R228. INEG. -/
def execIneg (d a : BitVec 7) (s : State) : Host.Outcome State Fault Refusal :=
  s.gate (.ineg d a) (fun s => s.lane1 d a allInts false valueIneg)

/-- R228. MOV. -/
def execMov (d a : BitVec 7) (s : State) : Host.Outcome State Fault Refusal :=
  s.gate (.mov d a) (fun s => s.lane1 d a anyTag true (fun _ x => x))

/-! ### IALU2 (R229) -/

/-- R229. IMUL. -/
def execImul (d a b : BitVec 7) (s : State) : Host.Outcome State Fault Refusal :=
  s.gate (.imul d a b) (fun s => s.lane2 d a b wordInts false (fun _ x y => x * y))

/-- R229. IMULHI. -/
def execImulhi (d a b : BitVec 7) (s : State) : Host.Outcome State Fault Refusal :=
  s.gate (.imulhi d a b) (fun s => s.lane2 d a b [4] false (fun _ x y => valueImulhi x y))

/-- R229. NMULHI. -/
def execNmulhi (d a b : BitVec 7) (s : State) : Host.Outcome State Fault Refusal :=
  s.gate (.nmulhi d a b) (fun s => s.lane2 d a b [5] false (fun _ x y => valueNmulhi x y))

/-- R229. IMAD: d is read and must carry the type. -/
def execImad (d a b : BitVec 7) (s : State) : Host.Outcome State Fault Refusal :=
  s.gate (.imad d a b) (fun s => s.vec [Src.typed a, Src.typed b, Src.typed d] d false wordInts false
    (fun t vs => (t, fun l => (arg vs 0).at l * (arg vs 1).at l + (arg vs 2).at l)))

/-- R229. POPC. -/
def execPopc (d a : BitVec 7) (s : State) : Host.Outcome State Fault Refusal :=
  s.gate (.popc d a) (fun s => s.laneCount d a valuePopc)

/-- R229. CLZ. -/
def execClz (d a : BitVec 7) (s : State) : Host.Outcome State Fault Refusal :=
  s.gate (.clz d a) (fun s => s.laneCount d a valueClz)

/-- R229. BREV. -/
def execBrev (d a : BitVec 7) (s : State) : Host.Outcome State Fault Refusal :=
  s.gate (.brev d a) (fun s => s.lane1 d a wordInts false (fun _ x => valueBrev x))

/-- R229. IADDSAT. -/
def execIaddsat (d a b : BitVec 7) (s : State) : Host.Outcome State Fault Refusal :=
  s.gate (.iaddsat d a b) (fun s => s.lane2 d a b allInts false valueIaddsat)

/-! ### IALUI (R230) -/

/-- R230. IADDI. -/
def execIaddi (d a : BitVec 7) (i : BitVec 8) (px : Option (BitVec 25)) (s : State) : Host.Outcome State Fault Refusal :=
  s.gate (.iaddi d a i px) (fun s => s.lane1 d a wordInts false (fun _ x => x + imm32 8 i.toNat px))

/-- R230. ANDI. -/
def execAndi (d a : BitVec 7) (i : BitVec 8) (px : Option (BitVec 25)) (s : State) : Host.Outcome State Fault Refusal :=
  s.gate (.andi d a i px) (fun s => s.lane1 d a anyTag true (fun _ x => x &&& imm32 8 i.toNat px))

/-- R230. ORI. -/
def execOri (d a : BitVec 7) (i : BitVec 8) (px : Option (BitVec 25)) (s : State) : Host.Outcome State Fault Refusal :=
  s.gate (.ori d a i px) (fun s => s.lane1 d a anyTag true (fun _ x => x ||| imm32 8 i.toNat px))

/-- R230. XORI. -/
def execXori (d a : BitVec 7) (i : BitVec 8) (px : Option (BitVec 25)) (s : State) : Host.Outcome State Fault Refusal :=
  s.gate (.xori d a i px) (fun s => s.lane1 d a anyTag true (fun _ x => x ^^^ imm32 8 i.toNat px))

/-- R230. SHLI. -/
def execShli (d a : BitVec 7) (i : BitVec 8) (px : Option (BitVec 25)) (s : State) : Host.Outcome State Fault Refusal :=
  s.gate (.shli d a i px) (fun s => s.lane1 d a wordInts false (fun _ x => valueShl x (imm32 8 i.toNat px).toNat))

/-- R230. SHRLI. -/
def execShrli (d a : BitVec 7) (i : BitVec 8) (px : Option (BitVec 25)) (s : State) : Host.Outcome State Fault Refusal :=
  s.gate (.shrli d a i px) (fun s => s.lane1 d a wordInts false (fun _ x => valueShrl x (imm32 8 i.toNat px).toNat))

/-- R230. SHRAI. -/
def execShrai (d a : BitVec 7) (i : BitVec 8) (px : Option (BitVec 25)) (s : State) : Host.Outcome State Fault Refusal :=
  s.gate (.shrai d a i px) (fun s => s.lane1 d a wordInts false (fun _ x => valueShra x (imm32 8 i.toNat px).toNat))

/-- R230. MOVI: the immediate in every lane, with the tag it names. -/
def execMovi (d : BitVec 7) (t : BitVec 4) (i : BitVec 8) (px : Option (BitVec 25)) (s : State) : Host.Outcome State Fault Refusal :=
  s.gate (.movi d t i px) (fun s => s.vec [] d false [] true (fun _ _ => (t, fun _ => imm32 8 i.toNat px)))

/-! ### IALUS (R231) -/

/-- R231. IADD with s[31:0] as second operand. -/
def execIalusIadd (d a : BitVec 7) (r : BitVec 6) (s : State) : Host.Outcome State Fault Refusal :=
  s.gate (.ialusIadd d a r) (fun s => s.lane1 d a allInts false (fun t x => valueIadd t x (s.lowWord r)))

/-- R231. ISUB with s[31:0] as second operand. -/
def execIalusIsub (d a : BitVec 7) (r : BitVec 6) (s : State) : Host.Outcome State Fault Refusal :=
  s.gate (.ialusIsub d a r) (fun s => s.lane1 d a allInts false (fun t x => valueIsub t x (s.lowWord r)))

/-- R231. AND with s[31:0] as second operand. -/
def execIalusAnd (d a : BitVec 7) (r : BitVec 6) (s : State) : Host.Outcome State Fault Refusal :=
  s.gate (.ialusAnd d a r) (fun s => s.lane1 d a anyTag true (fun _ x => x &&& s.lowWord r))

/-- R231. OR with s[31:0] as second operand. -/
def execIalusOr (d a : BitVec 7) (r : BitVec 6) (s : State) : Host.Outcome State Fault Refusal :=
  s.gate (.ialusOr d a r) (fun s => s.lane1 d a anyTag true (fun _ x => x ||| s.lowWord r))

/-- R231. XOR with s[31:0] as second operand. -/
def execIalusXor (d a : BitVec 7) (r : BitVec 6) (s : State) : Host.Outcome State Fault Refusal :=
  s.gate (.ialusXor d a r) (fun s => s.lane1 d a anyTag true (fun _ x => x ^^^ s.lowWord r))

/-- R231. ANDN with s[31:0] as second operand. -/
def execIalusAndn (d a : BitVec 7) (r : BitVec 6) (s : State) : Host.Outcome State Fault Refusal :=
  s.gate (.ialusAndn d a r) (fun s => s.lane1 d a anyTag true (fun _ x => x &&& ~~~(s.lowWord r)))

/-- R231. SHL with s[31:0] as second operand. -/
def execIalusShl (d a : BitVec 7) (r : BitVec 6) (s : State) : Host.Outcome State Fault Refusal :=
  s.gate (.ialusShl d a r) (fun s => s.lane1 d a wordInts false (fun _ x => valueShl x (s.lowWord r).toNat))

/-- R231. SHRL with s[31:0] as second operand. -/
def execIalusShrl (d a : BitVec 7) (r : BitVec 6) (s : State) : Host.Outcome State Fault Refusal :=
  s.gate (.ialusShrl d a r) (fun s => s.lane1 d a wordInts false (fun _ x => valueShrl x (s.lowWord r).toNat))

/-- R231. SHRA with s[31:0] as second operand. -/
def execIalusShra (d a : BitVec 7) (r : BitVec 6) (s : State) : Host.Outcome State Fault Refusal :=
  s.gate (.ialusShra d a r) (fun s => s.lane1 d a wordInts false (fun _ x => valueShra x (s.lowWord r).toNat))

/-- R231. IMIN with s[31:0] as second operand. -/
def execIalusImin (d a : BitVec 7) (r : BitVec 6) (s : State) : Host.Outcome State Fault Refusal :=
  s.gate (.ialusImin d a r) (fun s => s.lane1 d a signedInts false (fun t x => valueImin t x (s.lowWord r)))

/-- R231. IMAX with s[31:0] as second operand. -/
def execIalusImax (d a : BitVec 7) (r : BitVec 6) (s : State) : Host.Outcome State Fault Refusal :=
  s.gate (.ialusImax d a r) (fun s => s.lane1 d a signedInts false (fun t x => valueImax t x (s.lowWord r)))

/-- R231. NMIN with s[31:0] as second operand. -/
def execIalusNmin (d a : BitVec 7) (r : BitVec 6) (s : State) : Host.Outcome State Fault Refusal :=
  s.gate (.ialusNmin d a r) (fun s => s.lane1 d a [5] false (fun t x => valueImin t x (s.lowWord r)))

/-- R231. NMAX with s[31:0] as second operand. -/
def execIalusNmax (d a : BitVec 7) (r : BitVec 6) (s : State) : Host.Outcome State Fault Refusal :=
  s.gate (.ialusNmax d a r) (fun s => s.lane1 d a [5] false (fun t x => valueImax t x (s.lowWord r)))

/-- R231. IABS in IALUS form. -/
def execIalusIabs (d a : BitVec 7) (s : State) : Host.Outcome State Fault Refusal :=
  s.gate (.ialusIabs d a) (fun s => s.lane1 d a signedInts false valueIabs)

/-! ### ICMP and SEL (R232) -/

/-- R232. A comparison writes a mask of tag N32. -/
def State.laneCompare (s : State) (d a b : BitVec 7) (accept : List (BitVec 4)) (r : Rel) : State :=
  s.vec [Src.typed a, Src.typed b] d false accept false
    (fun t vs => (5, fun l => intCond r t ((arg vs 0).at l) ((arg vs 1).at l)))

/-- R232. ICMP.eq. -/
def execIcmpEq (d a b : BitVec 7) (s : State) : Host.Outcome State Fault Refusal :=
  s.gate (.icmpEq d a b) (fun s => s.laneCompare d a b allInts .eq)

/-- R232. ICMP.ne. -/
def execIcmpNe (d a b : BitVec 7) (s : State) : Host.Outcome State Fault Refusal :=
  s.gate (.icmpNe d a b) (fun s => s.laneCompare d a b allInts .ne)

/-- R232. ICMP.lt. -/
def execIcmpLt (d a b : BitVec 7) (s : State) : Host.Outcome State Fault Refusal :=
  s.gate (.icmpLt d a b) (fun s => s.laneCompare d a b signedInts .lt)

/-- R232. ICMP.le. -/
def execIcmpLe (d a b : BitVec 7) (s : State) : Host.Outcome State Fault Refusal :=
  s.gate (.icmpLe d a b) (fun s => s.laneCompare d a b signedInts .le)

/-- R232. ICMP.gt. -/
def execIcmpGt (d a b : BitVec 7) (s : State) : Host.Outcome State Fault Refusal :=
  s.gate (.icmpGt d a b) (fun s => s.laneCompare d a b signedInts .gt)

/-- R232. ICMP.ge. -/
def execIcmpGe (d a b : BitVec 7) (s : State) : Host.Outcome State Fault Refusal :=
  s.gate (.icmpGe d a b) (fun s => s.laneCompare d a b signedInts .ge)

/-- R232. ICMP.nlt. -/
def execIcmpNlt (d a b : BitVec 7) (s : State) : Host.Outcome State Fault Refusal :=
  s.gate (.icmpNlt d a b) (fun s => s.laneCompare d a b [5] .lt)

/-- R232. ICMP.nle. -/
def execIcmpNle (d a b : BitVec 7) (s : State) : Host.Outcome State Fault Refusal :=
  s.gate (.icmpNle d a b) (fun s => s.laneCompare d a b [5] .le)

/-- R232. ICMP.ngt. -/
def execIcmpNgt (d a b : BitVec 7) (s : State) : Host.Outcome State Fault Refusal :=
  s.gate (.icmpNgt d a b) (fun s => s.laneCompare d a b [5] .gt)

/-- R232. ICMP.nge. -/
def execIcmpNge (d a b : BitVec 7) (s : State) : Host.Outcome State Fault Refusal :=
  s.gate (.icmpNge d a b) (fun s => s.laneCompare d a b [5] .ge)

/-- R232. SEL: the old d is the condition. -/
def execSel (d a b : BitVec 7) (s : State) : Host.Outcome State Fault Refusal :=
  s.gate (.sel d a b) (fun s => s.vec [Src.typed a, Src.typed b, Src.of d anyTag] d false (anyTag.drop 1) false
    (fun t vs => (t, fun l => if (arg vs 2).at l ≠ 0 then (arg vs 0).at l else (arg vs 1).at l)))

/-! ### The 16-bit forms (R53 to R55) -/

/-- R55. s may carry I32 or N32 whatever d's tag is. -/
def intPair : BitVec 4 → BitVec 4 → Bool := fun _ t => wordInts.contains t

/-- R54, R55. MOV: s carries d's tag or RAW. -/
def execMovShort (d : BitVec 6) (r : BitVec 5) (s : State) : Host.Outcome State Fault Refusal :=
  s.gate (.movShort d r) (fun s => s.short d (some r) anyTag (fun dt st => st == dt || st == 0) (fun _ _ y => y))

/-- R54. IADD in 16 bits. -/
def execIaddShort (d : BitVec 6) (r : BitVec 5) (s : State) : Host.Outcome State Fault Refusal :=
  s.gate (.iaddShort d r) (fun s => s.short d (some r) wordInts intPair (fun _ x y => x + y))

/-- R54. ISUB in 16 bits. -/
def execIsubShort (d : BitVec 6) (r : BitVec 5) (s : State) : Host.Outcome State Fault Refusal :=
  s.gate (.isubShort d r) (fun s => s.short d (some r) wordInts intPair (fun _ x y => x - y))

/-- R54. IAND in 16 bits. -/
def execIandShort (d : BitVec 6) (r : BitVec 5) (s : State) : Host.Outcome State Fault Refusal :=
  s.gate (.iandShort d r) (fun s => s.short d (some r) wordInts intPair (fun _ x y => x &&& y))

/-- R54. IOR in 16 bits. -/
def execIorShort (d : BitVec 6) (r : BitVec 5) (s : State) : Host.Outcome State Fault Refusal :=
  s.gate (.iorShort d r) (fun s => s.short d (some r) wordInts intPair (fun _ x y => x ||| y))

/-- R54. IXOR in 16 bits. -/
def execIxorShort (d : BitVec 6) (r : BitVec 5) (s : State) : Host.Outcome State Fault Refusal :=
  s.gate (.ixorShort d r) (fun s => s.short d (some r) wordInts intPair (fun _ x y => x ^^^ y))

/-- R54. SHL in 16 bits. -/
def execShlShort (d : BitVec 6) (r : BitVec 5) (s : State) : Host.Outcome State Fault Refusal :=
  s.gate (.shlShort d r) (fun s => s.short d (some r) wordInts intPair (fun _ x y => valueShl x y.toNat))

/-- R54. SHRL in 16 bits. -/
def execShrlShort (d : BitVec 6) (r : BitVec 5) (s : State) : Host.Outcome State Fault Refusal :=
  s.gate (.shrlShort d r) (fun s => s.short d (some r) wordInts intPair (fun _ x y => valueShrl x y.toNat))

/-- R54. SHRA in 16 bits. -/
def execShraShort (d : BitVec 6) (r : BitVec 5) (s : State) : Host.Outcome State Fault Refusal :=
  s.gate (.shraShort d r) (fun s => s.short d (some r) wordInts intPair (fun _ x y => valueShra x y.toNat))

/-- R54. IMUL in 16 bits. -/
def execImulShort (d : BitVec 6) (r : BitVec 5) (s : State) : Host.Outcome State Fault Refusal :=
  s.gate (.imulShort d r) (fun s => s.short d (some r) wordInts intPair (fun _ x y => x * y))

/-- R54, R55. MOVI: the sign-extended immediate, with d's tag. -/
def execMoviShort (d : BitVec 6) (i : BitVec 5) (s : State) : Host.Outcome State Fault Refusal :=
  s.gate (.moviShort d i) (fun s => s.short d none wordInts intPair (fun _ _ _ => BitVec.ofInt 32 (sextInt 5 i.toNat)))

end Sys2Proof.Machine
end

