-- ==== Sys2Proof/Machine/Float.lean ====
section
/-!
DEFINITION. The floating-point lane instructions: FALU, FALUS, FFMA, FCMP and their 16-bit forms
(spec/08_lane_instructions.md R233 to R235; spec/03_numbers.md R84 to R88).
-/

namespace Sys2Proof.Machine

/-- R233. The types of the floating-point members. -/
def floatTags : List (BitVec 4) := [1, 2, 3]

/-! ### One element (R84 to R88, R233) -/

def elemAdd (rm : BitVec 2) (ftz : Bool) (f : Fmt) (x y : Nat) : Nat :=
  f.write rm ftz ((f.read ftz x).add rm (f.read ftz y))

def elemSub (rm : BitVec 2) (ftz : Bool) (f : Fmt) (x y : Nat) : Nat :=
  f.write rm ftz ((f.read ftz x).add rm (f.read ftz y).neg)

def elemMul (rm : BitVec 2) (ftz : Bool) (f : Fmt) (x y : Nat) : Nat :=
  f.write rm ftz ((f.read ftz x).mul (f.read ftz y))

/-- R85. -/
def elemMin (_rm : BitVec 2) (ftz : Bool) (f : Fmt) (x y : Nat) : Nat := f.minmax false (f.flush ftz x) (f.flush ftz y)
def elemMax (_rm : BitVec 2) (ftz : Bool) (f : Fmt) (x y : Nat) : Nat := f.minmax true (f.flush ftz x) (f.flush ftz y)

/-- The sign bit of an element. -/
def Fmt.neg (f : Fmt) (x : Nat) : Bool := field x (f.eb + f.mb) (f.eb + f.mb) == 1

/-- An element without its sign bit. -/
def Fmt.mag (f : Fmt) (x : Nat) : Nat := x % 2 ^ (f.eb + f.mb)

/-- R84. An element with the given sign; a NaN is canonical. -/
def Fmt.withSign (f : Fmt) (neg : Bool) (x : Nat) : Nat := if f.val x = .nan then f.nan else f.mag x + f.sign neg

def elemAbs (_rm : BitVec 2) (ftz : Bool) (f : Fmt) (x : Nat) : Nat := f.withSign false (f.flush ftz x)
def elemNeg (_rm : BitVec 2) (ftz : Bool) (f : Fmt) (x : Nat) : Nat := f.withSign (!f.neg x) (f.flush ftz x)

/-- R84. A NaN in either operand gives the canonical NaN. -/
def elemCopysign (_rm : BitVec 2) (ftz : Bool) (f : Fmt) (x y : Nat) : Nat :=
  if f.val y = .nan then f.nan else f.withSign (f.neg y) (f.flush ftz x)

/-- R233. An element rounded to an integral value; a zero keeps the sign of its operand. -/
def elemRint (rm : BitVec 2) (ftz : Bool) (f : Fmt) (x : Nat) : Nat :=
  match f.read ftz x with
  | .num neg m e => f.write rm ftz (.num neg (roundInt rm neg m e).natAbs 0)
  | v => f.round rm v

/-- R233. The exact value of a fused operation, rounded once; na and nc negate the product and the addend. -/
def elemFma (na nc : Bool) (rm : BitVec 2) (ftz : Bool) (f : Fmt) (x y z : Nat) : Nat :=
  let p := (f.read ftz x).mul (f.read ftz y)
  let c := f.read ftz z
  f.write rm ftz ((if na then p.neg else p).add rm (if nc then c.neg else c))

/-! ### Forms -/

/-- R233. One, two or three typed sources, element by element. -/
def State.float1 (s : State) (d a : BitVec 7) (g : BitVec 2 → Bool → Fmt → Nat → Nat) : State :=
  s.vec [Src.typed a] d true floatTags false
    (fun t vs => (t, fun l => map1 (elemBits t) (g s.rm s.ftz (fmtOf t)) ((arg vs 0).at l)))

def State.float2 (s : State) (d a b : BitVec 7) (g : BitVec 2 → Bool → Fmt → Nat → Nat → Nat) : State :=
  s.vec [Src.typed a, Src.typed b] d true floatTags false
    (fun t vs => (t, fun l => map2 (elemBits t) (g s.rm s.ftz (fmtOf t)) ((arg vs 0).at l) ((arg vs 1).at l)))

def State.float3 (s : State) (d a b : BitVec 7) (g : BitVec 2 → Bool → Fmt → Nat → Nat → Nat → Nat) : State :=
  s.vec [Src.typed a, Src.typed b, Src.typed d] d true floatTags false
    (fun t vs => (t, fun l =>
      map3 (elemBits t) (g s.rm s.ftz (fmtOf t)) ((arg vs 0).at l) ((arg vs 1).at l) ((arg vs 2).at l)))

/-- R234. The second operand is s[31:0] in every lane. -/
def State.floatScalar (s : State) (d a : BitVec 7) (r : BitVec 6) (g : BitVec 2 → Bool → Fmt → Nat → Nat → Nat) : State :=
  s.vec [Src.typed a] d true floatTags false
    (fun t vs => (t, fun l => map2 (elemBits t) (g s.rm s.ftz (fmtOf t)) ((arg vs 0).at l) (s.lowWord r)))

/-- R235. A comparison writes a mask of tag N32. -/
def State.floatCompare (s : State) (d a b : BitVec 7) (r : FRel) : State :=
  s.vec [Src.typed a, Src.typed b] d true floatTags false
    (fun t vs => (5, fun l => floatCond r s.ftz t ((arg vs 0).at l) ((arg vs 1).at l)))

/-- R54, R55. A 16-bit floating-point form: d and s carry F32. -/
def State.floatShort (s : State) (d : BitVec 6) (r : BitVec 5) (g : BitVec 2 → Bool → Fmt → Nat → Nat → Nat) : State :=
  s.short d (some r) [1] (fun _ t => t == 1)
    (fun _ x y => BitVec.ofNat 32 (g s.rm s.ftz F32 x.toNat y.toNat))

/-! ### FALU and FFMA (R233) -/

/-- R233. FADD. -/
def execFadd (d a b : BitVec 7) (s : State) : Host.Outcome State Fault Refusal :=
  s.gate (.fadd d a b) (fun s => s.float2 d a b elemAdd)

/-- R233. FSUB. -/
def execFsub (d a b : BitVec 7) (s : State) : Host.Outcome State Fault Refusal :=
  s.gate (.fsub d a b) (fun s => s.float2 d a b elemSub)

/-- R233. FMUL. -/
def execFmul (d a b : BitVec 7) (s : State) : Host.Outcome State Fault Refusal :=
  s.gate (.fmul d a b) (fun s => s.float2 d a b elemMul)

/-- R233. FMIN. -/
def execFmin (d a b : BitVec 7) (s : State) : Host.Outcome State Fault Refusal :=
  s.gate (.fmin d a b) (fun s => s.float2 d a b elemMin)

/-- R233. FMAX. -/
def execFmax (d a b : BitVec 7) (s : State) : Host.Outcome State Fault Refusal :=
  s.gate (.fmax d a b) (fun s => s.float2 d a b elemMax)

/-- R233. FABS. -/
def execFabs (d a : BitVec 7) (s : State) : Host.Outcome State Fault Refusal :=
  s.gate (.fabs d a) (fun s => s.float1 d a elemAbs)

/-- R233. FNEG. -/
def execFneg (d a : BitVec 7) (s : State) : Host.Outcome State Fault Refusal :=
  s.gate (.fneg d a) (fun s => s.float1 d a elemNeg)

/-- R233. FCOPYSIGN. -/
def execFcopysign (d a b : BitVec 7) (s : State) : Host.Outcome State Fault Refusal :=
  s.gate (.fcopysign d a b) (fun s => s.float2 d a b elemCopysign)

/-- R233. FRINT. -/
def execFrint (d a : BitVec 7) (s : State) : Host.Outcome State Fault Refusal :=
  s.gate (.frint d a) (fun s => s.float1 d a elemRint)

/-- R233. FMA. -/
def execFma (d a b : BitVec 7) (s : State) : Host.Outcome State Fault Refusal :=
  s.gate (.fma d a b) (fun s => s.float3 d a b (elemFma false false))

/-- R233. FMS. -/
def execFms (d a b : BitVec 7) (s : State) : Host.Outcome State Fault Refusal :=
  s.gate (.fms d a b) (fun s => s.float3 d a b (elemFma false true))

/-- R233. FNMA. -/
def execFnma (d a b : BitVec 7) (s : State) : Host.Outcome State Fault Refusal :=
  s.gate (.fnma d a b) (fun s => s.float3 d a b (elemFma true false))

/-- R233. FNMS. -/
def execFnms (d a b : BitVec 7) (s : State) : Host.Outcome State Fault Refusal :=
  s.gate (.fnms d a b) (fun s => s.float3 d a b (elemFma true true))

/-! ### FALUS (R234) -/

/-- R234. FADD with s[31:0]. -/
def execFalusFadd (d a : BitVec 7) (r : BitVec 6) (s : State) : Host.Outcome State Fault Refusal :=
  s.gate (.falusFadd d a r) (fun s => s.floatScalar d a r elemAdd)

/-- R234. FSUB with s[31:0]. -/
def execFalusFsub (d a : BitVec 7) (r : BitVec 6) (s : State) : Host.Outcome State Fault Refusal :=
  s.gate (.falusFsub d a r) (fun s => s.floatScalar d a r elemSub)

/-- R234. FMUL with s[31:0]. -/
def execFalusFmul (d a : BitVec 7) (r : BitVec 6) (s : State) : Host.Outcome State Fault Refusal :=
  s.gate (.falusFmul d a r) (fun s => s.floatScalar d a r elemMul)

/-- R234. FMIN with s[31:0]. -/
def execFalusFmin (d a : BitVec 7) (r : BitVec 6) (s : State) : Host.Outcome State Fault Refusal :=
  s.gate (.falusFmin d a r) (fun s => s.floatScalar d a r elemMin)

/-- R234. FMAX with s[31:0]. -/
def execFalusFmax (d a : BitVec 7) (r : BitVec 6) (s : State) : Host.Outcome State Fault Refusal :=
  s.gate (.falusFmax d a r) (fun s => s.floatScalar d a r elemMax)

/-! ### FCMP (R235) -/

/-- R235. FCMP.eq. -/
def execFcmpEq (d a b : BitVec 7) (s : State) : Host.Outcome State Fault Refusal :=
  s.gate (.fcmpEq d a b) (fun s => s.floatCompare d a b .eq)

/-- R235. FCMP.ne. -/
def execFcmpNe (d a b : BitVec 7) (s : State) : Host.Outcome State Fault Refusal :=
  s.gate (.fcmpNe d a b) (fun s => s.floatCompare d a b .ne)

/-- R235. FCMP.lt. -/
def execFcmpLt (d a b : BitVec 7) (s : State) : Host.Outcome State Fault Refusal :=
  s.gate (.fcmpLt d a b) (fun s => s.floatCompare d a b .lt)

/-- R235. FCMP.le. -/
def execFcmpLe (d a b : BitVec 7) (s : State) : Host.Outcome State Fault Refusal :=
  s.gate (.fcmpLe d a b) (fun s => s.floatCompare d a b .le)

/-- R235. FCMP.gt. -/
def execFcmpGt (d a b : BitVec 7) (s : State) : Host.Outcome State Fault Refusal :=
  s.gate (.fcmpGt d a b) (fun s => s.floatCompare d a b .gt)

/-- R235. FCMP.ge. -/
def execFcmpGe (d a b : BitVec 7) (s : State) : Host.Outcome State Fault Refusal :=
  s.gate (.fcmpGe d a b) (fun s => s.floatCompare d a b .ge)

/-- R235. FCMP.un. -/
def execFcmpUn (d a b : BitVec 7) (s : State) : Host.Outcome State Fault Refusal :=
  s.gate (.fcmpUn d a b) (fun s => s.floatCompare d a b .un)

/-- R235. FCMP.ord. -/
def execFcmpOrd (d a b : BitVec 7) (s : State) : Host.Outcome State Fault Refusal :=
  s.gate (.fcmpOrd d a b) (fun s => s.floatCompare d a b .ord)

/-! ### The 16-bit forms (R54, R55) -/

/-- R54. FADD in 16 bits. -/
def execFaddShort (d : BitVec 6) (r : BitVec 5) (s : State) : Host.Outcome State Fault Refusal :=
  s.gate (.faddShort d r) (fun s => s.floatShort d r elemAdd)

/-- R54. FSUB in 16 bits. -/
def execFsubShort (d : BitVec 6) (r : BitVec 5) (s : State) : Host.Outcome State Fault Refusal :=
  s.gate (.fsubShort d r) (fun s => s.floatShort d r elemSub)

/-- R54. FMUL in 16 bits. -/
def execFmulShort (d : BitVec 6) (r : BitVec 5) (s : State) : Host.Outcome State Fault Refusal :=
  s.gate (.fmulShort d r) (fun s => s.floatShort d r elemMul)

/-- R54. FMIN in 16 bits. -/
def execFminShort (d : BitVec 6) (r : BitVec 5) (s : State) : Host.Outcome State Fault Refusal :=
  s.gate (.fminShort d r) (fun s => s.floatShort d r elemMin)

/-- R54. FMAX in 16 bits. -/
def execFmaxShort (d : BitVec 6) (r : BitVec 5) (s : State) : Host.Outcome State Fault Refusal :=
  s.gate (.fmaxShort d r) (fun s => s.floatShort d r elemMax)

end Sys2Proof.Machine
end

