-- ==== Sys2Proof/Machine/Special.lean ====
section
/-!
DEFINITION. Division, square root and the special functions RCP, RSQ, EXP2, LOG2, SIN and COS
(spec/03_numbers.md R107 to R109; spec/08_lane_instructions.md R236).
-/

namespace Sys2Proof.Machine

/-! ### The tables and coefficients of R108 -/

/-- R108. rn: the FP32 value nearest an exact one. -/
def rn (x : Num) : Num := F32.val (F32.round 0 x)

/-- n / 2^k. -/
def dyadic (n : Nat) (k : Nat) : Num := .num false n (-(k : Int))

def one : Num := .num false 1 0

/-- R108. TR[i] = rn(1 / (1 + (i + 0.5)/128)). -/
def tableTR (i : Nat) : Num := rn (one.div (dyadic (257 + 2 * i) 8))

/-- R108. TS[i] = rn(1 / sqrt(1 + (i + 0.5)/32)). The square root of 2^206 / (65 + 2 i) is never a dyadic number, so its
floor with a bit below it rounds as the root itself does. -/
def tableTS (i : Nat) : Num := rn (.num false (2 * isqrt (2 ^ 206 / (65 + 2 * i)) 110 + 1) (-101))

/-- A root of order 2^n, bit by bit. -/
def rootOf : Nat → Nat → Nat → Nat
  | 0, x, _ => x
  | n + 1, x, bits => rootOf n (isqrt x bits) (bits / 2 + 1)

/-- R108. TE[i] = rn(2^(i/64)): the root of order 64 of 2^(i + 64 × 40), irrational for i > 0. -/
def tableTE (i : Nat) : Num :=
  if i = 0 then one else rn (.num false (2 * rootOf 6 (2 ^ (i + 2560)) 1330 + 1) (-41))

/-- R108. TL1[i] = rn(1 / (1 + i/128)). -/
def tableTL1 (i : Nat) : Num := rn (one.div (dyadic (128 + i) 7))

/-- R108. TL2[i] = rn(log2(1 + i/128)). -/
def tableTL2 : List Nat :=
  [0x00000000, 0x3C37F286, 0x3CB73CB4, 0x3D08E68F, 0x3D35D69C, 0x3D626FD6, 0x3D8759C5, 0x3D9D517F] ++
  [0x3DB31FB8, 0x3DC8C50B, 0x3DDE4212, 0x3DF39761, 0x3E0462C4, 0x3E0EE68D, 0x3E19574F, 0x3E23B550] ++
  [0x3E2E00D2, 0x3E383A17, 0x3E42615F, 0x3E4C76E8, 0x3E567AF1, 0x3E606DB6, 0x3E6A4F72, 0x3E74205F] ++
  [0x3E7DE0B6, 0x3E83C857, 0x3E88983F, 0x3E8D602E, 0x3E92203D, 0x3E96D888, 0x3E9B8926, 0x3EA03232] ++
  [0x3EA4D3C2, 0x3EA96DF0, 0x3EAE00D2, 0x3EB28C7F, 0x3EB7110E, 0x3EBB8E96, 0x3EC0052B, 0x3EC474E4] ++
  [0x3EC8DDD4, 0x3ECD4012, 0x3ED19BB0, 0x3ED5F0C4, 0x3EDA3F60, 0x3EDE8797, 0x3EE2C97D, 0x3EE70525] ++
  [0x3EEB3A9F, 0x3EEF69FF, 0x3EF39355, 0x3EF7B6B4, 0x3EFBD42B, 0x3EFFEBCD, 0x3F01FED4, 0x3F0404E8] ++
  [0x3F060828, 0x3F08089E, 0x3F0A0650, 0x3F0C0146, 0x3F0DF989, 0x3F0FEF1F, 0x3F11E20F, 0x3F13D260] ++
  [0x3F15C01A, 0x3F17AB44, 0x3F1993E3, 0x3F1B7A00, 0x3F1D5DA0, 0x3F1F3ECA, 0x3F211D84, 0x3F22F9D5] ++
  [0x3F24D3C2, 0x3F26AB53, 0x3F28808C, 0x3F2A5374, 0x3F2C2411, 0x3F2DF268, 0x3F2FBE80, 0x3F31885C] ++
  [0x3F335004, 0x3F35157D, 0x3F36D8CB, 0x3F3899F5, 0x3F3A58FF, 0x3F3C15EE, 0x3F3DD0C8, 0x3F3F8991] ++
  [0x3F41404F, 0x3F42F506, 0x3F44A7BA, 0x3F465872, 0x3F480731, 0x3F49B3FB, 0x3F4B5ED7, 0x3F4D07C7] ++
  [0x3F4EAED0, 0x3F5053F7, 0x3F51F740, 0x3F5398AF, 0x3F553848, 0x3F56D60F, 0x3F587209, 0x3F5A0C3A] ++
  [0x3F5BA4A4, 0x3F5D3B4E, 0x3F5ED039, 0x3F60636A, 0x3F61F4E5, 0x3F6384AD, 0x3F6512C7, 0x3F669F35] ++
  [0x3F6829FB, 0x3F69B31E, 0x3F6B3A9F, 0x3F6CC083, 0x3F6E44CD, 0x3F6FC781, 0x3F7148A1, 0x3F72C832] ++
  [0x3F744636, 0x3F75C2B0, 0x3F773DA4, 0x3F78B714, 0x3F7A2F04, 0x3F7BA578, 0x3F7D1A71, 0x3F7E8DF2]

/-- ⌊π × 2^700⌋: far more of π than any FP32 reduction needs. -/
def piBits : Nat :=
  0x3243F6A8885A308D313198A2E03707344A4093822299F31D0082EFA98EC4E6C89452821E638D01377BE5466CF34E90C6CC0AC29B7C97C50DD3F84D5B5B54709179216D5D98979FB1BD1310BA698DFB5AC2FFD72DBD01ADFB

def f32 (bits : Nat) : Num := F32.val bits

/-- R108. The coefficients, each rounded to FP32. -/
def coefC1 : Num := f32 0x3F317218
def coefC2 : Num := f32 0x3E75FDF0
def coefC3 : Num := f32 0x3D635847
def coefL1 : Num := f32 0x3FB8AA3B
def coefL2 : Num := f32 0xBF38AA3B
def coefL3 : Num := f32 0x3EF6384F
def coefS1 : Num := f32 0xBE2AAAAB
def coefS2 : Num := f32 0x3C088889
def coefS3 : Num := f32 0xB9500D01
def coefK1 : Num := f32 0xBF000000
def coefK2 : Num := f32 0x3D2AAAAB
def coefK3 : Num := f32 0xBAB60B61

/-! ### Exact arithmetic on values -/

def Num.plus (x y : Num) : Num := x.add 0 y
def Num.minus (x y : Num) : Num := x.add 0 y.neg

/-- A value times 2^k. -/
def Num.shift (x : Num) (k : Int) : Num :=
  match x with
  | .num n m e => .num n m (e + k)
  | v => v

/-- A finite value's ⌊x⌋. -/
def Num.floor (x : Num) : Int :=
  match x with
  | .num n m e => floorInt n m e
  | _ => 0

/-- An integer as a value. -/
def Num.ofZ (x : Int) : Num := Num.ofInt x 0 false

/-! ### The algorithms of R108 for a finite nonzero operand -/

/-- R108. One Newton step of RCP. -/
def rcpStep (m y : Num) : Num := let h := rn (one.minus (m.mul y)); rn (y.plus (y.mul h))

def rcpAlg (neg : Bool) (m : Nat) (e : Int) : Num :=
  let k := (Nat.log2 m : Int)
  let mm : Num := .num false m (-k)
  let i := ((mm.minus one).shift 7).floor.toNat
  let y := rcpStep mm (rcpStep mm (tableTR i))
  let r := rn (y.shift (-(e + k)))
  if neg then r.neg else r

/-- R108. One Newton step of RSQ. -/
def rsqStep (m y : Num) : Num :=
  let g := rn (y.mul y)
  let h := rn (one.minus (m.mul g))
  rn (y.plus ((y.mul h).shift (-1)))

def rsqAlg (m : Nat) (e : Int) : Num :=
  let k := (Nat.log2 m : Int)
  let e0 := e + k
  let odd := e0 % 2 = 1
  let mm : Num := .num false m (-k + (if odd then 1 else 0))
  let e1 := if odd then e0 - 1 else e0
  let i := ((mm.minus one).shift 5).floor.toNat
  let y := rsqStep mm (rsqStep mm (tableTS i))
  rn (y.shift (-(e1 / 2)))

def exp2Alg (x : Num) : Num :=
  if x.cmp (.num false 128 0) ≠ .lt then .inf false
  else if x.cmp (.num true 256 0) = .lt then .num false 0 0
  else
    let j := (x.shift 6).floor
    let f := x.minus ((Num.ofZ j).shift (-6))
    let p := rn (coefC3.mul f)
    let p := rn (p.plus coefC2)
    let p := rn (p.mul f)
    let p := rn (p.plus coefC1)
    let p := rn (p.mul f)
    let t := tableTE (j % 64).toNat
    let y := rn (t.plus (t.mul p))
    rn (y.shift (j / 64))

def log2Alg (m : Nat) (e : Int) : Num :=
  let k := (Nat.log2 m : Int)
  let mm : Num := .num false m (-k)
  let i := ((mm.minus one).shift 7).floor.toNat
  let r := rn ((mm.mul (tableTL1 i)).minus one)
  let p := rn (coefL3.mul r)
  let p := rn (p.plus coefL2)
  let p := rn (p.mul r)
  let p := rn (p.plus coefL1)
  let p := rn (p.mul r)
  rn ((rn ((Num.ofZ (e + k)).plus (f32 (tableTL2.getD i 0)))).plus p)

/-- R108. SIN (c = 0) and COS (c = 1). -/
def sinAlg (c : Int) (neg : Bool) (m : Nat) (e : Int) : Num :=
  let n := m * 2 ^ (e + 701).toNat
  let k0 := (2 * n + piBits) / (2 * piBits)
  let d : Int := (n : Int) - (k0 * piBits : Nat)
  let k : Int := if neg then -(k0 : Int) else k0
  let r := rn (Num.ofInt (if neg then -d else d) (-701) neg)
  let q := (k + c) % 4
  let u := rn (r.mul r)
  let z :=
    if q % 2 = 0 then
      let t := rn (coefS3.mul u)
      let t := rn (t.plus coefS2)
      let t := rn (t.mul u)
      let t := rn (t.plus coefS1)
      let t := rn (t.mul u)
      rn (r.plus (r.mul t))
    else
      let w := rn (coefK3.mul u)
      let w := rn (w.plus coefK2)
      let w := rn (w.mul u)
      let w := rn (w.plus coefK1)
      rn (one.plus (u.mul w))
  if q < 2 then z else z.neg

/-! ### Special operands (R109) -/

/-- R109. The six functions of R108. -/
inductive SpecFn where
  | rcp | rsq | exp2 | log2 | sin | cos
  deriving DecidableEq, Repr

/-- R108, R109. The FP32 value of a function at an exact operand. -/
def SpecFn.eval (g : SpecFn) (x : Num) : Num :=
  match g, x with
  | _, .nan => .nan
  | .rcp, .inf neg => .num neg 0 0
  | .rsq, .inf neg => if neg then .nan else .num false 0 0
  | .exp2, .inf neg => if neg then .num false 0 0 else .inf false
  | .log2, .inf neg => if neg then .nan else .inf false
  | .sin, .inf _ => .nan
  | .cos, .inf _ => .nan
  | .rcp, .num neg m e => if m = 0 then .inf neg else rcpAlg neg m e
  | .rsq, .num neg m e => if m = 0 then .inf neg else if neg then .nan else rsqAlg m e
  | .exp2, .num neg m e => if m = 0 then one else exp2Alg (.num neg m e)
  | .log2, .num neg m e => if m = 0 then .inf true else if neg then .nan else log2Alg m e
  | .sin, .num neg m e => if m = 0 then .num neg 0 0 else sinAlg 0 neg m e
  | .cos, .num neg m e => if m = 0 then one else sinAlg 1 neg m e

/-- R109. A function on an element: FTZ on the operand and on the final result, in the element's own format. -/
def elemSpec (g : SpecFn) (_rm : BitVec 2) (ftz : Bool) (f : Fmt) (x : Nat) : Nat :=
  f.flush ftz (f.round 0 (F32.val (F32.round 0 (g.eval (f.read ftz x)))))

/-- R107. Correctly rounded division and square root. -/
def elemDiv (rm : BitVec 2) (ftz : Bool) (f : Fmt) (x y : Nat) : Nat :=
  f.write rm ftz ((f.read ftz x).div (f.read ftz y))

def elemSqrt (rm : BitVec 2) (ftz : Bool) (f : Fmt) (x : Nat) : Nat := f.write rm ftz (f.read ftz x).sqrt

/-- R236. RCP. -/
def execRcp (d a : BitVec 7) (s : State) : Host.Outcome State Fault Refusal :=
  s.gate (.rcp d a) (fun s => s.float1 d a (elemSpec .rcp))

/-- R236. RSQ. -/
def execRsq (d a : BitVec 7) (s : State) : Host.Outcome State Fault Refusal :=
  s.gate (.rsq d a) (fun s => s.float1 d a (elemSpec .rsq))

/-- R236. EXP2. -/
def execExp2 (d a : BitVec 7) (s : State) : Host.Outcome State Fault Refusal :=
  s.gate (.exp2 d a) (fun s => s.float1 d a (elemSpec .exp2))

/-- R236. LOG2. -/
def execLog2 (d a : BitVec 7) (s : State) : Host.Outcome State Fault Refusal :=
  s.gate (.log2 d a) (fun s => s.float1 d a (elemSpec .log2))

/-- R236. SIN. -/
def execSin (d a : BitVec 7) (s : State) : Host.Outcome State Fault Refusal :=
  s.gate (.sin d a) (fun s => s.float1 d a (elemSpec .sin))

/-- R236. COS. -/
def execCos (d a : BitVec 7) (s : State) : Host.Outcome State Fault Refusal :=
  s.gate (.cos d a) (fun s => s.float1 d a (elemSpec .cos))

/-- R236. SQRT. -/
def execSqrt (d a : BitVec 7) (s : State) : Host.Outcome State Fault Refusal :=
  s.gate (.sqrt d a) (fun s => s.float1 d a elemSqrt)

/-- R236. DIV. -/
def execDiv (d a b : BitVec 7) (s : State) : Host.Outcome State Fault Refusal :=
  s.gate (.div d a b) (fun s => s.float2 d a b elemDiv)

end Sys2Proof.Machine
end

