-- ==== Sys2Proof/Machine/Cvt.lean ====
section
/-!
DEFINITION. Conversions and the codebook decoder: CVT, CAST, PACK, UNPACKLO, UNPACKHI and QDEC
(spec/08_lane_instructions.md R237 to R240; spec/03_numbers.md R95 to R100, R105, R106).
-/

namespace Sys2Proof.Machine

/-! ### CVT, CAST, PACK, UNPACK -/

/-- R238. The targets of each source tag. -/
def cvtTargets (t : BitVec 4) : List (BitVec 4) :=
  match t.toNat with
  | 1 => [1, 2, 3, 4, 5]
  | 2 => [2, 3, 6]
  | 3 => [2, 3, 6]
  | 4 => [1, 4, 5, 6, 7, 8]
  | 5 => [1, 4, 5, 6, 7, 8]
  | 6 => [2, 3, 6, 7, 8]
  | 7 => [7, 8]
  | 8 => [8]
  | _ => []

/-- R238. The source tags a CVT to tag t accepts. -/
def cvtSources (t : BitVec 4) : List (BitVec 4) := anyTag.filter (fun x => (cvtTargets x).contains t)

def isFloatTag (t : BitVec 4) : Bool := floatTags.contains t

/-- R105, R238. One element converted from tag st to tag dt. -/
def cvtElem (rm : BitVec 2) (ftz : Bool) (st dt : BitVec 4) (x : Nat) : Nat :=
  if isFloatTag st then
    let v := (fmtOf st).read ftz x
    if isFloatTag dt then (fmtOf dt).write rm ftz v
    else match v with
      | .nan => 0
      | .inf neg => clampTo dt (if neg then -(2 ^ 40) else 2 ^ 40)
      | .num neg m e => clampTo dt (roundInt rm neg m e)
  else if isFloatTag dt then (fmtOf dt).write rm ftz (Num.ofInt (intVal st x) 0 false)
  else clampTo dt (intVal st x)

/-- R238. Source element k becomes result element k; the others are zero. -/
def cvtWord (rm : BitVec 2) (ftz : Bool) (st dt : BitVec 4) (x : Word) : Word :=
  packElems (elemBits dt) (32 / elemBits dt) (fun k =>
    if k < 32 / elemBits st then cvtElem rm ftz st dt (elem (elemBits st) x k) else 0)

/-- R238. CVT: the mode is the instruction's own. -/
def execCvt (d a : BitVec 7) (t : BitVec 4) (m : BitVec 2) (s : State) : Host.Outcome State Fault Refusal :=
  s.gate (.cvt d a t m) (fun s => s.vec [Src.typed a] d false (cvtSources t) false
    (fun st vs => (t, fun l => cvtWord m s.ftz st t ((arg vs 0).at l))))

/-- R239. CAST: the bits under another tag. -/
def execCast (d a : BitVec 7) (t : BitVec 4) (s : State) : Host.Outcome State Fault Refusal :=
  s.gate (.cast d a t) (fun s => s.vec [Src.typed a] d false anyTag true (fun _ vs => (t, fun l => (arg vs 0).at l)))

/-- R239. The packed types that have a wider format. -/
def packTags : List (BitVec 4) := [2, 3, 6, 7, 8]

/-- R239. The low halves of two words: a's below, b's above. -/
def packWord (x y : Word) : Word := BitVec.ofNat 32 (x.toNat % 2 ^ 16 + y.toNat % 2 ^ 16 * 2 ^ 16)

def execPack (d a b : BitVec 7) (s : State) : Host.Outcome State Fault Refusal :=
  s.gate (.pack d a b) (fun s => s.lane2 d a b packTags false (fun _ x y => packWord x y))

/-- R239. The next wider format. -/
def widerTag (t : BitVec 4) : BitVec 4 := if t = 2 || t = 3 then 1 else if t = 6 then 4 else if t = 7 then 6 else 7

/-- R239. The low or high half of a word's elements, widened. -/
def widenWord (ftz : Bool) (hi : Bool) (t : BitVec 4) (x : Word) : Word :=
  let w := elemBits t
  let n := 32 / elemBits (widerTag t)
  packElems (elemBits (widerTag t)) n (fun k => cvtElem 0 ftz t (widerTag t) (elem w x (k + (if hi then n else 0))))

def State.unpack (s : State) (d a : BitVec 7) (hi : Bool) : State :=
  s.vec [Src.typed a] d false packTags false
    (fun t vs => (widerTag t, fun l => widenWord s.ftz hi t ((arg vs 0).at l)))

/-- R239. UNPACKLO. -/
def execUnpacklo (d a : BitVec 7) (s : State) : Host.Outcome State Fault Refusal :=
  s.gate (.unpacklo d a) (fun s => s.unpack d a false)

/-- R239. UNPACKHI. -/
def execUnpackhi (d a : BitVec 7) (s : State) : Host.Outcome State Fault Refusal :=
  s.gate (.unpackhi d a) (fun s => s.unpack d a true)

/-! ### Codebooks -/

/-- R95. The Q16N codebook, in units of 1/64. -/
def q16n : List Int := [-64, -45, -34, -25, -18, -12, -6, 0, 5, 10, 16, 22, 29, 37, 47, 64]

/-- R95. The value of a Q16N code. -/
def q16nVal (c : Nat) : Num := Num.ofInt (q16n.getD c 0) (-6) false

/-- R98, R99. The value of a QP code in the buffer that generation gen selects. -/
def State.qpVal (s : State) (gen : BitVec 32) (c : Nat) : Num :=
  BF16.val (vget s.core.ctab 0 (16 * (gen.toNat % 2) + c)).toNat

/-- R96. The block factor from a superblock scale and a scale code. -/
def blockFactor (scale : Word) (code : Nat) : Word :=
  BitVec.ofNat 32 (F32.round 0 ((F32.val scale.toNat).mul (.num false (code + 1) (-8))))

/-- R106. One decoded element. -/
def qdecElem (v : Num) (factor : Word) : Nat := BF16.round 0 (v.mul (F32.val factor.toNat))

/-- R240. Register j of the four: elements 2j and 2j + 1. -/
def qdecWord (val : Nat → Num) (x factor : Word) (j : Nat) : Word :=
  packElems 16 2 (fun k => qdecElem (val (elem 4 x (2 * j + k))) factor)

/-- R240. QDEC, once its operands are within the counts. -/
def State.qdec (s : State) (d : BitVec 5) (a b : BitVec 7) : State :=
  let handle (vs : List VReg) : Option (Cause × Nat) :=
    if (arg vs 0).tag = 10 ∧ !s.mine.hdr.ctabbed then some (.badHandle, a.toNat) else none
  match s.vecRead [Src.typed a, Src.of b [1]] none false [9, 10] false handle with
  | .error t => t
  | .ok (s1, t, vs) =>
    let val : Nat → Num := if t = 10 then s.qpVal s.core.ctgen else q16nVal
    (s1.modMe (fun c => forAll (List.range 4) c (fun c j =>
      c.putV (4 * d.toNat + j) 2 s.iss.set (fun l => qdecWord val ((arg vs 0).at l) ((arg vs 1).at l) j)))).done

def execQdec (d : BitVec 5) (a b : BitVec 7) (s : State) : Host.Outcome State Fault Refusal :=
  s.gate (.qdec d a b) (fun s => s.qdec d a b)

end Sys2Proof.Machine
end

