-- ==== Sys2Proof/Machine/Mem.lean ====
section
/-!
DEFINITION. Memory: bytes, physical addresses, translation, race records, and the stores that have not reached home
(spec/09_memory_access.md R252 to R260, R263, R266, R283; spec/14_consistency.md R376 to R392).
-/

namespace Sys2Proof.Machine

open Host (Cell)

/-! ### What a byte reads as (R377, R378, R391) -/

/-- R377, R378. The byte a course's load sees: its own latest store to it, else the latest store at the die slice, else
home memory. -/
def State.lsuByte (s : State) (k c pa : Nat) : Byte :=
  match s.ms.stores.reverse.findSome? (fun st =>
      if st.at_ == .die || (st.k == k && st.c == c) then (st.cells.reverse.find? (fun x => x.1 == pa)).map (·.2)
      else none) with
  | some b => b
  | none => memGet s.ms.mem pa

/-- R311, R391. The byte an access of a class sees: the present one, or one that a stale copy still holds; it sees the bytes of an
aligned word alike. -/
def State.viewByte (s : State) (cls k c pa : Nat) : Byte :=
  match s.ms.stale.find? (fun x => x.pa == pa && x.cls != cls && !(x.blind && cls == 0)) with
  | some x => if Config.stale s.tick (pa / 4) then x.old else s.lsuByte k c pa
  | none => s.lsuByte k c pa

/-- Do bytes cover a whole sector? -/
def coversSector (cells : List Cell) (sec : Nat) : Bool := (List.range 32).all (fun i => cells.any (fun x => x.1 == 32 * sec + i))

/-- R283, R377. Does course (k, c) find a byte poisoned? Not once a store that it sees has covered the whole sector. -/
def State.poisonedFor (s : State) (k c pa : Nat) : Bool :=
  s.poisoned pa && !s.ms.stores.any (fun st => (st.at_ == .die || (st.k == k && st.c == c)) && coversSector st.cells (pa / 32))

/-! ### Race records (R386 to R390) -/

/-- R385, R387. Has the writer of a record a live course? -/
def State.writerLives (s : State) (r : Record) : Bool :=
  (s.consorts.find? (·.id == r.k)).any (fun q => q.place != .retired && (q.courses.find? (·.idx == r.c)).any (fun x => !x.retired))

/-- R381, R387. The bytes of a record that a closure of its region leaves open: those of engine operations that were incomplete. -/
def Record.leaves (r : Record) (d : Closed) : BitVec 32 :=
  if d.k = r.k ∧ d.c = r.c ∧ r.region.toNat ≤ d.region.toNat then
    r.eng.foldl (fun m e => if d.but.contains e.1 then m ||| e.2 else m) 0
  else r.mask

/-- R387. The bytes of a record that are open towards course (k, c). A record whose writer has no live course is closed. -/
def State.openMask (s : State) (r : Record) (k c : Nat) : BitVec 32 :=
  if !s.writerLives r || (r.k == k && r.c == c) then 0
  else (s.ms.closed.filter (fun d => 2 ≤ d.scope || r.k == k)).foldl (fun m d => m &&& r.leaves d) r.mask

/-- R387. Is a record open towards course (k, c)? -/
def State.openTo (s : State) (r : Record) (k c : Nat) : Bool := s.openMask r k c != 0

/-- The mask of bytes a..a+n-1 within their sector. -/
def sectorMask (a n : Nat) : BitVec 32 := BitVec.ofNat 32 ((2 ^ n - 1) * 2 ^ (a % 32))

/-- R388. Does a Checked access of (k, c) to bytes of one sector meet a foreign open record? -/
def State.races (s : State) (k c pa n : Nat) (atomic : Bool) : Bool :=
  s.ms.records.any (fun r => r.sector == pa / 32 &&
    !(atomic && r.atomic) && s.openMask r k c &&& sectorMask pa n != 0)

/-- R390. Is a record closed towards every course? The device may reclaim it. -/
def State.reclaimable (s : State) (r : Record) : Bool :=
  !s.writerLives r || (s.ms.closed.filter (3 ≤ ·.scope)).foldl (fun m d => m &&& r.leaves d) r.mask == 0

/-- R390. The records that a record area holds. -/
def areaRecords : Nat := 67108864

/-- R390. The places taken in a stack's record area. -/
def State.areaUsed (s : State) (die : Nat) : List Nat :=
  s.ms.records.filterMap (fun r => if dieOf (32 * r.sector) = die ∧ !s.reclaimable r then r.area else none)

/-- R390. A free place in a stack's record area: which one, is open (log entry 61). -/
def State.areaPlace (s : State) (die : Nat) : Nat :=
  let used := s.areaUsed die
  let from_ := Config.racing s.tick (2 ^ 62 + die)
  (((List.range (used.length + 1)).map (fun i => (from_ + i) % areaRecords)).find? (fun i => !used.contains i)).getD 0

/-- R390. The sectors that one instruction writes on Checked pages, with one more. -/
def noteSector (secs : List Nat) (pa : Nat) : List Nat := if secs.contains (pa / 32) then secs else pa / 32 :: secs

/-- R390. Of some sectors, those of a stack that would need a new record. -/
def State.recordless (s : State) (die : Nat) (secs : List Nat) : List Nat :=
  secs.filter (fun x => dieOf (32 * x) == die && !s.ms.records.any (·.sector == x))

/-- R390. Is there room for a record of this sector, when records of the sectors `secs` are made first: in the slices, or in the
stack's record area? -/
def State.recordRoom (s : State) (pa : Nat) (secs : List Nat) : Bool :=
  s.ms.records.any (fun r => r.sector == pa / 32) || secs.contains (pa / 32) || Config.sliceRoom s.tick ||
    ((vget s.hub.recarea 0 (dieOf pa)).getLsbD 0 &&
      (s.areaUsed (dieOf pa)).length + (s.recordless (dieOf pa) secs).length < areaRecords)

/-- R389. A course writes bytes in a region to its own record: in the record's region the mask gains them, and with those of an engine
operation that issued in an earlier region; in a later region they replace what the record held. op is the engine operation that
writes, if one does. -/
def Record.write (r : Record) (m region : BitVec 32) (atomic : Bool) (op : Option Nat) : Record :=
  let e : List (Nat × BitVec 32) := op.toList.map (fun i => (i, m))
  if region.toNat ≤ r.region.toNat then
    { r with mask := r.mask ||| m, atomic := r.atomic && atomic, eng := r.eng ++ e.filter (fun x => !r.eng.contains x) }
  else { r with mask := m, region := region, atomic := atomic, eng := e }

/-- R389, R390. A new record of a sector is made. A reclaimed record whose place it takes is gone. -/
def State.newRecord (s : State) (r : Record) : State :=
  s.modMs (fun x => { x with records := x.records.filter (fun o =>
    !(r.area.isSome && o.area == r.area && dieOf (32 * o.sector) == dieOf (32 * r.sector) && s.reclaimable o)) ++ [r] })

/-- R389. A Checked write of (k, c) in a region updates the record of its sector. -/
def State.record (s : State) (k c pa n : Nat) (region : BitVec 32) (atomic : Bool) (op : Option Nat) : State :=
  let m := sectorMask pa n
  let fresh (area : Option Nat) : Record :=
    { sector := pa / 32, k := k, c := c, mask := m, region := region, atomic := atomic, eng := op.toList.map (fun i => (i, m)), area := area }
  match s.ms.records.find? (fun r => r.sector == pa / 32) with
  | none => s.newRecord (fresh (if Config.sliceRoom s.tick then none else some (s.areaPlace (dieOf pa))))
  | some r =>
    let put (r' : Record) := s.modMs (fun x => { x with records := modFirst (fun r => r.sector == pa / 32) (fun _ => r') x.records })
    if r.k = k ∧ r.c = c then put (r.write m region atomic op)
    else if s.openTo r k c then s
    else put (fresh r.area)

/-- R390. The 32 bytes of a record in its area. No rule gives the virtual address of a context image (log entry 61). -/
def State.recordBytes (s : State) (r : Record) : List Byte :=
  leBytes 4 (r.sector % 2 ^ 31 + 2 ^ 31) ++ leBytes 4 r.mask.toNat ++ leBytes 8 (Config.imageVa (((s.cons r.k).ctx + 16384 * r.c) / 16384)) ++
    leBytes 4 r.region.toNat ++ [if r.atomic then 1 else 0] ++ List.replicate 11 0

/-- R390. Where a record stands in its stack's area, while that is in use. -/
def State.recordAt (s : State) (r : Record) : Option Nat :=
  let die := dieOf (32 * r.sector)
  let w := vget s.hub.recarea 0 die
  if w.getLsbD 0 && !s.reclaimable r then r.area.map (fun i => die * 2 ^ 36 + field w.toNat 35 31 * 2 ^ 31 + 32 * i) else none

/-- R390. The records that have spilled stand in their areas as they now are (log entry 61). -/
def State.spillOut (s : State) : State :=
  forAll (s.ms.records.filterMap (fun r => (s.recordAt r).map (fun a => (a, s.recordBytes r)))) s (fun s x => s.poke x.1 x.2)

/-! ### Fault records (R412, R437) -/

/-- A fault record is formed and waits in the hub for room in the ring. -/
def State.report (s : State) (r : FaultRecord) : State := s.modHub (fun h => { h with faults := h.faults ++ [r] })

/-! ### One access of the load-store unit or an engine -/

/-- R263. What becomes of one access, in the order the causes are tested. -/
inductive Fate where
  | ok (pa : Nat) (checked : Bool)
  | trap (cause : Cause)
  | park (entry : Nat)
  deriving DecidableEq, Repr

/-- R263, R386 to R390. The fate of an access of course (k, c) to n bytes at va, within one sector: translation,
permission, race, record room (records of the sectors `secs` are made first), poison. -/
def State.fateAfter (s : State) (k c : Nat) (va : DWord) (n : Nat) (rd wr atomic : Bool) (secs : List Nat) : Fate :=
  let q := s.cons k
  match s.xlate q.aspace q.hdr.checked va rd wr with
  | .denied => .trap .xlateDenied
  | .absent e => .park e
  | .ok pa ch =>
    if atomic && isHost pa then .trap .xlateDenied
    else if ch && s.races k c pa n atomic then .trap .race
    else if ch && wr && !s.recordRoom pa secs then .trap .recordFull
    else if rd && (List.range n).any (fun i => s.poisonedFor k c (pa + i)) then .trap .poison
    else .ok pa ch

/-- R263. The fate of an access that makes the first record, or the only one. -/
def State.fate (s : State) (k c : Nat) (va : DWord) (n : Nat) (rd wr atomic : Bool) : Fate := s.fateAfter k c va n rd wr atomic []

/-- R390, R412. RECORD_FULL sets FULL in the stack's RECAREA and sends an event; access is the kind of access with its class. -/
def State.recordFull (s : State) (k c access : Nat) (ref : BitVec 32) (va : DWord) : State :=
  let q := s.cons k
  match s.xlate q.aspace q.hdr.checked va false false with
  | .ok pa _ =>
    let d := dieOf pa
    (s.modHub (fun h => { h with recarea := vset h.recarea d (vget h.recarea 0 d ||| 4) })).report
      { kind := 8, cause := 0x0A, access := access, course := c, aspace := q.aspace, lanes := 0, cref := ref, ctx := q.ctx
        addr := va }
  | _ => s

/-! ### Stores on their way home (R266, R378, R384) -/

def State.freshId (s : State) : State × Nat := ({ s with nextId := s.nextId + 1 }, s.nextId)

/-- R384. Releases at consort scope or wider that a course has issued. -/
def State.epochOf (s : State) (k c : Nat) : Nat :=
  ((s.ms.epochs.find? (fun e => e.1 == k && e.2.1 == c)).map (·.2.2)).getD 0

def sameLine (a b : Nat) : Bool := a / 64 == b / 64

def cellsMeet (xs ys : List Cell) : Bool := xs.any (fun x => ys.any (fun y => sameLine x.1 y.1))

/-- R252, R266. Does a store go to the host region? It goes to the hub die, and no slice holds it. -/
def Store.host (st : Store) : Bool := (st.cells.head?.map (fun x => isHost x.1)).getD false

/-- R13, R377. Has no earlier store of the course to the same line still to perform anywhere? -/
def State.storeFirst (s : State) (st : Store) : Bool :=
  !s.ms.stores.any (fun o => o.at_ == .issued && o.k == st.k && o.c == st.c && o.id < st.id && cellsMeet o.cells st.cells)

/-- R384. Has a course an atomic on its way that it issued before the release that began epoch ep? -/
def State.atomsBefore (s : State) (k c ep : Nat) : Bool :=
  s.ms.atoms.any (fun a => a.reqs.any (fun r => r.k == k && r.c == c && r.epoch < ep))

/-- R13, R377, R384. A store may perform at the die slice when no earlier store of its course to the same line, and no store or atomic
before an intervening release, has not (log entry 69). -/
def State.storeDieReady (s : State) (st : Store) : Bool :=
  st.at_ == .issued && !st.host && s.storeFirst st &&
    !s.ms.stores.any (fun o => o.at_ == .issued && !o.host && o.k == st.k && o.c == st.c && o.epoch < st.epoch) &&
    !s.atomsBefore st.k st.c st.epoch

/-- R13, R266, R384. A store may perform at home when it is at the die slice, or goes to the host, no earlier store to its line is
there too, and no store its course issued before an intervening release is on its way. -/
def State.storeHomeReady (s : State) (st : Store) : Bool :=
  (st.at_ == .die || (st.host && s.storeFirst st)) &&
    !(s.ms.stores.takeWhile (fun o => o.id != st.id)).any (fun o => o.at_ == .die && cellsMeet o.cells st.cells) &&
    !s.ms.stores.any (fun o => o.k == st.k && o.c == st.c && o.epoch < st.epoch) &&
    !s.atomsBefore st.k st.c st.epoch

/-- R138. Courses that wait on a join counter whose COUNT is now zero are woken, with the bits the JCWAIT returns. -/
def State.jcScan (s : State) : State :=
  { s with consorts := s.consorts.map (fun q => { q with courses := q.courses.map (fun x =>
      match x.hold with
      | .jcwait pa v none iss =>
        if s.peek pa 4 = 0 then { x with hold := .jcwait pa v (some (BitVec.ofNat 32 (s.peek (pa + 4) 4))) iss } else x
      | _ => x) }) }

/-- R283. Bytes written at home: a sector that is covered whole is no longer poisoned. -/
def State.homeWrite (s : State) (cells : List Cell) : State :=
  (s.modMs (fun x => { x with mem := memCells x.mem cells, poison := x.poison.filter (fun p => !coversSector cells p) })).jcScan

/-- The distinct numbers of a list, in order of first appearance. -/
def distinct : List Nat → List Nat
  | [] => []
  | x :: xs => x :: (distinct xs).filter (· != x)

/-- The bytes of the aligned 4-byte words that hold these bytes. -/
def wholeWords (as : List Nat) : List Nat := (distinct (as.map (· / 4))).flatMap (fun w => [4 * w, 4 * w + 1, 4 * w + 2, 4 * w + 3])

/-- R395. The writes to a stale byte's line: the one that replaced it, and those since. -/
def StaleByte.writers (b : StaleByte) : List (Nat × Nat × Nat × Nat) := (b.cls, b.k, b.c, b.op) :: b.also

/-- R395. A write to some bytes, by its class, course and operation, is a write to the line of every stale byte that shares theirs. -/
def State.noteWrite (s : State) (w : Nat × Nat × Nat × Nat) (pas : List Nat) : State :=
  s.modMs (fun m => { m with stale := m.stale.map (fun b =>
    if pas.any (sameLine b.pa) && !b.also.contains w then { b with also := w :: b.also } else b) })

/-- R252, R311, R391, R395. The words about to be written by operation op, of class cls, of course (k, c) may still be met by
other classes as they are. Nothing holds a copy of host memory. -/
def State.keepStale (s : State) (cls k c op : Nat) (pas : List Nat) : State :=
  let words := wholeWords (pas.filter (fun a => !isHost a))
  let old := words.map (fun a =>
    { pa := a, old := s.lsuByte k c a, cls := cls, k := k, c := c, op := op, arw := [], blind := false, also := [] : StaleByte })
  (s.noteWrite (cls, k, c, op) words).modMs (fun x => { x with stale := x.stale.filter (fun b => !words.contains b.pa) ++ old })

/-- Store st leaves for home from the die slice and performs there. -/
def State.storeHome (s : State) (st : Store) : State :=
  let s1 := (s.homeWrite st.cells).modMs (fun x => { x with stores := x.stores.filter (fun o => o.id != st.id) })
  if s1.ms.stores.any (fun o => o.op == st.op) then s1
  else s1.modCrs st.k st.c (fun x => { x with stores := x.stores - 1 })

/-- R266, R280. A store that performs at the die slice, or an atomic, has invalidated the copies of the lines of these bytes from which
loads of the die could return an older value. -/
def State.invalidateLines (s : State) (pas : List Nat) : State :=
  s.modMs (fun m => { m with stale := m.stale.map (fun b => if pas.any (sameLine b.pa) then { b with blind := true } else b) })

/-- R266, R378. Store st performs at the die slice: it follows every store that performed there before. -/
def State.storeDie (s : State) (st : Store) : State :=
  (s.invalidateLines (st.cells.map (·.1))).modMs (fun x =>
    let rest := x.stores.filter (fun o => o.id != st.id)
    { x with stores := rest.filter (·.at_ == .die) ++ [{ st with at_ := .die }] ++ rest.filter (·.at_ == .issued) })

/-- R377, R384. The stores of a course to the lines of these bytes, and those of earlier epochs, that have not performed at the die
slice perform there, in order; none does while an atomic of an earlier epoch is on its way. -/
def State.drainLine (s : State) (k c : Nat) (cells : List Cell) : State :=
  if s.atomsBefore k c (s.epochOf k c) then s
  else forAll (s.ms.stores.filter (fun o => o.at_ == .issued && !o.host && o.k == k && o.c == c &&
    (cellsMeet o.cells cells || o.epoch < s.epochOf k c))) s State.storeDie

/-- R377, R378, R382, R384. Must operation op, of epoch ep, of course (k, c) wait before it accesses these bytes at home? For the
course's own earlier atomics to their words; and where it writes, for the course's own earlier stores to their lines, every store
that is visible at a die slice of those lines, and the course's stores and atomics of earlier epochs. -/
def State.homeWaits (s : State) (k c op ep : Nat) (pas : List Nat) (wr : Bool) : Bool :=
  s.ms.atoms.any (fun a => a.reqs.any (fun r =>
      r.k == k && r.c == c && r.op < op && ((wr && r.epoch < ep) || pas.any (fun p => p / 4 * 4 == a.pa)))) ||
    (wr && s.ms.stores.any (fun o =>
      let meets := o.cells.any (fun x => pas.any (sameLine x.1))
      (o.at_ == .die && meets) || (o.k == k && o.c == c && o.id < op && (meets || o.epoch < ep))))

/-- R267. The bytes of one instruction, grouped by 32-byte sector; of several writes to a byte the last remains. -/
def bySector (cells : List Cell) : List (List Cell) :=
  (distinct (cells.map (fun x => x.1 / 32))).map (fun sec =>
    (distinct ((cells.filter (fun x => x.1 / 32 == sec)).map (·.1))).map (fun a =>
      (a, ((cells.reverse.find? (fun x => x.1 == a)).map (·.2)).getD 0)))

/-- R210, R266, R267, R377. The bytes of one store instruction leave the course, one request per sector. Those of Checked pages
perform at the die slice as they issue, where their race check was made, behind the course's earlier stores to the line; the
stores counter rises once. -/
def State.issueStores (s : State) (k c : Nat) (cells : List Cell) (checkedSectors : List Nat) : State :=
  if cells.isEmpty then s
  else
    let (s0, op) := s.freshId
    let ep := s0.epochOf k c
    let s1 := s0.keepStale 0 k c op (distinct (cells.map (·.1)))
    let s2 := (bySector cells).foldl (fun s g =>
      let (s, id) := s.freshId
      let st : Store := { id := id, op := op, k := k, c := c, at_ := .issued, epoch := ep, cells := g }
      let s := s.modMs (fun x => { x with stores := x.stores ++ [st] })
      if (g.head?.map (fun x => checkedSectors.contains (x.1 / 32))).getD false then s.drainLine k c g else s) s1
    s2.modCrs k c (fun x => { x with stores := x.stores + 1 })

/-- Does an atomic request of the course to one of the n bytes at one of these addresses still stand (R377)? -/
def State.atomPending (s : State) (k c : Nat) (pas : List Nat) (n : Nat) : Bool :=
  s.ms.atoms.any (fun a => a.reqs.any (fun r => r.k == k && r.c == c) && pas.any (fun p => a.pa < p + n && p < a.pa + 4))

end Sys2Proof.Machine
end

