-- ==== Sys2Proof/Machine/MemAccess.lean ====
section
/-!
DEFINITION. Global loads, stores and atomics, and the events that finish them (spec/09_memory_access.md R261 to R268,
R276 to R283; spec/08_lane_instructions.md R227).
-/

namespace Sys2Proof.Machine

open Host (Cell)

/-! ### Element kinds (R67) -/

/-- R67. Bytes of an element kind. -/
def kindSize (k : BitVec 5) : Nat :=
  if k.toNat < 2 then 1 else if k.toNat < 4 then 2 else if k.toNat < 16 then 4 else if k.toNat < 24 then 8 else 16

/-- R67. The list tags of pair and quad kinds. -/
def listTag (k : Nat) : BitVec 4 := [0, 1, 2, 3, 4, 7, 9, 10].getD k 0

/-- R67. The tag a kind carries: that of a load's result, and the one a store's data must have (R262). -/
def kindTag (k : BitVec 5) : BitVec 4 :=
  if k = 0 || k = 2 then 5 else if k = 1 || k = 3 then 4
  else if k.toNat < 16 then BitVec.ofNat 4 (k.toNat - 4) else listTag (k.toNat % 8)

/-- R262. Does a store of this kind accept data with this tag? -/
def storeAccepts (k : BitVec 5) (tag : BitVec 4) : Bool :=
  tag.toNat < 12 && (tag == 0 || k == 0 || k == 2 || kindTag k == 0 || tag == kindTag k)

/-- R67. The words a load of n bytes delivers: one per register, sign-extended for the signed kinds. -/
def kindWords (k : BitVec 5) (bs : List Byte) : List Word :=
  if k = 1 then [BitVec.ofInt 32 (sextInt 8 (leNat bs))]
  else if k = 3 then [BitVec.ofInt 32 (sextInt 16 (leNat bs))]
  else (List.range (kindRegs k)).map (fun i => BitVec.ofNat 32 (leNat ((bs.drop (4 * i)).take 4)))

/-- R67. The bytes a store writes from its registers' words. -/
def kindBytes (k : BitVec 5) (ws : List Word) : List Byte :=
  if k.toNat < 4 then leBytes (kindSize k) ((ws.headD 0).toNat) else ws.flatMap (fun w => leBytes 4 w.toNat)

/-- R261. The tags of an offset register. -/
def offsetTags : List (BitVec 4) := [4, 5, 0]

/-- R67, R263. The address of a lane. -/
def laneAddr (base : DWord) (a : VReg) (off : DWord) (l : Nat) : DWord := base + (a.at l).setWidth 64 + off

/-! ### Settling the lanes of an access (R263, R264, R405) -/

/-- A lane with its fate and its address. -/
structure LaneFate where
  lane : Nat
  fate : Fate
  va : DWord

/-- R263. Trap groups by cause, in order of the lowest lane of each. -/
def trapGroups (xs : List LaneFate) (wr scr : Bool) : List TrapGroup :=
  let causes := (Cause.all.filter (fun c => xs.any (fun x => x.fate == .trap c)))
  causes.map (fun c =>
    let ls := xs.filter (fun x => x.fate == .trap c)
    let first := ls.headD { lane := 0, fate := .trap c, va := 0 }
    { cause := c, lanes := maskOf (fun l => ls.any (fun x => x.lane == l))
      info := info260 first.lane wr scr first.va.toNat })

/-- R259, R412. Lanes park at the instruction; those whose walks end at one absent entry share one fault record. cls is the
class set of the access. -/
def State.park (s : State) (xs : List LaneFate) (access cls : Nat) : State :=
  let ps := xs.filterMap (fun x => match x.fate with
    | .park e => some (x.lane, e, x.va)
    | _ => none)
  let set := maskOf (fun l => ps.any (fun p => p.1 == l))
  if ps.isEmpty then s
  else
    let q := s.mine
    let s1 := s.modMe (fun c =>
      { (c.setLane set .parked) with
        parkAddr := vof 32 (fun l => ((ps.find? (fun p => p.1 == l)).map (·.2.2)).getD (vget c.parkAddr 0 l))
        parkWr := if access = 0 then c.parkWr &&& ~~~set else c.parkWr ||| set
        stall := none })
    forAll (distinct (ps.map (·.2.1))) s1 (fun s e =>
      let mine := ps.filter (fun p => p.2.1 == e)
      s.report { kind := 1, cause := 6, access := access + 4 * cls, course := s.iss.c, aspace := q.aspace
                 lanes := maskOf (fun l => mine.any (fun p => p.1 == l)), cref := s.iss.own, ctx := q.ctx
                 addr := ((mine.head?.map (·.2.2)).getD 0) })

/-- R263, R264. The lanes without a cause move on, parked lanes park, trapping lanes trap. `move` is false where the
other lanes stay at the instruction (R265). -/
def State.settle (s : State) (xs : List LaneFate) (wr scr move : Bool) (access cls : Nat) : State :=
  let okSet := maskOf (fun l => xs.any (fun x => x.lane == l && (match x.fate with
    | .ok _ _ => true
    | _ => false)))
  let s1 := if move then s.advance okSet else s
  let s2 := (s1.modMe (fun c => { c with stall := none })).park xs access cls
  let s3 := forAll (xs.filter (fun x => x.fate == .trap .recordFull)) s2 (fun s x => s.recordFull s.iss.k s.iss.c (access + 4 * cls) s.iss.own x.va)
  s3.deliver s.iss.k s.iss.c s.iss.own (fun _ => s.iss.at_) (trapGroups xs wr scr)

/-- R263. The fate of one lane's access: alignment first. secs: the sectors of which lanes before it make records (R390). -/
def State.laneFate (s : State) (va : DWord) (n : Nat) (rd wr atomic : Bool) (secs : List Nat) : Fate :=
  if va.toNat % n ≠ 0 then .trap .misalign else s.fateAfter s.iss.k s.iss.c va n rd wr atomic secs

/-- R390. The sectors of which an access of this fate makes a record, added. -/
def Fate.note (f : Fate) (wr : Bool) (secs : List Nat) : List Nat :=
  match f with
  | .ok pa true => if wr then noteSector secs pa else secs
  | _ => secs

/-- R263, R390. The fates of some lanes, in order: a place for a record that one takes is not there for the next. -/
def State.fatesOf (s : State) (addr : Nat → DWord) (n : Nat) (rd wr atomic : Bool) : List Nat → List Nat → List LaneFate
  | [], _ => []
  | l :: ls, secs =>
    let f := s.laneFate (addr l) n rd wr atomic secs
    { lane := l, fate := f, va := addr l } :: s.fatesOf addr n rd wr atomic ls (f.note wr secs)

def State.laneFates (s : State) (addr : Nat → DWord) (n : Nat) (rd wr atomic : Bool) : List LaneFate :=
  s.fatesOf addr n rd wr atomic (lanesOf s.iss.set) []

/-- The lanes that proceed, with their physical address and whether the page is Checked. -/
def okLanes (xs : List LaneFate) : List (Nat × Nat × Bool) :=
  xs.filterMap (fun x => match x.fate with
    | .ok pa ch => some (x.lane, pa, ch)
    | _ => none)

/-- R258. The translations the lanes used are held. -/
def State.holdAll (s : State) (xs : List LaneFate) : State := forAll xs s (fun s x => s.hold s.mine.aspace x.va)

/-- R210. A counter at 255 stalls the next operation. -/
def counterFull (n : Nat) : Bool := 255 ≤ n

/-- R265. Faults decided before an element pops: alignment, translation and permission. -/
def earlyFault (f : Fate) : Bool :=
  match f with
  | .park _ => true
  | .trap c => c == .misalign || c == .xlateDenied
  | .ok _ _ => false

/-! ### LD and ST (R261 to R265) -/

/-- R263. The bytes a lane of a load reads. -/
def State.readBytes (s : State) (cls pa n : Nat) : List Byte :=
  (List.range n).map (fun i => s.viewByte cls s.iss.k s.iss.c (pa + i))

/-- R263, R264, R265. LD, once its operands are within the counts. -/
def State.loadVector (s : State) (d a : BitVec 7) (b : BitVec 6) (k : BitVec 5) (px : Option (BitVec 25)) : State :=
  let av := s.me.getV a.toNat
  let n := kindSize k
  let addr := laneAddr (s.getS b.toNat) av (memOff px)
  match s.readSrcs [] (some d) 1 with
  | .error t => t
  | .ok _ =>
    if !offsetTags.contains av.tag then s.fail .format a.toNat
    else
      let xs := s.laneFates addr n true false false
      let oks := okLanes xs
      if counterFull s.me.loads || s.atomPending s.iss.k s.iss.c (oks.map (·.2.1)) n then s.stallFor .other
      else
        let vals := oks.map (fun x => (x.1, kindWords k (s.readBytes 0 x.2.1 n)))
        let s1 := s.holdAll xs
        let s2 :=
          if isPort d then
            s1.portPush s.iss.k s.iss.c (portOf d)
              (vals.flatMap (fun x => x.2.map (fun w => { val := w, tag := kindTag k })))
          else if vals.isEmpty then s1
          else
            let (s2, id) := s1.freshId
            let ld : Load :=
              { id := id, k := s.iss.k, c := s.iss.c, regs := (List.range (kindRegs k)).map (d.toNat + ·)
                words := vals.flatMap (fun x => (x.2.zip (List.range x.2.length)).map (fun w => (d.toNat + w.2, x.1, w.1)))
                tag := kindTag k, scalar := none }
            (s2.modMs (fun m => { m with loads := m.loads ++ [ld] })).modMe (fun c => { c with loads := c.loads + 1 })
        s2.settle xs false false true 0 1

/-- LD. -/
def execLd (d a : BitVec 7) (sb : BitVec 6) (k : BitVec 5) (px : Option (BitVec 25)) (s : State) :
    Host.Outcome State Fault Refusal :=
  s.gate (.ld d a sb k px) (fun s => s.loadVector d a sb k px)

/-- The words of a store's data registers for a lane. -/
def storeWords (data : List VReg) (l : Nat) : List Word := data.map (fun r => r.at l)

/-- R247, R261, R262, R404. The data of a store, a port's popped elements or the registers the kind names, once the tags of its offset
register a and of the data are checked, in that order; or the state it ends in. -/
def State.storeData (s : State) (a d : BitVec 7) (k : BitVec 5) : Except State (State × List VReg) :=
  match (if isPort d then s.takeSrcs [d] none 0
    else .ok (s, (List.range (kindRegs k)).map (fun i => ([], s.me.getV (d.toNat + i))))) with
  | .error t => .error t
  | .ok (s1, xs) =>
    if !offsetTags.contains (s.me.getV a.toNat).tag then .error (s.fail .format a.toNat)
    else match (xs.zip (List.range xs.length)).find? (fun x => mixedTags x.1.1 || !storeAccepts k x.1.2.tag) with
      | some x => .error (s.fail .format (d.toNat + x.2))
      | none => .ok (s1, xs.map (·.2))

/-- R387 to R389. Records of the Checked lanes of a write. A store performs at the die slice as it issues; an atomic passes the die's
slices, where the records of the die's courses stand, as it issues (R279). -/
def State.recordLanes (s : State) (oks : List (Nat × Nat × Bool)) (n : Nat) (atomic : Bool) : State :=
  forAll oks s (fun s x =>
    if x.2.2 then s.record s.iss.k s.iss.c x.2.1 n s.me.region atomic none else s)

/-- R263 to R265. ST, once its operands are within the counts. -/
def State.storeVector (s : State) (d a : BitVec 7) (b : BitVec 6) (k : BitVec 5) (px : Option (BitVec 25)) : State :=
  let av := s.me.getV a.toNat
  let n := kindSize k
  let addr := laneAddr (s.getS b.toNat) av (memOff px)
  match s.storeData a d k with
  | .error t => t
  | .ok (s1, data) =>
    let xs := s.laneFates addr n false true false
    let early := xs.filter (fun x => earlyFault x.fate)
    if isPort d && !early.isEmpty then (s.holdAll xs).settle early true false false 1 1
    else
      let oks := okLanes xs
      if counterFull s.me.stores || s.atomPending s.iss.k s.iss.c (oks.map (·.2.1)) n then s.stallFor .other
      else
        let cells : List Cell := oks.flatMap (fun x =>
          ((kindBytes k (storeWords data x.1)).zip (List.range n)).map (fun y => (x.2.1 + y.2, y.1)))
        let secs := distinct ((oks.filter (·.2.2)).map (fun x => x.2.1 / 32))
        (((s1.holdAll xs).recordLanes oks n false).issueStores s.iss.k s.iss.c cells secs).settle xs true false true 1 1

/-- ST. -/
def execSt (d a : BitVec 7) (sb : BitVec 6) (k : BitVec 5) (px : Option (BitVec 25)) (s : State) :
    Host.Outcome State Fault Refusal :=
  s.gate (.st d a sb k px) (fun s => s.storeVector d a sb k px)

/-! ### Scalar loads and stores (R227) -/

/-- R227. One access for the whole issue set: a park parks every lane, a cause traps every lane. -/
def State.scalarAccess (s : State) (va : DWord) (n : Nat) (wr : Bool) (f : State → Nat → Bool → State) : State :=
  let fate := s.laneFate va n (!wr) wr false []
  match fate with
  | .ok pa ch =>
    if s.atomPending s.iss.k s.iss.c [pa] n then s.stallFor .other
    else (f (s.hold s.mine.aspace va) pa ch).done
  | .park e => s.park ((lanesOf s.iss.set).map (fun l => { lane := l, fate := .park e, va := va })) wr.toNat 1
  | .trap c =>
    let s1 := if c = .recordFull then s.recordFull s.iss.k s.iss.c 5 s.iss.own va else s
    s1.trapWhole c (info260 (lowest s.iss.set) wr false va.toNat)

/-- R227. SLD and SLDW. -/
def State.scalarLoad (s : State) (d a : BitVec 6) (x : DWord) (n : Nat) : State :=
  if counterFull s.me.loads then s.stallFor .other
  else s.scalarAccess (s.getS a.toNat + x) n false (fun s pa _ =>
    let v : DWord := BitVec.ofNat 64 (leNat (s.readBytes 0 pa n))
    let (s1, id) := s.freshId
    let ld : Load := { id := id, k := s.iss.k, c := s.iss.c, regs := [], words := [], tag := 0
                       scalar := some (d.toNat, v) }
    (s1.modMs (fun m => { m with loads := m.loads ++ [ld] })).modMe (fun c => { c with loads := c.loads + 1 }))

/-- R227. SST and SSTW. -/
def State.scalarStore (s : State) (d a : BitVec 6) (x : DWord) (n : Nat) : State :=
  if counterFull s.me.stores then s.stallFor .other
  else
    let v := (s.getS d.toNat).toNat
    s.scalarAccess (s.getS a.toNat + x) n true (fun s pa ch =>
      (s.recordLanes [(0, pa, ch)] n false).issueStores s.iss.k s.iss.c
        ((leBytes n v).zip (List.range n) |>.map (fun y => (pa + y.2, y.1))) (if ch then [pa / 32] else []))

def execSld (d a : BitVec 6) (i : BitVec 10) (px : Option (BitVec 25)) (s : State) : Host.Outcome State Fault Refusal :=
  s.gate (.sld d a i px) (fun s => s.scalarLoad d a (imm64 10 i.toNat px) 8)

def execSst (d a : BitVec 6) (i : BitVec 10) (px : Option (BitVec 25)) (s : State) : Host.Outcome State Fault Refusal :=
  s.gate (.sst d a i px) (fun s => s.scalarStore d a (imm64 10 i.toNat px) 8)

def execSldw (d a : BitVec 6) (i : BitVec 10) (px : Option (BitVec 25)) (s : State) : Host.Outcome State Fault Refusal :=
  s.gate (.sldw d a i px) (fun s => s.scalarLoad d a (imm64 10 i.toNat px) 4)

def execSstw (d a : BitVec 6) (i : BitVec 10) (px : Option (BitVec 25)) (s : State) : Host.Outcome State Fault Refusal :=
  s.gate (.sstw d a i px) (fun s => s.scalarStore d a (imm64 10 i.toNat px) 4)

/-! ### Atomics (R276 to R281) -/

/-- R69. The tags an operation accepts. -/
def atomTags (o : BitVec 4) : List (BitVec 4) :=
  match o.toNat with
  | 0 => [4, 5]
  | 1 => [4] | 2 => [4] | 3 => [5] | 4 => [5]
  | 5 => [4, 5, 0] | 6 => [4, 5, 0] | 7 => [4, 5, 0]
  | 8 => anyTag | 9 => anyTag
  | 14 => [5] | 15 => [5]
  | _ => [1]

/-- R277. The new word of one lane's operation. -/
def atomStep (o : BitVec 4) (m x c : Word) : Word :=
  match o.toNat with
  | 0 => m + x
  | 1 => if m.toInt ≤ x.toInt then m else x
  | 2 => if m.toInt ≤ x.toInt then x else m
  | 3 => if m.toNat ≤ x.toNat then m else x
  | 4 => if m.toNat ≤ x.toNat then x else m
  | 5 => m &&& x
  | 6 => m ||| x
  | 7 => m ^^^ x
  | 8 => x
  | 9 => if m = c then x else m
  | 10 => addF32 m x
  | 11 => addF32 m x
  | 12 => BitVec.ofNat 32 (F32.minmax false m.toNat x.toNat)
  | 13 => BitVec.ofNat 32 (F32.minmax true m.toNat x.toNat)
  | 14 => if x.toNat ≤ m.toNat then 0 else m + 1
  | _ => if m = 0 ∨ x.toNat < m.toNat then x else m - 1

/-- R277. The lanes of one group applied one after another: what each receives, and the final word. -/
def atomSerial (o : BitVec 4) (m : Word) : List AtomLane → List (Nat × Word) × Word
  | [] => ([], m)
  | x :: xs =>
    let (rs, m') := atomSerial o (atomStep o m x.x x.c) xs
    ((x.lane, m) :: rs, m')

/-- R278. The serial sums of the operands: P of each lane but the first, and the total T. -/
def atomSums : List Word → List Word
  | [] => []
  | x :: xs => xs.foldl (fun acc y => acc ++ [addF32 (acc.getLastD 0) y]) [x]

/-- R242. The tree over 2^depth positions from lo on, absent ones passed over, with the given addition. -/
def treeSum (add : Word → Word → Word) (f : Nat → Option Word) : Nat → Nat → Option Word
  | 0, lo => f lo
  | d + 1, lo =>
    match treeSum add f d lo, treeSum add f d (lo + 2 ^ d) with
    | none, y => y
    | x, none => x
    | some x, some y => some (add x y)

/-- R279. The tree over the first n of a list of totals. -/
def treeOf (ts : List Word) : Option Word := treeSum addF32 (fun i => ts[i]?) 5 0

/-- R278. What the lanes of a .fadd request receive when it meets the word m. -/
def faddLanes (m : Word) (ls : List AtomLane) : List (Nat × Word) :=
  let ps := atomSums (ls.map (·.x))
  (ls.zip (List.range ls.length)).map (fun x =>
    (x.1.lane, if x.2 = 0 then m else addF32 m (ps.getD (x.2 - 1) 0)))

/-- R278 to R280. A word's requests performed together on M: what each request's lanes receive, and the new word. -/
def atomPerform (o : BitVec 4) (m : Word) (reqs : List (List AtomLane)) : List (List (Nat × Word)) × Word :=
  if o = 10 then
    let ts := reqs.map (fun ls => (atomSums (ls.map (·.x))).getLastD 0)
    let meet (i : Nat) : Word := match treeOf (ts.take i) with
      | some q => addF32 m q
      | none => m
    ((reqs.zip (List.range reqs.length)).map (fun x => faddLanes (meet x.2) x.1), meet ts.length)
  else reqs.foldl (fun acc ls => let (rs, m') := atomSerial o acc.2 ls; (acc.1 ++ [rs], m')) ([], m)

/-- R279. Is an entry of the combining buffer open at a clock? -/
def Atomic.merging (a : Atomic) (clock : Nat) : Bool := a.open_ && clock < a.opened + 64

/-- Does the course of a request make one of an entry's requests? -/
def Atomic.ofCourse (a : Atomic) (r : AtomReq) : Bool := a.reqs.any (fun r' => r'.k == r.k && r'.c == r.c)

/-- R377, R378, R382, R384. Is a request to word pa held back: by stores to the word that were visible at the die slice when it issued,
by its course's own earlier stores to the word, or by its stores and atomics before an intervening release? -/
def State.reqHeld (s : State) (pa : Nat) (r : AtomReq) : Bool :=
  s.ms.stores.any (fun st =>
    let meets := st.cells.any (fun x => x.1 / 4 * 4 == pa)
    (r.behind.contains st.id && st.at_ == .die) || (st.k == r.k && st.c == r.c && (st.epoch < r.epoch || (st.id < r.op && meets)))) ||
  s.ms.atoms.any (fun b => b.reqs.any (fun r' => r'.k == r.k && r'.c == r.c && r'.epoch < r.epoch))

/-- Is one of an entry's requests held back? -/
def State.atomHeld (s : State) (a : Atomic) : Bool := a.reqs.any (s.reqHeld a.pa)

/-- R279. May a request that arrives now merge with an entry? One that is held back has not arrived (log entry 69). -/
def State.merges (s : State) (pa : Nat) (o : BitVec 4) (r : AtomReq) (a : Atomic) : Bool :=
  o != 11 && a.merging s.clock && a.pa == pa && a.code == o && !s.reqHeld pa r && !s.atomHeld a &&
    !s.ms.atoms.any (fun b => b.pa == pa && b.ofCourse r && s.atomHeld b)

/-- R279. A request enters the combining buffer: it merges with an open entry of its word and operation, closes one it
cannot merge with, or opens an entry; .faddnc and requests that find no free entry pass uncombined. -/
def State.combine (s : State) (pa : Nat) (o : BitVec 4) (r : AtomReq) : State :=
  let (s0, id) := s.freshId
  let shut (a : Atomic) : Atomic := if a.pa = pa ∧ a.code ≠ o then { a with open_ := false } else a
  let s1 := s0.modMs (fun m => { m with atoms := m.atoms.map shut })
  match s1.ms.atoms.find? (s.merges pa o r) with
  | some a =>
    let join (b : Atomic) : Atomic := { b with reqs := b.reqs ++ [r], open_ := b.reqs.length + 1 < 16 }
    s1.modMs (fun m => { m with atoms := modFirst (fun b => b.id == a.id) join m.atoms })
  | none =>
    let room := (s1.ms.atoms.filter (·.merging s.clock)).length < 64
    s1.modMs (fun m => { m with atoms := m.atoms ++
      [{ id := id, pa := pa, code := o, open_ := room && o != 11, opened := s.clock, reqs := [r] }] })

/-- R276 to R279. ATOM (dest = some d) and RED, once their operands are within the counts. -/
def State.atomVector (s : State) (d a : BitVec 7) (b : BitVec 6) (o : BitVec 4) (ret : Bool) (px : Option (BitVec 25)) :
    State :=
  let av := s.me.getV a.toNat
  let x := s.me.getV d.toNat
  let c := s.me.getV (d.toNat + 1)
  let addr := laneAddr (s.getS b.toNat) av (memOff px)
  if !offsetTags.contains av.tag then s.fail .format a.toNat
  else if !(atomTags o).contains x.tag then s.fail .format d.toNat
  else if o = 9 ∧ c.tag ≠ x.tag then s.fail .format (d.toNat + 1)
  else
    let xs := s.laneFates addr 4 true true true
    let oks := okLanes xs
    if counterFull (if ret then s.me.loads else s.me.stores) then s.stallFor .other
    else
      let (s0, op) := (s.holdAll xs).freshId
      let ep := s.epochOf s.iss.k s.iss.c
      let s1 := s0.recordLanes oks 4 true
      let s2 := forAll (distinct (oks.map (·.2.1))) s1 (fun s pa =>
        let mine := oks.filter (fun y => y.2.1 == pa)
        s.combine pa o
          { k := s.iss.k, c := s.iss.c, op := op, dest := (if ret then some d.toNat else none), tag := x.tag
            lanes := (mine.map (fun y => ({ lane := y.1, x := x.at y.1, c := c.at y.1 } : AtomLane)))
            va := addr ((mine.head?.map (·.1)).getD 0), epoch := ep, region := s.me.region
            checked := mine.any (·.2.2)
            behind := (s.ms.stores.filter (fun st => st.at_ == .die && st.cells.any (fun x => x.1 / 4 * 4 == pa))).map (·.id) })
      let s3 := if oks.isEmpty then s2
        else s2.modMe (fun c => if ret then { c with loads := c.loads + 1 } else { c with stores := c.stores + 1 })
      s3.settle xs true false true 2 1

def execAtom (d a : BitVec 7) (sb : BitVec 6) (o : BitVec 4) (px : Option (BitVec 25)) (s : State) :
    Host.Outcome State Fault Refusal :=
  s.gate (.atom d a sb o px) (fun s => s.atomVector d a sb o true px)

def execRed (d a : BitVec 7) (sb : BitVec 6) (o : BitVec 4) (px : Option (BitVec 25)) (s : State) :
    Host.Outcome State Fault Refusal :=
  s.gate (.red d a sb o px) (fun s => s.atomVector d a sb o false px)

/-! ### Events -/

/-- An event that its rule does not allow in this state. -/
def notNow : Host.Outcome State Fault Refusal := .refused .notEnabled

/-- R200. Registers of course (k, c) that await load data. -/
def Load.blocks (l : Load) (k c r : Nat) : Bool := l.k == k && l.c == c && l.regs.contains r

/-- R263. A load's words reach the registers of the lanes that committed. -/
def Course.putWords (x : Course) (regs : List Nat) (tag : BitVec 4) (ws : List (Nat × Nat × Word)) : Course :=
  forAll regs x (fun x r =>
    let mine := ws.filter (fun w => w.1 == r)
    x.putV r tag (maskOf (fun l => mine.any (fun w => w.2.1 == l)))
      (fun l => ((mine.find? (fun w => w.2.1 == l)).map (·.2.2)).getD 0))

/-- R263, R210. LOAD_RETURN: the data of load id is written to its registers. -/
def execLoadReturn (id : Nat) (s : State) : Host.Outcome State Fault Refusal :=
  match s.ms.loads.find? (fun l => l.id == id) with
  | none => notNow
  | some ld =>
    .next ((s.modMs (fun m => { m with loads := m.loads.filter (fun l => l.id != id) })).modCrs ld.k ld.c (fun x =>
      let x1 := x.putWords ld.regs ld.tag ld.words
      let x2 := match ld.scalar with
        | some (d, v) => x1.setS d v
        | none => x1
      { x2 with loads := x2.loads - 1 }))

/-- R266, R378, R384. STORE_PERFORM: a store performs at its die slice, and from there at home. -/
def execStorePerform (id : Nat) (s : State) : Host.Outcome State Fault Refusal :=
  match s.ms.stores.find? (fun t => t.id == id) with
  | none => notNow
  | some st =>
    if s.storeDieReady st then .next (s.storeDie st)
    else if s.storeHomeReady st then .next (s.storeHome st)
    else notNow

/-- R279. COMBINE_CLOSE: an entry of the combining buffer that has been open for 64 clocks goes home as one request. -/
def execCombineClose (id : Nat) (s : State) : Host.Outcome State Fault Refusal :=
  if s.ms.atoms.any (fun a => a.id == id && a.open_ && !a.merging s.clock) then
    .next (s.modMs (fun m => { m with atoms := modFirst (fun a => a.id == id) (fun a => { a with open_ := false }) m.atoms }))
  else notNow

/-- R280, R377, R384. A closed request may perform when it is not held back, and is the first on its word of those that are not held
back and of its own courses'; where it or an earlier one is a .faddnc, of them all, since such requests come in issue order. -/
def State.atomReady (s : State) (a : Atomic) : Bool :=
  !a.open_ && !s.atomHeld a && !(s.ms.atoms.takeWhile (fun b => b.id != a.id)).any (fun b =>
    b.pa == a.pa && (!s.atomHeld b || a.reqs.any b.ofCourse || a.code == 11 || b.code == 11))

/-- R280, R311, R395. A word is written by the courses whose requests an entry has combined: the copies of its line from which loads
could return an older value are invalidated, and other classes may still meet the word as it was. -/
def State.keepAtom (s : State) (a : Atomic) : State :=
  let word := [a.pa, a.pa + 1, a.pa + 2, a.pa + 3]
  let s1 := match a.reqs.head? with
    | some r => s.keepStale 0 r.k r.c r.op word
    | none => s
  (forAll a.reqs s1 (fun s r => s.noteWrite (0, r.k, r.c, r.op) word)).invalidateLines word

/-- R277. The lanes of one request receive their values; the counter falls with the last request of an instruction. -/
def State.atomReturn (s : State) (r : AtomReq) (vals : List (Nat × Word)) : State :=
  let last := !s.ms.atoms.any (fun a => a.reqs.any (fun r' => r'.op == r.op))
  s.modCrs r.k r.c (fun x =>
    match r.dest with
    | some d =>
      let x1 := x.putWords [d] r.tag (vals.map (fun v => (d, v.1, v.2)))
      if last then { x1 with loads := x1.loads - 1 } else x1
    | none => if last then { x with stores := x.stores - 1 } else x)

/-- R280. ATOM_PERFORM: the home atomic unit performs a request and returns the results. -/
def execAtomPerform (id : Nat) (s : State) : Host.Outcome State Fault Refusal :=
  match s.ms.atoms.find? (fun a => a.id == id) with
  | none => notNow
  | some a =>
    if s.atomReady a then
      let m : Word := BitVec.ofNat 32 (s.peek a.pa 4)
      let (rs, m') := atomPerform a.code m (a.reqs.map (·.lanes))
      let s1 := (s.keepAtom a).homeWrite ((leBytes 4 m'.toNat).zip (List.range 4) |>.map (fun y => (a.pa + y.2, y.1)))
      let s2 := s1.modMs (fun x => { x with atoms := x.atoms.filter (fun b => b.id != id) })
      .next (forAll (a.reqs.zip rs) s2 (fun s x => s.atomReturn x.1 x.2))
    else notNow

/-- R254 to R258. TRANSLATION_WALK: a walk ends; a translation that it finds is held, and nothing else is. -/
def execTranslationWalk (aspace : BitVec 16) (va : BitVec 64) (s : State) : Host.Outcome State Fault Refusal :=
  .next (s.hold aspace va)

end Sys2Proof.Machine
end

