-- ==== Sys2Proof/Machine/Scalar.lean ====
section
/-!
DEFINITION. The scalar instructions SALU and SALUI (spec/08_lane_instructions.md R225, R226).
-/

namespace Sys2Proof.Machine

/-- R225. A scalar result is written once per issue. -/
def State.putScalar (s : State) (d : BitVec 6) (x : DWord) : State := (s.setS d.toNat x).done

/-- R225. A shift count of 64 or more. -/
def shiftBig (x : DWord) : Bool := 64 ≤ x.toNat

/-- R225. SADD: the sum modulo 2^64. -/
def valueSadd (a b : DWord) : DWord := a + b

def execSadd (d a b : BitVec 6) (s : State) : Host.Outcome State Fault Refusal :=
  s.gate (.sadd d a b) (fun s => s.putScalar d (valueSadd (s.getS a.toNat) (s.getS b.toNat)))

/-- R225. SSUB. -/
def valueSsub (a b : DWord) : DWord := a - b

def execSsub (d a b : BitVec 6) (s : State) : Host.Outcome State Fault Refusal :=
  s.gate (.ssub d a b) (fun s => s.putScalar d (valueSsub (s.getS a.toNat) (s.getS b.toNat)))

/-- R225. SMUL: the low 64 bits of the product. -/
def valueSmul (a b : DWord) : DWord := a * b

def execSmul (d a b : BitVec 6) (s : State) : Host.Outcome State Fault Refusal :=
  s.gate (.smul d a b) (fun s => s.putScalar d (valueSmul (s.getS a.toNat) (s.getS b.toNat)))

/-- R225. SAND. -/
def valueSand (a b : DWord) : DWord := a &&& b

def execSand (d a b : BitVec 6) (s : State) : Host.Outcome State Fault Refusal :=
  s.gate (.sand d a b) (fun s => s.putScalar d (valueSand (s.getS a.toNat) (s.getS b.toNat)))

/-- R225. SOR. -/
def valueSor (a b : DWord) : DWord := a ||| b

def execSor (d a b : BitVec 6) (s : State) : Host.Outcome State Fault Refusal :=
  s.gate (.sor d a b) (fun s => s.putScalar d (valueSor (s.getS a.toNat) (s.getS b.toNat)))

/-- R225. SXOR. -/
def valueSxor (a b : DWord) : DWord := a ^^^ b

def execSxor (d a b : BitVec 6) (s : State) : Host.Outcome State Fault Refusal :=
  s.gate (.sxor d a b) (fun s => s.putScalar d (valueSxor (s.getS a.toNat) (s.getS b.toNat)))

/-- R225. SSHL. -/
def valueSshl (a b : DWord) : DWord := if shiftBig b then 0 else a <<< b.toNat

def execSshl (d a b : BitVec 6) (s : State) : Host.Outcome State Fault Refusal :=
  s.gate (.sshl d a b) (fun s => s.putScalar d (valueSshl (s.getS a.toNat) (s.getS b.toNat)))

/-- R225. SSHRL: logical. -/
def valueSshrl (a b : DWord) : DWord := if shiftBig b then 0 else a >>> b.toNat

def execSshrl (d a b : BitVec 6) (s : State) : Host.Outcome State Fault Refusal :=
  s.gate (.sshrl d a b) (fun s => s.putScalar d (valueSshrl (s.getS a.toNat) (s.getS b.toNat)))

/-- R225. SSHRA: arithmetic; 64 or more fills with the sign. -/
def valueSshra (a b : DWord) : DWord := a.sshiftRight (min b.toNat 63)

def execSshra (d a b : BitVec 6) (s : State) : Host.Outcome State Fault Refusal :=
  s.gate (.sshra d a b) (fun s => s.putScalar d (valueSshra (s.getS a.toNat) (s.getS b.toNat)))

/-- R225. SMIN: signed. -/
def valueSmin (a b : DWord) : DWord := if a.toInt ≤ b.toInt then a else b

def execSmin (d a b : BitVec 6) (s : State) : Host.Outcome State Fault Refusal :=
  s.gate (.smin d a b) (fun s => s.putScalar d (valueSmin (s.getS a.toNat) (s.getS b.toNat)))

/-- R225. SMAX: signed. -/
def valueSmax (a b : DWord) : DWord := if a.toInt ≤ b.toInt then b else a

def execSmax (d a b : BitVec 6) (s : State) : Host.Outcome State Fault Refusal :=
  s.gate (.smax d a b) (fun s => s.putScalar d (valueSmax (s.getS a.toNat) (s.getS b.toNat)))

/-- R225. SNMIN: unsigned. -/
def valueSnmin (a b : DWord) : DWord := if a.toNat ≤ b.toNat then a else b

def execSnmin (d a b : BitVec 6) (s : State) : Host.Outcome State Fault Refusal :=
  s.gate (.snmin d a b) (fun s => s.putScalar d (valueSnmin (s.getS a.toNat) (s.getS b.toNat)))

/-- R225. SNMAX: unsigned. -/
def valueSnmax (a b : DWord) : DWord := if a.toNat ≤ b.toNat then b else a

def execSnmax (d a b : BitVec 6) (s : State) : Host.Outcome State Fault Refusal :=
  s.gate (.snmax d a b) (fun s => s.putScalar d (valueSnmax (s.getS a.toNat) (s.getS b.toNat)))

/-- R225. SCMPEQ. -/
def valueScmpeq (a b : DWord) : DWord := scalarCond (a == b)

def execScmpeq (d a b : BitVec 6) (s : State) : Host.Outcome State Fault Refusal :=
  s.gate (.scmpeq d a b) (fun s => s.putScalar d (valueScmpeq (s.getS a.toNat) (s.getS b.toNat)))

/-- R225. SCMPLT: signed. -/
def valueScmplt (a b : DWord) : DWord := scalarCond (decide (a.toInt < b.toInt))

def execScmplt (d a b : BitVec 6) (s : State) : Host.Outcome State Fault Refusal :=
  s.gate (.scmplt d a b) (fun s => s.putScalar d (valueScmplt (s.getS a.toNat) (s.getS b.toNat)))

/-- R225. SCMPNLT: unsigned. -/
def valueScmpnlt (a b : DWord) : DWord := scalarCond (decide (a.toNat < b.toNat))

def execScmpnlt (d a b : BitVec 6) (s : State) : Host.Outcome State Fault Refusal :=
  s.gate (.scmpnlt d a b) (fun s => s.putScalar d (valueScmpnlt (s.getS a.toNat) (s.getS b.toNat)))

/-- R225. SSEL: sa where sd is not zero, else sb. -/
def valueSsel (old a b : DWord) : DWord := if old ≠ 0 then a else b

def execSsel (d a b : BitVec 6) (s : State) : Host.Outcome State Fault Refusal :=
  s.gate (.ssel d a b) (fun s => s.putScalar d (valueSsel (s.getS d.toNat) (s.getS a.toNat) (s.getS b.toNat)))

/-- R226. SADDI. -/
def valueSaddi (a x : DWord) : DWord := a + x

def execSaddi (d a : BitVec 6) (i : BitVec 10) (px : Option (BitVec 25)) (s : State) : Host.Outcome State Fault Refusal :=
  s.gate (.saddi d a i px) (fun s => s.putScalar d (valueSaddi (s.getS a.toNat) (imm64 10 i.toNat px)))

/-- R226. SANDI. -/
def valueSandi (a x : DWord) : DWord := a &&& x

def execSandi (d a : BitVec 6) (i : BitVec 10) (px : Option (BitVec 25)) (s : State) : Host.Outcome State Fault Refusal :=
  s.gate (.sandi d a i px) (fun s => s.putScalar d (valueSandi (s.getS a.toNat) (imm64 10 i.toNat px)))

/-- R226. SORI. -/
def valueSori (a x : DWord) : DWord := a ||| x

def execSori (d a : BitVec 6) (i : BitVec 10) (px : Option (BitVec 25)) (s : State) : Host.Outcome State Fault Refusal :=
  s.gate (.sori d a i px) (fun s => s.putScalar d (valueSori (s.getS a.toNat) (imm64 10 i.toNat px)))

/-- R226. SXORI. -/
def valueSxori (a x : DWord) : DWord := a ^^^ x

def execSxori (d a : BitVec 6) (i : BitVec 10) (px : Option (BitVec 25)) (s : State) : Host.Outcome State Fault Refusal :=
  s.gate (.sxori d a i px) (fun s => s.putScalar d (valueSxori (s.getS a.toNat) (imm64 10 i.toNat px)))

/-- R226. SSHLI: the count is x[5:0]. -/
def valueSshli (a x : DWord) : DWord := a <<< (x.toNat % 64)

def execSshli (d a : BitVec 6) (i : BitVec 10) (px : Option (BitVec 25)) (s : State) : Host.Outcome State Fault Refusal :=
  s.gate (.sshli d a i px) (fun s => s.putScalar d (valueSshli (s.getS a.toNat) (imm64 10 i.toNat px)))

/-- R226. SSHRLI: logical. -/
def valueSshrli (a x : DWord) : DWord := a >>> (x.toNat % 64)

def execSshrli (d a : BitVec 6) (i : BitVec 10) (px : Option (BitVec 25)) (s : State) : Host.Outcome State Fault Refusal :=
  s.gate (.sshrli d a i px) (fun s => s.putScalar d (valueSshrli (s.getS a.toNat) (imm64 10 i.toNat px)))

/-- R226. SCMPEQI. -/
def valueScmpeqi (a x : DWord) : DWord := scalarCond (a == x)

def execScmpeqi (d a : BitVec 6) (i : BitVec 10) (px : Option (BitVec 25)) (s : State) : Host.Outcome State Fault Refusal :=
  s.gate (.scmpeqi d a i px) (fun s => s.putScalar d (valueScmpeqi (s.getS a.toNat) (imm64 10 i.toNat px)))

/-- R226. SMOVI. -/
def execSmovi (d : BitVec 6) (i : BitVec 10) (px : Option (BitVec 25)) (s : State) : Host.Outcome State Fault Refusal :=
  s.gate (.smovi d i px) (fun s => s.putScalar d (imm64 10 i.toNat px))

end Sys2Proof.Machine
end

