-- ==== Sys2Proof/Machine/XLane.lean ====
section
/-!
DEFINITION. Cross-lane instructions, identity, scalar transfer and random numbers: XLANE, MISC and RNG
(spec/08_lane_instructions.md R241 to R246; spec/04_launch.md R110, R111; compatibility mode R35).
-/

namespace Sys2Proof.Machine

/-! ### Shuffles (R241, R243) -/

/-- R243. The source lane of lane l for each shuffle, none where it lies outside its bounds; h is the base of the span and
top its last lane. -/
def srcIndex (compat : Bool) (l : Nat) (b : Word) : Option Nat :=
  some (if compat then l / 16 * 16 + b.toNat % 16 else b.toNat % 32)

def srcUp (compat : Bool) (l : Nat) (b : Word) : Option Nat :=
  if b.toNat + (if compat then l / 16 * 16 else 0) ≤ l then some (l - b.toNat) else none

def srcDown (compat : Bool) (l : Nat) (b : Word) : Option Nat :=
  if l + b.toNat ≤ (if compat then l / 16 * 16 + 15 else 31) then some (l + b.toNat) else none

def srcXor (compat : Bool) (l : Nat) (b : Word) : Option Nat :=
  some (l ^^^ (if compat then b.toNat % 16 else b.toNat % 32))

/-- R241. A shuffle: an absent source lane, or one outside the issue set, leaves the lane its own value. -/
def State.shuffle (s : State) (d a b : BitVec 7) (src : Bool → Nat → Word → Option Nat) : State :=
  let compat := s.mine.hdr.compat
  s.vec [Src.typed a, Src.of b wordInts] d false anyTag true (fun t vs => (t, fun l =>
    match src compat l ((arg vs 1).at l) with
    | some j => if bit s.iss.set j then (arg vs 0).at j else (arg vs 0).at l
    | none => (arg vs 0).at l))

/-- R241. SHFL. -/
def execShfl (d a b : BitVec 7) (s : State) : Host.Outcome State Fault Refusal :=
  s.gate (.shfl d a b) (fun s => s.shuffle d a b srcIndex)

/-- R241. SHFLUP. -/
def execShflup (d a b : BitVec 7) (s : State) : Host.Outcome State Fault Refusal :=
  s.gate (.shflup d a b) (fun s => s.shuffle d a b srcUp)

/-- R241. SHFLDN. -/
def execShfldn (d a b : BitVec 7) (s : State) : Host.Outcome State Fault Refusal :=
  s.gate (.shfldn d a b) (fun s => s.shuffle d a b srcDown)

/-- R241. SHFLX. -/
def execShflx (d a b : BitVec 7) (s : State) : Host.Outcome State Fault Refusal :=
  s.gate (.shflx d a b) (fun s => s.shuffle d a b srcXor)

/-! ### Ballots, votes and MATCH (R241, R243) -/

/-- R243. The lanes of the issue set that stand in one span with lane l: all, or its half in compatibility mode. -/
def span (set : BitVec 32) (half : Bool) (l : Nat) : BitVec 32 :=
  if half then set &&& (if l < 16 then 0x0000FFFF#32 else 0xFFFF0000#32) else set

/-- The lanes of a set where a word is not zero. -/
def nonzeroLanes (set : BitVec 32) (a : VReg) : BitVec 32 := maskOf (fun j => bit set j && a.at j != 0)

/-- R243. BALLOT's word for lane l: in compatibility mode the half's 16 bits, twice. -/
def ballotWord (compat : Bool) (set : BitVec 32) (a : VReg) (l : Nat) : Word :=
  if compat then
    let m := (nonzeroLanes (span set true l) a) >>> (l / 16 * 16)
    m ||| m <<< 16
  else nonzeroLanes set a

/-- R223, R241. One role key of any tag, and a result of tag N32. -/
def State.keyed (s : State) (d a : BitVec 7) (f : Bool → BitVec 32 → VReg → Nat → Word) : State :=
  let compat := s.mine.hdr.compat
  s.vec [Src.of a anyTag] d false [] true (fun _ vs => (5, fun l => f compat s.iss.set (arg vs 0) l))

/-- R241. BALLOT. -/
def execBallot (d a : BitVec 7) (s : State) : Host.Outcome State Fault Refusal :=
  s.gate (.ballot d a) (fun s => s.keyed d a ballotWord)

/-- R241. VOTEALL. -/
def execVoteall (d a : BitVec 7) (s : State) : Host.Outcome State Fault Refusal :=
  s.gate (.voteall d a) (fun s => s.keyed d a (fun compat set x l =>
    if nonzeroLanes (span set compat l) x = span set compat l then 0xFFFFFFFF else 0))

/-- R241. VOTEANY. -/
def execVoteany (d a : BitVec 7) (s : State) : Host.Outcome State Fault Refusal :=
  s.gate (.voteany d a) (fun s => s.keyed d a (fun compat set x l =>
    if nonzeroLanes (span set compat l) x = 0 then 0 else 0xFFFFFFFF))

/-- R241. MATCH: over the whole course in both modes. -/
def execMatchv (d a : BitVec 7) (s : State) : Host.Outcome State Fault Refusal :=
  s.gate (.matchv d a) (fun s => s.keyed d a (fun _ set x l => maskOf (fun j => bit set j && x.at j == x.at l)))

/-! ### Reductions (R242) -/

/-- R242. F32 addition of the reductions: RNE, with FTZ on inputs and results. -/
def sumF32 (ftz : Bool) (x y : Word) : Word := BitVec.ofNat 32 (elemAdd 0 ftz F32 x.toNat y.toNat)

/-- R84, R242. A lone F32 value, read with FTZ; a NaN is canonical. -/
def loneF32 (ftz : Bool) (x : Word) : Word :=
  BitVec.ofNat 32 (if F32.val x.toNat = .nan then F32.nan else F32.flush ftz x.toNat)

/-- R241 to R243. REDADD for lane l over its span. -/
def redAdd (ftz compat : Bool) (set : BitVec 32) (t : BitVec 4) (a : VReg) (l : Nat) : Word :=
  let lanes := lanesOf (span set compat l)
  if t = 1 then
    (treeSum (sumF32 ftz) (fun j => if bit set j then some (loneF32 ftz (a.at j)) else none) (if compat then 4 else 5)
      (if compat then l / 16 * 16 else 0)).getD 0
  else lanes.foldl (fun acc j => acc + a.at j) 0

/-- R242. SCANADD for lane l: ascending lanes of its span up to l. -/
def scanAdd (ftz compat : Bool) (set : BitVec 32) (t : BitVec 4) (a : VReg) (l : Nat) : Word :=
  let lanes := (lanesOf (span set compat l)).filter (· ≤ l)
  if t = 1 then
    match lanes with
    | [] => 0
    | j :: js => js.foldl (fun acc j => sumF32 ftz acc (a.at j)) (loneF32 ftz (a.at j))
  else lanes.foldl (fun acc j => acc + a.at j) 0

/-- R85, R242. The smaller (or larger) of two words of a type. -/
def pick2 (mx ftz : Bool) (t : BitVec 4) (x y : Word) : Word :=
  if t = 1 then BitVec.ofNat 32 (F32.minmax mx (F32.flush ftz x.toNat) (F32.flush ftz y.toNat))
  else if mx then valueImax t x y else valueImin t x y

/-- R242, R243. REDMIN and REDMAX span the whole issue set in both modes. -/
def redPick (mx ftz : Bool) (set : BitVec 32) (t : BitVec 4) (a : VReg) : Word :=
  match lanesOf set with
  | [] => 0
  | j :: js => js.foldl (fun acc j => pick2 mx ftz t acc (a.at j)) (if t = 1 then loneF32 ftz (a.at j) else a.at j)

/-- R241. The types of the reductions. -/
def redTags : List (BitVec 4) := [4, 5, 1]

def State.reduce (s : State) (d a : BitVec 7) (f : BitVec 4 → VReg → Nat → Word) : State :=
  s.vec [Src.typed a] d false redTags false (fun t vs => (t, f t (arg vs 0)))

/-- R241. REDADD. -/
def execRedadd (d a : BitVec 7) (s : State) : Host.Outcome State Fault Refusal :=
  s.gate (.redadd d a) (fun s => s.reduce d a (redAdd s.ftz s.mine.hdr.compat s.iss.set))

/-- R241. SCANADD. -/
def execScanadd (d a : BitVec 7) (s : State) : Host.Outcome State Fault Refusal :=
  s.gate (.scanadd d a) (fun s => s.reduce d a (scanAdd s.ftz s.mine.hdr.compat s.iss.set))

/-- R241. REDMIN. -/
def execRedmin (d a : BitVec 7) (s : State) : Host.Outcome State Fault Refusal :=
  s.gate (.redmin d a) (fun s => s.reduce d a (fun t x _ => redPick false s.ftz s.iss.set t x))

/-- R241. REDMAX. -/
def execRedmax (d a : BitVec 7) (s : State) : Host.Outcome State Fault Refusal :=
  s.gate (.redmax d a) (fun s => s.reduce d a (fun t x _ => redPick true s.ftz s.iss.set t x))

/-! ### Identity and scalar transfer (R244, R245) -/

/-- R111. The sum of the first n widths. -/
def Consort.level (q : Consort) (n : Nat) : Nat := (q.widw.take n).foldl (· + ·) 0

/-- R111. The WID of lane l of a course. -/
def Consort.wid (q : Consort) (c l : Nat) : DWord :=
  q.widbase + BitVec.ofNat 64 (q.gang * 2 ^ q.level 3 + q.num * 2 ^ q.level 2 + c * 2 ^ q.level 1 + l)

/-- R245. Field n of a WID. -/
def Consort.widField (q : Consort) (n : Nat) (w : DWord) : Word :=
  let lo := q.level n
  let hi := q.level (n + 1)
  if q.hdr.compat ∧ n = 0 then BitVec.ofNat 32 (w.toNat % 16)
  else if q.hdr.compat ∧ n = 1 then BitVec.ofNat 32 (w.toNat / 16 % 2 ^ (q.widw.getD 1 0 + 1))
  else BitVec.ofNat 32 (w.toNat / 2 ^ lo % 2 ^ (hi - lo))

/-- A half of a 64-bit value. -/
def halfOf (x : DWord) (hi : BitVec 1) : Word := BitVec.ofNat 32 (if hi = 1 then x.toNat / 2 ^ 32 else x.toNat)

/-- A member with no vector source: the tag and the lanes are its own. -/
def State.lane0 (s : State) (d : BitVec 7) (t : BitVec 4) (f : Nat → Word) : State :=
  s.vec [] d false [] true (fun _ _ => (t, f))

/-- R244. MOVS. -/
def execMovs (d : BitVec 7) (t : BitVec 4) (h : BitVec 1) (r : BitVec 6) (s : State) : Host.Outcome State Fault Refusal :=
  s.gate (.movs d t h r) (fun s => s.lane0 d t (fun _ => halfOf (s.getS r.toNat) h))

/-- R244. VTOS, once its operands are within the counts: every lane of the issue set holds one value. -/
def State.vtos (s : State) (d : BitVec 6) (a : BitVec 7) (h : BitVec 1) : State :=
  let uni (vs : List VReg) : Option (Cause × Nat) :=
    if differs s.iss.set (arg vs 0) then some (.uniform, a.toNat) else none
  match s.vecRead [Src.of a anyTag] none false [] true uni with
  | .error t => t
  | .ok (s1, _, vs) =>
    let x := (arg vs 0).at (lowest s.iss.set)
    let old := s.getS d.toNat
    s1.putScalar d (if h = 1 then BitVec.ofNat 64 (old.toNat % 2 ^ 32 + x.toNat * 2 ^ 32) else x.setWidth 64)

def execVtos (d : BitVec 6) (a : BitVec 7) (h : BitVec 1) (s : State) : Host.Outcome State Fault Refusal :=
  s.gate (.vtos d a h) (fun s => s.vtos d a h)

/-- R244. LANEID. -/
def execLaneid (d : BitVec 7) (s : State) : Host.Outcome State Fault Refusal :=
  s.gate (.laneid d) (fun s => s.lane0 d 5 (fun l => BitVec.ofNat 32 l))

/-- R244. WID. -/
def execWid (d : BitVec 7) (h : BitVec 1) (s : State) : Host.Outcome State Fault Refusal :=
  s.gate (.wid d h) (fun s => s.lane0 d 5 (fun l => halfOf (s.mine.wid s.iss.c l) h))

/-- R244, R245. WIDF. -/
def execWidf (d : BitVec 7) (n : BitVec 3) (s : State) : Host.Outcome State Fault Refusal :=
  s.gate (.widf d n) (fun s => s.lane0 d 5 (fun l => s.mine.widField n.toNat (s.mine.wid s.iss.c l)))

/-! ### Random numbers (R246) -/

/-- R246. The four counter words and the two key words. -/
structure Philox where
  c0 : Nat
  c1 : Nat
  c2 : Nat
  c3 : Nat
  k0 : Nat
  k1 : Nat

/-- R246. One round. -/
def Philox.round (p : Philox) : Philox :=
  let p0 := 0xD2511F53 * p.c0
  let p1 := 0xCD9E8D57 * p.c2
  { c0 := (p1 / 2 ^ 32) ^^^ p.c1 ^^^ p.k0, c1 := p1 % 2 ^ 32, c2 := (p0 / 2 ^ 32) ^^^ p.c3 ^^^ p.k1, c3 := p0 % 2 ^ 32
    k0 := (p.k0 + 0x9E3779B9) % 2 ^ 32, k1 := (p.k1 + 0xBB67AE85) % 2 ^ 32 }

/-- n rounds. -/
def Philox.rounds : Nat → Philox → Philox
  | 0, p => p
  | n + 1, p => Philox.rounds n p.round

/-- R246. The four words of a lane: its counter, its WID, and the key group. -/
def philox (ctr : Word) (wid k0 k1 : DWord) : List Word :=
  let p := Philox.rounds 10
    { c0 := ctr.toNat, c1 := wid.toNat % 2 ^ 32, c2 := wid.toNat / 2 ^ 32, c3 := k1.toNat / 2 ^ 32
      k0 := k0.toNat % 2 ^ 32, k1 := k1.toNat % 2 ^ 32 }
  [BitVec.ofNat 32 p.c0, BitVec.ofNat 32 p.c1, BitVec.ofNat 32 p.c2, BitVec.ofNat 32 p.c3]

/-- R246. The tags the counter word accepts. -/
def counterTags : List (BitVec 4) := [4, 5, 0]

/-- R246. The four words of lane l with counter register a and key group k. -/
def State.draw (s : State) (a : VReg) (k : BitVec 6) (l : Nat) : List Word :=
  philox (a.at l) (s.mine.wid s.iss.c l) (s.getS k.toNat) (s.getS (k.toNat + 1))

/-- R246. RNG. -/
def execRng (d a : BitVec 7) (k : BitVec 6) (s : State) : Host.Outcome State Fault Refusal :=
  s.gate (.rng d a k) (fun s => s.vec [Src.of a counterTags] d false [] true
    (fun _ vs => (5, fun l => (s.draw (arg vs 0) k l).getD 0 0)))

/-- R246. RNG4, once its operands are within the counts. -/
def State.rng4 (s : State) (d : BitVec 5) (a : BitVec 7) (k : BitVec 6) : State :=
  match s.vecRead [Src.of a counterTags] none false [] true (fun _ => none) with
  | .error t => t
  | .ok (s1, _, vs) =>
    (s1.modMe (fun c => forAll (List.range 4) c (fun c j =>
      c.putV (4 * d.toNat + j) 5 s.iss.set (fun l => (s.draw (arg vs 0) k l).getD j 0)))).done

def execRng4 (d : BitVec 5) (a : BitVec 7) (k : BitVec 6) (s : State) : Host.Outcome State Fault Refusal :=
  s.gate (.rng4 d a k) (fun s => s.rng4 d a k)

end Sys2Proof.Machine
end

