-- ==== Sys2Proof/Machine/Sys.lean ====
section
/-!
DEFINITION. The SYS members, LIMM standing alone, the patterns that are not instructions, WAITC, and the masks
(spec/07_issue_and_control.md R197 to R199, R211, R218 to R221; spec/02_encoding.md R48, R60, R61, R75 to R79).
-/

namespace Sys2Proof.Machine

/-! ### SYS (R218 to R221) -/

/-- R60. NOP. -/
def execNop (s : State) : Host.Outcome State Fault Refusal := .next s.done

/-- R218, R408. TRAP and BREAK: every lane takes the cause, and its return reference is the instruction after. -/
def State.software (s : State) (cause : Cause) (code : Nat) : State :=
  s.deliver s.iss.k s.iss.c s.iss.own (fun _ => refAdd s.iss.at_ s.iss.len)
    [{ cause := cause, lanes := s.iss.set, info := BitVec.ofNat 64 code }]

/-- R218. TRAP. -/
def execTrap (c : BitVec 6) (s : State) : Host.Outcome State Fault Refusal := .next (s.software .trap c.toNat)

/-- R218. BREAK. -/
def execBrk (c : BitVec 6) (s : State) : Host.Outcome State Fault Refusal := .next (s.software .brk c.toNat)

/-- R219. YIELD: the course's age starts again at the clock after. -/
def execYield (s : State) : Host.Outcome State Fault Refusal :=
  .next (s.done.modMe (fun c => { c with age := s.clock + 1 }))

/-- R3. ID.CAPS; one core of the module runs, so HWCOUNT counts it alone. -/
def State.idCaps (s : State) : DWord :=
  let half := s.core.halfWidth.toNat
  BitVec.ofNat 64 (s.hub.fp16.toNat + 3 * 2 ^ 4 + half * 2 ^ 19 + half * 2 ^ 20 + s.hub.pmode.toNat * 2 ^ 30)

/-- R61, R86, R99, R179, R220, R270, R403, R404. The special registers. -/
def State.special (s : State) (n : Nat) : DWord :=
  let c := s.me
  match n with
  | 0 => s.idCaps
  | 1 => s.hub.devid.setWidth 64
  | 2 => if c.probef then 1 else 0
  | 3 => c.fmask.setWidth 64
  | 4 => c.missref
  | 5 => c.trapcause.setWidth 64
  | 6 => c.trapinfo
  | 7 => c.fpmode.setWidth 64
  | _ => s.core.ctgen.setWidth 64

/-- R220. RDSR. -/
def execRdsr (d n : BitVec 6) (s : State) : Host.Outcome State Fault Refusal :=
  s.gate (.rdsr d n) (fun s => s.putScalar d (s.special n.toNat))

/-- R86, R220. WRSR: FPMODE is the one writable register; the reserved bits are ignored. -/
def execWrsr (a n : BitVec 6) (s : State) : Host.Outcome State Fault Refusal :=
  s.gate (.wrsr a n) (fun s => (s.modMe (fun c => { c with fpmode := (s.getS a.toNat).setWidth 3 })).done)

/-- R221. CLOCK. -/
def execClock (d : BitVec 6) (s : State) : Host.Outcome State Fault Refusal :=
  s.gate (.clock d) (fun s => s.putScalar d (BitVec.ofNat 64 s.clock))

/-- R220. PRBCLR. -/
def execPrbclr (s : State) : Host.Outcome State Fault Refusal :=
  .next (s.done.modMe (fun c => { c with probef := false }))

/-! ### Patterns that are not instructions (R48, R78, R79) -/

/-- R34, R78, R79. ILLEGAL with a sub-cause, or under probe mode a NOP of the pattern's length that sets PROBEF. -/
def State.illegal (s : State) (enc : BitVec 32) (sub : Nat) : State :=
  if s.mine.hdr.probe then s.done.modMe (fun c => { c with probef := true })
  else s.trapWhole .illegal (info79 enc sub 0)

/-- R75, R78. A LIMM before a defined instruction that takes no prefix: sub-cause 3, with the follower's encoding. -/
def execLimm (_i : BitVec 25) (fw : BitVec 32) (s : State) : Host.Outcome State Fault Refusal := .next (s.illegal fw 3)

/-- R78. UNDEFINED_ENCODING: sub-cause 0. -/
def execUndefinedEncoding (enc : BitVec 32) (s : State) : Host.Outcome State Fault Refusal := .next (s.illegal enc 0)

/-- R48, R79. FETCH_BEYOND_OVERLAY: sub-cause 2 with ENC zero, in probe mode too. -/
def execFetchBeyondOverlay (s : State) : Host.Outcome State Fault Refusal :=
  .next (s.trapWhole .illegal (info79 0 2 0))

/-! ### WAITC (R211) -/

/-- R295. Is a token pending? -/
def Token.pending (t : Token) : Bool := t.st == .pending

/-- R295, R296. A token of a course. -/
def Course.token (c : Course) (n : Nat) : Token := vget c.tokens Token.fresh n

/-- R211. The condition of WAITC. -/
def Course.waitcMet (c : Course) (ld st cp tl : Nat) (mask : BitVec 8) : Bool :=
  (ld == 31 || c.loads ≤ ld) && (st == 15 || c.stores ≤ st) && (cp == 15 || c.copies ≤ cp) && (tl == 15 || c.tiles ≤ tl) &&
    !(List.range 8).any (fun n => mask.getLsbD n && (c.token n).pending)

/-- R297. The lowest token of a mask that completed in error. -/
def Course.tokenError (c : Course) (mask : BitVec 8) : Option (Nat × Cause) :=
  (List.range 8).findSome? (fun n =>
    if mask.getLsbD n then (match (c.token n).st with
      | .error cause => some (n, cause)
      | _ => none) else none)

/-- R297. TRAPINFO of token n's error. -/
def Token.info (t : Token) (n : Nat) (cause : Cause) : DWord :=
  let low := if cause = .multicastPartial then t.failed.toNat + t.detail.toNat * 2 ^ 16 else t.addr.toNat
  BitVec.ofNat 64 (n * 2 ^ 61 + t.dst.toNat * 2 ^ 60 + low)

def Course.setToken (c : Course) (n : Nat) (t : Token) : Course := { c with tokens := vset c.tokens n t }

/-- R296, R297, R407. The issue set takes the error of token n at this instruction, and the token becomes free; lanes that
may not take a trap now are lapped and leave the token as it is. -/
def State.tokenTrap (s : State) (n : Nat) (cause : Cause) : State :=
  let t := s.me.token n
  let held := s.me.hmask ≠ 0 ∧ s.iss.set &&& s.me.hmask = 0
  (if held then s else s.modMe (·.setToken n Token.fresh)).trapWhole cause (t.info n cause)

/-- R211, R297. WAITC: it completes when its condition holds, and then delivers the error of the lowest token of its mask. -/
def execWaitc (l : BitVec 5) (st cp tl : BitVec 4) (k : BitVec 8) (s : State) : Host.Outcome State Fault Refusal :=
  .next (
    if s.me.waitcMet l.toNat st.toNat cp.toNat tl.toNat k then
      match s.me.tokenError k with
      | some (n, cause) => s.tokenTrap n cause
      | none => s.done
    else s.stallFor .waitc)

/-! ### Masks (R197 to R199) -/

/-- R198. A mask register changes, and every mask is tested for release. -/
def State.putMask (s : State) (m : BitVec 4) (x : BitVec 32) : State := s.modMe (fun c => (c.setM m.toNat x).releaseMasks)

/-- R199. JOIN. -/
def execJoin (m : BitVec 4) (s : State) : Host.Outcome State Fault Refusal :=
  .next (s.done.putMask m (s.me.getM m.toNat ||| s.iss.set))

/-- R199. LEAVE. -/
def execLeave (m : BitVec 4) (s : State) : Host.Outcome State Fault Refusal :=
  .next (s.done.putMask m (s.me.getM m.toNat &&& ~~~s.iss.set))

/-- R196, R198, R199. WAITM: the lanes wait at the instruction until the mask is released. -/
def execWaitm (m : BitVec 4) (s : State) : Host.Outcome State Fault Refusal :=
  .next (((s.modMe (fun c =>
    ({ (c.setLane s.iss.set (.waiting m)) with stall := none }))).putMask m (s.me.getM m.toNat ||| s.iss.set)
    ).checkDeadlock s.iss.k s.iss.c)

/-- R199. MMOV: the source mask without the lanes that are exited or off. -/
def execMmov (m : BitVec 4) (i : BitVec 10) (px : Option (BitVec 25)) (s : State) : Host.Outcome State Fault Refusal :=
  .next (s.done.putMask m (s.me.getM (imm32 10 i.toNat px).toNat &&& ~~~s.me.gone))

/-- R199. MREAD. -/
def execMread (m : BitVec 4) (v : BitVec 7) (s : State) : Host.Outcome State Fault Refusal :=
  s.gate (.mread m v) (fun s => s.lane0 v 5 (fun _ => s.me.getM m.toNat))

/-- R199. MCOUNT. -/
def execMcount (m : BitVec 4) (v : BitVec 7) (s : State) : Host.Outcome State Fault Refusal :=
  s.gate (.mcount m v) (fun s => s.lane0 v 5 (fun _ => BitVec.ofNat 32 (popcount (s.me.getM m.toNat))))

/-- One value across the issue set, of tag N32 or RAW: read, and checked for FORMAT and UNIFORM (R199, R302). -/
def State.readUniform (s : State) (v : BitVec 7) : Except State (State × Word) :=
  let uni (vs : List VReg) : Option (Cause × Nat) :=
    if differs s.iss.set (arg vs 0) then some (.uniform, v.toNat) else none
  match s.vecRead [Src.of v [5, 0]] none false [] true uni with
  | .error t => .error t
  | .ok (s1, _, vs) => .ok (s1, (arg vs 0).at (lowest s.iss.set))

/-- R199. MWRITE. -/
def execMwrite (m : BitVec 4) (v : BitVec 7) (s : State) : Host.Outcome State Fault Refusal :=
  s.gate (.mwrite m v) (fun s =>
    match s.readUniform v with
    | .error t => t
    | .ok (s1, x) => s1.done.putMask m (x &&& ~~~s.me.gone))

end Sys2Proof.Machine
end

