-- ==== Sys2Proof/Machine/Control.lean ====
section
/-!
DEFINITION. Branches and control transfers within an overlay, EXIT and NAP (spec/07_issue_and_control.md R193, R213 to R217;
spec/02_encoding.md R63, R64, R75).
-/

namespace Sys2Proof.Machine

/-- R63, R75. The reference x halfwords from r, modulo 2^16 within its overlay. -/
def refOff (r : BitVec 32) (x : Int) : BitVec 32 :=
  BitVec.ofNat 32 (r.toNat / 65536 * 65536 + ((((r.toNat % 65536 : Nat) : Int) + x) % 65536).toNat)

/-- R193, R213. The lanes of the issue set that f names go to their targets and are lapped where the target is not above the
instruction; the others go past it. -/
def State.transfer (s : State) (taken : BitVec 32) (f : Nat → BitVec 32) : State :=
  s.done.modMe (fun c => (c.setLpc (taken &&& s.iss.set) f).lapTo (taken &&& s.iss.set) s.iss.own true)

/-- R213. BRNZ and BRZ. -/
def State.branch (s : State) (c : BitVec 7) (o : BitVec 17) (px : Option (BitVec 25)) (zero : Bool) : State :=
  match s.vecRead [Src.of c anyTag] none false [] true (fun _ => none) with
  | .error t => t
  | .ok (s1, _, vs) =>
    s1.transfer (maskOf (fun l => ((arg vs 0).at l == 0) == zero)) (fun _ => refOff s.iss.own (immInt 17 o.toNat px))

/-- R213. BRNZ. -/
def execBrnz (c : BitVec 7) (o : BitVec 17) (px : Option (BitVec 25)) (s : State) : Host.Outcome State Fault Refusal :=
  s.gate (.brnz c o px) (fun s => s.branch c o px false)

/-- R213. BRZ. -/
def execBrz (c : BitVec 7) (o : BitVec 17) (px : Option (BitVec 25)) (s : State) : Host.Outcome State Fault Refusal :=
  s.gate (.brz c o px) (fun s => s.branch c o px true)

/-- R214. JMP. -/
def execJmp (i : BitVec 21) (px : Option (BitVec 25)) (s : State) : Host.Outcome State Fault Refusal :=
  .next (s.transfer s.iss.set (fun _ => refOff s.iss.own (immInt 21 i.toNat px)))

/-- R64, R214. The link of a call: the instruction after it, in v0 with tag N32. -/
def State.link (s : State) (set : BitVec 32) : State :=
  s.modMe (fun c => c.putV 0 5 set (fun _ => refAdd s.iss.own 2))

/-- R214. CALL. -/
def execCall (i : BitVec 21) (px : Option (BitVec 25)) (s : State) : Host.Outcome State Fault Refusal :=
  s.gate (.call i px) (fun s =>
    (s.link s.iss.set).transfer s.iss.set (fun _ => refOff s.iss.own (immInt 21 i.toNat px)))

/-- R404. A per-lane BAD_HANDLE at register r. -/
def State.badLanes (s : State) (set : BitVec 32) (r : Nat) : State :=
  if set = 0 then s
  else s.deliver s.iss.k s.iss.c s.iss.own (fun _ => s.iss.at_)
    [{ cause := .badHandle, lanes := set, info := info79 s.iss.enc 0 r }]

/-- The lanes of the issue set other than these stay at the instruction; these move as f says, lapped per R193. -/
def State.moveSome (s : State) (set : BitVec 32) (f : Nat → BitVec 32) (inclusive : Bool) : State :=
  s.modMe (fun c => { ((c.setLpc set f).lapTo set s.iss.own inclusive) with stall := none })

/-- R215. RET. -/
def State.ret (s : State) (r : BitVec 7) : State :=
  match s.vecRead [Src.of r [5, 0]] none false [] true (fun _ => none) with
  | .error t => t
  | .ok (s1, _, vs) =>
    let x := arg vs 0
    let bad := maskOf (fun l => bit s.iss.set l && refOv (x.at l) != refOv s.iss.own)
    (s1.moveSome (s.iss.set &&& ~~~bad) x.at true).badLanes bad r.toNat

def execRet (r : BitVec 7) (s : State) : Host.Outcome State Fault Refusal := s.gate (.ret r) (fun s => s.ret r)

/-- R197, R216, R425. EXIT: the lanes exit, and leave every mask. -/
def execExit (s : State) : Host.Outcome State Fault Refusal :=
  .next ((s.modMe (fun c =>
    { (c.leave s.iss.set .exited) with exitRef := s.iss.own, exitMask := c.exitMask ||| s.iss.set, stall := none }
    )).checkDeadlock s.iss.k s.iss.c)

/-- R217. NAP: past the instruction at once; a nonzero count holds the course. -/
def execNap (n : BitVec 21) (s : State) : Host.Outcome State Fault Refusal :=
  .next (s.done.modMe (fun c => if n = 0 then c else { c with hold := .nap (s.clock + n.toNat + 1) }))

/-- R217. NAP_EXPIRY: the clocks of a nap are over. -/
def execNapExpiry (k c : Nat) (s : State) : Host.Outcome State Fault Refusal :=
  match (s.crs k c).hold with
  | .nap t =>
    if t ≤ s.clock then .next (s.modCrs k c (fun x => { x with hold := .none, age := s.clock })) else notNow
  | _ => notNow

end Sys2Proof.Machine
end

