-- ==== Sys2Proof/Machine/Token.lean ====
section
/-!
DEFINITION. Tokens and reading the tables that an instruction names in device memory (spec/10_copies_and_bins.md R295 to
R297; spec/06_overlays.md R170; spec/09_memory_access.md R259).
-/

namespace Sys2Proof.Machine

/-! ### Tokens (R295, R296) -/

/-- R296. An asynchronous instruction that names token n: it waits, delivers the token's error, or issues. -/
def State.withToken (s : State) (n : Nat) (f : State → State) : State :=
  match (s.me.token n).st with
  | .pending => s.stallFor .other
  | .error cause => s.tokenTrap n cause
  | .free => f s

/-- R295. Token n of the issuing course becomes pending. -/
def State.startToken (s : State) (n : Nat) : State := s.modMe (·.setToken n { Token.fresh with st := .pending })

/-- R295, R297. How an operation ends: well, or in error with a cause, its side and address, or the failed destinations of a
multicast. -/
inductive TokEnd where
  | free
  | error (cause : Cause) (dst : Bool) (addr : BitVec 56)
  | partialMulti (failed : BitVec 16) (detail : BitVec 8)
  deriving DecidableEq, Repr

def TokEnd.token : TokEnd → Token
  | .free => Token.fresh
  | .error cause dst addr => { Token.fresh with st := .error cause, dst := dst, addr := addr }
  | .partialMulti failed detail => { Token.fresh with st := .error .multicastPartial, failed := failed, detail := detail }

/-- R295. Token n of course (k, c) completes. -/
def State.endToken (s : State) (k c n : Nat) (e : TokEnd) : State := s.modCrs k c (·.setToken n e.token)

/-! ### Tables in device memory -/

/-- R170, R259, R306. An instruction that reads a table at issue: an absent translation parks the issue set, denied
permission and uncorrected data trap it. cls is the class set of the access. -/
def State.tableOr (s : State) (r : Fetched) (cls : Nat) (f : List Byte → State) : State :=
  match r with
  | .bytes bs _ => f bs
  | .absent e a => s.park ((lanesOf s.iss.set).map (fun l => { lane := l, fate := .park e, va := a })) 0 cls
  | .denied a => s.trapWhole .xlateDenied (info260 (lowest s.iss.set) false false a.toNat)
  | .poison a => s.trapWhole .poison (info260 (lowest s.iss.set) false false a.toNat)

/-- A member that reports one N32 value to every lane of the issue set: its port check comes before its effect. -/
def State.answer (s : State) (v : BitVec 7) (f : State → State × Word) : State :=
  match s.vecRead [] (some v) false [] true (fun _ => none) with
  | .error t => t
  | .ok (s1, _, _) => ((f s1).1.writeDst v 5 (fun _ => (f s1).2)).done

end Sys2Proof.Machine
end

