-- ==== Sys2Proof/Machine/Overlay.lean ====
section
/-!
DEFINITION. The code store: overlay instances, loads, residency tokens, the overlay instructions, and the transfers between
overlays (spec/06_overlays.md R161 to R187, R470; spec/01_binary_and_assembly.md R27 to R29).
-/

namespace Sys2Proof.Machine

/-! ### Entries (R161, R183) -/

/-- R161. FRAMES. -/
def OvEntry.frames (e : OvEntry) : Nat := (e.len + 2047) / 2048

/-- R183. The match key: DIGEST, LEN, NENTRY and ENTRYOFF. -/
def OvEntry.same (a b : OvEntry) : Bool :=
  a.digest == b.digest && a.len == b.len && a.nentry == b.nentry && a.entryoff == b.entryoff

/-! ### Frames, pins and lanes (R161, R165, R166, R168) -/

/-- R147. Does a consort stand on the core? -/
def Consort.onCore (q : Consort) : Bool :=
  match q.place with
  | .resident => true
  | .draining _ => true
  | _ => false

/-- R168. Residency tokens of a consort on an overlay. -/
def Consort.held (q : Consort) (ov : BitVec 16) : Nat :=
  ((q.rtokens.filter (fun t => t.ov == ov)).map (·.count)).foldl (· + ·) 0

/-- The consorts on the core that see an instance, each with every overlay id under which it does. -/
def State.viewers (s : State) (i : Inst) : List (Consort × BitVec 16) :=
  (s.consorts.filter (·.onCore)).flatMap (fun q =>
    (i.sharers.filter (fun h => h.aspace == q.aspace && h.ot == q.hdr.otaddr)).map (fun h => (q, h.ov)))

/-- R168. The pin count of an instance, over all consorts or one tenant's. -/
def State.pins (s : State) (i : Inst) (tenant : Option (BitVec 16)) : Nat :=
  ((s.viewers i).map (fun x => if tenant.isNone || tenant == some x.1.aspace then x.1.held x.2 else 0)).foldl (· + ·) 0

/-- R166. Does a counted lane of a course stand in overlay ov? Lanes that are off or exited do not count. -/
def Course.lanesIn (c : Course) (ov : BitVec 16) : Bool :=
  !c.retired && (List.range 32).any (fun l => !(bit c.gone l) && refOv (c.lpcAt l) == ov)

/-- R166. Do counted lanes stand in an instance? -/
def State.lanesInside (s : State) (i : Inst) (tenant : Option (BitVec 16)) : Bool :=
  (s.viewers i).any (fun x => (tenant.isNone || tenant == some x.1.aspace) && x.1.courses.any (·.lanesIn x.2))

def State.modInst (s : State) (id : Nat) (f : Inst → Inst) : State :=
  s.modCore (fun c => { c with insts := modFirst (·.uid == id) f c.insts })

/-- R166. An instance leaves the residency table, and its frames are free. -/
def State.freeInst (s : State) (id : Nat) : State :=
  s.modCore (fun c => { c with insts := c.insts.filter (·.uid != id) })

/-- R161. Frames in use. -/
def State.framesUsed (s : State) : Nat :=
  ((s.core.insts.filter (·.framed)).map (·.entry.frames)).foldl (· + ·) 0

/-- R165. May an instance be taken as a victim as far as its age goes? -/
def State.unprotected (s : State) (i : Inst) : Bool := i.fetched || i.residentAt + 65536 ≤ s.clock

/-- Insertion before the first that was fetched from no earlier: those of one clock stay in the order of the table. -/
def insertInst (x : Inst) : List Inst → List Inst
  | [] => [x]
  | y :: ys => if x.lastFetch ≤ y.lastFetch then x :: y :: ys else y :: insertInst x ys

/-- R163, R165. Has a tenant of an instance a consort on the core? -/
def State.tenantHere (s : State) (i : Inst) : Bool := i.sharers.any (fun h => s.consorts.any (fun q => q.onCore && q.aspace == h.aspace))

/-- R165. The victims in order: those whose tenants have no resident consort first, then the others, each as R166 allows, least
recently fetched first; an instance that no lane has fetched from stands at the clock at which its entry was created (the model's
choice, log entry 67). -/
def State.victims (s : State) : List Inst :=
  let able := s.core.insts.filter (fun i => i.st == .resident && s.unprotected i && s.pins i none == 0 && !s.lanesInside i none)
  (able.filter (fun i => !s.tenantHere i)).foldr insertInst [] ++ (able.filter s.tenantHere).foldr insertInst []

/-- R165. The shortest run of victims in that order that yields n frames, if there is one: none of it is passed over, though later
ones alone might do (the model's choice, log entry 67). -/
def takeVictims (n : Nat) : List Inst → Option (List Inst)
  | [] => if n = 0 then some [] else none
  | x :: xs => if n = 0 then some [] else (takeVictims (n - x.entry.frames) xs).map (x :: ·)

/-- R165. An instance takes its frames, freeing victims; none when no set of frames can be found. -/
def State.allocate (s : State) (id : Nat) : Option State :=
  match s.core.insts.find? (fun i => i.uid == id && !i.framed) with
  | none => none
  | some i =>
    (takeVictims (i.entry.frames - (128 - s.framesUsed)) s.victims).map (fun vs =>
      (vs.foldl (fun s v => s.freeInst v.uid) s).modInst id (fun i => { i with framed := true }))

/-- R165. A load takes frames now, or waits without any. -/
def State.tryFrames (s : State) (id : Nat) : State := (s.allocate id).getD s

/-! ### Starting a load (R170, R183) -/

/-- A LOADING entry for a tenant, with the tokens its completion answers (lastFetch: log entry 67). -/
def State.createLoad (s : State) (h : Sharer) (e : OvEntry) (toks : List (Nat × Nat × Nat)) : State :=
  let (s1, id) := s.freshId
  let i : Inst := { uid := id, owner := h.aspace, sharers := [h], entry := e, st := .loading, verified := false, bytes := []
                    framed := false, waiting := false, waiters := toks, joiners := [], fetched := false, lastFetch := s.clock
                    residentAt := 0 }
  (s1.modCore (fun c => { c with insts := c.insts ++ [i] })).tryFrames id

def Joiner.is (j : Joiner) (h : Sharer) : Bool := j.aspace == h.aspace && j.ot == h.ot && j.ov == h.ov

/-- R170. More tokens wait with a joiner of an instance. -/
def Inst.addWaiters (i : Inst) (h : Sharer) (toks : List (Nat × Nat × Nat)) : Inst :=
  { i with joiners := i.joiners.map (fun j => if j.is h then { j with tokens := j.tokens ++ toks } else j) }

/-- R170, R183. Is an instance a first load of another tenant that a request with this entry waits for? One overlay of a tenant
at a time waits with it (R162: two overlays of one tenant share nothing). -/
def Inst.joinable (i : Inst) (h : Sharer) (e : OvEntry) : Bool :=
  i.st == .loading && i.entry.shareable && i.entry.same e && i.owner != h.aspace && i.joiners.all (fun j => j.is h || j.aspace != h.aspace)

/-- R162, R170, R183. An overlay that is ABSENT for a tenant is asked for with its entry: it joins another tenant's verified
instance, waits for another tenant's first load (where it waits already, its tokens go on with that), or is loaded. toks are the
tokens that wait for it; the answer says whether they complete now. -/
def State.request (s : State) (h : Sharer) (e : OvEntry) (toks : List (Nat × Nat × Nat)) : State × Bool :=
  match (if e.shareable then s.core.insts.find? (fun i =>
      i.st == .resident && i.verified && i.entry.same e && !i.sharers.any (·.aspace == h.aspace)) else none) with
  | some i => (s.modInst i.uid (fun i => { i with sharers := i.sharers ++ [h] }), true)
  | none =>
    match (if e.shareable then s.core.insts.find? (·.joinable h e) else none) with
    | some i =>
      let j : Joiner := { aspace := h.aspace, ot := h.ot, ov := h.ov, entry := e, tokens := toks }
      (s.modInst i.uid (fun i => if i.joiners.any (·.is h) then i.addWaiters h toks else { i with joiners := i.joiners ++ [j] }), false)
    | none => (s.createLoad h e toks, false)

/-- R183. A tenant's own request that waits for another tenant's verification. -/
def State.joining (s : State) (h : Sharer) : Bool :=
  s.core.insts.any (fun i => i.joiners.any (·.is h))

def Consort.sharer (q : Consort) (ov : BitVec 16) : Sharer := { aspace := q.aspace, ot := q.hdr.otaddr, ov := ov }

/-! ### The overlay instructions (R169 to R174) -/

/-- R169. A handle: an overlay id below COUNT. -/
def State.withOverlay (s : State) (i : BitVec 6) (f : BitVec 16 → State) : State :=
  let x := s.getS i.toNat
  if 2 ^ 16 ≤ x.toNat then s.fail .badHandle i.toNat
  else s.tableOr (s.fetchCount s.mine) 0 (fun bs =>
    if validId (leNat bs) x.toNat then f (x.setWidth 16) else s.fail .badHandle i.toNat)

/-- R170. OVLD once token n is free. The entry is read wherever the overlay is ABSENT for the tenant, before any sharing test. -/
def State.ovld (s : State) (i : BitVec 6) (n : Nat) : State :=
  s.withOverlay i (fun ov =>
    let q := s.mine
    let tok := (s.iss.k, s.iss.c, n)
    match s.instFor q ov with
    | some x =>
      if x.st = .resident then s.done
      else (s.startToken n).done.modInst x.uid (fun x => { x with waiters := x.waiters ++ [tok] })
    | none =>
      s.tableOr (s.fetchEntry q ov.toNat) 0 (fun bs =>
        let e := OvEntry.ofBytes bs
        if !e.ok then s.fail .badHandle i.toNat
        else
          let (s1, now) := s.request (q.sharer ov) e [tok]
          (if now then s1 else s1.startToken n).done))

/-- OVLD. -/
def execOvld (i : BitVec 6) (k : BitVec 3) (s : State) : Host.Outcome State Fault Refusal :=
  s.gate (.ovld i k) (fun s => s.withToken k.toNat (fun s => s.ovld i k.toNat))

/-- R168. One more token of a consort on an overlay, if its table has room. -/
def Consort.takeToken (q : Consort) (ov : BitVec 16) : Option Consort :=
  match q.rtokens.find? (fun t => t.ov == ov) with
  | some t =>
    if t.count = 255 then none
    else some { q with rtokens := modFirst (fun t => t.ov == ov) (fun t => { t with count := t.count + 1 }) q.rtokens }
  | none => if q.rtokens.length < 8 then some { q with rtokens := q.rtokens ++ [{ ov := ov, count := 1 }] } else none

/-- R171. OVPIN. -/
def State.ovpin (s : State) (ov : BitVec 16) : State × Word :=
  match s.instFor s.mine ov with
  | none => (s, 0)
  | some x =>
    match s.mine.takeToken ov with
    | none => (s, 3)
    | some q => (s.modMine (fun _ => q), if x.st = .resident then 1 else 2)

def execOvpin (v : BitVec 7) (i : BitVec 6) (s : State) : Host.Outcome State Fault Refusal :=
  s.gate (.ovpin v i) (fun s => s.withOverlay i (fun ov => s.answer v (·.ovpin ov)))

/-- R168. The tokens a consort may not return: the manager's permanent one. -/
def Consort.permanent (q : Consort) (ov : BitVec 16) : Nat :=
  if q.hdr.ovmgr ≠ 0xFFFFFFFF#32 ∧ refOv q.hdr.ovmgr = ov then 1 else 0

/-- R172. One token fewer; an entry that reaches zero is free. -/
def Consort.dropToken (q : Consort) (ov : BitVec 16) : Consort :=
  let ts := modFirst (fun t => t.ov == ov) (fun t => { t with count := t.count - 1 }) q.rtokens
  { q with rtokens := ts.filter (fun t => t.count != 0) }

/-- R172. OVUNPIN. -/
def execOvunpin (i : BitVec 6) (s : State) : Host.Outcome State Fault Refusal :=
  s.gate (.ovunpin i) (fun s => s.withOverlay i (fun ov =>
    if s.mine.held ov ≤ s.mine.permanent ov then s.fail .badHandle i.toNat
    else (s.modMine (·.dropToken ov)).done))

/-- R173. OVEVICT. -/
def State.ovevict (s : State) (ov : BitVec 16) : State × Word :=
  let t := s.mine.aspace
  match s.instFor s.mine ov with
  | none => (s, 0)
  | some x =>
    if x.st = .loading then (s, 3)
    else if s.pins x (some t) ≠ 0 then (s, 1)
    else if s.lanesInside x (some t) then (s, 2)
    else
      let rest := x.sharers.filter (fun h => h.aspace != t)
      (if rest.isEmpty then s.freeInst x.uid else s.modInst x.uid (fun x => { x with sharers := rest }), 0)

def execOvevict (v : BitVec 7) (i : BitVec 6) (s : State) : Host.Outcome State Fault Refusal :=
  s.gate (.ovevict v i) (fun s => s.withOverlay i (fun ov => s.answer v (·.ovevict ov)))

/-- R174. What OVQRY reports; FRAMES of a load that waits for its frames are those it needs (the model's choice, log entry 67). -/
def State.ovqry (s : State) (ov : BitVec 16) : Word :=
  let held := s.mine.held ov % 256 * 2 ^ 24
  match s.instFor s.mine ov with
  | none => BitVec.ofNat 32 held
  | some x =>
    BitVec.ofNat 32 (held + x.verified.toNat * 2 ^ 23 + x.entry.frames * 2 ^ 16 + min (s.pins x none) 255 * 2 ^ 8 +
      (s.lanesInside x none).toNat * 4 + (if x.st = .resident then 2 else 1))

def execOvqry (v : BitVec 7) (i : BitVec 6) (s : State) : Host.Outcome State Fault Refusal :=
  s.gate (.ovqry v i) (fun s => s.withOverlay i (fun ov => s.answer v (fun s => (s, s.ovqry ov))))

/-! ### Transfers between overlays (R175 to R178, R407) -/

/-- R407. Lanes that leave the overlay of the trap handler by such a transfer leave HMASK. -/
def State.leaveHandler (s : State) (set : BitVec 32) (f : Nat → BitVec 32) : State :=
  let h := s.mine.hdr.traph
  if h = 0xFFFFFFFF#32 ∨ refOv s.iss.own ≠ refOv h then s
  else s.modMe (fun c => { c with hmask := c.hmask &&& ~~~(maskOf (fun l => bit set l && refOv (f l) != refOv h)) })

/-- R175. CALLX, once its operands are within the counts. -/
def State.callx (s : State) (o : BitVec 16) (e : BitVec 5) : State :=
  s.tableOr (s.fetchCount s.mine) 0 (fun bs =>
    if !validId (leNat bs) o.toNat then s.fail .badHandle 0
    else match s.instFor s.mine o with
      | none => s.tableOr (s.fetchEntry s.mine o.toNat) 0 (fun bs =>
        if (OvEntry.ofBytes bs).ok then s.miss s.iss.set 1 o else s.fail .badHandle 0)
      | some x =>
        if x.entry.nentry ≤ e.toNat then s.fail .badHandle 0
        else
          let t := BitVec.ofNat 32 (o.toNat * 65536 + x.entry.entryoff.getD e.toNat 0)
          ((s.link s.iss.set).moveSome s.iss.set (fun _ => t) false).leaveHandler s.iss.set (fun _ => t))

def execCallx (o : BitVec 16) (e : BitVec 5) (s : State) : Host.Outcome State Fault Refusal :=
  s.gate (.callx o e) (fun s => s.callx o e)

/-- R29, R176. What becomes of the lanes of set that miss overlay ov: they miss, or the reading of its entry parks or traps
them. reg is the register that names it. -/
inductive Missed where
  | away | bad
  | park (va : DWord) (entry : Nat)
  | trap (cause : Cause) (va : DWord)
  deriving DecidableEq, Repr

def State.missed (s : State) (ov : BitVec 16) : Missed :=
  match s.fetchEntry s.mine ov.toNat with
  | .bytes bs _ => if (OvEntry.ofBytes bs).ok then .away else .bad
  | .absent e va => .park va e
  | .denied va => .trap .xlateDenied va
  | .poison va => .trap .poison va

/-- R29, R176, R178, R180, R405. CALLXR (kind 2) and RETX (kind 3). -/
def State.transferReg (s : State) (r : BitVec 7) (kind : Nat) : State :=
  match s.vecRead [Src.of r [5, 0]] none false [] true (fun _ => none) with
  | .error t => t
  | .ok (_, _, vs) =>
    let x := arg vs 0
    s.tableOr (s.fetchCount s.mine) 0 (fun bs =>
      let fate (l : Nat) : Option Missed :=
        if !validId (leNat bs) (refOv (x.at l)).toNat then some .bad
        else if (s.instFor s.mine (refOv (x.at l))).isNone then some (s.missed (refOv (x.at l)))
        else none
      let those (p : Missed → Bool) : BitVec 32 := maskOf (fun l => bit s.iss.set l && (fate l).any p)
      let bad := those (· == .bad)
      let away := those (· == .away)
      let go := s.iss.set &&& maskOf (fun l => (fate l).isNone)
      let s0 := s.park ((lanesOf s.iss.set).filterMap (fun l => match fate l with
        | some (.park va e) => some { lane := l, fate := .park e, va := va }
        | _ => none)) 0 0
      let s1 := if kind = 2 then s0.link go else s0
      let s2 := (s1.moveSome go x.at false).leaveHandler go x.at
      let ov := refOv (x.at (lowest away))
      let mr := missref kind ov.toNat s.iss.own
      let trapped (cause : Cause) : List TrapGroup :=
        let lanes := those (fun m => match m with
          | .trap c _ => c == cause
          | _ => false)
        let va : DWord := match fate (lowest lanes) with
          | some (.trap _ va) => va
          | _ => 0
        if lanes = 0 then [] else [{ cause := cause, lanes := lanes, info := info260 (lowest lanes) false false va.toNat }]
      let badGroup : List TrapGroup :=
        (if bad = 0 then [] else [{ cause := .badHandle, lanes := bad, info := info79 s.iss.enc 0 r.toNat }]) ++
          trapped .xlateDenied ++ trapped .poison
      if away = 0 then s2.deliver s.iss.k s.iss.c s.iss.own (fun _ => s.iss.at_) badGroup
      else if s.mine.hdr.ovmgr = 0xFFFFFFFF#32 then
        (s2.modMe (fun c => { c with missref := mr })).deliver s.iss.k s.iss.c s.iss.own (fun _ => s.iss.at_)
          (badGroup ++ [{ cause := .overlayMiss, lanes := away, info := mr }])
      else (s2.miss away kind ov).deliver s.iss.k s.iss.c s.iss.own (fun _ => s.iss.at_) badGroup)

/-- R176. CALLXR. -/
def execCallxr (r : BitVec 7) (s : State) : Host.Outcome State Fault Refusal :=
  s.gate (.callxr r) (fun s => s.transferReg r 2)

/-- R176. RETX. -/
def execRetx (r : BitVec 7) (s : State) : Host.Outcome State Fault Refusal :=
  s.gate (.retx r) (fun s => s.transferReg r 3)

/-! ### Loads that end, wait or fail (R164 to R168, R184, R186, R189) -/

def State.endTokens (s : State) (ts : List (Nat × Nat × Nat)) (e : TokEnd) : State :=
  forAll ts s (fun s t => s.endToken t.1 t.2.1 t.2.2 e)

/-- R183. Those that waited for a verification: they join, or start their own loads; so too where the first load itself failed (the
model's choice, log entry 72). One whose overlay a load of its own or another instance serves meanwhile waits for that, if it
must. -/
def State.joiners (s : State) (id : Nat) (ok : Bool) (js : List Joiner) : State :=
  forAll js s (fun s j =>
    let h : Sharer := { aspace := j.aspace, ot := j.ot, ov := j.ov }
    match s.inst h.aspace h.ot h.ov with
    | some i =>
      if i.st = .resident then s.endTokens j.tokens .free
      else s.modInst i.uid (fun i => { i with waiters := i.waiters ++ j.tokens })
    | none => if ok then (s.modInst id (fun i => { i with sharers := i.sharers ++ [h] })).endTokens j.tokens .free
    else s.createLoad h j.entry j.tokens)

/-- R167, R186. The lanes of a course that a failed load of overlay ov concerns: before the consort's first issue on the core every
lane in the overlay that is not off or exited, afterwards the lanes whose fetch waits (log entry 60). -/
def Course.failedLanes (c : Course) (first : Bool) (ov : BitVec 16) : BitVec 32 :=
  if first then maskOf (fun l => !bit c.gone l && refOv (c.lpcAt l) == ov)
  else match c.issueSet with
    | some (set, _) => if refOv (c.lpcAt (lowest set)) = ov then set else 0
    | none => 0

/-- R167, R186. Lanes of a course have a cause to take at the instructions they stand at. -/
def Course.addFault (c : Course) (lanes : BitVec 32) (cause : Cause) (va : DWord) (once : Bool) : Course :=
  { c with fetchFault := c.fetchFault ++ (lanesOf lanes).map (fun l =>
      { cause := cause, va := va.setWidth 56, lane := l, ref := c.lpcAt l, once := once }) }

/-- R167. The causes of failed loads that the lanes of an issue set have to take at the instruction they stand at. -/
def Course.faultsOf (c : Course) (set : BitVec 32) : List FetchFault :=
  c.fetchFault.filter (fun f => bit set f.lane && f.ref == c.lpcAt f.lane)

/-- R167, R168, R186, R189. What a failed load of overlay ov means to a consort on the core: residency tokens taken on it are
returned, all but the manager's permanent one, and the lanes it concerns take the cause; where the consort has not yet issued
and the overlay is token-held or the manager's, every course takes BAD_HANDLE. -/
def Consort.loadFailed (q : Consort) (ov : BitVec 16) (cause : Cause) (va : DWord) : Consort :=
  let first := q.need.contains ov
  let whole := first && q.held ov != 0
  let left := q.permanent ov
  { q with
    rtokens := (q.rtokens.map (fun t => if t.ov = ov then { t with count := left } else t)).filter (fun t => t.count != 0)
    need := q.need.filter (· != ov)
    courses := q.courses.map (fun c =>
      if whole then (if c.fetchFault.any (·.once) then c else c.addFault (~~~c.gone) .badHandle 0 true)
      else c.addFault (c.failedLanes first ov) cause va false) }

/-- R167, R186, R189. A load fails: its entry and frames are freed, its tokens complete in error, and the consorts that see
it take the failure. R183 does not say what becomes of the tenants that waited for its verification: each starts its own load (the
model's choice, log entry 72). -/
def State.loadFails (s : State) (i : Inst) (cause : Cause) (va : DWord) : State :=
  let s1 := (s.freeInst i.uid).endTokens i.waiters (.error cause false (va.setWidth 56))
  let mine (q : Consort) (h : Sharer) : Bool := h.aspace == q.aspace && h.ot == q.hdr.otaddr
  let s2 : State := { s1 with consorts := s1.consorts.map (fun q =>
    match i.sharers.find? (mine q) with
    | none => q
    | some h => if q.onCore then q.loadFailed h.ov cause va else q) }
  s2.joiners i.uid false i.joiners

/-- R164, R183, R184. Every byte of a load has landed. -/
def State.loadLands (s : State) (i : Inst) (bs : List Byte) : State :=
  let ok := i.entry.shareable && sha256 bs == i.entry.digest
  let s1 := s.modInst i.uid (fun i =>
    { i with st := .resident, bytes := bs, verified := ok, residentAt := s.clock, waiters := [], joiners := [] })
  let s2 := if i.entry.shareable && !ok then
      s1.report { kind := 5, cause := 0, access := 0, course := 0xFF, aspace := i.owner, lanes := 0, cref := 0, ctx := 0
                  addr := i.entry.base }
    else s1
  (s2.endTokens i.waiters .free).joiners i.uid ok i.joiners

/-- R164, R167. OVERLAY_LOAD_COMPLETE: the bytes of instance id have been read, or the read meets a fault. -/
def execOverlayLoadComplete (id : Nat) (s : State) : Host.Outcome State Fault Refusal :=
  match s.core.insts.find? (fun i => i.uid == id && i.st == .loading && i.framed && !i.waiting) with
  | none => notNow
  | some i =>
    match s.fetchVa i.owner i.entry.base i.entry.len with
    | .bytes bs _ => .next (s.loadLands i bs)
    | .absent _ va =>
      .next ((s.modInst id (fun i => { i with waiting := true })).report
        { kind := 2, cause := 6, access := 0, course := 0xFF, aspace := i.owner, lanes := 0, cref := 0, ctx := 0, addr := va })
    | .denied va => .next (s.loadFails i .xlateDenied va)
    | .poison va => .next (s.loadFails i .poison va)

/-- R165. OVERLAY_FRAME_RETRY: a load that waits for frames finds them. -/
def execOverlayFrameRetry (id : Nat) (s : State) : Host.Outcome State Fault Refusal :=
  match s.allocate id with
  | some t => .next t
  | none => notNow

/-- R165. FRAME_PROTECTION_EXPIRY: the 65,536 clocks of instance id are over, and the loads that wait try again, in
order. -/
def execFrameProtectionExpiry (id : Nat) (s : State) : Host.Outcome State Fault Refusal :=
  if s.core.insts.any (fun i => i.uid == id && i.st == .resident && !i.fetched && i.residentAt + 65536 ≤ s.clock) then
    .next (forAll (s.core.insts.filter (fun i => !i.framed)) s (fun s i => s.tryFrames i.uid))
  else notNow

/-- R470. Does a course's fetch find its overlay absent? The overlay, when it does. -/
def State.absentFetch (s : State) (k c : Nat) : Option (BitVec 16) :=
  let q := s.cons k
  let x := q.crs c
  match x.issueSet with
  | none => none
  | some (set, _) =>
    let ov := refOv (x.lpcAt (lowest set))
    if q.place == .resident && (s.instFor q ov).isNone && !s.joining (q.sharer ov) &&
      (x.faultsOf set).isEmpty && !x.fetchWait then some ov else none

/-- R28, R29. How the reading of a consort's overlay entry ends. -/
inductive EntryRead where
  | entry (e : OvEntry)
  | bad (cause : Cause) (va : DWord)
  | absent (va : DWord)
  deriving DecidableEq, Repr

/-- R28, R29, R186. The entry of overlay ov of a consort's table, or the cause that its load fails with. -/
def State.readEntry (s : State) (q : Consort) (ov : BitVec 16) : EntryRead :=
  match s.fetchCount q with
  | .absent _ va => .absent va
  | .denied va => .bad .xlateDenied va
  | .poison va => .bad .poison va
  | .bytes cnt _ =>
    if !validId (leNat cnt) ov.toNat then .bad .badHandle 0
    else match s.fetchEntry q ov.toNat with
      | .absent _ va => .absent va
      | .denied va => .bad .xlateDenied va
      | .poison va => .bad .poison va
      | .bytes bs _ => if (OvEntry.ofBytes bs).ok then .entry (OvEntry.ofBytes bs) else .bad .badHandle 0

/-- R29, R470. FETCH_ABSENT_LOAD: the core starts a load of the overlay, as OVLD does but with no token; a failure gives the
waiting lanes its cause. DESIGN CHOICE: it asks once (log entry 72). -/
def execFetchAbsentLoad (k c : Nat) (s : State) : Host.Outcome State Fault Refusal :=
  let q := s.cons k
  match s.absentFetch k c with
  | none => notNow
  | some ov =>
    match s.readEntry q ov with
    | .bad cause va => .next (s.modCrs k c (fun x => x.addFault (x.failedLanes false ov) cause va false))
    | .absent va =>
      .next ((s.modCrs k c (fun x => { x with fetchWait := true })).report
        { kind := 2, cause := 6, access := 0, course := c, aspace := q.aspace, lanes := 0, cref := 0, ctx := q.ctx, addr := va })
    | .entry e => .next (s.request (q.sharer ov) e []).1

end Sys2Proof.Machine
end

