-- ==== Sys2Proof/Machine/Scratch.lean ====
section
/-!
DEFINITION. Scratchpad loads, stores and atomics (spec/09_memory_access.md R269 to R275, R281, R283). A scratchpad access
performs when it issues; the data of a load reaches its registers with LOAD_RETURN.
-/

namespace Sys2Proof.Machine

open Host (Cell)

/-- Bytes of a consort's scratchpad. -/
def Consort.spRead (q : Consort) (a n : Nat) : List Byte := memRead q.scratch a n

def Consort.spWrite (q : Consort) (a : Nat) (bs : List Byte) : Consort := { q with scratch := memWrite q.scratch a bs }

/-- A little-endian number in the scratchpad. -/
def Consort.spNat (q : Consort) (a n : Nat) : Nat := leNat (q.spRead a n)

/-- R275, R311. The byte a class sees at an offset: the present one, or the one that a write of another class replaced and
that nothing has ordered yet; it sees the bytes of an aligned word alike. -/
def Consort.spView (q : Consort) (tick cls a : Nat) : Byte :=
  match q.sstale.find? (fun x => x.pa == a && x.cls != cls) with
  | some x => if Config.stale tick (2 ^ 60 + a / 4) then x.old else memGet q.scratch a
  | none => memGet q.scratch a

/-- R275, R311. The n bytes a class sees. -/
def Consort.spSee (q : Consort) (tick cls a n : Nat) : List Byte := (List.range n).map (fun i => q.spView tick cls (a + i))

/-- R275, R311. Operation op of class cls of course (k, c) is about to write n bytes at a: the words they lie in are kept as they
are; arw is the arrival word that counts the bytes. -/
def Consort.spKeep (q : Consort) (cls k c op : Nat) (arw : Option Nat) (a n : Nat) : Consort :=
  let lo := a / 4 * 4
  let hi := (a + n + 3) / 4 * 4
  let old := (List.range (hi - lo)).map (fun i =>
    { pa := lo + i, old := memGet q.scratch (lo + i), cls := cls, k := k, c := c, op := op, arw := arw.toList, blind := false, also := [] : StaleByte })
  { q with sstale := q.sstale.filter (fun b => !(lo ≤ b.pa && b.pa < hi)) ++ old }

/-- R291. Does a range of n bytes at a touch a tracked range? -/
def Consort.tracked (q : Consort) (a n : Nat) : Bool := q.tracks.any (fun t => a ≤ t.hi && t.lo < a + n)

/-- R270. Is an access switched off: beyond SCRATCH, or inside a tracked range? -/
def Consort.spOff (q : Consort) (a n : Nat) : Bool := q.hdr.scratch < a + n || q.tracked a n

/-- R283. Does a range hold a poisoned word? -/
def Consort.spPoisoned (q : Consort) (a n : Nat) : Bool := q.spoison.any (fun w => a < w + 4 && w < a + n)

/-- R270, R271. Lanes are switched off: they leave every mask, and FMASK records them. -/
def State.switchOff (s : State) (set : BitVec 32) : State :=
  if set = 0 then s
  else (s.modMe (fun c => { (c.leave set .off) with fmask := c.fmask ||| set, stall := none })).checkDeadlock s.iss.k s.iss.c

/-- R269. The lanes that are switched off, and the fates of the others: alignment, then poison of a byte read. -/
def State.spFates (s : State) (addr : Nat → DWord) (n : Nat) (rd : Bool) : BitVec 32 × List LaneFate :=
  let q := s.mine
  let off := maskOf (fun l => bit s.iss.set l && q.spOff (addr l).toNat n)
  (off, (lanesOf (s.iss.set &&& ~~~off)).map (fun l =>
    let a := (addr l).toNat
    { lane := l, va := addr l
      fate := if a % n ≠ 0 then .trap .misalign
        else if rd && q.spPoisoned a n then .trap .poison
        else .ok a false }))

/-- R263, R269, R270, R405. The lanes of a scratchpad access: those that read or wrote move on, others are switched off or
trap. ADDR of a POISON, for which SCR is 0, is the scratchpad offset (R260 states none; the model's choice, log entry 68). -/
def State.spSettle (s : State) (off : BitVec 32) (xs : List LaneFate) (wr move : Bool) : State :=
  let gs := (trapGroups (xs.filter (fun x => x.fate == .trap .misalign)) wr true) ++
    (trapGroups (xs.filter (fun x => x.fate == .trap .poison)) wr false)
  let okSet := maskOf (fun l => xs.any (fun x => x.lane == l && (match x.fate with
    | .ok _ _ => true
    | _ => false)))
  let s1 := ((if move then s.advance okSet else s).modMe (fun c => { c with stall := none })).switchOff off
  s1.deliver s.iss.k s.iss.c s.iss.own (fun _ => s.iss.at_) gs

/-- R263. The words of a load with its tag and destination, on their way to the registers. -/
def State.sendLoad (s : State) (regs : List Nat) (tag : BitVec 4) (ws : List (Nat × Nat × Word)) : State :=
  if ws.isEmpty then s
  else
    let (s1, id) := s.freshId
    let ld : Load := { id := id, k := s.iss.k, c := s.iss.c, regs := regs, words := ws, tag := tag, scalar := none }
    (s1.modMs (fun m => { m with loads := m.loads ++ [ld] })).modMe (fun c => { c with loads := c.loads + 1 })

/-- R269. LDS, once its operands are within the counts. -/
def State.loadScratch (s : State) (d a : BitVec 7) (b : BitVec 6) (k : BitVec 5) (px : Option (BitVec 25)) : State :=
  let av := s.me.getV a.toNat
  let n := kindSize k
  let addr := laneAddr (s.getS b.toNat) av (memOff px)
  match s.readSrcs [] (some d) 1 with
  | .error t => t
  | .ok _ =>
    if !offsetTags.contains av.tag then s.fail .format a.toNat
    else if counterFull s.me.loads then s.stallFor .other
    else
      let (off, xs) := s.spFates addr n true
      let vals := (okLanes xs).map (fun x => (x.1, kindWords k (s.mine.spSee s.tick 0 x.2.1 n)))
      let s1 :=
        if isPort d then
          s.portPush s.iss.k s.iss.c (portOf d) (vals.flatMap (fun x => x.2.map (fun w => { val := w, tag := kindTag k })))
        else s.sendLoad ((List.range (kindRegs k)).map (d.toNat + ·)) (kindTag k)
          (vals.flatMap (fun x => (x.2.zip (List.range x.2.length)).map (fun w => (d.toNat + w.2, x.1, w.1))))
      s1.spSettle off xs false true

def execLds (d a : BitVec 7) (sb : BitVec 6) (k : BitVec 5) (px : Option (BitVec 25)) (s : State) :
    Host.Outcome State Fault Refusal :=
  s.gate (.lds d a sb k px) (fun s => s.loadScratch d a sb k px)

/-- R283. Words that these bytes cover whole are no longer poisoned. -/
def Consort.spClean (q : Consort) (offs : List Nat) : Consort :=
  { q with spoison := q.spoison.filter (fun w => !(List.range 4).all (fun i => offs.contains (w + i))) }

/-- R283. A write of the scratchpad clears the poison of the words it covers whole. -/
def Consort.spStore (q : Consort) (cls k c op : Nat) (arw : Option Nat) (a : Nat) (bs : List Byte) : Consort :=
  { ((q.spKeep cls k c op arw a bs.length).spWrite a bs) with spoison := q.spoison.filter (fun w => !(a ≤ w && w + 4 ≤ a + bs.length)) }

/-- R210, R265, R269, R274, R283. STS, which performs as it issues and is a store until then, once its operands are within the counts. -/
def State.storeScratch (s : State) (d a : BitVec 7) (b : BitVec 6) (k : BitVec 5) (px : Option (BitVec 25)) : State :=
  let av := s.me.getV a.toNat
  let n := kindSize k
  let addr := laneAddr (s.getS b.toNat) av (memOff px)
  match s.storeData a d k with
  | .error t => t
  | .ok (s1, data) =>
    let (off, xs) := s.spFates addr n false
    let bad := xs.filter (fun x => x.fate == .trap .misalign)
    if isPort d && !bad.isEmpty then s.spSettle 0 bad true false
    else if counterFull s.me.stores then s.stallFor .other
    else
      let s2 := forAll (okLanes xs) s1 (fun s x => s.modMine (·.spStore 0 s.iss.k s.iss.c 0 none x.2.1 (kindBytes k (storeWords data x.1))))
      let s3 := s2.modMine (·.spClean ((okLanes xs).flatMap (fun x => (List.range n).map (x.2.1 + ·))))
      s3.spSettle off xs true true

def execSts (d a : BitVec 7) (sb : BitVec 6) (k : BitVec 5) (px : Option (BitVec 25)) (s : State) :
    Host.Outcome State Fault Refusal :=
  s.gate (.sts d a sb k px) (fun s => s.storeScratch d a sb k px)

/-- R281. The lanes of an ATOMS take their turns in ascending order: the scratchpad after, and what each received. -/
def atomsTurns (tick k j : Nat) (o : BitVec 4) (x c : VReg) :
    Consort → List (Nat × Nat × Bool) → Consort × List (Nat × Word)
  | q, [] => (q, [])
  | q, y :: ys =>
    let m : Word := BitVec.ofNat 32 (leNat (q.spSee tick 0 y.2.1 4))
    let (q', rs) := atomsTurns tick k j o x c
      (q.spStore 0 k j 0 none y.2.1 (leBytes 4 (atomStep o m (x.at y.1) (c.at y.1)).toNat)) ys
    (q', (y.1, m) :: rs)

/-- R210, R276, R281. ATOMS, which counts as a load, and REDS, which performs as it issues and is a store until then, once their
operands are within the counts. -/
def State.atomScratch (s : State) (d a : BitVec 7) (b : BitVec 6) (o : BitVec 4) (ret : Bool) (px : Option (BitVec 25)) :
    State :=
  let av := s.me.getV a.toNat
  let x := s.me.getV d.toNat
  let c := s.me.getV (d.toNat + 1)
  let addr := laneAddr (s.getS b.toNat) av (memOff px)
  if !offsetTags.contains av.tag then s.fail .format a.toNat
  else if !(atomTags o).contains x.tag then s.fail .format d.toNat
  else if o = 9 ∧ c.tag ≠ x.tag then s.fail .format (d.toNat + 1)
  else if counterFull (if ret then s.me.loads else s.me.stores) then s.stallFor .other
  else
    let (off, xs) := s.spFates addr 4 true
    let (q, rs) := atomsTurns s.tick s.iss.k s.iss.c o x c s.mine (okLanes xs)
    let s1 := s.modMine (fun _ => q)
    let s2 := if ret then s1.sendLoad [d.toNat] x.tag (rs.map (fun r => (d.toNat, r.1, r.2))) else s1
    s2.spSettle off xs true true

def execAtoms (d a : BitVec 7) (sb : BitVec 6) (o : BitVec 4) (px : Option (BitVec 25)) (s : State) :
    Host.Outcome State Fault Refusal :=
  s.gate (.atoms d a sb o px) (fun s => s.atomScratch d a sb o true px)

def execReds (d a : BitVec 7) (sb : BitVec 6) (o : BitVec 4) (px : Option (BitVec 25)) (s : State) :
    Host.Outcome State Fault Refusal :=
  s.gate (.reds d a sb o px) (fun s => s.atomScratch d a sb o false px)

end Sys2Proof.Machine
end

