-- ==== Sys2Proof/Machine/Fence.lean ====
section
/-!
DEFINITION. Synchronisation: releases and acquires, FENCE, XFENCE, and barriers (spec/14_consistency.md R379 to R385, R393 to
R399).
-/

namespace Sys2Proof.Machine

/-! ### Releases and acquires (R380 to R384) -/

/-- R282, R381, R382. Every load and atomic of a course has completed. -/
def State.loadsDone (s : State) (k c : Nat) : Bool :=
  (s.crs k c).loads == 0 && !s.ms.atoms.any (fun a => a.reqs.any (fun r => r.k == k && r.c == c))

/-- R381. Every store and RED of a course has performed at the point of a scope. -/
def State.storesDone (s : State) (k c scope : Nat) : Bool :=
  if scope = 0 then true
  else
    !s.ms.atoms.any (fun a => a.reqs.any (fun r => r.k == k && r.c == c)) &&
      !s.ms.stores.any (fun t => t.k == k && t.c == c && (3 ≤ scope || t.at_ == .issued))

/-- R381. May a release of course (k, c) at a scope issue? -/
def State.releaseReady (s : State) (k c scope : Nat) : Bool := s.loadsDone k c && s.storesDone k c scope

/-- R378. The stores that stand at the die slices on their way home. -/
def State.atSlices (s : State) : List Nat := (s.ms.stores.filter (·.at_ == .die)).map (·.id)

/-- R383. The stores that were at the die slices when the course's FENCE.sc reached issue. -/
def State.toDrain (s : State) : List Nat :=
  match s.me.stall with
  | some st => if st.iss.at_ = s.iss.at_ then st.drain else s.atSlices
  | none => s.atSlices

/-- R383. Have those stores performed at home? -/
def State.slicesDrained (s : State) : Bool := !s.toDrain.any s.atSlices.contains

/-- R381, R387. A region is closed at a scope, and with it the regions before it, but for what these operations write. -/
def State.closeRegion (s : State) (k c scope : Nat) (region : BitVec 32) (but : List Nat) : State :=
  s.modMs (fun m =>
    { m with closed := m.closed.filter (fun d => !(d.k == k && d.c == c && d.scope == scope)) ++
        [{ k := k, c := c, scope := scope, region := region, but := but }] })

/-- R381, R395. The engine operations of a course that are incomplete. -/
def State.flying (s : State) (k c : Nat) : List Nat :=
  (s.core.copies.filter (fun o => o.k == k && o.c == c)).map (·.id) ++ (s.core.bins.filter (fun o => o.k == k && o.c == c)).map (·.id) ++
    (s.core.selq.filter (fun o => o.k == k && o.c == c)).map (·.id)

/-- R395. Does a stale byte stand in a line that a course wrote in these classes, in an operation that was complete? -/
def published (k c : Nat) (classes : BitVec 6) (but : List Nat) (b : StaleByte) : Bool :=
  b.writers.any (fun w => w.2.1 == k && w.2.2.1 == c && classes.getLsbD w.1 && !but.contains w.2.2.2)

/-- R311, R382, R395. The copies of lines that a course wrote, in these classes, are discarded, but for those written by operations
that were incomplete. -/
def State.discard (s : State) (k c : Nat) (classes : BitVec 6) (but : List Nat) : State :=
  { (s.modMs (fun m => { m with stale := m.stale.filter (fun b => !published k c classes but b) })) with
    consorts := s.consorts.map (fun q => { q with sstale := q.sstale.filter (fun b => !published k c classes but b) }) }

/-- R384. Stores that a course issues from now on follow those before. -/
def State.nextEpoch (s : State) (k c : Nat) : State :=
  let n := s.epochOf k c + 1
  s.modMs (fun m => { m with epochs := m.epochs.filter (fun e => !(e.1 == k && e.2.1 == c)) ++ [(k, c, n)] })

/-- R380. A synchronisation operation of a course issues: the next region begins. -/
def State.nextRegion (s : State) (k c : Nat) : State := s.modCrs k c (fun x => { x with region := x.region + 1 })

/-- R381, R384, R385, R387, R395. A whole release at a scope wider than course, its closure included: the region that ends
is closed. -/
def State.releaseNow (s : State) (k c scope : Nat) : State :=
  let r := (s.crs k c).region
  let but := s.flying k c
  (((s.closeRegion k c scope r but).discard k c 0x3F but).nextEpoch k c).nextRegion k c

/-- All engine classes (R62). -/
def allClasses : BitVec 6 := 0x3F

/-- R381, R395. A fence issues: the lanes advance, the region ends, and where there is something to close or discard the
course waits for RELEASE_CLOSURE. -/
def State.fenceIssue (s : State) (scope : Nat) (rel : Bool) (classes : BitVec 6) : State :=
  let k := s.iss.k
  let c := s.iss.c
  let r := s.me.region
  let s0 := if rel && scope != 0 then s.done.nextEpoch k c else s.done
  let s2 := s0.nextRegion k c
  if rel && classes != 0 then s2.modMe (fun x => { x with hold := .closing scope r classes (s.flying k c) }) else s2

/-- R394. FENCE. A release at course scope waits only for loads and atomics, and closes nothing. -/
def execFence (o : BitVec 2) (p : BitVec 3) (s : State) : Host.Outcome State Fault Refusal :=
  let scope := p.toNat
  let rel := o != 0
  let ready := (if rel then s.releaseReady s.iss.k s.iss.c scope else s.loadsDone s.iss.k s.iss.c) &&
    (!(o == 3 && 3 ≤ scope) || s.slicesDrained)
  .next (if ready then s.fenceIssue scope rel (if scope = 0 then 0 else allClasses)
    else (s.stallFor .other).modMe (fun x => { x with stall := x.stall.map (fun st => { st with drain := s.toDrain }) }))

/-- R395. XFENCE: a release at its scope for the first set, whose completed writes' copies are discarded, and an acquire. -/
def execXfence (p : BitVec 3) (a _b : BitVec 6) (s : State) : Host.Outcome State Fault Refusal :=
  .next (if s.releaseReady s.iss.k s.iss.c p.toNat then s.fenceIssue p.toNat true a else s.stallFor .other)

/-- R381, R387, R395. RELEASE_CLOSURE: the closure of a release has been applied, and the course may issue again. -/
def execReleaseClosure (k c : Nat) (s : State) : Host.Outcome State Fault Refusal :=
  match (s.crs k c).hold with
  | .closing scope r classes but =>
    let s1 := if scope = 0 then s else s.closeRegion k c scope r but
    .next ((s1.discard k c classes but).modCrs k c (fun x => { x with hold := .none, age := s.clock }))
  | _ => notNow

/-! ### Barriers (R397 to R399) -/

/-- R397. The live courses of a consort: those that have not retired. -/
def Consort.live (q : Consort) : List Course := q.courses.filter (fun c => !c.retired)

def Consort.bar (q : Consort) (b : Nat) : Barrier := vget q.bars { gen := 0, arr := 0 } b

/-- R398. A barrier completes: its arrivals clear, its generation advances, and the courses held on it go on. -/
def Consort.completeBar (q : Consort) (clock b : Nat) : Consort :=
  let gen := (q.bar b).gen + 1
  { q with
    bars := vset q.bars b { gen := gen, arr := 0 }
    courses := q.courses.map (fun c => match c.hold with
      | .bar n g => if n.toNat = b ∧ g ≠ gen then { c with hold := .none, age := clock } else c
      | _ => c) }

/-- R398, R399. A barrier is tested: it completes when some course has arrived and every live course has. -/
def Consort.testBar (q : Consort) (clock b : Nat) : Consort :=
  let arr := (q.bar b).arr
  if arr ≠ 0 ∧ q.live.all (fun c => arr.getLsbD c.idx) then q.completeBar clock b else q

/-- R399. A course that retires leaves every barrier, and each is tested again. -/
def Consort.leaveBars (q : Consort) (clock c : Nat) : Consort :=
  forAll (List.range 16) q (fun q b =>
    ({ q with bars := vset q.bars b { (q.bar b) with arr := (q.bar b).arr &&& ~~~(1#16 <<< c) } }).testBar clock b)

/-- R398. BAR (hold) and BARARR. -/
def State.arrive (s : State) (b : Nat) (stay : Bool) : State :=
  let bar := s.mine.bar b
  let c := s.iss.c
  if bar.arr.getLsbD c || !s.releaseReady s.iss.k c 1 then s.stallFor .other
  else
    let s1 := s.done.releaseNow s.iss.k c 1
    let s2 := if stay then s1.modMe (fun x => { x with hold := .bar (.ofNat 4 b) bar.gen }) else s1
    s2.modMine (fun q =>
      ({ q with bars := vset q.bars b { bar with arr := bar.arr ||| (1#16 <<< c) } }).testBar s.clock b)

/-- R398. BAR. -/
def execBar (b : BitVec 10) (_px : Option (BitVec 25)) (s : State) : Host.Outcome State Fault Refusal :=
  .next (s.arrive b.toNat true)

/-- R398. BARARR. -/
def execBararr (b : BitVec 10) (_px : Option (BitVec 25)) (s : State) : Host.Outcome State Fault Refusal :=
  .next (s.arrive b.toNat false)

end Sys2Proof.Machine
end

