-- ==== Sys2Proof/Machine/Copy.lean ====
section
/-!
DEFINITION. The copy engine and arrival words: CPY, CPY2, CPYM, ARMW, ARWAIT, ARADD, and the events that land and end a copy
(spec/10_copies_and_bins.md R285 to R303).
-/

namespace Sys2Proof.Machine

open Host (Cell)

/-! ### An engine's accesses to device memory (R292, R388, R389) -/

/-- How an engine's access to a range of bytes ends. -/
inductive EngineAccess where
  | ok (pas : List Nat)
  | absent (va : DWord)
  | fault (cause : Cause) (va : DWord)
  deriving DecidableEq, Repr

/-- R292, R388, R390. The fate of one byte of an engine's access for course (k, c); records of the sectors `secs` are made first. -/
def State.engineByte (s : State) (k c : Nat) (va : DWord) (wr : Bool) (secs : List Nat) : EngineAccess :=
  match s.fateAfter k c va 1 (!wr) wr false secs with
  | .ok pa _ => .ok [pa]
  | .trap cause => .fault cause va
  | .park _ => .absent va

/-- R386. Is the byte at an address on a Checked page for a consort? -/
def State.checkedAt (s : State) (q : Consort) (va : DWord) : Bool :=
  match s.xlate q.aspace q.hdr.checked va false false with
  | .ok _ ch => ch
  | _ => false

/-- R390. The sectors on Checked pages among the bytes from va up, which lie at these addresses. -/
def State.checkedSectors (s : State) (q : Consort) (va : DWord) (pas : List Nat) : List Nat :=
  (pas.zip (List.range pas.length)).foldl (fun secs x => if s.checkedAt q (va + BitVec.ofNat 64 x.2) then noteSector secs x.1 else secs) []

/-- R292. n bytes of an engine's access, in order; the first fault decides. -/
def State.engineAccess (s : State) (k c : Nat) (va : DWord) (wr : Bool) : Nat → EngineAccess
  | 0 => .ok []
  | n + 1 =>
    match s.engineAccess k c va wr n with
    | .ok pas =>
      match s.engineByte k c (va + BitVec.ofNat 64 n) wr (if wr then s.checkedSectors (s.cons k) va pas else []) with
      | .ok [pa] => .ok (pas ++ [pa])
      | .ok _ => .ok pas
      | x => x
    | x => x

/-- R377, R384. Must operation op, of epoch ep, of course (k, c) wait before it accesses n bytes from va up? -/
def State.engineWaits (s : State) (k c op ep : Nat) (va : DWord) (n : Nat) (wr : Bool) : Bool :=
  let q := s.cons k
  (!s.ms.atoms.isEmpty || !s.ms.stores.isEmpty) &&
    match s.xlateRange q.aspace q.hdr.checked va false false n with
    | .ok pas => s.homeWaits k c op ep (pas.map (·.1)) wr
    | .error _ => false

/-- R292, R389. Bytes an engine writes for course (k, c): performed at home, and recorded where their pages are Checked. -/
def State.engineWrite (s : State) (cls k c op : Nat) (region : BitVec 32) (va : DWord) (pas : List Nat) (bs : List Byte) :
    State :=
  let q := s.cons k
  let s1 := forAll (pas.zip (List.range pas.length)) s (fun s x =>
    if s.checkedAt q (va + BitVec.ofNat 64 x.2) then s.record k c x.1 1 region false (some op) else s)
  (s1.keepStale cls k c op pas).homeWrite (pas.zip bs)

/-- R412. An engine waits for a translation. cls is its class set. -/
def State.engineAbsent (s : State) (k c : Nat) (wr : Bool) (cls : Nat) (ref : BitVec 32) (va : DWord) :
    State :=
  let q := s.cons k
  s.report { kind := 2, cause := 6, access := wr.toNat + 4 * cls, course := c, aspace := q.aspace, lanes := 0
             cref := ref, ctx := q.ctx, addr := va }

/-- R390, R412. RECORD_FULL met by an engine's write sets FULL and sends its event. -/
def State.engineFault (s : State) (k c cls : Nat) (cause : Cause) (ref : BitVec 32) (va : DWord) : State :=
  if cause = .recordFull then s.recordFull k c (1 + 4 * cls) ref va else s

/-! ### The control word (R287 to R289) -/

/-- R287. The fields of a control word. -/
structure CopyCtl where
  kbase : Nat
  aux : Nat
  rows : Nat
  mbx : Bool
  arw : Bool
  dir : Nat
  len : Nat
  deriving DecidableEq, Repr

def CopyCtl.of (w : DWord) : CopyCtl :=
  let x := w.toNat
  { kbase := field x 59 54, aux := field x 53 40, rows := field x 39 28, mbx := field x 27 27 == 1, arw := field x 26 26 == 1
    dir := field x 25 24, len := field x 23 0 }

/-- R287. Is the source (destination) side a scratchpad? -/
def CopyCtl.srcSp (c : CopyCtl) : Bool := c.dir == 2 || c.dir == 3
def CopyCtl.dstSp (c : CopyCtl) : Bool := c.dir == 1 || c.dir == 3

/-- The three members. -/
inductive CopyKind where
  | one | rows | multi
  deriving DecidableEq, Repr

/-- R290. The rows of a copy: source and destination of each. -/
def copyRows (kind : CopyKind) (n : Nat) (src dst sstr dstr : DWord) : List (DWord × DWord) :=
  (List.range (if kind = .rows then n else 1)).map (fun i => (src + BitVec.ofNat 64 i * sstr, dst + BitVec.ofNat 64 i * dstr))

/-- R289. A side's rows lie in a scratchpad of the given size. -/
def rowsFit (size len : Nat) (xs : List DWord) : Bool := xs.all (fun x => x.toNat + len ≤ size)

/-- R290. The range of a side: its lowest and highest covered byte. -/
def rowsRange (len : Nat) (xs : List DWord) : Nat × Nat :=
  ((xs.map (·.toNat)).foldl min (2 ^ 64), (xs.map (fun x => x.toNat + len - 1)).foldl max 0)

/-- R288. Consort numbers that a CPYM selects. -/
def CopyCtl.selected (c : CopyCtl) (dword : DWord) : List Nat :=
  ((List.range 16).filter (fun i => dword.getLsbD (32 + i))).map (fun i => c.kbase + i)

/-- R289. What a copy's checks find at fault: the CPYM destination word, the control word, and what no single operand decides. -/
structure CopyFaults where
  dword : Bool
  ctl : Bool
  both : Bool

/-- R289. The checks of a copy. -/
def State.badCopy (s : State) (kind : CopyKind) (ctl dword : DWord) (rows : List (DWord × DWord)) : CopyFaults :=
  let c := CopyCtl.of ctl
  let q := s.mine
  let size := q.hdr.scratch
  let srcs := rows.map (·.1)
  let dsts := rows.map (·.2)
  let (slo, shi) := rowsRange c.len srcs
  let (dlo, dhi) := rowsRange c.len dsts
  let own := kind != .multi || (c.selected dword).contains q.num
  { dword := kind == .multi && (field dword.toNat 63 48 != 0 || (c.selected dword).isEmpty)
    ctl := field ctl.toNat 63 60 != 0 || (kind != .multi && c.kbase != 0) || (kind != .rows && c.rows != 0) ||
      (c.arw && !c.dstSp) || (c.mbx && c.dstSp) || (c.arw && c.mbx) || (!c.arw && !c.mbx && c.aux != 0) ||
      (c.mbx && 1024 ≤ c.aux) || (kind == .rows && c.rows == 0) || (c.arw && size < 16 * c.aux + 16) ||
      (kind == .multi && !c.dstSp) || (c.mbx && !s.work.mailboxes.any (fun m => m.num == c.aux && m.aspace == q.aspace))
    both := (c.len != 0 && c.srcSp && !rowsFit size c.len srcs) || (c.len != 0 && c.dstSp && !rowsFit size c.len dsts) ||
      (c.len != 0 && c.dir == 3 && own && slo ≤ dhi && dlo ≤ shi) ||
      (kind == .multi && (c.selected dword).any (fun n => q.cpg ≤ n)) }

/-- R289, R404. The register that BAD_HANDLE names for a copy that fails its checks: the first word at fault, or none (0) (log entry
58). a and x are the first register of the address group and the control word's. -/
def CopyFaults.reg (f : CopyFaults) (a x : BitVec 6) : Option Nat :=
  if f.dword then some (a.toNat + 1) else if f.ctl then some x.toNat else if f.both then some 0 else none

/-! ### Issue (R285, R286, R290, R291) -/

/-- R290. The chunks of a row: up to 64 bytes, cut at the source's 64-byte lines. fuel bounds their number. -/
def rowChunks : Nat → DWord → DWord → Nat → List Chunk
  | 0, _, _, _ => []
  | fuel + 1, src, dst, len =>
    if len = 0 then []
    else
      let n := min len (64 - src.toNat % 64)
      { src := src, dst := dst, len := n } :: rowChunks fuel (src + BitVec.ofNat 64 n) (dst + BitVec.ofNat 64 n) (len - n)

/-- R288. The consort of the issuing gang with a number, while it has not retired. -/
def State.gangMember (s : State) (q : Consort) (num : Nat) : Option Consort :=
  s.consorts.find? (fun r => r.launch == q.launch && r.gang == q.gang && r.num == num && r.place != .retired)

/-- R290, R293. The destinations of a copy whose destination side is a scratchpad. -/
def State.copyDests (s : State) (kind : CopyKind) (c : CopyCtl) (dword : DWord) (total : Nat) : List CopyDest :=
  let q := s.mine
  if !c.dstSp then []
  else if kind = .multi then
    (c.selected dword).map (fun n => match s.gangMember q n with
      | some r => { num := n - c.kbase, cid := r.id, failed := none, left := total }
      | none => { num := n - c.kbase, cid := 0, failed := some 1, left := 0 })
  else [{ num := 0, cid := q.id, failed := none, left := total }]

/-- R291. Every destination has a free tracked range, and stands on the core. -/
def State.tracksFree (s : State) (ds : List CopyDest) : Bool :=
  ds.all (fun d => d.failed.isSome || ((s.cons d.cid).onCore && (s.cons d.cid).tracks.length < 8))

/-- R286 to R291, R404. CPY, CPY2 and CPYM once the token is free. g is the address group, from register aReg on. -/
def State.copyIssue (s : State) (kind : CopyKind) (aReg cReg : BitVec 6) (g : List DWord) (tok : BitVec 3) : State :=
  let q := s.mine
  let ctl := s.getS cReg.toNat
  let c := CopyCtl.of ctl
  let dword := g.getD 1 0
  let dst := if kind = .multi then BitVec.ofNat 64 (dword.toNat % 2 ^ 32) else dword
  let rows := copyRows kind c.rows (g.getD 0 0) dst (g.getD 2 0) (g.getD 3 0)
  let total := rows.length * c.len
  if s.iss.c ≠ q.hdr.producer then s.fail .copyRights 0
  else match (s.badCopy kind ctl dword rows).reg aReg cReg with
  | some r => s.fail .badHandle r
  | none => if total = 0 then s.done
  else
    let ds := s.copyDests kind c dword total
    if !s.tracksFree ds || counterFull s.me.copies then s.stallFor .other
    else
      let (s1, id) := s.freshId
      let (lo, hi) := rowsRange c.len (rows.map (·.2))
      let s2 := forAll (ds.filter (·.failed.isNone)) s1 (fun s d =>
        s.modCons d.cid (fun r => { r with tracks := r.tracks ++ [{ op := id, lo := lo, hi := hi }] }))
      let cp : Copy :=
        { id := id, k := s.iss.k, c := s.iss.c, tok := tok, srcSp := c.srcSp, dstSp := c.dstSp, multi := kind == .multi
          arw := (if c.arw then some (16 * c.aux) else none), mbx := (if c.mbx then (s.work.mailboxes.find? (fun b => b.num == c.aux)).map (·.uid) else none)
          chunks := rows.flatMap (fun r => rowChunks (c.len / 64 + 2) r.1 r.2 c.len), dests := ds, region := s.me.region, epoch := s.epochOf s.iss.k s.iss.c
          ref := s.iss.own, waiting := false, error := none }
      (((s2.modCore (fun k => { k with copies := k.copies ++ [cp] })).startToken tok.toNat).modMe
        (fun x => { x with copies := x.copies + 1 })).done

/-- Registers n and the k − 1 above it. -/
def State.group (s : State) (n : BitVec 6) (k : Nat) : List DWord := (List.range k).map (fun i => s.getS (n.toNat + i))

/-- CPY. -/
def execCpy (a c : BitVec 6) (k : BitVec 3) (s : State) : Host.Outcome State Fault Refusal :=
  s.gate (.cpy a c k) (fun s => s.withToken k.toNat (fun s => s.copyIssue .one a c (s.group a 2) k))

/-- CPY2. -/
def execCpy2 (a c : BitVec 6) (k : BitVec 3) (s : State) : Host.Outcome State Fault Refusal :=
  s.gate (.cpy2 a c k) (fun s => s.withToken k.toNat (fun s => s.copyIssue .rows a c (s.group a 4) k))

/-- CPYM. -/
def execCpym (a c : BitVec 6) (k : BitVec 3) (s : State) : Host.Outcome State Fault Refusal :=
  s.gate (.cpym a c k) (fun s => s.withToken k.toNat (fun s => s.copyIssue .multi a c (s.group a 2) k))

/-! ### Arrival words (R300 to R303) -/

/-- R301. TARGET, COUNT and GEN after a change: generations complete while COUNT reaches a nonzero TARGET. -/
def settleArrival (target count gen : Nat) : Nat × Nat × Nat :=
  if target = 0 then (target, count, gen) else (target, count % target, (gen + count / target) % 2 ^ 32)

/-- R301. An arrival word at an offset changes, whole. -/
def Consort.arrival (q : Consort) (off : Nat) (f : Nat × Nat × Nat → Nat × Nat × Nat) : Consort :=
  let w := f (q.spNat off 4, q.spNat (off + 4) 4, q.spNat (off + 8) 4)
  let r := settleArrival w.1 (w.2.1 % 2 ^ 32) w.2.2
  q.spWrite off (leBytes 4 r.1 ++ leBytes 4 r.2.1 ++ leBytes 4 r.2.2)

/-- R301. Landed bytes are counted. -/
def Consort.count (q : Consort) (off n : Nat) : Consort := q.arrival off (fun w => (w.1, w.2.1 + n, w.2.2))

/-- R302. The offset of an arrival word. -/
def arwOff (o : BitVec 10) (px : Option (BitVec 25)) : Nat :=
  16 * (match px with
    | none => o.toNat
    | some _ => (imm32 10 o.toNat px).toNat)

/-- R302. An arrival-word member with its operand: beyond SCRATCH or in a tracked range the issue set is switched off. -/
def State.withArrival (s : State) (v : BitVec 7) (off : Nat) (f : State → Word → State) : State :=
  match s.readUniform v with
  | .error t => t
  | .ok (s1, x) => if s.mine.spOff off 16 then s1.switchOff s.iss.set else f s1 x

/-- R302. ARMW. -/
def execArmw (v : BitVec 7) (o : BitVec 10) (px : Option (BitVec 25)) (s : State) : Host.Outcome State Fault Refusal :=
  s.gate (.armw v o px) (fun s => s.withArrival v (arwOff o px) (fun s x =>
    (s.modMine (·.arrival (arwOff o px) (fun w => (x.toNat, w.2.1, w.2.2)))).done))

/-- R303. The bytes that course (k, c) has stored to the scratchpad are counted at an arrival word. -/
def Consort.counted (q : Consort) (k c off : Nat) : Consort :=
  { q with sstale := q.sstale.map (fun b => if b.k = k ∧ b.c = c ∧ b.cls = 0 then { b with arw := off :: b.arw } else b) }

/-- R302, R303. ARADD: a scratchpad store performs when it issues, so the course's earlier ones have performed. -/
def execAradd (v : BitVec 7) (o : BitVec 10) (px : Option (BitVec 25)) (s : State) : Host.Outcome State Fault Refusal :=
  s.gate (.aradd v o px) (fun s => s.withArrival v (arwOff o px) (fun s x =>
    (s.modMine (fun q => (q.counted s.iss.k s.iss.c (arwOff o px)).count (arwOff o px) x.toNat)).done))

/-- R303. An ARWAIT completes for lanes `set` of course (k, c): they receive the generation and move on, and what the word
counted is seen from now on. -/
def State.arwaitDone (s : State) (k c : Nat) (set : BitVec 32) (off : Nat) (v : BitVec 7) (len : Nat) : State :=
  let gen : Word := BitVec.ofNat 32 ((s.cons k).spNat (off + 8) 4)
  let s1 := s.modCons k (fun q => { q with sstale := q.sstale.filter (fun b => !b.arw.contains off) })
  (s1.modCrs k c (fun x =>
    let y := (x.putV v.toNat 5 set (fun _ => gen)).setLpc set (fun l => refAdd (x.lpcAt l) len)
    { y with hold := .none, stall := none, age := s.clock })).nextRegion k c

/-- R302, R303. ARWAIT: at once where the generation differs, else the course waits at it. -/
def execArwait (v : BitVec 7) (o : BitVec 10) (px : Option (BitVec 25)) (s : State) : Host.Outcome State Fault Refusal :=
  s.gate (.arwait v o px) (fun s =>
    let off := arwOff o px
    match s.readSrcs [v] (some v) 1 with
    | .error t => t
    | .ok _ => s.withArrival v off (fun s x =>
      if !s.loadsDone s.iss.k s.iss.c then s.stallFor .other
      else if s.mine.spNat (off + 8) 4 ≠ x.toNat then s.arwaitDone s.iss.k s.iss.c s.iss.set off v s.iss.len
      else s.modMe (fun c => { c with hold := .arwait off x v s.iss, stall := none })))

/-- R303. ARWAIT_WAKE: the generation has changed. -/
def execArwaitWake (k c : Nat) (s : State) : Host.Outcome State Fault Refusal :=
  match (s.crs k c).hold with
  | .arwait off g v iss =>
    if (s.cons k).place = .resident ∧ (s.cons k).spNat (off + 8) 4 ≠ g.toNat then
      .next (s.arwaitDone k c iss.set off v iss.len)
    else notNow
  | _ => notNow

/-! ### Chunks and completion (R290 to R293) -/

def State.modCopy (s : State) (id : Nat) (f : Copy → Copy) : State :=
  s.modCore (fun c => { c with copies := modFirst (·.id == id) f c.copies })

/-- R291. The tracked ranges of an operation at a consort are released. -/
def Consort.untrack (q : Consort) (op : Nat) : Consort := { q with tracks := q.tracks.filter (fun t => t.op != op) }

/-- R293. Does a write of n bytes at a meet an uncorrectable error: a poisoned word that it does not cover whole (log entry 59)? -/
def Consort.spMeets (q : Consort) (a n : Nat) : Bool := q.spoison.any (fun w => a < w + 4 && w < a + n && !(a ≤ w && w + 4 ≤ a + n))

/-- R290, R291, R293, R301. One chunk lands at one destination, or the destination has failed. -/
def State.landChunk (s : State) (cp : Copy) (ch : Chunk) (bs : List Byte) (d : CopyDest) : State × CopyDest :=
  if d.failed.isSome then (s, d)
  else if (s.cons d.cid).place = .retired ∨ !s.consorts.any (·.id == d.cid) then (s, { d with failed := some 1 })
  else if cp.multi && (s.cons d.cid).spMeets ch.dst.toNat bs.length then
    (s.modCons d.cid (·.untrack cp.id), { d with failed := some 2 })
  else
    let d' : CopyDest := { d with left := d.left - ch.len }
    let s1 := s.modCons d.cid (fun q => q.spStore 1 cp.k cp.c cp.id cp.arw ch.dst.toNat bs)
    let s2 := if d'.left = 0 then s1.modCons d.cid (·.untrack cp.id) else s1
    (match cp.arw with
      | some off => s2.modCons d.cid (·.count off ch.len)
      | none => s2, d')

/-- The chunk lands at every destination, in order. -/
def State.landAll (s : State) (cp : Copy) (ch : Chunk) (bs : List Byte) : List CopyDest → State × List CopyDest
  | [] => (s, [])
  | d :: ds =>
    let (s1, d') := s.landChunk cp ch bs d
    let (s2, ds') := s1.landAll cp ch bs ds
    (s2, d' :: ds')

/-- R297. The first poisoned byte of n scratchpad bytes from off up. -/
def Consort.firstPoison (q : Consort) (off n : Nat) : DWord :=
  BitVec.ofNat 64 (off + ((List.range n).find? (fun i => q.spPoisoned (off + i) 1)).getD 0)

/-- R290, R292. The source bytes of a chunk, read once. -/
def State.chunkSource (s : State) (cp : Copy) (ch : Chunk) : Except EngineAccess (List Byte) :=
  if cp.srcSp then
    let q := s.cons cp.k
    if q.spPoisoned ch.src.toNat ch.len then .error (.fault .poison (q.firstPoison ch.src.toNat ch.len))
    else .ok (q.spSee s.tick 1 ch.src.toNat ch.len)
  else match s.engineAccess cp.k cp.c ch.src false ch.len with
    | .ok pas => .ok (pas.map (fun a => s.viewByte 1 cp.k cp.c a))
    | x => .error x

/-- R292. A copy's access meets a fault: it waits, or it stops with a cause. -/
def State.copyFault (s : State) (cp : Copy) (wr : Bool) (x : EngineAccess) : State :=
  match x with
  | .ok _ => s
  | .absent va => (s.modCopy cp.id (fun c => { c with waiting := true })).engineAbsent cp.k cp.c wr 2 cp.ref va
  | .fault cause va =>
    (s.modCopy cp.id (fun c => { c with error := some (cause, wr, va.setWidth 56) })).engineFault cp.k cp.c 2 cause cp.ref va

/-- R377, R384. Must a chunk of a copy wait for what its course issued before? -/
def State.chunkWaits (s : State) (cp : Copy) (ch : Chunk) : Bool :=
  (!cp.srcSp && s.engineWaits cp.k cp.c cp.id cp.epoch ch.src ch.len false) ||
    (!cp.dstSp && s.engineWaits cp.k cp.c cp.id cp.epoch ch.dst ch.len true)

/-- R290. COPY_CHUNK: chunk n of what is left of copy id lands, or faults. -/
def execCopyChunk (id n : Nat) (s : State) : Host.Outcome State Fault Refusal :=
  match s.core.copies.find? (fun c => c.id == id && !c.waiting && c.error.isNone) with
  | none => notNow
  | some cp =>
    match cp.chunks[n]? with
    | none => notNow
    | some ch =>
      if s.chunkWaits cp ch then notNow
      else match s.chunkSource cp ch with
      | .error x => .next (s.copyFault cp false x)
      | .ok bs =>
        let rest (c : Copy) : Copy := { c with chunks := c.chunks.eraseIdx n }
        if cp.dstSp then
          let (s1, ds) := s.landAll cp ch bs cp.dests
          .next (s1.modCopy id (fun c => { rest c with dests := ds }))
        else match s.engineAccess cp.k cp.c ch.dst true ch.len with
          | .ok pas => .next ((s.engineWrite 1 cp.k cp.c id cp.region ch.dst pas bs).modCopy id rest)
          | x => .next (s.copyFault cp true x)

/-- R293, R297. How a copy's token completes. -/
def Copy.ending (cp : Copy) : TokEnd :=
  match cp.error with
  | some (cause, dst, addr) => .error cause dst addr
  | none =>
    match cp.dests.find? (·.failed.isSome) with
    | none => .free
    | some d =>
      let mask := (cp.dests.filter (·.failed.isSome)).foldl (fun m d => m ||| (1#16 <<< d.num)) 0#16
      .partialMulti mask (d.failed.getD 0)

/-- R132. The handler of a copy's arrival observes the copied data: no copy of what it replaced is left. -/
def State.copySeen (s : State) (id : Nat) : State := s.modMs (fun m => { m with stale := m.stale.filter (fun b => b.op != id) })

/-- R290, R291, R312. COPY_COMPLETE: every chunk has landed or failed. -/
def execCopyComplete (id : Nat) (s : State) : Host.Outcome State Fault Refusal :=
  match s.core.copies.find? (fun c => c.id == id && (c.chunks.isEmpty || c.error.isSome)) with
  | none => notNow
  | some cp =>
    let s1 : State := { s with consorts := s.consorts.map (fun q => q.untrack id) }
    let s2 := s1.modCore (fun c => { c with copies := c.copies.filter (fun c => c.id != id) })
    let s3 := match cp.mbx with
      | some u => match s.work.mailboxes.find? (fun b : Mailbox => b.uid == u) with
        | some b => if cp.ending = TokEnd.free then (s2.copySeen id).modWork (fun w => { w with arrivals := w.arrivals ++ [b.num] }) else s2
        | none => s2
      | none => s2
    .next ((s3.endToken cp.k cp.c cp.tok.toNat cp.ending).modCrs cp.k cp.c (fun x => { x with copies := x.copies - 1 }))

end Sys2Proof.Machine
end

