-- ==== Sys2Proof/Machine/MatrixStep.lean ====
section
/-!
DEFINITION. Tile copies, operand pairs and one exact matrix step (spec/11_matrix.md R313, R317, R321, R327;
spec/03_numbers.md R94, R101 to R104), and the accumulator readouts (R105, R332).
-/

namespace Sys2Proof.Machine

/-! ### Tile registers (R313, R317) -/

/-- R317. The tag of a TFET format. -/
def fmtTag (f : Nat) : BitVec 4 := [2, 3, 7, 8, 9, 10].getD f 0

/-- R94. Is a tag a codebook format? -/
def isCodebook (t : BitVec 4) : Bool := t == 9 || t == 10

/-- R317. Bytes per row. -/
def rowBytes (narrow : Bool) : Nat := if narrow then 16 else 64

/-- R317. Elements per row. -/
def rowCapacity (tag : BitVec 4) (narrow : Bool) : Nat :=
  let full := if tag = 2 || tag = 3 then 32 else if tag = 7 then 64 else 128
  if narrow then full / 4 else full

def Consort.tile (q : Consort) (t : Nat) : Tile := vget q.tiles Tile.blank t

def Tile.copy (t : Tile) (c : Bool) : TileCopy := if c then t.c1 else t.c0

def Tile.setCopy (t : Tile) (c : Bool) (x : TileCopy) : Tile := if c then { t with c1 := x } else { t with c0 := x }

/-- R313. The latest copy. -/
def Tile.now (t : Tile) : TileCopy := t.copy t.latest

def Consort.modTile (q : Consort) (t : Nat) (f : Tile → Tile) : Consort := { q with tiles := vset q.tiles t (f (q.tile t)) }

def Consort.modTileCopy (q : Consort) (t : Nat) (c : Bool) (f : TileCopy → TileCopy) : Consort :=
  q.modTile t (fun x => x.setCopy c (f (x.copy c)))

def Consort.slot (q : Consort) (n : Nat) : Slot := vget q.slots Slot.blank n

def Consort.modSlot (q : Consort) (n : Nat) (f : Slot → Slot) : Consort := { q with slots := vset q.slots n (f (q.slot n)) }

/-! ### Elements (R95, R98, R317) -/

/-- Byte i of row r of a copy. -/
def TileCopy.byte (c : TileCopy) (r i : Nat) : Nat := ((c.data.getD r []).getD i 0).toNat

/-- R317. The 4-bit code of element k. -/
def TileCopy.code (c : TileCopy) (r k : Nat) : Nat := c.byte r (k / 2) / 2 ^ (4 * (k % 2)) % 16

/-- R95, R98, R317. The value of element k of row r, without its block factor; qp gives the values of QP codes. -/
def TileCopy.num (c : TileCopy) (qp : Nat → Num) (neg : Bool) (r k : Nat) : Num :=
  let x := if c.tag = 2 ∨ c.tag = 3 then (fmtOf c.tag).val (c.byte r (2 * k) + 256 * c.byte r (2 * k + 1))
    else if c.tag = 9 then q16nVal (c.code r k)
    else qp (c.code r k)
  if neg then x.neg else x

/-- R317, R327. The integer of element k of row r. -/
def TileCopy.int (c : TileCopy) (neg : Bool) (r k : Nat) : Int :=
  let x := if c.tag = 7 then sextInt 8 (c.byte r k) else sextInt 4 (c.code r k)
  if neg then -x else x

/-- R96, R102. The block factor of group g of row r; 1 where the format has none. -/
def TileCopy.factor (c : TileCopy) (r g : Nat) : Num :=
  if isCodebook c.tag then
    match (c.factors.getD r []).find? (fun x : Nat × Word => x.1 == (c.k0 + 16 * g) / 64) with
    | some x => F32.val x.2.toNat
    | none => .num false 0 0
  else .num false 1 0

/-! ### Operand pairs (R321) -/

/-- R321. K per step, whether the class is float, and whether the pair uses F16X2; none is FORMAT. -/
structure Pair where
  k : Nat
  float : Bool
  f16 : Bool
  deriving DecidableEq, Repr

def pairOf (ta : BitVec 4) (na : Bool) (tb : BitVec 4) (nb : Bool) : Option Pair :=
  if ta = 2 ∧ tb = 2 then some { k := 32, float := true, f16 := false }
  else if ta = 3 ∧ tb = 3 then some { k := 32, float := true, f16 := true }
  else if isCodebook ta ∧ na ∧ tb = 2 then some { k := 32, float := true, f16 := false }
  else if ta = 2 ∧ isCodebook tb ∧ nb then some { k := 32, float := true, f16 := false }
  else if isCodebook ta ∧ isCodebook tb ∧ !na ∧ !nb then some { k := 128, float := true, f16 := false }
  else if ta = 7 ∧ tb = 7 then some { k := 64, float := false, f16 := false }
  else if ta = 8 ∧ tb = 8 then some { k := 128, float := false, f16 := false }
  else none

/-! ### One step (R102, R103) -/

/-- A nonzero finite value's mantissa on the grid 2^low, cut toward zero. -/
def onGrid (low : Int) : Num → Int
  | .num neg m e =>
    let sh := e - low
    let x : Nat := if 0 ≤ sh then m * 2 ^ sh.toNat else m / 2 ^ (-sh).toNat
    if neg then -(x : Int) else (x : Int)
  | _ => 0

/-- ⌊log2⌋ of a nonzero finite value. -/
def Num.top : Num → Option Int
  | .num _ m e => if m = 0 then none else some ((Nat.log2 m : Int) + e)
  | _ => none

def Num.isNeg : Num → Bool
  | .nan => false
  | .inf neg => neg
  | .num neg _ _ => neg

/-- R102. G: the sum of a group's products. -/
def groupSum (ps : List Num) : Num :=
  if ps.contains .nan || (ps.contains (.inf true) && ps.contains (.inf false)) then .nan
  else if ps.contains (.inf false) then .inf false
  else if ps.contains (.inf true) then .inf true
  else match (ps.filterMap Num.top).foldl (fun m x => some (match m with
      | none => x
      | some y => max x y)) none with
    | none => .num (ps.all Num.isNeg) 0 0
    | some e => Num.ofInt ((ps.map (onGrid (e - 48))).foldl (· + ·) 0) (e - 48) false

/-- R102. acc = RNE_AX40(acc + G × F). -/
def accumulate (acc : BitVec 40) (g f : Num) : BitVec 40 :=
  BitVec.ofNat 40 (AX40.round 0 ((AX40.val acc.toNat).add 0 (g.mul f)))

/-- R90, R102. acc + G modulo 2^40, or clamped. -/
def accumulateInt (sat : Bool) (acc : BitVec 40) (g : Int) : BitVec 40 :=
  let x := acc.toInt + g
  BitVec.ofInt 40 (if sat then clampInt 40 x else x)

/-- What a step reads beside its tiles. -/
structure StepMode where
  pair : Pair
  kview : Bool
  sat : Bool
  nega : Bool
  negb : Bool

/-- R102, R103. Output (i, j) of a step: live is the number of live elements along K. -/
def stepEntry (m : StepMode) (qp : Nat → Num) (a b : TileCopy) (live i j : Nat) (acc : BitVec 40) : BitVec 40 :=
  (List.range ((live + 15) / 16)).foldl (fun acc g =>
    let ks := (List.range 16).map (16 * g + ·)
    if m.pair.float then
      accumulate acc
        (groupSum (ks.map (fun k => if k < live then (a.num qp m.nega i k).mul (b.num qp m.negb j k) else .num false 0 0)))
        ((a.factor i g).mul (b.factor j g))
    else
      accumulateInt m.sat acc
        ((ks.map (fun k => if k < live then a.int m.nega i k * b.int m.negb j k else 0)).foldl (· + ·) 0)) acc

/-- R327. One step into a slot's entries; masked rows and columns leave theirs untouched. -/
def stepSlot (m : StepMode) (qp : Nat → Num) (a b : TileCopy) (x : Slot) : Slot :=
  let live := if m.kview then min m.pair.k (min a.klen b.klen) else m.pair.k
  { x with entries := vof 256 (fun n =>
      let i := n / 16
      let j := n % 16
      let acc := vget x.entries 0 n
      if a.rows ≤ i ∨ b.rows ≤ j then acc else stepEntry m qp a b live i j acc) }

/-! ### Readout and direct writes (R105, R332) -/

/-- Entry (i, j) of a slot. -/
def Slot.entry (x : Slot) (i j : Nat) : BitVec 40 := vget x.entries 0 (16 * i + j)

/-- R105. An entry as an F32, a BF16 element or an I32. -/
def readF32 (e : BitVec 40) : Nat := F32.round 0 (AX40.val e.toNat)
def readBf16 (e : BitVec 40) : Nat := BF16.round 0 (AX40.val e.toNat)
def readI32 (e : BitVec 40) : Word := BitVec.ofInt 32 (clampInt 32 e.toInt)

/-- R332. The word of a readout in format fmt at (i, j) within the slot; a BF16X2 word takes (i2, j2) above it. -/
def Slot.readout (x : Slot) (fmt : BitVec 2) (i j i2 j2 : Nat) : Word :=
  if fmt = 0 then BitVec.ofNat 32 (readF32 (x.entry i j))
  else if fmt = 1 then BitVec.ofNat 32 (readBf16 (x.entry i j) + 2 ^ 16 * readBf16 (x.entry i2 j2))
  else readI32 (x.entry i j)

/-- R332. The tag of a readout. -/
def readoutTag (fmt : BitVec 2) : BitVec 4 := if fmt = 0 then 1 else if fmt = 1 then 2 else 4

/-- R332. The entry an ACCWR writes: an F32 exactly, an I32 sign-extended. -/
def directEntry (tag : BitVec 4) (x : Word) : BitVec 40 :=
  if tag = 1 then BitVec.ofNat 40 (AX40.round 0 (F32.val x.toNat)) else BitVec.ofInt 40 x.toInt

end Sys2Proof.Machine
end

