-- ==== Sys2Proof/Machine/Matrix.lean ====
section
/-!
DEFINITION. Tile fetch, the matrix queue, and its members: TFET, MMA, MLOOP, ACCZ, ACCRD, ACCWR, ACCDR, ACCVER, ACCWV, and
the events that fill tiles, take, perform and remove entries and deliver matrix errors (spec/11_matrix.md R314 to R339;
spec/17_programs_matrix_and_banks.md R446).
-/

namespace Sys2Proof.Machine

/-! ### Bindings and ownership (R314, R330) -/

/-- R314, R330. Is an entry bound to copy c of tile register t? An MMA admitted after a loop that ran over its copy stays bound to that
copy, and so reads what the loop left there (the model's choice, log entry 68). -/
def MqEntry.binds (e : MqEntry) (t : Nat) (c : Bool) : Bool :=
  match e.op with
  | .mma ta ca tb cb _ _ _ _ _ => (ta == t && ca == c) || (tb == t && cb == c)
  | _ => false

/-- The tile registers an entry names; those of an MLOOP are the ones it owns once admitted (R330). -/
def MqEntry.tilesNamed (e : MqEntry) : List Nat :=
  match e.op with
  | .mma ta _ tb _ _ _ _ _ _ => [ta, tb]
  | .mloop reuse _ _ _ _ => List.range (if reuse then 4 else 2)
  | _ => []

def MqEntry.isLoop (e : MqEntry) : Bool :=
  match e.op with
  | .mloop _ _ _ _ _ => true
  | _ => false

/-- R330. Does a running MLOOP of consort k own tile register t? -/
def State.owned (s : State) (k t : Nat) : Bool :=
  s.core.mq.any (fun e => e.admitted && e.isLoop && e.k == k && e.tilesNamed.contains t)

/-- R314. Is a copy bound to an operation that has not finished reading it? -/
def State.boundCopy (s : State) (k t : Nat) (c : Bool) : Bool := s.core.mq.any (fun e => e.k == k && e.binds t c)

/-! ### Matrix errors (R335, R336) -/

/-- R336. An error is kept in issue order of the failing operations. -/
def Course.addError (c : Course) (e : MatrixError) : Course :=
  { c with merrs := c.merrs.filter (fun x => x.seq < e.seq) ++ [e] ++ c.merrs.filter (fun x => !(x.seq < e.seq)) }

/-- R336. The error of a queue entry. That of an ASEND has the layout of an ACC member, with its first slot (the model's choice, log
entry 68). -/
def MqEntry.error (e : MqEntry) (cause : Cause) : MatrixError :=
  { cause := cause, slot := BitVec.ofNat 6 (e.slots.headD 0), expv := e.expv, tile := 0, ref := e.ref, seq := e.id
    opk := match e.op with
      | .mma _ _ _ _ _ _ _ _ _ => 1
      | .mloop _ _ _ _ _ => 2
      | _ => 3 }

/-- R210. A tile operation of a course ends. -/
def State.tileOpEnds (s : State) (k c : Nat) : State := s.modCrs k c (fun x => { x with tiles := x.tiles - 1 })

/-- An entry leaves the matrix queue. -/
def State.mqLeave (s : State) (e : MqEntry) : State :=
  (s.modCore (fun c => { c with mq := c.mq.filter (·.id != e.id) })).tileOpEnds e.k e.c

/-- R335. An entry fails: it leaves the queue, and its course has the error. -/
def State.mqFail (s : State) (e : MqEntry) (cause : Cause) : State :=
  (s.mqLeave e).modCrs e.k e.c (·.addError (e.error cause))

def State.modMq (s : State) (id : Nat) (f : MqEntry → MqEntry) : State :=
  s.modCore (fun c => { c with mq := modFirst (·.id == id) f c.mq })

/-! ### Tile views and fetches (R315, R316, R319) -/

/-- R315. A tile view. -/
structure TileView where
  base : DWord
  stride : Nat
  rows : Nat
  klen : Nat
  k0 : Nat
  scales : DWord
  tag : BitVec 4
  narrow : Bool

/-- R319. n bytes that the tile fetch unit reads for course (k, c). -/
def State.tileRead (s : State) (k c : Nat) (va : DWord) (n : Nat) : Except EngineAccess (List Byte) :=
  match s.engineAccess k c va false n with
  | .ok pas =>
    if pas.any isHost then .error (.fault .xlateDenied va) else .ok (pas.map (fun a => s.viewByte 2 k c a))
  | x => .error x

/-- R319. The bytes of row r. -/
def State.tileRow (s : State) (k c : Nat) (base : DWord) (stride n r : Nat) : Except EngineAccess (List Byte) :=
  s.tileRead k c (base + BitVec.ofNat 64 (r * stride)) n

/-- R96, R316, R319. The block factors of row r, for every block its elements touch. -/
def State.tileFactors (s : State) (k c : Nat) (scales : DWord) (k0 cap r : Nat) : Except EngineAccess (List (Nat × Word)) := do
  let d ← s.tileRead k c scales 64
  let w (i n : Nat) : Nat := leNat ((d.drop i).take n)
  (List.range ((k0 + cap - 1) / 64 + 1 - k0 / 64)).mapM (fun i => do
    let b := k0 / 64 + i
    let code ← s.tileRead k c (BitVec.ofNat 64 (w 0 8 + r * w 8 4 + b)) 1
    let scale ← s.tileRead k c (BitVec.ofNat 64 (w 16 8 + r * w 24 4 + 4 * (b / 256))) 4
    pure (b, blockFactor (BitVec.ofNat 32 (leNat scale)) (leNat code)))

/-- R319. A whole tile: its rows, and its rows' block factors. -/
def State.tileLoad (s : State) (k c : Nat) (v : TileView) : Except EngineAccess TileCopy := do
  let data ← (List.range v.rows).mapM (s.tileRow k c v.base v.stride (rowBytes v.narrow))
  let factors ← (List.range (if isCodebook v.tag then v.rows else 0)).mapM
    (s.tileFactors k c v.scales v.k0 (rowCapacity v.tag v.narrow))
  pure { st := .full, tag := v.tag, rows := v.rows, klen := v.klen, k0 := v.k0, narrow := v.narrow, data := data
         factors := factors, pins := 0 }

/-! ### TFET (R314 to R320) -/

/-- R319. The register of a view that fails its check. -/
def viewFault (n fmt : Nat) (narrow : Bool) (w0 w1 w2 : Nat) : Option Nat :=
  let tag := fmtTag fmt
  let cb := isCodebook tag
  let rb := rowBytes narrow
  if field w0 63 56 ≠ 0 ∨ field w0 55 0 % rb ≠ 0 then some n
  else if field w1 31 29 ≠ 0 ∨ 16 < field w1 28 24 ∨ rowCapacity tag narrow < field w1 39 32 ∨ field w1 23 0 % rb ≠ 0 ∨
      (!cb ∧ field w1 63 40 ≠ 0) then some (n + 1)
  else if (cb ∧ (w2 = 0 ∨ w2 % 64 ≠ 0)) ∨ (!cb ∧ w2 ≠ 0) then some (n + 2)
  else none

/-- R314, R319. TFET, once its operands are within the counts. A fetch still filling the copy ends. -/
def State.tfet (s : State) (t n fmt : Nat) (narrow : Bool) : State :=
  let k := s.iss.k
  let w (i : Nat) : Nat := (s.getS (n + i)).toNat
  let q := s.mine
  let target := !(q.tile t).latest
  match viewFault n fmt narrow (w 0) (w 1) (w 2) with
  | some r => s.fail .badHandle r
  | none =>
    if fmt = 5 ∧ !q.hdr.ctabbed then s.fail .badHandle 0
    else if s.owned k t || s.boundCopy k t target || counterFull s.me.tiles then s.stallFor .other
    else
      let old := s.core.tfills.filter (fun f => f.k == k && f.t == t && f.copy == target)
      let s0 := forAll old s (fun s f =>
        (s.modCore (fun c => { c with tfills := c.tfills.filter (·.id != f.id) })).tileOpEnds f.k f.c)
      let (s1, id) := s0.freshId
      let cp : TileCopy :=
        { st := .filling, tag := fmtTag fmt, rows := field (w 1) 28 24, klen := field (w 1) 39 32
          k0 := 16 * field (w 1) 63 40, narrow := narrow, data := [], factors := [], pins := 0 }
      let fill : TileFill :=
        { id := id, k := k, c := s.iss.c, t := t, copy := target, base := BitVec.ofNat 64 (field (w 0) 55 0)
          stride := field (w 1) 23 0, rowBytes := rowBytes narrow, scales := BitVec.ofNat 64 (w 2), region := s.me.region
          waiting := false, since := s.clock, unpinned := false, ref := s.iss.own, seq := id }
      (((s1.modCore (fun c => { c with tfills := c.tfills ++ [fill] })).modMine (fun q =>
        q.modTile t (fun x => { (x.setCopy target cp) with latest := target }))).modMe
          (fun x => { x with tiles := x.tiles + 1 })).done

/-- TFET. -/
def execTfet (t : BitVec 3) (r : BitVec 6) (f : BitVec 3) (n : BitVec 1) (s : State) : Host.Outcome State Fault Refusal :=
  s.gate (.tfet t r f n) (fun s => s.tfet t.toNat r.toNat f.toNat (n == 1))

/-- R320. Free pins of the core. -/
def State.freePins (s : State) : Nat :=
  64 - ((s.consorts.filter (·.onCore)).flatMap (fun q => q.tiles.toList.map (fun t => t.c0.pins + t.c1.pins))).foldl (· + ·) 0

def State.fillCopy (s : State) (f : TileFill) : TileCopy := ((s.cons f.k).tile f.t).copy f.copy

/-- R320. Does the next row of a fill lie on a line of its own, which a pin must hold? -/
def TileFill.newLine (f : TileFill) (r : Nat) : Bool :=
  let line (i : Nat) : Nat := (f.base.toNat + i * f.stride) / 64
  !(List.range r).any (fun i => line i == line r)

/-- R320. A fill that cannot go on for want of a pin. -/
def State.pinless (s : State) (f : TileFill) : Bool :=
  let cp := s.fillCopy f
  cp.data.length < cp.rows && f.newLine cp.data.length && s.freePins == 0 && !f.unpinned

def State.modFill (s : State) (id : Nat) (g : TileFill → TileFill) : State :=
  s.modCore (fun c => { c with tfills := modFirst (·.id == id) g c.tfills })

/-- The fill ends. -/
def State.fillLeave (s : State) (f : TileFill) (g : TileCopy → TileCopy) : State :=
  ((s.modCore (fun c => { c with tfills := c.tfills.filter (·.id != f.id) })).modCons f.k
    (·.modTileCopy f.t f.copy g)).tileOpEnds f.k f.c

/-- R335. A copy without data. -/
def TileCopy.drop (c : TileCopy) : TileCopy := { c with st := .empty, data := [], factors := [], pins := 0 }

/-- R335. A fetch of a TFET has met a fault: it waits, or the copy becomes EMPTY and what is bound to it fails. -/
def State.fillFault (s : State) (f : TileFill) (x : EngineAccess) : State :=
  match x with
  | .ok _ => s
  | .absent va => (s.modFill f.id (fun f => { f with waiting := true })).engineAbsent f.k f.c false 4 f.ref va
  | .fault cause _ =>
    let s1 := (s.fillLeave f TileCopy.drop).modCore (fun c =>
      { c with mq := c.mq.map (fun e => if e.k = f.k ∧ e.binds f.t f.copy then { e with failed := some cause } else e) })
    s1.modCrs f.k f.c (·.addError
      { cause := cause, opk := 0, slot := 0, expv := 0, tile := BitVec.ofNat 3 f.t, ref := f.ref, seq := f.seq })

/-- R319, R320, R335. TFET_FILL_COMPLETE: the fill reads its next row, or its next row's block factors; with the last it is
FULL, and with a fault EMPTY. -/
def execTfetFillComplete (id : Nat) (s : State) : Host.Outcome State Fault Refusal :=
  match s.core.tfills.find? (fun f => f.id == id && !f.waiting) with
  | none => notNow
  | some f =>
    let cp := s.fillCopy f
    let r := cp.data.length
    let b := cp.factors.length
    if s.pinless f then notNow
    else if r < cp.rows && s.engineWaits f.k f.c f.id 0 (f.base + BitVec.ofNat 64 (r * f.stride)) f.rowBytes false then notNow
    else if r < cp.rows then
      match s.tileRow f.k f.c f.base f.stride f.rowBytes r with
      | .error x => .next (s.fillFault f x)
      | .ok bs =>
        let pin := if f.newLine r && !f.unpinned && 0 < s.freePins then 1 else 0
        .next ((s.modCons f.k (·.modTileCopy f.t f.copy (fun c => { c with data := c.data ++ [bs], pins := c.pins + pin }))).modFill
          id (fun f => { f with since := s.clock }))
    else if isCodebook cp.tag ∧ b < cp.rows then
      match s.tileFactors f.k f.c f.scales cp.k0 (rowCapacity cp.tag cp.narrow) b with
      | .error x => .next (s.fillFault f x)
      | .ok ds => .next (s.modCons f.k (·.modTileCopy f.t f.copy (fun c => { c with factors := c.factors ++ [ds] })))
    else .next (s.fillLeave f (fun c => { c with st := .full }))

/-- R320. TILE_PIN_TIMEOUT: after 256 clocks of waiting the rest of the lines are read unpinned. -/
def execTilePinTimeout (id : Nat) (s : State) : Host.Outcome State Fault Refusal :=
  match s.core.tfills.find? (fun f => f.id == id && !f.waiting && s.pinless f && f.since + 256 ≤ s.clock) with
  | none => notNow
  | some _ => .next (s.modFill id (fun f => { f with unpinned := true }))

/-! ### Entering the queue (R210, R324) -/

/-- R324. The entries that stand in the core's queue: those of consorts on the core. -/
def State.mqLevel (s : State) : Nat := (s.core.mq.filter (fun e => (s.cons e.k).onCore)).length

/-- R210, R324. An operation enters the matrix queue, or its course stalls. -/
def State.enqueue (s : State) (op : MqOp) (slots : List Nat) (expv : BitVec 4) : State :=
  if 32 ≤ s.mqLevel || counterFull s.me.tiles then s.stallFor .other
  else
    let (s1, id) := s.freshId
    let e : MqEntry :=
      { id := id, k := s.iss.k, c := s.iss.c, op := op, slots := slots, expv := expv, ref := s.iss.own, since := s.clock
        admitted := false, skip := [], failed := none, waiting := false, inStep := false, region := s.me.region }
    ((s1.modCore (fun c => { c with mq := c.mq ++ [e] })).modMe (fun x => { x with tiles := x.tiles + 1 })).done

/-! ### MMA (R326, R327) -/

/-- R2, R34, R80. A matrix step with an F16X2 operand needs FP16 arithmetic. -/
def State.stepLacksFp16 (s : State) (a b : BitVec 4) : Bool := (a == 3 || b == 3) && !s.hub.fp16

/-- R2, R80, R327. MMA, once its operands are within the counts. A pair that R321 does not list names register ta (the model's choice,
log entry 68). -/
def State.mma (s : State) (ta tb slot : Nat) (expv : BitVec 4) (nega negb sat kview : Bool) : State :=
  let q := s.mine
  let a := (q.tile ta).now
  let b := (q.tile tb).now
  if q.hdr.accslots ≤ slot then s.fail .badHandle 0
  else if s.stepLacksFp16 a.tag b.tag then s.noProfile
  else if a.st = .empty then s.fail .format ta
  else if b.st = .empty then s.fail .format tb
  else match pairOf a.tag a.narrow b.tag b.narrow with
    | none => s.fail .format ta
    | some _ =>
      if (a.tag = 10 ∨ b.tag = 10) ∧ !q.hdr.ctabbed then s.fail .badHandle 0
      else s.enqueue (.mma ta (q.tile ta).latest tb (q.tile tb).latest nega negb sat kview s.core.ctgen) [slot] expv

/-- MMA. -/
def execMma (a b : BitVec 3) (l : BitVec 6) (e : BitVec 4) (m n t k : BitVec 1) (s : State) :
    Host.Outcome State Fault Refusal :=
  s.gate (.mma a b l e m n t k) (fun s => s.mma a.toNat b.toNat l.toNat e (m == 1) (n == 1) (t == 1) (k == 1))

/-! ### MLOOP (R328 to R330) -/

/-- R328. One operand's part of a loop descriptor. -/
structure LoopSide where
  base : Nat
  stride : Nat
  fmt : Nat
  narrow : Bool
  rows : Nat
  scales : Nat

/-- R328. A loop descriptor. -/
structure LoopDesc where
  a : LoopSide
  b : LoopSide
  k0 : Nat
  ktot : Nat

def LoopDesc.of (d : List DWord) : LoopDesc :=
  let w (i : Nat) : Nat := (d.getD i 0).toNat
  { a := { base := field (w 0) 55 0, stride := field (w 2) 23 0, fmt := field (w 2) 50 48, narrow := field (w 2) 54 54 == 1
           rows := field (w 3) 5 0, scales := w 4 }
    b := { base := field (w 1) 55 0, stride := field (w 2) 47 24, fmt := field (w 2) 53 51, narrow := field (w 2) 55 55 == 1
           rows := field (w 3) 13 8, scales := w 5 }
    k0 := 16 * field (w 3) 39 16, ktot := field (w 3) 63 40 }

/-- R328, R329. The register of a descriptor (an index from its first) that fails its check. -/
def loopFault (reuse : Bool) (d : List DWord) : Option Nat :=
  let w (i : Nat) : Nat := (d.getD i 0).toNat
  let x := LoopDesc.of d
  let cb (y : LoopSide) : Bool := isCodebook (fmtTag y.fmt)
  let most := if reuse then 32 else 16
  let scaleBad (y : LoopSide) : Bool := if cb y then y.scales = 0 || y.scales % 64 ≠ 0 else y.scales ≠ 0
  if field (w 0) 63 56 ≠ 0 ∨ x.a.base % rowBytes x.a.narrow ≠ 0 then some 0
  else if field (w 1) 63 56 ≠ 0 ∨ x.b.base % rowBytes x.b.narrow ≠ 0 then some 1
  else if field (w 2) 63 56 ≠ 0 ∨ 6 ≤ x.a.fmt ∨ 6 ≤ x.b.fmt ∨ (x.a.narrow ∧ !cb x.a) ∨ (x.b.narrow ∧ !cb x.b) ∨
      x.a.stride % rowBytes x.a.narrow ≠ 0 ∨ x.b.stride % rowBytes x.b.narrow ≠ 0 then some 2
  else if field (w 3) 7 6 ≠ 0 ∨ field (w 3) 15 14 ≠ 0 ∨ most < x.a.rows ∨ most < x.b.rows ∨
      (!cb x.a ∧ !cb x.b ∧ x.k0 ≠ 0) then some 3
  else if scaleBad x.a then some 4
  else if scaleBad x.b then some 5
  else none

/-- R329, R330. The slots of an MLOOP, in the order of its steps. -/
def loopSlots (reuse : Bool) (slot : Nat) : List Nat := if reuse then [slot, slot + 1, slot + 8, slot + 9] else [slot]

/-- R2, R80, R329. MLOOP, once its operands are within the counts. A pair that R321 does not list names register n + 2 (the model's
choice, log entry 68). -/
def State.mloop (s : State) (n slot : Nat) (expv : BitVec 4) (reuse sat : Bool) : State :=
  let q := s.mine
  let d := (List.range 6).map (fun i => s.getS (n + i))
  let x := LoopDesc.of d
  let qp := x.a.fmt = 5 ∨ x.b.fmt = 5
  match loopFault reuse d with
  | some r => s.fail .badHandle (n + r)
  | none =>
    if (qp ∧ !q.hdr.ctabbed) ∨ (loopSlots reuse slot).any (q.hdr.accslots ≤ ·) ∨ (reuse ∧ (slot % 8 = 7 ∨ slot / 8 = 7)) then
      s.fail .badHandle 0
    else if s.stepLacksFp16 (fmtTag x.a.fmt) (fmtTag x.b.fmt) then s.noProfile
    else match pairOf (fmtTag x.a.fmt) x.a.narrow (fmtTag x.b.fmt) x.b.narrow with
      | none => s.fail .format (n + 2)
      | some _ => s.enqueue (.mloop reuse sat d s.core.ctgen 0) (loopSlots reuse slot) expv

/-- MLOOP. -/
def execMloop (l : BitVec 6) (e : BitVec 4) (n : BitVec 6) (r t : BitVec 1) (s : State) :
    Host.Outcome State Fault Refusal :=
  s.gate (.mloop l e n r t) (fun s => s.mloop n.toNat l.toNat e (r == 1) (t == 1))

/-! ### The ACC members (R323, R331 to R333) -/

/-- R323. An accumulator address word. -/
structure AccAddr where
  slot : Nat
  row : Nat
  expv : BitVec 4

/-- R323, R331. The place that scalar register a names: ROW a multiple of align, EXPV zero where asked. -/
def State.accAddr (s : State) (a align : Nat) (noExpv : Bool) : Option AccAddr :=
  let w := (s.getS a).toNat
  let row := field w 6 0
  let col := field w 14 8
  let slot := row / 16 * 8 + col / 16
  if field w 63 20 ≠ 0 ∨ field w 15 15 ≠ 0 ∨ field w 7 7 ≠ 0 ∨ col % 16 ≠ 0 ∨ row % align ≠ 0 ∨
      (noExpv ∧ field w 19 16 ≠ 0) ∨ s.mine.hdr.accslots ≤ slot then none
  else some { slot := slot, row := row % 16, expv := BitVec.ofNat 4 (field w 19 16) }

/-- R323. An ACC member with its place, or BAD_HANDLE. -/
def State.withAcc (s : State) (a : BitVec 6) (align : Nat) (noExpv : Bool) (f : State → AccAddr → State) : State :=
  match s.accAddr a.toNat align noExpv with
  | none => s.fail .badHandle a.toNat
  | some x => f s x

/-- R331. ACCZ. -/
def execAccz (a c : BitVec 6) (s : State) : Host.Outcome State Fault Refusal :=
  s.gate (.accz a c) (fun s => s.withAcc a 16 false (fun s x =>
    if 2 ≤ (s.getS c.toNat).toNat then s.fail .badHandle c.toNat
    else s.enqueue (.accz ((s.getS c.toNat).getLsbD 0)) [x.slot] x.expv))

/-- R331. The readout format in a scalar register. -/
def State.readoutFmt (s : State) (c : BitVec 6) : Option (BitVec 2) :=
  let w := s.getS c.toNat
  if 3 ≤ w.toNat then none else some (w.setWidth 2)

/-- R331. ACCRD. -/
def execAccrd (v : BitVec 7) (a c : BitVec 6) (s : State) : Host.Outcome State Fault Refusal :=
  s.gate (.accrd v a c) (fun s =>
    match s.vecRead [] (some v) false [] true noCheck with
    | .error t => t
    | .ok _ => s.withAcc a (if s.readoutFmt c = some 1 then 4 else 2) false (fun s x =>
      match s.readoutFmt c with
      | none => s.fail .badHandle c.toNat
      | some fmt => s.enqueue (.accrd v fmt x.row 0 s.iss.set) [x.slot] x.expv))

/-- R331, R332. ACCWR. -/
def execAccwr (v : BitVec 7) (a : BitVec 6) (s : State) : Host.Outcome State Fault Refusal :=
  s.gate (.accwr v a) (fun s =>
    match s.vecRead [Src.of v [1, 4]] none false [] true noCheck with
    | .error t => t
    | .ok (s1, _, vs) => match s.accAddr a.toNat 2 false with
      | none => s.fail .badHandle a.toNat
      | some x =>
        if 32 ≤ s.mqLevel || counterFull s.me.tiles then s.stallFor .other
        else s1.enqueue (.accwr (arg vs 0) x.row 0 s.iss.set) [x.slot] x.expv)

/-- R331, R332. ACCDR. -/
def execAccdr (q : BitVec 4) (a c : BitVec 6) (s : State) : Host.Outcome State Fault Refusal :=
  s.gate (.accdr q a c) (fun s =>
    let p := s.me.port q.toNat
    if !(p.bound && p.kind == 1) then s.fail .badHandle (112 + q.toNat)
    else s.withAcc a 16 false (fun s x =>
      match s.readoutFmt c with
      | none => s.fail .badHandle c.toNat
      | some fmt => s.enqueue (.accdr q fmt 0) [x.slot] x.expv))

/-- R331. ACCWV. -/
def execAccwv (a c : BitVec 6) (s : State) : Host.Outcome State Fault Refusal :=
  s.gate (.accwv a c) (fun s => s.withAcc a 16 false (fun s x =>
    if 2 ^ 16 ≤ (s.getS c.toNat).toNat then s.fail .badHandle c.toNat
    else s.enqueue (.accwv ((s.getS c.toNat).setWidth 16)) [x.slot] x.expv))

/-- R333. The status word of a slot of the issuing consort. -/
def State.slotStatus (s : State) (n : Nat) : Word :=
  let x := s.mine.slot n
  let here := s.core.mq.filter (fun e => e.k == s.iss.k && e.slots.contains n)
  BitVec.ofNat 32 ((here.filter (!·.admitted)).length * 2 ^ 20 + x.lock.toNat * 2 ^ 19 + (here.any (·.admitted)).toNat * 2 ^ 18 +
    x.i40.toNat * 2 ^ 16 + x.ver.toNat)

/-- R331, R333. ACCVER. -/
def execAccver (v : BitVec 7) (a : BitVec 6) (s : State) : Host.Outcome State Fault Refusal :=
  s.gate (.accver v a) (fun s => s.withAcc a 1 true (fun s x => s.answer v (fun s => (s, s.slotStatus x.slot))))

/-! ### Admission (R324, R325, R327, R330, R332, R335) -/

/-- R314, R324, R330, R338. May a waiting entry be admitted? `before` are the entries issued before it. A loop waits for what was
bound to its tiles before it, and for whatever still reads them. -/
def State.qualifies (s : State) (before : List MqEntry) (e : MqEntry) : Bool :=
  let q := s.cons e.k
  let bound : List TileCopy := match e.op with
    | .mma ta ca tb cb _ _ _ _ _ => [(q.tile ta).copy ca, (q.tile tb).copy cb]
    | _ => []
  !e.admitted && q.place == .resident &&
    e.slots.all (fun n => (q.slot n).ver.setWidth 4 == e.expv && !(q.slot n).lock) &&
    bound.all (·.st != .filling) && !e.tilesNamed.any (s.owned e.k) &&
    (!e.isLoop ||
      (!s.core.mq.any (fun o => o.admitted && o.isLoop && (s.cons o.k).onCore) &&
       !before.any (fun o => o.k == e.k && o.tilesNamed.any e.tilesNamed.contains) &&
       !s.core.mq.any (fun o => o.admitted && o.k == e.k && o.tilesNamed.any e.tilesNamed.contains) &&
       !s.core.tfills.any (fun f => f.k == e.k && e.tilesNamed.contains f.t)))

/-- R324. The first waiting entry, in issue order, that qualifies. -/
def State.nextAdmission (s : State) : Option MqEntry :=
  s.core.mq.find? (fun e => s.qualifies (s.core.mq.filter (fun o => o.id < e.id)) e)

/-- R324, R332. The version that admission leaves. -/
def MqOp.version (op : MqOp) (v : BitVec 16) : BitVec 16 :=
  match op with
  | .accwv n => n
  | _ => v + 1

/-- R327, R330, R332. Does a slot's tag suit an operation? -/
def State.tagSuits (s : State) (e : MqEntry) (n : Nat) : Bool :=
  let q := s.cons e.k
  let i40 := (q.slot n).i40
  match e.op with
  | .mma ta ca tb cb _ _ _ _ _ =>
    let a := (q.tile ta).copy ca
    let b := (q.tile tb).copy cb
    (pairOf a.tag a.narrow b.tag b.narrow).any (fun p => p.float != i40)
  | .mloop _ _ d _ _ =>
    let x := LoopDesc.of d
    (pairOf (fmtTag x.a.fmt) x.a.narrow (fmtTag x.b.fmt) x.b.narrow).any (fun p => p.float != i40)
  | .accrd _ fmt _ _ _ => (fmt == 2) == i40
  | .accdr _ fmt _ => (fmt == 2) == i40
  | .accwr vals _ _ _ => (vals.tag == 4) == i40
  | _ => true

/-- R335. What discards an entry at admission: the failure of a fetch its copies met; FORMAT where a loop's failed fetch left a copy
EMPTY (the model's choice, log entry 68). -/
def State.discarded (s : State) (e : MqEntry) : Option Cause :=
  match e.failed with
  | some c => some c
  | none => match e.op with
    | .mma ta ca tb cb _ _ _ _ _ =>
      let q := s.cons e.k
      if ((q.tile ta).copy ca).st = .empty ∨ ((q.tile tb).copy cb).st = .empty then some .format else none
    | _ => none

/-- R324. The entry stands behind those admitted before it. -/
def State.markAdmitted (s : State) (e : MqEntry) : State :=
  s.modCore (fun c =>
    let rest := c.mq.filter (·.id != e.id)
    { c with mq := rest.filter (·.admitted) ++ [{ e with since := s.clock }] ++ rest.filter (!·.admitted) })

/-- R324. Admission: every named slot's version advances; then the operation is discarded, fails on a tag, or stands admitted. -/
def State.takeAdmitted (s : State) (e : MqEntry) : State :=
  let s1 := s.modCons e.k (fun q => forAll e.slots q (fun q n => q.modSlot n (fun x => { x with ver := e.op.version x.ver })))
  let bad := e.slots.filter (fun n => !s.tagSuits e n)
  match s.discarded e with
  | some cause => s1.mqFail e cause
  | none =>
    if bad.isEmpty then
      let s2 := match e.op with
        | .accz i40 => s1.modCons e.k (fun q => forAll e.slots q (fun q n => q.modSlot n (fun x => { x with i40 := i40 })))
        | _ => s1
      s2.markAdmitted { e with admitted := true }
    else if e.isLoop then
      (s1.modCrs e.k e.c (·.addError (e.error .format))).markAdmitted { e with admitted := true, skip := bad }
    else s1.mqFail e .format

/-- R325. An entry that has waited 2^20 clocks is removed. -/
def State.mqExpire (s : State) (id : Nat) : Host.Outcome State Fault Refusal :=
  match s.core.mq.find? (·.id == id) with
  | none => notNow
  | some e =>
    if !e.admitted && (s.cons e.k).place == .resident && e.since + 2 ^ 20 ≤ s.clock &&
        !s.qualifies (s.core.mq.filter (fun o => o.id < e.id)) e
    then .next (s.mqFail e .versionWait) else notNow

/-! ### Performing (R324, R327, R330, R332, R446) -/

def MqEntry.isMma (e : MqEntry) : Bool :=
  match e.op with
  | .mma _ _ _ _ _ _ _ _ _ => true
  | _ => false

def MqEntry.isDrain (e : MqEntry) : Bool :=
  match e.op with
  | .accdr _ _ _ => true
  | _ => false

/-- R324. Do two entries name one slot? -/
def MqEntry.meets (o e : MqEntry) : Bool := o.k == e.k && o.slots.any e.slots.contains

/-- R446. Of admitted entries, in admission order: the loops and drains, which may go on for long, and those kept waiting by one of
them on their own slots. -/
def holders (es : List MqEntry) : List MqEntry :=
  es.foldl (fun hs e => if e.isLoop || e.isDrain || hs.any (·.meets e) then hs ++ [e] else hs) []

/-- R324, R330, R446. Does one of the entries admitted before it go before an admitted entry? On one slot always; an MMA before every
MMA and every K step of the core, in the engine's order, unless it is kept waiting on its own slot; a loop before another loop,
since the core has one sequencer. Between its K steps a loop leaves the engine to others (R337). -/
def MqEntry.follows (e : MqEntry) (es : List MqEntry) : Bool :=
  es.any (fun o => o.meets e || (o.isMma && (e.isMma || e.isLoop) && !(holders es).any (·.id == o.id)) || (o.isLoop && e.isLoop))

/-- R324, R338, R446. May an admitted entry perform: does none admitted before it go first? Once its consort is leaving the core,
a loop only finishes the K step in progress. -/
def State.mqReady (s : State) (e : MqEntry) : Bool :=
  e.admitted && !e.waiting && (s.cons e.k).onCore && (!e.isLoop || e.inStep || (s.cons e.k).place == .resident) &&
    !e.follows ((s.core.mq.takeWhile (fun o => o.id != e.id)).filter (fun o => o.admitted && (s.cons o.k).onCore))

/-- R320. The rows of two copies have been read: their pins are released. -/
def Consort.unpin (q : Consort) (t : Nat) (c : Bool) : Consort := q.modTileCopy t c (fun x => { x with pins := 0 })

/-- R330. The view of tile i of one side at step n of a loop. -/
def LoopSide.view (x : LoopSide) (i n ks k0 ktot : Nat) : TileView :=
  { base := BitVec.ofNat 64 (x.base + 16 * i * x.stride + n * rowBytes x.narrow), stride := x.stride
    rows := min 16 (x.rows - 16 * i), klen := min ks (ktot - n * ks), k0 := k0 + n * ks, scales := BitVec.ofNat 64 x.scales
    tag := fmtTag x.fmt, narrow := x.narrow }

/-- R330. The tiles of one K step, in the order they are fetched, each with its register. -/
def LoopDesc.views (d : LoopDesc) (reuse : Bool) (n ks : Nat) : List (Nat × TileView) :=
  let na := if reuse then 2 else 1
  (List.range na).map (fun i => (i, d.a.view i n ks d.k0 d.ktot)) ++
    (List.range na).map (fun i => (na + i, d.b.view i n ks d.k0 d.ktot))

/-- R320, R330. The pins that the lines of a K step's rows ask for. -/
def LoopDesc.lines (d : LoopDesc) (reuse : Bool) (n ks : Nat) : Nat :=
  (distinct ((d.views reuse n ks).flatMap (fun x => (List.range x.2.rows).map (fun r => (x.2.base.toNat + r * x.2.stride) / 64)))).length

/-- R320. Does a loop wait for free pins? After 256 clocks it reads unpinned. -/
def State.loopPinless (s : State) (e : MqEntry) (d : LoopDesc) (reuse : Bool) (n ks : Nat) : Bool :=
  s.freePins < min 64 (d.lines reuse n ks) && s.clock < e.since + 256

/-- R319, R320, R330. The tiles of a K step are fetched (its steps read every row at once, which releases the pins), each into the copy of its register that is not the latest; a fault leaves
that copy EMPTY. -/
def State.loopFetch (s : State) (k c : Nat) : List (Nat × TileView) → State × Option EngineAccess
  | [] => (s, none)
  | (t, v) :: rest =>
    let place (x : TileCopy) : State :=
      s.modCons k (fun q => q.modTile t (fun y => { (y.setCopy (!y.latest) x) with latest := !y.latest }))
    match s.tileLoad k c v with
    | .ok x => (place x).loopFetch k c rest
    | .error (.fault cause va) =>
      (place { TileCopy.blank with tag := v.tag, narrow := v.narrow }, some (.fault cause va))
    | .error x => (s, some x)

/-- R327, R330. The steps of one K step. -/
def State.loopSteps (s : State) (e : MqEntry) (reuse sat : Bool) (gen : BitVec 32) (p : Pair) : State :=
  let na := if reuse then 2 else 1
  let m : StepMode := { pair := p, kview := true, sat := sat, nega := false, negb := false }
  let slot := e.slots.headD 0
  let pairs := (List.range na).flatMap (fun a => (List.range na).map (fun b => (a, b)))
  s.modCons e.k (fun q => forAll pairs q (fun q ab =>
    let n := slot + 8 * ab.1 + ab.2
    if e.skip.contains n then q
    else q.modSlot n (stepSlot m (s.qpVal gen) (q.tile ab.1).now (q.tile (na + ab.2)).now)))

/-- R320, R330, R377. Does the next K step of a loop wait for pins, or for its course's own earlier atomics? -/
def State.loopHeld (s : State) (e : MqEntry) (reuse : Bool) (desc : List DWord) (n : Nat) : Bool :=
  let d := LoopDesc.of desc
  match pairOf (fmtTag d.a.fmt) d.a.narrow (fmtTag d.b.fmt) d.b.narrow with
  | none => false
  | some p => n * p.k < d.ktot && (s.loopPinless e d reuse n p.k ||
      (d.views reuse n p.k).any (fun x => (List.range x.2.rows).any (fun r =>
        s.engineWaits e.k e.c e.id 0 (x.2.base + BitVec.ofNat 64 (r * x.2.stride)) (rowBytes x.2.narrow) false)))

/-- R330, R335. One K step of a loop, or its end. -/
def State.loopStep (s : State) (e : MqEntry) (reuse sat : Bool) (desc : List DWord) (gen : BitVec 32) (n : Nat) : State :=
  let d := LoopDesc.of desc
  match pairOf (fmtTag d.a.fmt) d.a.narrow (fmtTag d.b.fmt) d.b.narrow with
  | none => s.mqLeave e
  | some p =>
    if d.ktot ≤ n * p.k then s.mqLeave e
    else match s.loopFetch e.k e.c (d.views reuse n p.k) with
      | (s1, none) =>
        (s1.loopSteps e reuse sat gen p).modMq e.id (fun x =>
          { x with op := .mloop reuse sat desc gen (n + 1), inStep := false, since := s.clock })
      | (_, some (.absent va)) =>
        (s.modMq e.id (fun x => { x with waiting := true, inStep := true })).engineAbsent e.k e.c false 4 e.ref va
      | (s1, some (.fault cause _)) => s1.mqFail e cause
      | (s1, some (.ok _)) => s1

/-- R332. The word of an ACCRD for lane l: rows ROW and below by 16 lanes, or in pairs. -/
def readWord (x : Slot) (fmt : BitVec 2) (row l : Nat) : Word :=
  x.readout fmt (row + l / 16) (l % 16) (row + 2 + l / 16) (l % 16)

/-- R332. Element n of an ACCDR. -/
def drainElem (x : Slot) (fmt : BitVec 2) (n : Nat) : Elem :=
  { tag := readoutTag fmt
    val := if fmt = 1 then x.readout fmt (n / 8) (2 * (n % 8)) (n / 8) (2 * (n % 8) + 1) else x.readout fmt (n / 16) (n % 16) 0 0 }

/-- R332. A readout reaches its destination: a register's lanes, or the port it names. -/
def State.putReadout (s : State) (e : MqEntry) (v : BitVec 7) (fmt : BitVec 2) (set : BitVec 32) (f : Nat → Word) : State :=
  if isPort v then
    s.portPush e.k e.c (portOf v) ((lanesOf set).map (fun l => { val := f l, tag := readoutTag fmt }))
  else s.modCrs e.k e.c (fun c => (c.putV v.toNat (readoutTag fmt) set f).soil [16 + v.toNat])

/-- R327, R332. An operation other than a loop, a drain or a contribution performs on its slot and leaves the queue. -/
def State.mqPerform (s : State) (e : MqEntry) : State :=
  let q := s.cons e.k
  let n := e.slots.headD 0
  let s1 := s.mqLeave e
  match e.op with
  | .mma ta ca tb cb nega negb sat kview gen =>
    let a := (q.tile ta).copy ca
    let b := (q.tile tb).copy cb
    match pairOf a.tag a.narrow b.tag b.narrow with
    | none => s1
    | some p =>
      let m : StepMode := { pair := p, kview := kview, sat := sat, nega := nega, negb := negb }
      s1.modCons e.k (fun q => ((q.modSlot n (stepSlot m (s.qpVal gen) a b)).unpin ta ca).unpin tb cb)
  | .accz _ => s1.modCons e.k (·.modSlot n (fun x => { x with entries := Vector.replicate 256 0 }))
  | .accrd v fmt row _ set => s1.putReadout e v fmt set (readWord (q.slot n) fmt row)
  | .accwr vals row _ set =>
    s1.modCons e.k (·.modSlot n (fun x => { x with entries := vof 256 (fun i =>
      let l := i - 16 * row
      if 16 * row ≤ i ∧ l < 32 ∧ bit set l then directEntry vals.tag (vals.at l) else vget x.entries 0 i) }))
  | _ => s1

/-- R332. ACCDR_PUSH: the drain pushes what its port has room for; the entry leaves with its last push. -/
def execAccdrPush (id : Nat) (s : State) : Host.Outcome State Fault Refusal :=
  match s.core.mq.find? (fun e => e.id == id && s.mqReady e) with
  | none => notNow
  | some e => match e.op with
    | .accdr p fmt pushed =>
      let total := if fmt = 1 then 128 else 256
      let n := min (total - pushed) (64 - ((s.crs e.k e.c).port p.toNat).elems.length)
      let slot := (s.cons e.k).slot (e.slots.headD 0)
      if n = 0 ∧ pushed < total then notNow
      else
        let s1 := s.portFeed e.k e.c p.toNat ((List.range n).map (fun i => drainElem slot fmt (pushed + i)))
        .next (if pushed + n = total then s1.mqLeave e
          else s1.modMq id (fun x => { x with op := .accdr p fmt (pushed + n) }))
    | _ => notNow

/-! ### Delivering matrix errors (R336) -/

/-- R336. TRAPINFO of a matrix error. -/
def MatrixError.info (e : MatrixError) : DWord :=
  BitVec.ofNat 64 (e.opk.toNat * 2 ^ 61 + e.slot.toNat * 2 ^ 55 + e.expv.toNat * 2 ^ 51 + e.tile.toNat * 2 ^ 48 + e.ref.toNat)

/-- R336. Is a course held by an issued NAP, WAITC or BAR (or, in this model, a release's closure)? -/
def Course.heldFirm (c : Course) : Bool :=
  (match c.hold with
    | .nap _ => true
    | .bar _ _ => true
    | .closing _ _ _ _ => true
    | _ => false) || c.stall.any (fun x => x.why == .waitc)

/-- R336. MATRIX_ERROR_DELIVERY: the lanes of the issue set take the oldest error at their instruction, and a wait of the
instruction itself ends. While HMASK is nonzero the error waits (R407). -/
def execMatrixErrorDelivery (k c : Nat) (s : State) : Host.Outcome State Fault Refusal :=
  let x := s.crs k c
  match x.merrs, x.issueSet with
  | e :: rest, some (set, laps) =>
    if x.heldFirm || x.hmask ≠ 0 || (s.cons k).place ≠ .resident then notNow
    else
      let s1 := s.modCrs k c (fun y => { y with lapped := laps, hold := .none, stall := none, merrs := rest, entered := none })
      .next (s1.deliver k c (x.lpcAt (lowest set)) x.lpcAt [{ cause := e.cause, lanes := set, info := e.info }])
  | _, _ => notNow

end Sys2Proof.Machine
end

