-- ==== Sys2Proof/Machine/CTab.lean ====
section
/-!
DEFINITION. The code table: CTSET, CTGET and CODE_TABLE_BUSY (spec/11_matrix.md R334; spec/03_numbers.md R98 to R100).
-/

namespace Sys2Proof.Machine

/-- R99. Does an operation in flight hold a generation of the code table? -/
def State.genHeld (s : State) (gen : BitVec 32) : Bool :=
  s.core.mq.any (fun e => (s.cons e.k).onCore && (match e.op with
    | .mma ta ca tb cb _ _ _ _ g =>
      g == gen && ((((s.cons e.k).tile ta).copy ca).tag == 10 || (((s.cons e.k).tile tb).copy cb).tag == 10)
    | .mloop _ _ d g _ => g == gen && ((LoopDesc.of d).a.fmt == 5 || (LoopDesc.of d).b.fmt == 5)
    | _ => false))

/-- R334. The sixteen entries that lanes 0 to 7 hold, two a lane. -/
def tableOf (x : VReg) : List (BitVec 16) :=
  (List.range 16).map (fun i => BitVec.ofNat 16 (elem 16 (x.at (i / 2)) (i % 2)))

/-- R99. The table is written to the buffer that is not active, which becomes active. -/
def CoreSt.setTable (c : CoreSt) (t : List (BitVec 16)) : CoreSt :=
  let gen := c.ctgen + 1
  { c with
    ctgen := gen
    ctab := vof 32 (fun i => if i / 16 = gen.toNat % 2 then t.getD (i % 16) 0 else vget c.ctab 0 i) }

/-- R334. CTSET, once its operand is within the counts. -/
def State.ctset (s : State) (v : BitVec 7) : State :=
  match s.vecRead [Src.of v [2]] none false [] true noCheck with
  | .error t => t
  | .ok (s1, _, vs) =>
    if !s.mine.hdr.ctabbed || s.iss.set &&& 0xFF != 0xFF then s.fail .badHandle 0
    else if s.genHeld (s.core.ctgen - 1) then s.stallFor .ctset
    else (s1.modCore (·.setTable (tableOf (arg vs 0)))).done

/-- CTSET. -/
def execCtset (v : BitVec 7) (s : State) : Host.Outcome State Fault Refusal := s.gate (.ctset v) (fun s => s.ctset v)

/-- R334. The word of CTGET for lane l: two entries of the active buffer. -/
def State.tableWord (s : State) (l : Nat) : Word :=
  let e (i : Nat) : Nat := (vget s.core.ctab 0 (16 * (s.core.ctgen.toNat % 2) + i)).toNat
  BitVec.ofNat 32 (e (2 * (l % 8)) + 2 ^ 16 * e (2 * (l % 8) + 1))

/-- R334. CTGET, once its operand is within the counts. -/
def State.ctget (s : State) (v : BitVec 7) : State :=
  match s.vecRead [] (some v) false [] true noCheck with
  | .error t => t
  | .ok (s1, _, _) =>
    if !s.mine.hdr.ctabbed then s.fail .badHandle 0 else (s1.writeDst v 2 s.tableWord).done

/-- CTGET. -/
def execCtget (v : BitVec 7) (s : State) : Host.Outcome State Fault Refusal := s.gate (.ctget v) (fun s => s.ctget v)

/-- R99, R136, R247, R347, R404. A course that has stalled 2^20 clocks for a reason takes a cause at its instruction; REG names
the port of a stall on ports. -/
def State.stallOver (s : State) (k c : Nat) (why : StallWhy → Bool) (cause : Cause) :
    Host.Outcome State Fault Refusal :=
  let x := s.crs k c
  match x.stalled, x.issueSet with
  | some st, some (set, laps) =>
    if why st.why && st.since + 2 ^ 20 ≤ s.clock && (s.cons k).place == .resident && x.hold == .none && (x.merrs.isEmpty || x.hmask ≠ 0) then
      let s1 := s.modCrs k c (fun y => { y with lapped := laps, stall := none })
      .next ({ s1 with iss := { st.iss with set := set } }.fail cause (if st.why == StallWhy.port then st.reg else 0))
    else notNow
  | _, _ => notNow

/-- R99. CODE_TABLE_BUSY: a CTSET stalled 2^20 clocks takes the cause and has no effect. -/
def execCodeTableBusy (k c : Nat) (s : State) : Host.Outcome State Fault Refusal :=
  s.stallOver k c (· == .ctset) .codeTableBusy

end Sys2Proof.Machine
end

