-- ==== Sys2Proof/Machine/Acn.lean ====
section
/-!
DEFINITION. The accumulate network: ACHOPEN, ACHJOIN, ASEND, ACHWAIT, ACHCLOSE and their events, and admission and performance
of the matrix queue's entries, ASENDs among them (spec/12_accumulate_network.md R340 to R360; spec/11_matrix.md R324, R325).
-/

namespace Sys2Proof.Machine

/-! ### Chains (R343, R344, R342) -/

def Consort.chain (q : Consort) (n : Nat) : Chain := vget q.chains Chain.blank n

def Consort.modChain (q : Consort) (n : Nat) (f : Chain → Chain) : Consort := { q with chains := vset q.chains n (f (q.chain n)) }

/-- R347. The destination slots of an epoch. -/
def Chain.slots (h : Chain) : List Nat := loopSlots h.four h.slot.toNat

/-- R342. The landing buffers a consort holds: those of its epochs with members, of its ORDERED bindings, and of its stalled
ACHOPENs. -/
def Consort.buffers (q : Consort) : Nat :=
  total (q.chains.toList.map (fun h => if h.st = .opened ∧ h.n ≠ 0 then h.slots.length else 0)) +
    total (q.bindings.map (fun b => if b.exact then 0 else if b.four then 4 else 1)) +
    total (q.courses.map (fun c => match c.stall with
      | some x => x.buffers
      | none => 0))

/-- R342, R352, R359. Do the buffers that a consort holds stand in the core's router? A member that has retired after sending
keeps those of its contributions until they are forwarded; a saved one takes them with it. One killed while saved that then retires
has them counted here again without a fit test, so that more than 16 may stand (the model's choice, log entry 68). -/
def Consort.atRouter (q : Consort) : Bool := q.onCore || q.place == .retired

/-- R342. The free landing buffers of the core's router. -/
def State.freeBuffers (s : State) : Nat := 16 - total ((s.consorts.filter (·.atRouter)).map Consort.buffers)

/-- R343. A chain word: receiver and chain number. -/
def State.chainWord (s : State) (a : BitVec 6) : Option (Nat × Nat) :=
  let w := (s.getS a.toNat).toNat
  if field w 63 10 ≠ 0 ∨ field w 7 6 ≠ 0 then none else some (field w 5 0, field w 9 8)

/-- R343. A member that names a chain, or BAD_HANDLE. -/
def State.withChain (s : State) (a : BitVec 6) (f : State → Nat → Nat → State) : State :=
  match s.chainWord a with
  | none => s.fail .badHandle a.toNat
  | some (rcv, chn) => f s rcv chn

def bitOf (n : Nat) : BitVec 64 := 1#64 <<< n

/-! ### Breaking and abandoning (R351, R355, R356) -/

/-- R355. Consort r of a gang: members listed in its open epochs that do not stand in the gang any more and have not sent
become broken. -/
def Consort.breakGone (r : Consort) (num : Nat) (sent : Nat → Nat → Bool) : Consort :=
  forAll (List.range 4) r (fun r n => if sent n (r.chain n).epoch then r else r.breakMember n (r.chain n).epoch num)

/-- R351. An open epoch is abandoned: versions advance, locks clear, and contributions and buffers go. -/
def Consort.abandon (q : Consort) (n : Nat) : Consort :=
  let h := q.chain n
  if h.st ≠ .opened then q
  else
    (forAll h.slots q (fun q i => q.modSlot i (fun x => { x with ver := x.ver + 1, lock := false }))).modChain n (fun h =>
      { h with st := .closed, sums := [], contribs := [], packet := none })

/-- R351. The bindings of a gang to an abandoned epoch whose contributions stood in their buffers are released. -/
def State.releaseBindings (s : State) (q : Consort) (n : Nat) (h : Chain) : State :=
  { s with consorts := s.consorts.map (fun r =>
      if q.mateOf r then
        { r with bindings := r.bindings.filter (fun b =>
            !(b.epoch == h.epoch && b.rcv.toNat == q.num && b.chn.toNat == n && b.sent && (h.got ||| h.broken).getLsbD r.num)) }
      else r) }

/-- R351. Epoch n of consort k is abandoned. -/
def State.abandonChain (s : State) (k n : Nat) : State :=
  let q := s.cons k
  let h := q.chain n
  if h.st ≠ .opened then s else (s.modCons k (·.abandon n)).releaseBindings q n h

/-- R355, R356. Consort k leaves its gang: its epochs are abandoned, it is broken where it is listed and has not sent, its
unsent bindings go, and ACHJOINs that wait on it are decided again. -/
def State.leaveChains (s : State) (k : Nat) : State :=
  let q := s.cons k
  let s1 := forAll (List.range 4) s (fun s n => s.abandonChain k n)
  let sent (r : Consort) (n epoch : Nat) : Bool :=
    q.bindings.any (fun b => b.sent && b.rcv.toNat == r.num && b.chn.toNat == n && b.epoch == epoch)
  let s2 := s1.dropBindings k (fun b => !b.sent)
  { s2 with consorts := s2.consorts.map (fun r => if r.id != k && q.mateOf r then r.breakGone q.num (sent r) else r) }

/-- R348, R355, R356. The consort of a gang with a number whose chains still exist: it has neither retired nor been killed. -/
def State.liveMate (s : State) (q : Consort) (num : Nat) : Option Consort := (s.gangMember q num).filter (fun r => !r.killed)

/-- R348, R349. That consort, while it is resident. -/
def State.residentMate (s : State) (q : Consort) (num : Nat) : Option Consort := (s.liveMate q num).filter (·.onCore)

/-! ### ACHOPEN (R346, R347) -/

/-- R347. Is a slot ready to be locked for version expv? -/
def State.slotQuiet (s : State) (k n : Nat) (expv : BitVec 4) : Bool :=
  let x := (s.cons k).slot n
  x.ver.setWidth 4 == expv && !x.lock && !s.core.mq.any (fun e => e.admitted && e.k == k && e.slots.contains n)

/-- R347. The instruction stalls for its slots, holding its landing buffers. -/
def State.stallOpen (s : State) (buffers : Nat) : State :=
  (s.stallFor .achopen).modMe (fun c => { c with stall := c.stall.map (fun x => { x with buffers := buffers }) })

/-- R355. Members of a list that no longer stand in the gang. -/
def State.goneMembers (s : State) (l : BitVec 64) : BitVec 64 :=
  (memberList l).foldl (fun m i => if (s.liveMate s.mine i).isSome then m else m ||| bitOf i) 0

/-- R347. ACHOPEN, once its operands are within the counts. -/
def State.achopen (s : State) (a : Nat) : State :=
  let w := (s.getS a).toNat
  let l := s.getS (a + 1)
  let q := s.mine
  let slot := field w 5 0
  let four := field w 8 8 == 1
  let exact := field w 9 9 == 1
  let chn := field w 11 10
  let n := field w 22 16
  let t := loopSlots four slot
  let room := if n = 0 then 0 else t.length
  let held : Nat := match s.me.stall with
    | some st => if st.why = .achopen ∧ st.iss.at_ = s.iss.at_ then st.buffers else 0
    | none => 0
  if field w 63 33 ≠ 0 ∨ field w 23 23 ≠ 0 ∨ field w 7 6 ≠ 0 ∨ (!exact ∧ field w 32 24 ≠ 0) ∨
      (four ∧ (slot % 8 = 7 ∨ slot / 8 = 7)) ∨ t.any (q.hdr.accslots ≤ ·) then s.fail .badHandle a
  else if 63 < n ∨ q.cpg < n ∨ (q.chain chn).st ≠ .closed then s.fail .acnBadchain a
  else if (memberList l).length ≠ n ∨ (memberList l).any (q.cpg ≤ ·) ∨ (!exact ∧ l.getLsbD q.num) then
    s.fail .acnBadchain (a + 1)
  else if s.freeBuffers + held < room then s.fail .acnReserve 0
  else if !t.all (fun n => s.slotQuiet q.id n (BitVec.ofNat 4 (field w 15 12))) then s.stallOpen room
  else if t.any (fun i => (q.slot i).i40 != (q.slot slot).i40) then s.fail .format a
  else
    let (s1, epoch) := s.freshId
    let h : Chain :=
      { st := .opened, epoch := epoch, exact := exact, four := four, slot := BitVec.ofNat 6 slot
        ebase := sextInt 9 (field w 32 24), members := l, n := n, i40 := (q.slot slot).i40, got := 0
        broken := s.goneMembers l, tagerr := false
        sums := t.map (fun _ => List.replicate 256 { x := 0, nan := false, pinf := false, ninf := false })
        contribs := [], packet := none, passed := 0 }
    (s1.modMine (fun q =>
      (forAll t q (fun q i => q.modSlot i (fun x => { x with lock := true }))).modChain chn (fun _ => h))).done

/-- ACHOPEN. -/
def execAchopen (a : BitVec 6) (s : State) : Host.Outcome State Fault Refusal :=
  s.gate (.achopen a) (fun s => s.achopen a.toNat)

/-- R325, R355 (log entry 52). An ASEND that is removed has had no effect: its binding is unsent again; it is released where its
epoch is no longer open, and broken where its owner has ended. -/
def State.unsend (s : State) (e : MqEntry) : State :=
  match e.op with
  | .asend rcv chn epoch _ _ _ =>
    let open_ := (s.gangMember (s.cons e.k) rcv.toNat).any (fun r =>
      (r.chain chn.toNat).st == .opened && (r.chain chn.toNat).epoch == epoch)
    let s1 := s.modCons e.k (fun q =>
      { q with bindings := if open_ then modFirst (fun b => b.epoch == epoch) (fun b => { b with sent := false }) q.bindings
                           else q.bindings.filter (fun b => b.epoch != epoch) })
    (forAll (s1.cons e.k).courses s1 (fun s x => if x.ended then s.breakBindings e.k x.idx else s))
  | _ => s

/-- R325, R347. VERSION_WAIT. An even number 2e names entry e of the matrix queue, removed after 2^20 clocks of waiting; an odd
one 2(16k + c) + 1 names an ACHOPEN of course (k, c) that has stalled as long. -/
def execVersionWait (id : Nat) (s : State) : Host.Outcome State Fault Refusal :=
  if id % 2 = 0 then (match s.mqExpire (id / 2), s.core.mq.find? (·.id == id / 2) with
    | .next t, some e => .next (t.unsend e)
    | o, _ => o)
  else s.stallOver (id / 32) (id / 2 % 16) (· == .achopen) .versionWait

/-! ### ACHJOIN (R348) -/

/-- R348. The oldest open epoch of chain n of consort r that lists member num and that it has not joined. -/
def Consort.joinable (r : Consort) (n : Nat) (q : Consort) : Option Chain :=
  let h := r.chain n
  let joined := q.bindings.any (fun b => b.epoch == h.epoch && b.rcv.toNat == r.num && b.chn.toNat == n)
  let unsent := q.bindings.any (fun b => !b.sent && b.rcv.toNat == r.num && b.chn.toNat == n)
  if h.st = .opened ∧ h.members.getLsbD q.num ∧ !joined ∧ !unsent ∧ !h.got.getLsbD q.num ∧ !h.broken.getLsbD q.num then some h
  else none

/-- R348. ACHJOIN, once its operands are within the counts. -/
def State.achjoin (s : State) (a : BitVec 6) : State :=
  s.withChain a (fun s rcv chn =>
    let q := s.mine
    if q.cpg ≤ rcv then s.fail .acnBadchain a.toNat
    else match s.residentMate q rcv with
      | none => s.fail .acnNorecv a.toNat
      | some r => match r.joinable chn q with
        | none => s.modMe (fun c => { c with hold := .achjoin a s.iss, stall := none })
        | some h =>
          if !h.exact && s.freeBuffers < h.slots.length then s.fail .acnReserve 0
          else
            let b : Binding :=
              { rcv := BitVec.ofNat 6 rcv, chn := BitVec.ofNat 2 chn, epoch := h.epoch, four := h.four, exact := h.exact
                i40 := h.i40, owner := s.iss.c, sent := false }
            (s.modMine (fun q => { q with bindings := q.bindings ++ [b] })).done)

/-- ACHJOIN. -/
def execAchjoin (c : BitVec 6) (s : State) : Host.Outcome State Fault Refusal := s.gate (.achjoin c) (fun s => s.achjoin c)

/-- The course goes on with the instruction it waits at. -/
def State.resumeAt (s : State) (k c : Nat) (iss : Issue) : State :=
  { (s.modCrs k c (fun x => { x with hold := .none, age := s.clock })) with iss := iss }

/-- R348, R356. ACHJOIN_BIND: an ACHJOIN that waits binds, now that an epoch lists its consort, or takes ACN_NORECV, now that its
receiver has retired or been killed. -/
def execAchjoinBind (k c : Nat) (s : State) : Host.Outcome State Fault Refusal :=
  match (s.crs k c).hold with
  | .achjoin a iss =>
    let s1 := s.resumeAt k c iss
    match s1.chainWord a with
    | none => notNow
    | some (rcv, chn) =>
      let due := match s1.liveMate s1.mine rcv with
        | none => true
        | some r => r.onCore && (r.joinable chn s1.mine).isSome
      if s1.mine.place == .resident && due then .next (s1.achjoin a) else notNow
  | _ => notNow

/-! ### ASEND (R349) -/

/-- R349. ASEND, once its operands are within the counts. -/
def State.asend (s : State) (a b : BitVec 6) : State :=
  s.withChain a (fun s rcv chn =>
    let q := s.mine
    let bind := q.bindings.find? (fun b => !b.sent && b.rcv.toNat == rcv && b.chn.toNat == chn)
    let four := (bind.map (·.four)).getD false
    match s.accAddr b.toNat 16 false with
    | none => s.fail .badHandle b.toNat
    | some x =>
      let t := loopSlots four x.slot
      if (four ∧ (x.slot % 8 = 7 ∨ x.slot / 8 = 7)) ∨ t.any (q.hdr.accslots ≤ ·) then s.fail .badHandle b.toNat
      else if q.cpg ≤ rcv then s.fail .acnBadchain a.toNat
      else if (s.residentMate q rcv).isNone then s.fail .acnNorecv a.toNat
      else match bind with
        | none => s.fail .acnBadchain a.toNat
        | some d =>
          if t.any (fun n => (q.slot n).lock) then s.fail .acnBadchain b.toNat
          else if 32 ≤ s.mqLevel || counterFull s.me.tiles then s.stallFor .other
          else
            (s.enqueue (.asend d.rcv d.chn d.epoch d.i40 d.exact d.four) t x.expv).modMine (fun q =>
              { q with bindings := modFirst (fun y => y.epoch == d.epoch && !y.sent) (fun y => { y with sent := true }) q.bindings }))

/-- ASEND. -/
def execAsend (c q : BitVec 6) (s : State) : Host.Outcome State Fault Refusal := s.gate (.asend c q) (fun s => s.asend c q)

/-- The receiver of an epoch in the gang of consort k, while the epoch is open. -/
def State.receiver (s : State) (k : Nat) (rcv chn : Nat) (epoch : Nat) : Option Consort :=
  (s.gangMember (s.cons k) rcv).filter (fun r => (r.chain chn).st == .opened && (r.chain chn).epoch == epoch)

/-- The binding of consort k to an epoch is released. -/
def State.unbind (s : State) (k epoch : Nat) : State :=
  s.modCons k (fun q => { q with bindings := q.bindings.filter (fun b => b.epoch != epoch) })

/-- R349, R355. A contribution whose slots carry the wrong tag is broken, with TAGERR. -/
def State.sendBroken (s : State) (e : MqEntry) (rcv chn epoch : Nat) : State :=
  let num := (s.cons e.k).num
  let s1 := match s.receiver e.k rcv chn epoch with
    | none => s
    | some r => s.modCons r.id (fun r => (r.breakMember chn epoch num).modChain chn (fun h => { h with tagerr := true }))
  s1.dropBindings e.k (fun b => b.epoch == epoch)

/-- R349, R352, R353. A contribution leaves its slots: into the member's buffers (ORDERED), or into the mesh (EXACT); for an
epoch that is no longer open it is discarded. -/
def State.sendSlots (s : State) (e : MqEntry) (rcv chn epoch : Nat) (exact : Bool) : State :=
  let q := s.cons e.k
  let data := e.slots.map (fun n => (q.slot n).entries.toList)
  match s.receiver e.k rcv chn epoch with
  | none => s.unbind e.k epoch
  | some r =>
    if exact then
      s.modCore (fun c => { c with packets := c.packets ++
        [{ rcv := r.id, chn := BitVec.ofNat 2 chn, epoch := epoch, member := q.num, data := data }] })
    else s.modCons r.id (·.modChain chn (fun h =>
      { h with got := h.got ||| bitOf q.num, contribs := h.contribs ++ [(q.num, data)] }))

/-! ### The matrix queue's events (R324, R332, R446) -/

/-- R324. MATRIX_ADMIT: entry id is admitted; it is the first waiting entry that qualifies. -/
def execMatrixAdmit (id : Nat) (s : State) : Host.Outcome State Fault Refusal :=
  match s.nextAdmission with
  | none => notNow
  | some e =>
    if e.id ≠ id then notNow
    else match e.op with
      | .asend rcv chn epoch i40 _ _ =>
        let bad := e.slots.any (fun n => ((s.cons e.k).slot n).i40 != i40)
        if bad then
          let s1 := s.modCons e.k (fun q => forAll e.slots q (fun q n => q.modSlot n (fun x => { x with ver := x.ver + 1 })))
          .next ((s1.mqFail e .format).sendBroken e rcv.toNat chn.toNat epoch)
        else .next (s.takeAdmitted e)
      | _ => .next (s.takeAdmitted e)

/-- R446. MATRIX_PERFORM: the first admitted operation of its slots performs: a step, a read, a write, a contribution, or one
K step of a loop. -/
def execMatrixPerform (id : Nat) (s : State) : Host.Outcome State Fault Refusal :=
  match s.core.mq.find? (fun e => e.id == id && s.mqReady e) with
  | none => notNow
  | some e => match e.op with
    | .accdr _ _ _ => notNow
    | .mloop reuse sat d gen n => if s.loopHeld e reuse d n then notNow else .next (s.loopStep e reuse sat d gen n)
    | .asend rcv chn epoch _ exact _ => .next ((s.mqLeave e).sendSlots e rcv.toNat chn.toNat epoch exact)
    | _ => .next (s.mqPerform e)

/-! ### Landing and forwarding (R352 to R354) -/

/-- R353. One entry is added to an exact sum with grid exponent u. -/
def ExactSum.add (x : ExactSum) (u : Int) (e : BitVec 40) : ExactSum :=
  match AX40.val e.toNat with
  | .nan => { x with nan := true }
  | .inf neg => if neg then { x with ninf := true } else { x with pinf := true }
  | .num neg m ex => { x with x := x.x + floorInt neg m (ex - u) }

/-- R353, R354. A contribution of one slot is added to a slot's sums. -/
def landSlot (i40 : Bool) (u : Int) (sums : List ExactSum) (es : List (BitVec 40)) : List ExactSum :=
  (sums.zip es).map (fun p => if i40 then { p.1 with x := p.1.x + p.2.toInt } else p.1.add u p.2)

/-- R353, R357. ACN_FLIT_LANDING: packet n of the mesh lands in its receiver's buffers, or is discarded. An EXACT contribution whose
receiver has left the core meanwhile lands in its saved chain, though no router buffer is reserved there then (the model's choice,
log entry 68). -/
def execAcnFlitLanding (n : Nat) (s : State) : Host.Outcome State Fault Refusal :=
  match s.core.packets[n]? with
  | none => notNow
  | some p =>
    let s1 := s.modCore (fun c => { c with packets := c.packets.eraseIdx n })
    let r := s.cons p.rcv
    let h := r.chain p.chn.toNat
    let s2 := match s.consorts.find? (fun q => q.launch == r.launch && q.gang == r.gang && q.num == p.member) with
      | some q => s1.unbind q.id p.epoch
      | none => s1
    .next (if r.place != .retired && h.st == .opened && h.epoch == p.epoch then
        s2.modCons p.rcv (·.modChain p.chn.toNat (fun h =>
          { h with
            got := h.got ||| bitOf p.member
            sums := (h.sums.zip p.data).map (fun x => landSlot h.i40 (h.ebase - 95) x.1 x.2) }))
      else s2)

/-- R352, R354. Two packets added entry by entry. -/
def addEntry (i40 : Bool) (x y : BitVec 40) : BitVec 40 :=
  if i40 then x + y else BitVec.ofNat 40 (AX40.round 0 ((AX40.val x.toNat).add 0 (AX40.val y.toNat)))

def addPackets (i40 : Bool) (x y : List (List (BitVec 40))) : List (List (BitVec 40)) :=
  (x.zip y).map (fun p => (p.1.zip p.2).map (fun e => addEntry i40 e.1 e.2))

/-- R352, R357. Has member i of the gang of consort r reserved its buffers for an epoch, in this core's router? -/
def State.reserved (s : State) (r : Consort) (epoch i : Nat) : Bool :=
  s.consorts.any (fun q => r.mateOf q && q.num == i && q.atRouter && q.bindings.any (fun b => b.epoch == epoch))

/-- R352. The packet of chain n of consort k moves to the position goal, and the buffers of member m, where it stood, are
released. -/
def State.movePacket (s : State) (k n m goal : Nat) (p : Option (List (List (BitVec 40)))) : State :=
  let r := s.cons k
  let h := r.chain n
  let s1 := s.modCons k (·.modChain n (fun h => { h with packet := p, passed := goal, contribs := h.contribs.filter (·.1 != m) }))
  { s1 with consorts := s1.consorts.map (fun q =>
      if r.mateOf q && q.num == m then { q with bindings := q.bindings.filter (fun b => b.epoch != h.epoch) } else q) }

/-- R352, R357. ACN_ORDERED_FORWARD: the packet of chain chn of consort k takes the contribution of the member it stands at and
moves on to the next live member, once that has reserved its buffers, or to the receiver; from a broken member it moves on
unchanged. -/
def execAcnOrderedForward (k : Nat) (chn : BitVec 2) (s : State) : Host.Outcome State Fault Refusal :=
  let r := s.cons k
  let n := chn.toNat
  let h := r.chain n
  let ms := memberList h.members
  if h.st ≠ .opened ∨ h.exact ∨ !r.onCore then notNow
  else match ms.drop h.passed with
    | [] => notNow
    | m :: later =>
      let goal := match later.find? (fun i => !h.broken.getLsbD i) with
        | some i => ms.takeWhile (· != i) |>.length
        | none => ms.length
      let ahead := (ms[goal]?).all (s.reserved r h.epoch)
      if h.broken.getLsbD m then
        match h.packet with
        | none => .next (s.modCons k (·.modChain n (fun h => { h with passed := h.passed + 1 })))
        | some p => if ahead && s.reserved r h.epoch m then .next (s.movePacket k n m goal (some p)) else notNow
      else match h.contribs.find? (·.1 == m) with
        | none => notNow
        | some (_, data) =>
          if ahead && s.reserved r h.epoch m then
            .next (s.movePacket k n m goal (some (match h.packet with
              | none => data
              | some p => addPackets h.i40 p data)))
          else notNow

/-! ### ACHWAIT and ACHCLOSE (R350, R351, R354) -/

/-- R350, R352. Are all contributions of an epoch in? -/
def Chain.complete (h : Chain) : Bool :=
  if h.exact then (memberList (h.got ||| h.broken)).length == h.n else h.passed == h.n

/-- R353. An exact sum's value, wrapped to 128 bits. -/
def ExactSum.value (x : ExactSum) (u : Int) : Num :=
  if x.nan || (x.pinf && x.ninf) then .nan
  else if x.pinf then .inf false
  else if x.ninf then .inf true
  else Num.ofInt (BitVec.ofInt 128 x.x).toInt u false

/-- R353. Does the true sum lie beyond 128 bits? -/
def ExactSum.overflows (x : ExactSum) : Bool :=
  !(x.nan || x.pinf || x.ninf) && (x.x < -(2 ^ 127 : Nat) || (2 ^ 127 : Nat) ≤ x.x)

/-- R350, R352 to R354. The entries of destination slot i of an epoch after its result. -/
def Chain.result (h : Chain) (i : Nat) (x : Slot) : Slot :=
  let entry (n : Nat) (e : BitVec 40) : BitVec 40 :=
    if h.n = 0 then e
    else if h.exact then
      match (h.sums.getD i [])[n]? with
      | none => e
      | some v =>
        if h.i40 then e + BitVec.ofInt 40 v.x
        else BitVec.ofNat 40 (AX40.round 0 ((AX40.val e.toNat).add 0 (v.value (h.ebase - 95))))
    else match h.packet with
      | none => e
      | some p => addEntry h.i40 e ((p.getD i []).getD n 0)
  { x with entries := vof 256 (fun n => entry n (vget x.entries 0 n)), ver := x.ver + 1, lock := false }

/-- R354. The status of an epoch. -/
def Chain.status (h : Chain) : Word :=
  let broken := memberList (h.broken &&& h.members)
  let ovf := h.exact && !h.i40 && h.n ≠ 0 && h.sums.any (·.any ExactSum.overflows)
  BitVec.ofNat 32 ((if broken.isEmpty then 0 else 2 ^ 30) + ovf.toNat * 2 ^ 29 + h.tagerr.toNat * 2 ^ 28 +
    broken.headD 0 * 2 ^ 22 + broken.length * 2 ^ 15 + (h.n - broken.length) * 2 ^ 8)

/-- R350. The result of epoch n is applied. -/
def Consort.applyChain (q : Consort) (n : Nat) : Consort :=
  let h := q.chain n
  (forAll (h.slots.zip (List.range 4)) q (fun q x => q.modSlot x.1 (h.result x.2))).modChain n (fun h =>
    { h with st := .waited, sums := [], contribs := [], packet := none })

/-- R350. ACHWAIT, once its operands are within the counts. -/
def State.achwait (s : State) (v : BitVec 7) (a : BitVec 6) : State :=
  match s.vecRead [] (some v) false [] true noCheck with
  | .error t => t
  | .ok _ => s.withChain a (fun s rcv chn =>
    let q := s.mine
    let h := q.chain chn
    if rcv ≠ q.num ∨ h.st ≠ .opened then s.fail .acnBadchain a.toNat
    else if !h.complete then s.modMe (fun c => { c with hold := .achwait v a s.iss, stall := none })
    else ((s.modMine (·.applyChain chn)).writeDst v 5 (fun _ => h.status)).done)

/-- ACHWAIT. -/
def execAchwait (v : BitVec 7) (c : BitVec 6) (s : State) : Host.Outcome State Fault Refusal :=
  s.gate (.achwait v c) (fun s => s.achwait v c)

/-- R350. ACHWAIT_COMPLETE: an ACHWAIT that waits goes on, now that its epoch is complete or no longer open. -/
def execAchwaitComplete (k c : Nat) (s : State) : Host.Outcome State Fault Refusal :=
  match (s.crs k c).hold with
  | .achwait v a iss =>
    let s1 := s.resumeAt k c iss
    match s1.chainWord a with
    | none => notNow
    | some (_, chn) =>
      let h := s1.mine.chain chn
      if s1.mine.place = .resident ∧ (h.st ≠ .opened ∨ h.complete) then .next (s1.achwait v a) else notNow
  | _ => notNow

/-- R351. ACHCLOSE. -/
def execAchclose (c : BitVec 6) (s : State) : Host.Outcome State Fault Refusal :=
  s.gate (.achclose c) (fun s => s.withChain c (fun s rcv chn =>
    if rcv ≠ s.mine.num then s.fail .acnBadchain c.toNat
    else
      let s1 := s.abandonChain s.iss.k chn
      (s1.modMine (·.modChain chn (fun h => { h with st := .closed }))).done))

end Sys2Proof.Machine
end

