-- ==== Sys2Proof/Machine/Bin.lean ====
section
/-!
DEFINITION. Expert bins: BINSC, BINGA, BINRST, BINQRY, and the events that carry a scatter or a gather through
(spec/10_copies_and_bins.md R304 to R309). Accesses to a table's counters and flags are race-checked as atomics; those to
rows as plain accesses (log entry 7).
-/

namespace Sys2Proof.Machine

/-! ### The table (R304, R306) -/

/-- R304. A table's header. -/
structure BinHeader where
  nbins : Nat
  rowb : Nat
  ovf : Nat
  flags : Nat

/-- R306. Is a header within its ranges, with zero in its reserved fields? -/
def binHeader (bs : List Byte) : Option BinHeader :=
  let w (i : Nat) : Nat := leNat ((bs.drop (4 * i)).take 4)
  let h : BinHeader := { nbins := w 0, rowb := w 1, ovf := w 2, flags := w 3 }
  if 1 ≤ h.nbins ∧ h.nbins ≤ 65536 ∧ h.rowb % 4 = 0 ∧ 4 ≤ h.rowb ∧ h.rowb ≤ 4096 ∧ h.ovf < h.nbins ∧ h.flags < 2 ∧
      (bs.drop 16).all (· == 0)
  then some h else none

/-- R304. Where the entry of bin b, its BCOUNT, and the header's BFLAGS lie. -/
def binEntryAt (table : DWord) (b : Nat) : DWord := table + BitVec.ofNat 64 (64 + 32 * b)
def binCountAt (table : DWord) (b : Nat) : DWord := binEntryAt table b + 16
def binFlagsAt (table : DWord) : DWord := table + 12

/-- R252, R304, R306, R388, R390. n bytes of a table, in device memory and with R and W permission, for course (k, c); to be written
where wr is set, when records of the sectors `secs` are made first. -/
def State.fetchBinAfter (s : State) (k c : Nat) (va : DWord) (n : Nat) (wr : Bool) (secs : List Nat) : Fetched ⊕ (Cause × DWord) :=
  let q := s.cons k
  match s.xlateRange q.aspace q.hdr.checked va true true n with
  | .error (.absent e, a) => .inl (.absent e a)
  | .error (_, a) => .inl (.denied a)
  | .ok pas =>
    let xs := pas.zip (List.range n)
    match xs.find? (fun x => isHost x.1.1) with
    | some x => .inl (.denied (va + BitVec.ofNat 64 x.2))
    | none => match xs.find? (fun x => s.poisonedFor k c x.1.1), xs.find? (fun x => x.1.2 && s.races k c x.1.1 1 true) with
    | _, some x => .inr (.race, va + BitVec.ofNat 64 x.2)
    | p, none =>
      if wr && xs.any (fun x => x.1.2 && !s.recordRoom x.1.1 secs) then .inr (.recordFull, va)
      else match p with
      | some x => .inl (.poison (va + BitVec.ofNat 64 x.2))
      | none => .inl (.bytes (pas.map (fun x => s.viewByte 3 k c x.1)) ((pas.head?.map (·.1)).getD 0))

/-- R304, R306. An access that makes the first record, or the only one. -/
def State.fetchBin (s : State) (k c : Nat) (va : DWord) (n : Nat) (wr : Bool) : Fetched ⊕ (Cause × DWord) :=
  s.fetchBinAfter k c va n wr []

/-- R306. The table read at issue: an absent translation parks the issue set, a fault traps it. -/
def State.binOr (s : State) (r : Fetched ⊕ (Cause × DWord)) (f : List Byte → State) : State :=
  match r with
  | .inl x => s.tableOr x 8 f
  | .inr (cause, a) =>
    (if cause = .recordFull then s.recordFull s.iss.k s.iss.c 33 s.iss.own a else s).trapWhole cause
      (info260 (lowest s.iss.set) (cause == .recordFull) false a.toNat)

/-- R306. The header of the table that scalar register t names, or the fault it raises. -/
def State.withBins (s : State) (t : BitVec 6) (f : DWord → BinHeader → State) : State :=
  let table := s.getS t.toNat
  if table.toNat % 64 ≠ 0 then s.fail .badHandle t.toNat
  else s.binOr (s.fetchBin s.iss.k s.iss.c table 64 false) (fun bs =>
    match binHeader bs with
    | none => s.fail .badHandle t.toNat
    | some h => f table h)

/-- R304, R306. The entries of some bins, read in order. -/
def State.withEntries (s : State) (table : DWord) : List Nat → (List BinEntry → State) → State
  | [], f => f []
  | b :: bs, f =>
    s.binOr (s.fetchBin s.iss.k s.iss.c (binEntryAt table b) 32 false) (fun e =>
      s.withEntries table bs (fun es =>
        f ({ bin := b, base := BitVec.ofNat 64 (leNat (e.take 8)), cap := leNat ((e.drop 8).take 4) } :: es)))

/-- R389. A word of a table is written at home for course (k, c), as an atomic does. -/
def State.binWrite (s : State) (k c op : Nat) (region : BitVec 32) (va : DWord) (pa : Nat) (x : Nat) : State :=
  let q := s.cons k
  let s1 := if s.checkedAt q va then s.record k c pa 4 region true (some op) else s
  (s1.keepStale 3 k c op [pa, pa + 1, pa + 2, pa + 3]).homeWrite
    ((leBytes 4 x).zip (List.range 4) |>.map (fun y => (pa + y.2, y.1)))

/-! ### Issue (R305, R307, R308) -/

/-- R307, R308. The lanes whose rows lie in the scratchpad, with their rows' offsets. -/
def State.binLanes (s : State) (base : DWord) (rowb : Nat) : List (Nat × Nat) :=
  ((lanesOf s.iss.set).map (fun l => (l, (base + BitVec.ofNat 64 (l * rowb)).toNat))).filter
    (fun x => x.2 + rowb ≤ s.mine.hdr.scratch)

/-- R307, R308. The operation issues: lanes outside the scratchpad are switched off, the token is pending, and the course
runs on. -/
def State.binIssue (s : State) (tok : BitVec 3) (op : BinOp) : State :=
  let (s1, id) := s.freshId
  let off := s.iss.set &&& ~~~op.lanes
  let s2 := ((s1.modCore (fun c => { c with bins := c.bins ++ [{ op with id := id }] })).startToken tok.toNat).modMe
    (fun x => { x with copies := x.copies + 1 })
  let s3 := if op.gather && !op.todo.isEmpty then
      s2.modMine (fun q => { q with tracks := q.tracks ++
        [{ op := id, lo := (op.todo.map (·.off)).foldl min (2 ^ 64), hi := (op.todo.map (fun x => x.off + op.rowb - 1)).foldl max 0 }] })
    else s2
  s3.done.switchOff off

/-- R307. BINSC once its token is free. -/
def State.binScatter (s : State) (v : BitVec 7) (t r : BitVec 6) (tok : BitVec 3) : State :=
  match s.vecRead [Src.of v wordInts] none false [] true (fun _ => none) with
  | .error e => e
  | .ok (_, _, vs) =>
    let bins := arg vs 0
    s.withBins t (fun table h =>
      let ls := s.binLanes (s.getS r.toNat) h.rowb
      let todo := ls.map (fun x => { lane := x.1, bin := (bins.at x.1).toNat, row := 0, off := x.2, ovr := false : BinLane })
      let valid := todo.filter (fun x => x.bin < h.nbins)
      s.withEntries table (distinct (valid.map (·.bin) ++ [h.ovf])) (fun es =>
        if counterFull s.me.copies then s.stallFor .other
        else s.binIssue tok
          { id := 0, k := s.iss.k, c := s.iss.c, tok := tok, gather := false, table := table, nbins := h.nbins
            rowb := h.rowb, ovf := h.ovf, entries := es, bumped := false, todo := valid
            lanes := maskOf (fun l => ls.any (·.1 == l))
            codes := (todo.filter (fun x => h.nbins ≤ x.bin)).map (fun x => (x.lane, 0xFFFFFFFE))
            v := v, region := s.me.region, epoch := s.epochOf s.iss.k s.iss.c, ref := s.iss.own, waiting := false
            error := none }))

def execBinsc (v : BitVec 7) (t r : BitVec 6) (k : BitVec 3) (s : State) : Host.Outcome State Fault Refusal :=
  s.gate (.binsc v t r k) (fun s => s.withToken k.toNat (fun s => s.binScatter v t r k))

/-- R308. BINGA once its token is free; v names an even register. -/
def State.binGather (s : State) (v : BitVec 6) (t r : BitVec 6) (tok : BitVec 3) : State :=
  let p : BitVec 7 := BitVec.ofNat 7 (2 * v.toNat)
  match s.vecRead [Src.of p wordInts, Src.of (p + 1) [5, 0]] none false [] true (fun _ => none) with
  | .error e => e
  | .ok (_, _, vs) =>
    s.withBins t (fun table h =>
      let ls := s.binLanes (s.getS r.toNat) h.rowb
      let todo := ls.map (fun x => { lane := x.1, bin := ((arg vs 0).at x.1).toNat, row := ((arg vs 1).at x.1).toNat, off := x.2
                                     ovr := false : BinLane })
      let rows := todo.filter (fun x => x.bin < h.nbins && x.row < 0xFFFFFFFE)
      s.withEntries table (distinct (rows.map (·.bin) ++ [h.ovf])) (fun es =>
        if counterFull s.me.copies || 8 ≤ s.mine.tracks.length then s.stallFor .other
        else s.binIssue tok
          { id := 0, k := s.iss.k, c := s.iss.c, tok := tok, gather := true, table := table, nbins := h.nbins
            rowb := h.rowb, ovf := h.ovf, entries := es, bumped := true, todo := todo
            lanes := maskOf (fun l => ls.any (·.1 == l)), codes := [], v := p, region := s.me.region
            epoch := s.epochOf s.iss.k s.iss.c, ref := s.iss.own
            waiting := false, error := none }))

def execBinga (v : BitVec 6) (t r : BitVec 6) (k : BitVec 3) (s : State) : Host.Outcome State Fault Refusal :=
  s.gate (.binga v t r k) (fun s => s.withToken k.toNat (fun s => s.binGather v t r k))

/-! ### BINRST and BINQRY (R309) -/

/-- R309. The words that a reset writes: the counters of some bins, and where all are reset BFLAGS. -/
def resetWords (table : DWord) (bins : List Nat) (all : Bool) : List DWord :=
  bins.map (binCountAt table) ++ (if all then [binFlagsAt table] else [])

/-- R309. Words of a table that an instruction writes, with their physical addresses; a fault on any of them comes before all
writes. -/
def State.withWords (s : State) : List DWord → List Nat → (List (DWord × Nat) → State) → State
  | [], _, f => f []
  | va :: vas, secs, f =>
    match s.fetchBinAfter s.iss.k s.iss.c va 4 true secs with
    | .inl (.bytes _ pa) =>
      s.withWords vas (if s.checkedAt s.mine va then noteSector secs pa else secs) (fun xs => f ((va, pa) :: xs))
    | x => s.binOr x (fun _ => s)

/-- R309. BINRST. -/
def State.binReset (s : State) (t r : BitVec 6) : State :=
  s.withBins t (fun table h =>
    let x := (s.getS r.toNat).toNat
    let first := x % 2 ^ 32
    let n := x / 2 ^ 32
    if h.nbins < first + n then s.fail .badHandle r.toNat
    else s.withWords (resetWords table ((List.range n).map (first + ·)) (n == h.nbins)) [] (fun ws =>
      let k := s.iss.k
      let c := s.iss.c
      if s.homeWaits k c s.nextId (s.epochOf k c) (ws.map (·.2)) true then s.stallFor .other
      else
        let (s, id) := s.freshId
        (forAll ws s (fun s w => s.binWrite k c id s.me.region w.1 w.2 0)).done))

def execBinrst (t f : BitVec 6) (s : State) : Host.Outcome State Fault Refusal :=
  s.gate (.binrst t f) (fun s => s.binReset t f)

/-- R309. BINQRY. -/
def execBinqry (v : BitVec 7) (t b : BitVec 6) (s : State) : Host.Outcome State Fault Refusal :=
  s.gate (.binqry v t b) (fun s => s.withBins t (fun table h =>
    let n := (s.getS b.toNat).toNat
    if h.nbins ≤ n then s.fail .badHandle b.toNat
    else s.binOr (s.fetchBin s.iss.k s.iss.c (binCountAt table n) 4 false) (fun bs =>
      s.answer v (fun s => (s, BitVec.ofNat 32 (leNat bs))))))

/-! ### Steps and completion (R292, R307, R308) -/

def State.modBin (s : State) (id : Nat) (f : BinOp → BinOp) : State :=
  s.modCore (fun c => { c with bins := modFirst (·.id == id) f c.bins })

def BinOp.entry (op : BinOp) (b : Nat) : BinEntry :=
  (op.entries.find? (·.bin == b)).getD { bin := b, base := 0, cap := 0 }

/-- R304. The address of row r of bin b. -/
def BinOp.rowAt (op : BinOp) (b r : Nat) : DWord := (op.entry b).base + BitVec.ofNat 64 (r * op.rowb)

/-- R292. An access of a bin operation meets a fault: it waits, or it stops. -/
def State.binFault (s : State) (op : BinOp) (wr : Bool) (x : EngineAccess) : State :=
  match x with
  | .ok _ => s
  | .absent va => (s.modBin op.id (fun o => { o with waiting := true })).engineAbsent op.k op.c wr 8 op.ref va
  | .fault cause va =>
    (s.modBin op.id (fun o => { o with error := some (cause, wr, va.setWidth 56) })).engineFault op.k op.c 8 cause op.ref va

/-- A table access as an engine's. -/
def asEngine (r : Fetched ⊕ (Cause × DWord)) : EngineAccess :=
  match r with
  | .inl (.bytes _ pa) => .ok [pa]
  | .inl (.absent _ va) => .absent va
  | .inl (.denied va) => .fault .xlateDenied va
  | .inl (.poison va) => .fault .poison va
  | .inr (cause, va) => .fault cause va

/-- R252, R304. An operation's access to a row: a table's rows lie in device memory, and the host region is denied. -/
def State.binAccess (s : State) (op : BinOp) (va : DWord) (wr : Bool) : EngineAccess :=
  match s.engineAccess op.k op.c va wr op.rowb with
  | .ok pas => match (pas.zip (List.range pas.length)).find? (fun x => isHost x.1) with
    | some x => .fault .xlateDenied (va + BitVec.ofNat 64 x.2)
    | none => .ok pas
  | x => x

/-- R307. BCOUNT of bin b grows by n at home, saturating; the answer is its value before. -/
def State.bump (s : State) (op : BinOp) (b n : Nat) : Except EngineAccess (State × Nat) :=
  let va := binCountAt op.table b
  match s.fetchBin op.k op.c va 4 true with
  | .inl (.bytes _ pa) =>
    .ok (s.binWrite op.k op.c op.id op.region va pa (min (s.peek pa 4 + n) (2 ^ 32 - 1)), s.peek pa 4)
  | x => .error (asEngine x)

/-- R307. One bump per bin that lanes name; position base + i for the i-th lane of a bin. bins are those still to bump. All of them are
applied in one event, so no other instruction's bump falls between two of a scatter (the model's choice, log entry 72). -/
def State.bumpAll (s : State) (op : BinOp) : List Nat → List BinLane → Except EngineAccess (State × List BinLane)
  | [], todo => .ok (s, todo)
  | b :: bs, todo =>
    let mine := todo.filter (fun x => x.bin == b)
    match s.bump op b mine.length with
    | .error x => .error x
    | .ok (s1, base) =>
      s1.bumpAll op bs (todo.map (fun x =>
        if x.bin = b then { x with row := base + (mine.filter (fun y => y.lane < x.lane)).length } else x))

/-- R307, R390. An overflow: one bump of the overflow bin, and OVFLAG, for whose record there must be room beside the bump's; where OVFLAG
cannot be written, the bump is not made either (the model's choice, log entry 72). -/
def State.overflow (s : State) (op : BinOp) (x : BinLane) : State :=
  match s.bump op op.ovf 1 with
  | .error e => s.binFault op true e
  | .ok (s1, r2) => match s1.fetchBin op.k op.c (binFlagsAt op.table) 4 true with
    | .inl (.bytes _ pa) =>
      (s1.binWrite op.k op.c op.id op.region (binFlagsAt op.table) pa 1).modBin op.id (fun o =>
        { o with todo := modFirst (fun y => y.lane == x.lane) (fun y => { y with row := r2, ovr := true }) o.todo })
    | e => s.binFault op true (asEngine e)

/-- R307. The row of a lane is written to its place, or dropped, and its code is decided. -/
def State.scatterRow (s : State) (op : BinOp) (x : BinLane) : State :=
  let b := if x.ovr then op.ovf else x.bin
  let finish (s : State) (code : Word) : State :=
    s.modBin op.id (fun o => { o with todo := o.todo.drop 1, codes := o.codes ++ [(x.lane, code)] })
  if (op.entry b).cap ≤ x.row then finish s 0xFFFFFFFF
  else
    let va := op.rowAt b x.row
    match s.binAccess op va true with
    | .ok pas =>
      if (s.cons op.k).spPoisoned x.off op.rowb then s.binFault op false (.fault .poison ((s.cons op.k).firstPoison x.off op.rowb))
      else finish (s.engineWrite 3 op.k op.c op.id op.region va pas ((s.cons op.k).spSee s.tick 3 x.off op.rowb))
        (BitVec.ofNat 32 (x.row + (if x.ovr then 2 ^ 31 else 0)))
    | e => s.binFault op true e

/-- R307. The next step of a scatter: the bumps, then lane by lane an overflow's bump or a row. -/
def State.scatterStep (s : State) (op : BinOp) (x : BinLane) : State :=
  if !op.bumped then
    match s.bumpAll op (distinct (op.todo.map (·.bin))) op.todo with
    | .ok (s1, todo) => s1.modBin op.id (fun o => { o with bumped := true, todo := todo })
    | .error e => s.binFault op true e
  else if !x.ovr && (op.entry x.bin).cap ≤ x.row then s.overflow op x
  else s.scatterRow op x

/-- R308. The next lane of a gather. -/
def State.gatherStep (s : State) (op : BinOp) (x : BinLane) : State :=
  let next (s : State) : State := s.modBin op.id (fun o => { o with todo := o.todo.drop 1 })
  let ov := 2 ^ 31 ≤ x.row
  let b := if ov then op.ovf else x.bin
  let r := if ov then x.row - 2 ^ 31 else x.row
  if op.nbins ≤ x.bin ∨ 0xFFFFFFFE ≤ x.row ∨ (op.entry b).cap ≤ r then next s
  else match s.binAccess op (op.rowAt b r) false with
    | .ok pas =>
      let bs := pas.map (fun a => s.viewByte 3 op.k op.c a)
      next (s.modCons op.k (fun q => q.spStore 3 op.k op.c op.id none x.off bs))
    | e => s.binFault op false e

/-- R295, R292. How a bin operation's token completes. -/
def BinOp.ending (op : BinOp) : TokEnd :=
  match op.error with
  | some (cause, dst, addr) => .error cause dst addr
  | none => .free

/-- R307, R308. The operation leaves: v receives the codes (scatter; a lane whose code a fault left open receives a free
value), the tracked range is released, and the token completes. -/
def State.binDone (s : State) (op : BinOp) : State :=
  let s1 := s.modCore (fun c => { c with bins := c.bins.filter (·.id != op.id) })
  let code (l : Nat) : Word := ((op.codes.find? (·.1 == l)).map (·.2)).getD (BitVec.ofNat 32 (Config.racing s.tick l))
  let s2 := s1.modCons op.k (·.untrack op.id)
  let s3 := if op.gather then s2 else s2.modCrs op.k op.c (fun x => x.putV op.v.toNat 5 op.lanes code)
  (s3.endToken op.k op.c op.tok.toNat op.ending).modCrs op.k op.c (fun x => { x with copies := x.copies - 1 })

/-- A bin operation that can go on. -/
def State.binReady (s : State) (id : Nat) (gather : Bool) : Option BinOp :=
  s.core.bins.find? (fun o => o.id == id && o.gather == gather && !o.waiting)

/-- What the next step of an operation accesses: ranges of bytes. -/
def BinOp.accesses (op : BinOp) (x : BinLane) : List (DWord × Nat) :=
  if op.gather then
    let ov := 2 ^ 31 ≤ x.row
    [(op.rowAt (if ov then op.ovf else x.bin) (if ov then x.row - 2 ^ 31 else x.row), op.rowb)]
  else if !op.bumped then (distinct (op.todo.map (·.bin))).map (fun b => (binCountAt op.table b, 4))
  else if !x.ovr && (op.entry x.bin).cap ≤ x.row then [(binCountAt op.table op.ovf, 4), (binFlagsAt op.table, 4)]
  else [(op.rowAt (if x.ovr then op.ovf else x.bin) x.row, op.rowb)]

/-- R377, R384. Must the next step of an operation wait for what its course issued before? -/
def State.binWaits (s : State) (op : BinOp) (x : BinLane) : Bool :=
  (op.accesses x).any (fun a => s.engineWaits op.k op.c op.id op.epoch a.1 a.2 (!op.gather))

/-- R307. BIN_SCATTER_COMPLETE: the scatter takes its next step (a bump, a row); when none is left, or a fault has stopped
it, it writes its row codes and completes its token. -/
def execBinScatterComplete (id : Nat) (s : State) : Host.Outcome State Fault Refusal :=
  match s.binReady id false with
  | none => notNow
  | some op =>
    match op.todo, op.error with
    | x :: _, none => if s.binWaits op x then notNow else .next (s.scatterStep op x)
    | _, _ => .next (s.binDone op)

/-- R308. BIN_GATHER_COMPLETE: the gather lands its next row; when none is left, or a fault has stopped it, its token
completes. -/
def execBinGatherComplete (id : Nat) (s : State) : Host.Outcome State Fault Refusal :=
  match s.binReady id true with
  | none => notNow
  | some op =>
    match op.todo, op.error with
    | x :: _, none => if s.binWaits op x then notNow else .next (s.gatherStep op x)
    | _, _ => .next (s.binDone op)

end Sys2Proof.Machine
end

