-- ==== Sys2Proof/Machine/Select.lean ====
section
/-!
DEFINITION. The selection engine: TOPK, SOFTMX, SAMPLE, and the events that serve an operation, carry its passes through and
deliver its results (spec/13_selection.md R361 to R375).
-/

namespace Sys2Proof.Machine

/-! ### The operand group (R363) -/

structure SelCtl where
  k : Nat
  pen : Bool
  dfmt : Bool
  bf16 : Bool
  len : Nat

def SelCtl.of (w : DWord) : SelCtl :=
  let x := w.toNat
  { k := field x 42 32, pen := field x 25 25 == 1, dfmt := field x 24 24 == 1, bf16 := field x 23 23 == 1, len := field x 22 0 }

/-- Bytes of an element. -/
def selWidth (bf16 : Bool) : Nat := if bf16 then 2 else 4

/-- R364. The operand at fault, and whether the fault is MISALIGN. kind 0 TOPK, 1 SOFTMX, 2 SAMPLE; a is the group's first
register. -/
def selFaultReg (kind a : Nat) (g : List DWord) : Option (Cause × Nat) :=
  let w (i : Nat) : Nat := (g.getD i 0).toNat
  let c := SelCtl.of (g.getD 1 0)
  let n := selWidth c.bf16
  let d := selWidth c.dfmt
  let p := w 2 / 2 ^ 32
  let t := w 2 % 2 ^ 32
  let kOk : Bool := if kind = 0 then 1 ≤ c.k && c.k ≤ 1024 else if kind = 1 then c.k == 0 else c.k ≤ 1024
  if w 0 % n ≠ 0 then some (.misalign, a)
  else if kind = 1 ∧ w 3 % d ≠ 0 then some (.misalign, a + 3)
  else if field (w 1) 63 43 ≠ 0 ∨ field (w 1) 31 26 ≠ 0 ∨ c.len = 0 ∨ 2 ^ 22 < c.len ∨ !kOk ∨
      (c.pen ∧ (kind ≠ 2 ∨ c.k = 0)) ∨ (c.dfmt ∧ kind ≠ 1) then some (.badHandle, a + 1)
  else if (c.pen ∧ (p = 0 ∨ 0x3F800000 < p)) ∨ (kind ≠ 0 ∧ (t < 2 ^ 23 ∨ 0x7F800000 ≤ t)) then some (.badHandle, a + 2)
  else if kind = 1 ∧ w 3 < w 0 + c.len * n ∧ w 0 < w 3 + c.len * d ∧ !(w 3 = w 0 ∧ c.dfmt = c.bf16) then
    some (.badHandle, a + 3)
  else none

/-- R361, R364. TOPK, SOFTMX and SAMPLE, once their operands are within the counts. -/
def State.selIssue (s : State) (kind : Nat) (q : BitVec 4) (a : BitVec 6) (u : DWord) (tok : BitVec 3) : State :=
  let g := s.group a 4
  let p := s.me.port q.toNat
  match selFaultReg kind a.toNat g with
  | some (cause, r) => s.fail cause r
  | none =>
    if !(p.bound && p.kind == 0) then s.fail .badHandle (112 + q.toNat)
    else if 4 ≤ (s.core.selq.filter (!·.served)).length then s.stallFor .other
    else s.withToken tok.toNat (fun s =>
      let (s1, id) := s.freshId
      let op : SelOp :=
        { id := id, k := s.iss.k, c := s.iss.c, kind := kind, port := q, src := g.getD 0 0, ctl := g.getD 1 0
          par := g.getD 2 0, dst := g.getD 3 0, u := u, tok := tok, region := s.me.region, ref := s.iss.own, served := false
          waiting := false, reads := [], epoch := s.epochOf s.iss.k s.iss.c }
      ((s1.modCore (fun c => { c with selq := c.selq ++ [op] })).startToken tok.toNat).done)

/-- TOPK. -/
def execTopk (q : BitVec 4) (a : BitVec 6) (k : BitVec 3) (s : State) : Host.Outcome State Fault Refusal :=
  s.gate (.topk q a k) (fun s => s.selIssue 0 q a 0 k)

/-- SOFTMX. -/
def execSoftmx (q : BitVec 4) (a : BitVec 6) (k : BitVec 3) (s : State) : Host.Outcome State Fault Refusal :=
  s.gate (.softmx q a k) (fun s => s.selIssue 1 q a 0 k)

/-- SAMPLE. -/
def execSample (q : BitVec 4) (a u : BitVec 6) (k : BitVec 3) (s : State) : Host.Outcome State Fault Refusal :=
  s.gate (.sample q a u k) (fun s => s.selIssue 2 q a (s.getS u.toNat) k)

/-! ### Ranks, weights and sums (R366, R368, R369) -/

def nanF32 : Word := 0x7FC00000
def ninfF32 : Word := 0xFF800000
def oneF32 : Word := 0x3F800000

/-- R366. An element widened to F32; a NaN is canonical. -/
def selWiden (bf16 : Bool) (bs : List Byte) : Word :=
  let x := leNat bs * (if bf16 then 65536 else 1)
  if F32.val x = .nan then nanF32 else BitVec.ofNat 32 x

/-- R368. A number that grows with rank order among values: NaN lowest, +0 above −0. -/
def rankKey (x : Word) : Int :=
  if x = nanF32 then -(2 ^ 40 : Nat)
  else
    let m : Int := ((x.toNat % 2 ^ 31 : Nat) : Int)
    if x.getLsbD 31 then -(2 * m) else 2 * m + 1

/-- R368. Does element i rank above element j? -/
def ranksAbove (x y : Word × Nat) : Bool := rankKey y.1 < rankKey x.1 || (rankKey x.1 == rankKey y.1 && x.2 < y.2)

def insertRank (x : Word × Nat) : List (Word × Nat) → List (Word × Nat)
  | [] => [x]
  | y :: ys => if ranksAbove x y then x :: y :: ys else y :: insertRank x ys

/-- R368. The elements with their indices, by rank. -/
def ranked (xs : List Word) : List (Word × Nat) := (xs.zip (List.range xs.length)).foldr insertRank []

/-- R366, R369. NaN read as −∞. -/
def noNan (x : Word) : Word := if x = nanF32 then ninfF32 else x

/-- R369. m. -/
def selMax (xs : List Word) : Word :=
  xs.foldl (fun m x => if rankKey m < rankKey (noNan x) then noNan x else m) ninfF32

/-- R369. c, from the temperature. -/
def selCoef (t : Word) : Word :=
  mulF32 0x3FB8AA3B (BitVec.ofNat 32 (F32.round 0 ((F32.val oneF32.toNat).div (F32.val t.toNat))))

/-- R369. The weight of an element. -/
def selWeight (m c x : Word) : Word :=
  let v := noNan x
  if (F32.val v.toNat).cmp (F32.val m.toNat) = .eq then oneF32
  else BitVec.ofNat 32 (elemSpec .exp2 0 false F32 (mulF32 (addF32 v (negF32 m)) c).toNat)

/-- R369. B[j] over the positions that `live` keeps; none where it keeps none. -/
def selBlockSum (es : List Word) (live : Nat → Bool) (j : Nat) : Option Word :=
  treeSum addF32 (fun i => if live i then es[i]? else none) 6 (64 * j)

/-- R369. Serial prefix sums. -/
def serialSums : List Word → List Word
  | [] => []
  | x :: xs => xs.foldl (fun acc y => acc ++ [addF32 (acc.getLastD 0) y]) [x]

/-- R369. S. -/
def selSum (es : List Word) : Word :=
  (serialSums ((List.range ((es.length + 63) / 64)).filterMap (selBlockSum es (fun _ => true)))).getLastD 0

/-- R370. The exact quotient rounded once. -/
def selQuot (bf16 : Bool) (e sum : Word) : Nat := (if bf16 then BF16 else F32).round 0 ((F32.val e.toNat).div (F32.val sum.toNat))

/-- R365, R370. The bytes of one element of SOFTMX's destination. A source rewritten between the passes can leave a quotient that is
no number; no NaN is written, and what is written then is a free value (log entry 32). -/
def selBytes (bf16 : Bool) (free : Nat) (e sum : Word) : List Byte :=
  let fmt := if bf16 then BF16 else F32
  let x := selQuot bf16 e sum
  let y := free % 2 ^ (8 * selWidth bf16)
  leBytes (selWidth bf16) (if fmt.val x = .nan then (if fmt.val y = .nan then 0 else y) else x)

/-! ### Results (R367, R371) -/

/-- R367. TOPK's groups. -/
def topkElems (k : Nat) (xs : List Word) : List Elem :=
  let rs := (ranked xs).take k
  (List.range ((k + 31) / 32)).flatMap (fun g =>
    let at_ (i : Nat) : Option (Word × Nat) := rs[32 * g + i]?
    (List.range 32).map (fun i => { val := ((at_ i).map (·.1)).getD nanF32, tag := 1 : Elem }) ++
      (List.range 32).map (fun i => { val := ((at_ i).map (fun x => BitVec.ofNat 32 x.2)).getD 0xFFFFFFFF, tag := 5 : Elem }))

/-- R371. The candidates kept by the threshold, in rank order: up to and with the first whose running sum reaches h. -/
def keepUntil (w : Nat → Word) (h : Word) : Word → List Nat → List Nat
  | _, [] => []
  | q, i :: is =>
    let q1 := addF32 q (w i)
    if h.toNat ≤ q1.toNat then [i] else i :: keepUntil w h q1 is

/-- R371. The first of a list whose running sum from r reaches the target, or the last. -/
def pickFrom (w : Nat → Word) (target : Word) : Word → List Nat → Nat
  | _, [] => 0
  | _, [i] => i
  | r, i :: is =>
    let r1 := addF32 r (w i)
    if target.toNat ≤ r1.toNat then i else pickFrom w target r1 is

/-- R371. The index SAMPLE chooses, from what the first pass and the second read; none where a source rewritten between the passes
leaves no survivor. -/
def sampleIndex (k : Nat) (pen : Bool) (p t : Word) (u : DWord) (xs ys : List Word) : Option Nat :=
  let m := selMax xs
  let es := ys.map (selWeight m (selCoef t))
  let w (i : Nat) : Word := es.getD i 0
  let c0 := if k = 0 then List.range xs.length else ((ranked (xs.map noNan)).take k).map (·.2)
  let c1 := if pen then keepUntil w (mulF32 p ((serialSums (c0.map w)).getLastD 0)) 0 c0 else c0
  let survivor (i : Nat) : Bool := c1.contains i && (w i).toNat != 0
  let blocks := (List.range ((xs.length + 63) / 64)).filterMap (fun j => (selBlockSum es survivor j).map (fun b => (j, b)))
  let sums := serialSums (blocks.map (·.2))
  let target := BitVec.ofNat 32 (F32.round 0 ((Num.num false (field u.toNat 31 8) (-24)).mul (F32.val (sums.getLastD 0).toNat)))
  let n := (sums.takeWhile (fun x => x.toNat < target.toNat)).length
  let at_ := min n (blocks.length - 1)
  let j := ((blocks[at_]?).map (·.1)).getD 0
  let before := if at_ = 0 then 0 else sums.getD (at_ - 1) 0
  if blocks.isEmpty then none else some (pickFrom w target before (((List.range 64).map (64 * j + ·)).filter survivor))

/-! ### Service (R361, R365, R372) -/

def State.modSel (s : State) (id : Nat) (f : SelOp → SelOp) : State :=
  s.modCore (fun c => { c with selq := modFirst (·.id == id) f c.selq })

/-- R361. SEL_SERVE: the engine takes the oldest operation, reserving one of the core's two result buffers. -/
def execSelServe (id : Nat) (s : State) : Host.Outcome State Fault Refusal :=
  match s.core.selq.find? (!·.served) with
  | none => notNow
  | some op =>
    if op.id = id ∧ !s.core.selq.any (·.served) ∧ s.core.selbufs.length < 2 then
      .next (s.modSel id (fun x => { x with served := true }))
    else notNow

/-- R372, R295. The operation stops: its token completes, and its buffer is free. -/
def State.selLeave (s : State) (op : SelOp) (e : TokEnd) : State :=
  (s.modCore (fun c => { c with selq := c.selq.filter (·.id != op.id) })).endToken op.k op.c op.tok.toNat e

/-- R372. An access of the engine meets a fault: it waits, or it stops with a cause. -/
def State.selFault (s : State) (op : SelOp) (wr : Bool) (x : EngineAccess) : State :=
  match x with
  | .ok _ => s
  | .absent va => (s.modSel op.id (fun o => { o with waiting := true })).engineAbsent op.k op.c wr 32 op.ref va
  | .fault cause va => (s.selLeave op (.error cause wr (va.setWidth 56))).engineFault op.k op.c 32 cause op.ref va

/-- R252, R365. An access of the engine: the host region is denied. -/
def State.selAccess (s : State) (op : SelOp) (va : DWord) (wr : Bool) (n : Nat) : EngineAccess :=
  match s.engineAccess op.k op.c va wr n with
  | .ok pas => match (pas.zip (List.range pas.length)).find? (fun x => isHost x.1) with
    | some x => .fault .xlateDenied (va + BitVec.ofNat 64 x.2)
    | none => .ok pas
  | x => x

/-- R365, R366. Element i of the source, as it stands now. -/
def State.selElem (s : State) (op : SelOp) (i : Nat) : Except EngineAccess Word :=
  let bf16 := (SelCtl.of op.ctl).bf16
  match s.selAccess op (op.src + BitVec.ofNat 64 (i * selWidth bf16)) false (selWidth bf16) with
  | .ok pas => .ok (selWiden bf16 (pas.map (fun a => s.viewByte 5 op.k op.c a)))
  | x => .error x

/-- The elements of the pass in progress. -/
def SelOp.pass (op : SelOp) : List Word := op.reads.getLastD []

/-- R361, R365. How many elements the pass in progress reads next: up to 64. -/
def SelOp.count (op : SelOp) : Nat := min 64 ((SelCtl.of op.ctl).len - op.pass.length)

/-- R361, R365. The next elements of the pass in progress. -/
def State.selBlock (s : State) (op : SelOp) : Except EngineAccess (List Word) :=
  (List.range op.count).mapM (fun i => s.selElem op (op.pass.length + i))

/-- R377, R384. Must the next block of an operation wait for what its course issued before? SOFTMX's third pass writes. -/
def State.selWaits (s : State) (op : SelOp) : Bool :=
  let c := SelCtl.of op.ctl
  let at_ (base : DWord) (w : Nat) : DWord := base + BitVec.ofNat 64 (op.pass.length * w)
  s.engineWaits op.k op.c op.id op.epoch (at_ op.src (selWidth c.bf16)) (op.count * selWidth c.bf16) false ||
    (op.kind == 1 && op.reads.length == 3 &&
      s.engineWaits op.k op.c op.id op.epoch (at_ op.dst (selWidth c.dfmt)) (op.count * selWidth c.dfmt) true)

/-- The block read joins its pass. -/
def SelOp.extend (op : SelOp) (ws : List Word) : SelOp := { op with reads := op.reads.dropLast ++ [op.pass ++ ws] }

/-- R365. One more block of a reading pass, or the start of pass number n. -/
def State.selPass (s : State) (op : SelOp) : State :=
  if op.reads.isEmpty || op.pass.length == (SelCtl.of op.ctl).len then
    s.modSel op.id (fun o => { o with reads := o.reads ++ [[]] })
  else match s.selBlock op with
    | .ok ws => s.modSel op.id (·.extend ws)
    | .error x => s.selFault op false x

/-- R361. The results are whole: they stand in the buffer, and the token completes. -/
def State.selWhole (s : State) (op : SelOp) (es : List Elem) : State :=
  (s.selLeave op .free).modCore (fun c =>
    { c with selbufs := c.selbufs ++ [{ id := op.id, k := op.k, c := op.c, port := op.port, elems := es }] })

/-- Has an operation read n whole passes? -/
def SelOp.passes (op : SelOp) (n : Nat) : Bool := op.reads.length == n && op.pass.length == (SelCtl.of op.ctl).len

/-- R361, R368, R371. SEL_RESULT_READY: a TOPK or SAMPLE reads on, and when its passes are read its results are whole. Where a source
rewritten between the passes leaves SAMPLE no survivor the index is a free value (log entry 32). -/
def execSelResultReady (id : Nat) (s : State) : Host.Outcome State Fault Refusal :=
  match s.core.selq.find? (fun o => o.id == id && o.served && !o.waiting && o.kind != 1) with
  | none => notNow
  | some op =>
    let c := SelCtl.of op.ctl
    let pass (n : Nat) : List Word := op.reads.getD n []
    if s.selWaits op then notNow
    else if op.kind = 0 ∧ op.passes 1 then .next (s.selWhole op (topkElems c.k (pass 0)))
    else if op.kind = 2 ∧ op.passes 2 then
      let i := sampleIndex c.k c.pen (BitVec.ofNat 32 (op.par.toNat / 2 ^ 32)) (op.par.setWidth 32) op.u (pass 0) (pass 1)
      .next (s.selWhole op (List.replicate 32 { val := BitVec.ofNat 32 (i.getD (Config.racing s.tick c.len)), tag := 5 }))
    else .next (s.selPass op)

/-- R370, R372. Elements of the destination from index i on are written; the first that faults decides. -/
def State.selWrite (s : State) (op : SelOp) : Nat → List (List Byte) → State × Option EngineAccess
  | _, [] => (s, none)
  | i, bs :: rest =>
    let va := op.dst + BitVec.ofNat 64 (i * bs.length)
    match s.selAccess op va true bs.length with
    | .ok pas => (s.engineWrite 5 op.k op.c op.id op.region va pas bs).selWrite op (i + 1) rest
    | x => (s, some x)

/-- R370. SOFTMX_COMPLETE: a SOFTMX reads on; its third pass writes each block's quotients, and when the last element has
performed at home its group is in the buffer and its token completes. -/
def execSoftmxComplete (id : Nat) (s : State) : Host.Outcome State Fault Refusal :=
  match s.core.selq.find? (fun o => o.id == id && o.served && !o.waiting && o.kind == 1) with
  | none => notNow
  | some op =>
    let c := SelCtl.of op.ctl
    let m := selMax (op.reads.getD 0 [])
    let coef := selCoef (op.par.setWidth 32)
    let sum := selSum ((op.reads.getD 1 []).map (selWeight m coef))
    let f32 (x : Word) : Elem := { val := x, tag := 1 }
    if s.selWaits op then notNow
    else if op.passes 3 then .next (s.selWhole op ([f32 m, f32 sum] ++ List.replicate 30 (f32 0)))
    else if op.reads.length = 3 then
      match s.selBlock op with
      | .error x => .next (s.selFault op false x)
      | .ok ws =>
        match s.selWrite op op.pass.length ((ws.zip (List.range ws.length)).map (fun x =>
            selBytes c.dfmt (Config.racing s.tick (op.pass.length + x.2)) (selWeight m coef x.1) sum)) with
        | (s1, none) => .next (s1.modSel id (·.extend ws))
        | (_, some (.absent va)) => .next (s.selFault op true (.absent va))
        | (s1, some x) => .next (s1.selFault op true x)
    else .next (s.selPass op)

/-- R361, R367, R374. SEL_DELIVER: the oldest buffer for its port passes elements into it, as it has room. -/
def execSelDeliver (id : Nat) (s : State) : Host.Outcome State Fault Refusal :=
  match s.core.selbufs.find? (·.id == id) with
  | none => notNow
  | some b =>
    let first := (s.core.selbufs.find? (fun o => o.k == b.k && o.c == b.c && o.port == b.port)).any (·.id == id)
    let room := 64 - ((s.crs b.k b.c).port b.port.toNat).elems.length
    if !first || room == 0 then notNow
    else
      let s1 := s.portFeed b.k b.c b.port.toNat (b.elems.take room)
      let rest := b.elems.drop room
      .next (s1.modCore (fun c =>
        { c with selbufs := if rest.isEmpty then c.selbufs.filter (·.id != id)
                 else modFirst (·.id == id) (fun o => { o with elems := rest }) c.selbufs }))

end Sys2Proof.Machine
end

