-- ==== Sys2Proof/Machine/Work.lean ====
section
/-!
DEFINITION. Work queues as the device reads and writes them: descriptors, rings, refusals, halts and host events
(spec/04_launch.md R112 to R118, R123, R124; spec/16_retirement_and_host.md R429, R430); the nodes of graphs (R127); join
counters (R116, R134, R138).
-/

namespace Sys2Proof.Machine

/-! ### The hub's and the home slices' own accesses -/

/-- Bytes the device writes at home on its own behalf. -/
def State.hubWrite (s : State) (pa : Nat) (bs : List Byte) : State :=
  s.homeWrite ((List.range bs.length).zip bs |>.map (fun x => (pa + x.1, x.2)))

/-- R17, R151. Do n bytes from pa up lie in memory of the partition? -/
def State.spanOk (s : State) (pa n : Nat) : Bool := pageOk s.hub.pmode pa && pageOk s.hub.pmode (pa + n - 1)

/-- R17, R431. Such bytes where they are the core's own or a queue's: none is written outside the partition. -/
def State.partWrite (s : State) (pa : Nat) (bs : List Byte) : State :=
  if s.spanOk pa bs.length then s.hubWrite pa bs else s

/-- R430. Where host memory at a host physical address stands: the part of it that R252 reaches has a device address. -/
def hostPa (a : Nat) : Nat := if a < 2 ^ 41 then 2 ^ 41 + a else 2 ^ 64 + a

/-- Is x one of the powers of two from 2^lo to 2^(lo + n − 1)? -/
def pow2In (x lo n : Nat) : Bool := (List.range n).any (fun i => x == 2 ^ (lo + i))

/-- R430. A host event: an entry is written with its phase bit and MSI-X vector 0 raised, once while it is pending; or LOST counts
it. -/
def State.hostEvent (s : State) (kind detail : Nat) (addr : DWord) : State :=
  let h := s.hub
  let size := h.evSize.toNat
  if !h.evEn || !pow2In size 4 12 || (h.evWr - h.evRd).toNat = size then
    s.modHub (fun h => { h with evLost := if h.evLost = 0xFFFF#16 then h.evLost else h.evLost + 1 })
  else
    let phase := if h.evWr.toNat / size % 2 = 0 then 2 ^ 31 else 0
    let entry := leBytes 4 (kind + phase) ++ leBytes 4 detail ++ leBytes 8 addr.toNat
    { ((s.hubWrite (hostPa (h.evBase.toNat / 16 * 16 + 16 * (h.evWr.toNat % size))) entry).modHub
        (fun h => { h with evWr := h.evWr + 1, msix := true })) with
      outbox := if h.msix then s.outbox else s.outbox ++ [.interrupt] }

/-! ### Queue descriptors (R117) -/

/-- R117. The fields of a queue descriptor. -/
structure QDesc where
  base : DWord
  size : Nat
  kind : Nat
  flags : Nat
  aspace : BitVec 16
  rd : Nat
  wr : Nat
  reserved : Bool
  deriving DecidableEq, Repr

/-- R117. Where the descriptor of queue q stands. -/
def State.qdPa (s : State) (q : Nat) : Nat := s.hub.qdtbase.toNat + 64 * q

/-- R151. Does queue q belong to the core's partition? -/
def State.qdMine (s : State) (q : Nat) : Bool := pageOk s.hub.pmode (s.qdPa q) && !isHost (s.qdPa q)

def State.qdesc (s : State) (q : Nat) : QDesc :=
  let a := s.qdPa q
  { base := BitVec.ofNat 64 (s.peek a 8), size := s.peek (a + 8) 4, kind := s.peek (a + 12) 1, flags := s.peek (a + 13) 1
    aspace := BitVec.ofNat 16 (s.peek (a + 14) 2), rd := s.peek (a + 16) 4, wr := s.peek (a + 20) 4
    reserved := s.peek (a + 32) 32 != 0 }

def QDesc.enabled (d : QDesc) : Bool := d.flags % 2 == 1
def QDesc.halted (d : QDesc) : Bool := d.flags / 2 % 2 == 1

/-- R117. Is a descriptor of an enabled queue of a defined kind malformed? -/
def QDesc.malformed (d : QDesc) : Bool :=
  d.enabled && d.kind ≤ 2 && (!pow2In d.size 6 25 || d.base.toNat % 256 != 0 || 4 ≤ d.flags || d.reserved)

/-- Indices are taken modulo 2^32. -/
def idxSub (a b : Nat) : Nat := (2 ^ 32 + a % 2 ^ 32 - b % 2 ^ 32) % 2 ^ 32

/-- R126, R128. Bytes between RDIDX and WRIDX. -/
def QDesc.level (d : QDesc) : Nat := idxSub d.wr d.rd

/-- R126, R133, R137. Has a ring n bytes of room? -/
def QDesc.room (d : QDesc) (n : Nat) : Bool := d.level + n ≤ d.size

/-- Fields of a descriptor written by the device. -/
def State.qdSet (s : State) (q off n v : Nat) : State := s.hubWrite (s.qdPa q + off) (leBytes n v)

/-- R117. The address of the byte with index i. -/
def QDesc.at (d : QDesc) (i : Nat) : DWord := d.base + BitVec.ofNat 64 (i % d.size)

/-- R117, R122. n bytes of a ring from index i on, read in the queue's address space. -/
def State.ringFetch (s : State) (d : QDesc) (i : Nat) : Nat → Fetched
  | 0 => .bytes [] 0
  | n + 1 =>
    match s.ringFetch d i n with
    | .bytes bs pa =>
      match s.fetchVa d.aspace (d.at (i + n)) 1 with
      | .bytes b _ => .bytes (bs ++ b) pa
      | x => x
    | x => x

/-- How the device's own write to a ring ends. -/
inductive Stored where
  | pas (xs : List Nat)
  | absent (va : DWord)
  | bad (cause : Cause) (va : DWord)
  deriving DecidableEq, Repr

/-- R117, R126, R151. The physical addresses of n bytes of a ring from index i on, for writing. -/
def State.ringPas (s : State) (d : QDesc) (i : Nat) : Nat → Stored
  | 0 => .pas []
  | n + 1 =>
    match s.ringPas d i n with
    | .pas xs =>
      match s.xlate d.aspace false (d.at (i + n)) false true with
      | .ok pa _ => if s.poisoned pa then .bad .poison (d.at (i + n)) else .pas (xs ++ [pa])
      | .absent _ => .absent (d.at (i + n))
      | .denied => .bad .xlateDenied (d.at (i + n))
    | x => x

/-! ### What the device keeps of a queue (R118 to R121) -/

def QRun.blank (q : Nat) : QRun :=
  { q := q, resident := false, blocked := false, faulted := false, head := none, opened := [], closed := [], starved := false }

def State.qrun (s : State) (q : Nat) : QRun := (s.work.qrun.find? (fun r => r.q == q)).getD (QRun.blank q)

def State.modQrun (s : State) (q : Nat) (f : QRun → QRun) : State :=
  let r := f (s.qrun q)
  s.modWork (fun w => { w with qrun := w.qrun.filter (fun x => x.q != q) ++ [r] })

/-- R123. A queue halts with QUEUE_BAD. -/
def State.haltQueue (s : State) (q : Nat) (errCause : Nat) : State :=
  let d := s.qdesc q
  ((((s.qdSet q 0x0D 1 (d.flags ||| 2)).qdSet q 0x18 4 d.rd).qdSet q 0x1C 4 errCause).hostEvent 1 q 0).report
    { kind := 4, cause := 0x15, access := 0, course := 0xFF, aspace := d.aspace, lanes := 0, cref := 0, ctx := 0
      addr := BitVec.ofNat 64 q }

/-- R117. The first test that finds a queue malformed halts it. -/
def State.testQueue (s : State) (q : Nat) : State :=
  let d := s.qdesc q
  if d.malformed && !d.halted then s.haltQueue q 0x15 else s

/-- R116. A join-counter decrement that the device has to make. -/
def State.decrementLater (s : State) (aspace : BitVec 16) (addr : DWord) (err : Bool) : State :=
  s.modWork (fun w => { w with jcwork := w.jcwork ++ [{ aspace := aspace, addr := addr, err := err, waiting := false }] })

/-- R114, R126, R412. A launch is refused, or a pending one dropped. -/
def State.launchBad (s : State) (q course : Nat) (aspace : BitVec 16) (ctx : Nat) : State :=
  s.report { kind := 4, cause := 0x14, access := 0, course := course, aspace := aspace, lanes := 0, cref := 0, ctx := ctx
             addr := BitVec.ofNat 64 q }

/-! ### Launch records and headers (R112 to R114) -/

/-- R112. The fields of a launch record. -/
def LRecord.ofBytes (bs : List Byte) : LRecord :=
  let n (o k : Nat) : Nat := leNat ((bs.drop o).take k)
  { jc := n 2 2 % 2 == 1, cref := BitVec.ofNat 32 (n 4 4), frame := BitVec.ofNat 64 (n 8 8), jcaddr := BitVec.ofNat 64 (n 0x10 8)
    widbase := BitVec.ofNat 64 (n 0x18 8), widw := (List.range 6).map (fun i => n (0x20 + i) 1), cpg := n 0x26 1
    ngang := n 0x28 4 }

/-- R112. LHADDR. -/
def lhAddr (bs : List Byte) : DWord := BitVec.ofNat 64 (leNat ((bs.drop 0x30).take 8))

/-- R113. The fields of a launch header. -/
def Header.ofBytes (bs : List Byte) : Header :=
  let n (o k : Nat) : Nat := leNat ((bs.drop o).take k)
  { khw := BitVec.ofNat 32 (n 0 4), traph := BitVec.ofNat 32 (n 4 4), ovmgr := BitVec.ofNat 32 (n 8 4), scratch := n 12 4
    otaddr := BitVec.ofNat 64 (n 16 8), courses := n 24 1, accslots := n 25 1, prio := n 26 1 % 8, hflags := bs.getD 27 0 }

/-- R31. Does a kernel header word pass? (ID.CAPS.MINOR reads 0, R33.) -/
def khwOk (khw : BitVec 32) (courses : Nat) : Bool :=
  let k := khw.toNat
  let major := field k 31 28
  let minor := field k 27 22
  ((major == 3 && minor == 0) || (major == 2 && field k 21 21 == 1 && minor ≤ 3)) &&
    1 ≤ field k 19 13 && field k 19 13 ≤ 112 && field k 3 0 ≤ 8 && field k 7 4 < courses

/-- Where a record came from. -/
inductive Origin where
  | device | hostRing | batch | handler
  deriving DecidableEq, Repr

/-- R110, R111. W, and L. -/
def LRecord.width (r : LRecord) : Nat := r.widw.foldl (· + ·) 0
def LRecord.low (r : LRecord) : Nat := (r.widw.take 3).foldl (· + ·) 0

/-- R110, R111, R128. Item 6 of R114; the carry is not tested for a graph batch. -/
def LRecord.widOk (r : LRecord) (courses : Nat) (carry : Bool) : Bool :=
  let w (i : Nat) : Nat := r.widw.getD i 0
  w 0 == 5 && w 1 ≤ 4 && courses ≤ 2 ^ w 1 && r.cpg ≤ 2 ^ w 2 && r.width ≤ 64 && r.widbase.toNat % 2 ^ r.low == 0 &&
    (!carry || r.widbase.toNat + r.ngang * 2 ^ r.low ≤ 2 ^ r.width)

/-- R114. Does a record pass with its header, from an origin, with n bytes of inline data or graph records? A handler's CPG and NGANG
are not tested (the model's choice, log entry 51). -/
def recordOk (rb hb : List Byte) (o : Origin) (n : Nat) : Bool :=
  let r := LRecord.ofBytes rb
  let h := Header.ofBytes hb
  let num (bs : List Byte) (a k : Nat) : Nat := leNat ((bs.drop a).take k)
  num rb 0 1 == 1 && num rb 1 1 ≤ 2 && (o == .hostRing || num rb 1 1 == 0) &&
  num rb 2 2 ≤ 1 && num rb 0x27 1 == 0 && num rb 0x38 8 == 0 && num hb 0x1A 1 ≤ 7 && num hb 0x1B 1 ≤ 3 && num hb 0x1C 36 == 0 &&
  1 ≤ h.courses && h.courses ≤ 16 && khwOk h.khw h.courses &&
  h.scratch % 128 == 0 && h.scratch ≤ 262144 && h.accslots ≤ 64 &&
  r.widOk h.courses (o != .batch) &&
  1 ≤ r.cpg && r.cpg ≤ 64 && r.ngang != 0 &&
  h.otaddr.toNat % 128 == 0 &&
  n ≤ h.scratch && (o != .handler || 64 ≤ h.scratch) && (o != .batch || (r.cpg == 1 && r.ngang == 1))

/-! ### Graph nodes (R127) -/

/-- R127. A node descriptor. -/
structure Node where
  recsz : Nat
  rpl : Nat
  tout : Nat
  qid : Nat
  valid : Bool
  tmpl : DWord
  reserved : Bool
  deriving DecidableEq, Repr

def Node.ofBytes (bs : List Byte) : Node :=
  let n (o k : Nat) : Nat := leNat ((bs.drop o).take k)
  { recsz := n 0 2, rpl := n 2 2, tout := n 4 4, qid := n 8 4, valid := n 12 2 % 2 == 1, tmpl := BitVec.ofNat 64 (n 16 8)
    reserved := n 12 2 / 2 != 0 || n 14 2 != 0 || n 0x1C 36 != 0 }

/-- R137. May records be handed to a node by a course of an address space? -/
def State.nodeOk (s : State) (n : Node) (aspace : BitVec 16) : Bool :=
  let d := s.qdesc n.qid
  n.valid && !n.reserved && n.recsz % 16 == 0 && 16 ≤ n.recsz && n.recsz ≤ 256 && 1 ≤ n.rpl && n.rpl ≤ 512 && n.qid < 4096 &&
    s.qdMine n.qid && d.enabled && !d.malformed && d.kind == 2 && n.rpl * n.recsz ≤ d.size && d.aspace == aspace

/-- R128. The open batches whose time ended before this clock are closed. -/
def QRun.closeLate (r : QRun) (clock : Nat) : QRun :=
  let late (b : Batch) : Bool := b.until_.any (fun t => t < clock)
  { r with opened := r.opened.filter (fun b => !late b), closed := r.closed ++ r.opened.filter late }

/-- R128, R140. A record joins the open batch of its node, if its time has not ended before this clock; the batch closes with the
record that makes it whole. -/
def State.joinBatch (s : State) (n : Node) (pa idx : Nat) : State :=
  s.modQrun n.qid (fun r0 =>
    let r := r0.closeLate s.clock
    let fresh : Batch :=
      { node := pa, tmpl := n.tmpl, rpl := n.rpl, recsz := n.recsz
        until_ := if n.tout = 0 then none else some (s.clock + n.tout), idxs := [] }
    let b : Batch := (r.opened.find? (fun b => b.node == pa)).getD fresh
    let b : Batch := { b with idxs := b.idxs ++ [idx] }
    let rest := r.opened.filter (fun b => b.node != pa)
    if b.rpl ≤ b.idxs.length then { r with opened := rest, closed := r.closed ++ [b] } else { r with opened := rest ++ [b] })

/-- R128, R137. A record enters the node's queue, at WRIDX, and its batch. -/
def State.acceptRecord (s : State) (n : Node) (pa : Nat) (pas : List Nat) (bs : List Byte) : State :=
  let d := s.qdesc n.qid
  ((s.homeWrite (pas.zip bs)).qdSet n.qid 0x14 4 (d.wr + n.recsz)).joinBatch n pa d.wr

/-- R127, R137, R377. A node's descriptor, at its physical address, as the issuing course sees it. -/
def State.withNode (s : State) (va : DWord) (f : Nat → Node → State) : State :=
  match s.fetchVa s.mine.aspace va 64 with
  | .bytes _ pa => f pa (Node.ofBytes (s.readBytes 0 pa 64))
  | x => s.tableOr x 1 (fun _ => s)

/-- R248. The node of a KIND 5 port of course (k, c), at its physical address, where it can be read. -/
def State.portNode (s : State) (k c q : Nat) : Fetched :=
  s.fetchVa (s.cons k).aspace ((s.crs k c).port q).arg 64

/-- R248, R249. Does a KIND 5 port hold a whole record that has not been delivered? -/
def State.portWhole (s : State) (k c q : Nat) : Bool :=
  let p := (s.crs k c).port q
  p.bound && p.kind == 5 && (match s.portNode k c q with
    | .bytes bs _ => (Node.ofBytes bs).recsz ≤ 4 * p.part.length && (Node.ofBytes bs).recsz != 0
    | _ => 4 ≤ p.part.length)

/-! ### Join counters (R116, R134, R138) -/

/-- R138. COUNT, ERR and UNDER after a decrement by an amount. -/
def jcAfter (word amount : Nat) (err : Bool) : Nat :=
  let count := word % 2 ^ 32
  let flags := word / 2 ^ 32
  let flags1 := if count < amount ∧ flags / 2 % 2 = 0 then flags + 2 else flags
  let flags2 := if err ∧ flags1 % 2 = 0 then flags1 + 1 else flags1
  (count - amount) + 2 ^ 32 * flags2

/-- R134, R138. A counter changes at its home slice, and waiters are woken when COUNT is zero. -/
def State.jcPut (s : State) (pa word : Nat) : State := s.hubWrite pa (leBytes 8 word)

end Sys2Proof.Machine
end

