-- ==== Sys2Proof/Machine/Queue.lean ====
section
/-!
DEFINITION. Queue ports: QBIND, QFREE, QSTAT and the stall limit (spec/08_lane_instructions.md R247 to R249).
-/

namespace Sys2Proof.Machine

/-- R249. Is the KIND of a binding word 0 to 5, and every bit outside the fields of that KIND zero? -/
def bindingWordOk (w : DWord) : Bool :=
  let kind := w.toNat % 8
  let rest := if kind = 2 ∨ kind = 3 then w.toNat - w.toNat % 8 - 256 * field w.toNat 10 8 else w.toNat - w.toNat % 8
  kind < 6 && rest == 0

/-- R249. A port is bound. -/
def Course.bind (c : Course) (q : Nat) (w arg : DWord) : Course :=
  c.setPort q { Port.unbound with bound := true, kind := w.setWidth 3, chan := BitVec.ofNat 3 (field w.toNat 10 8), arg := arg }

/-- R249, R404. QBIND, once its operands are within the counts: the port must be unbound, a mailbox registered in the course's
address space, and a node aligned and VALID; REG is the first operand at fault. -/
def State.qbind (s : State) (q : Nat) (a b : BitVec 6) : State :=
  let w := s.getS a.toNat
  let arg := s.getS b.toNat
  let kind := w.toNat % 8
  let bindIt (s : State) : State := (s.modMe (·.bind q w arg)).done
  if (s.me.port q).bound then s.fail .badHandle (112 + q)
  else if !bindingWordOk w then s.fail .badHandle a.toNat
  else if kind < 4 ∧ arg ≠ 0 then s.fail .badHandle b.toNat
  else if kind = 4 ∧ !s.work.mailboxes.any (fun m => m.num == arg.toNat && m.aspace == s.mine.aspace) then
    s.fail .badHandle b.toNat
  else if kind = 5 then
    if arg.toNat % 64 ≠ 0 then s.fail .badHandle b.toNat
    else s.withNode arg (fun _ n => if n.valid then bindIt s else s.fail .badHandle b.toNat)
  else bindIt s

/-- QBIND. -/
def execQbind (v : BitVec 4) (a b : BitVec 6) (s : State) : Host.Outcome State Fault Refusal :=
  s.gate (.qbind v a b) (fun s => s.qbind v.toNat a b)

/-- R249. Is an engine operation that names port q of course (k, c) in flight? -/
def State.portBusy (s : State) (k c q : Nat) : Bool :=
  s.portWhole k c q ||
    s.core.selq.any (fun o => o.k == k && o.c == c && o.port.toNat == q) ||
    s.core.selbufs.any (fun o => o.k == k && o.c == c && o.port.toNat == q) ||
    s.core.mq.any (fun e => e.k == k && e.c == c && (match e.op with
      | .accdr p _ _ => p.toNat == q
      | .accrd v _ _ _ _ => isPort v && portOf v == q
      | _ => false))

/-- R249. QFREE; DROPPED stays until the port is bound again. -/
def execQfree (v : BitVec 4) (s : State) : Host.Outcome State Fault Refusal :=
  .next (
    if s.portBusy s.iss.k s.iss.c v.toNat then s.stallFor .other
    else (s.modMe (fun c => c.setPort v.toNat { Port.unbound with dropped := (c.port v.toNat).dropped })).done)

/-- R249. The word that QSTAT reports of a port. -/
def State.portStat (s : State) (q : Nat) : Word :=
  let p := s.me.port q
  let level := if p.isSource then min 64 (s.portElems s.iss.k s.iss.c q).length
    else if p.isSink then s.portRoom s.iss.k s.iss.c q else 0
  BitVec.ofNat 32 (p.bound.toNat * 2 ^ 31 + p.kind.toNat * 2 ^ 28 + min 255 p.dropped * 2 ^ 16 + level)

/-- QSTAT. -/
def execQstat (v : BitVec 7) (a : BitVec 6) (s : State) : Host.Outcome State Fault Refusal :=
  s.gate (.qstat v a) (fun s =>
    let x := s.getS a.toNat
    if 16 ≤ x.toNat then s.fail .badHandle a.toNat
    else (s.writeDst v 5 (fun _ => s.portStat x.toNat)).done)

/-- R136, R247. QUEUE_STALL: a course stalled 2^20 clocks on ports or on a launch queue takes the cause. -/
def execQueueStall (k c : Nat) (s : State) : Host.Outcome State Fault Refusal :=
  s.stallOver k c (fun w => w == .port || w == .launch) .queueStall

end Sys2Proof.Machine
end

