-- ==== Sys2Proof/Machine/Launch.lean ====
section
/-!
DEFINITION. The launch instructions LNCH, EMIT, JCNEW, JCDEC, JCWAIT and MBOX, and the events of queues, graph nodes,
mailboxes and join counters (spec/04_launch.md R110 to R140).
-/

namespace Sys2Proof.Machine

/-! ### LNCH and EMIT (R136, R137) -/

/-- R260. A misaligned address that one access of the issue set names. -/
def State.misaligned (s : State) (va : DWord) (wr : Bool) : State :=
  s.trapWhole .misalign (info260 (lowest s.iss.set) wr false va.toNat)

/-- R136. May records be launched into queue q by a consort of an address space? -/
def State.launchOk (s : State) (q : DWord) (aspace : BitVec 16) : Bool :=
  let d := s.qdesc q.toNat
  q.toNat < 4096 && s.qdMine q.toNat && d.kind == 0 && d.enabled && !d.malformed && d.aspace == aspace

/-- R136. The fate of the 64 bytes of a record, as two sectors. -/
def State.recordFate (s : State) (va : DWord) : Fate :=
  match s.fate s.iss.k s.iss.c va 32 true false false with
  | .ok pa ch =>
    match s.fate s.iss.k s.iss.c (va + 32) 32 true false false with
    | .ok _ _ => .ok pa ch
    | x => x
  | x => x

/-- R260, R135. Every lane of the issue set parks at an absent translation. -/
def State.parkAll (s : State) (va : DWord) (entry access : Nat) : State :=
  s.park ((lanesOf s.iss.set).map (fun l => { lane := l, fate := .park entry, va := va })) access 1

/-- R126, R136. LNCH: the record joins the pending-launch queue; the release that LNCH is (R379) ends the region. -/
def State.lnch (s : State) (a q : BitVec 6) : State :=
  let va := s.getS a.toNat
  let k := s.iss.k
  let c := s.iss.c
  if va.toNat % 64 ≠ 0 then s.misaligned va false
  else if !s.launchOk (s.getS q.toNat) s.mine.aspace then s.fail .badHandle q.toNat
  else if 4 ≤ s.me.pending.length then s.stallFor .launch
  else match s.recordFate va with
    | .park e => s.parkAll va e 0
    | .trap cause => s.trapWhole cause (info260 (lowest s.iss.set) false false va.toNat)
    | .ok pa _ =>
      if s.atomPending k c [pa] 64 then s.stallFor .other
      else
        let p : Pending :=
          { bytes := s.readBytes 0 pa 64, queue := (s.getS q.toNat).toNat, upTo := s.nextId, region := s.me.region
            but := s.flying k c, waiting := false }
        ((((s.hold s.mine.aspace va).modMe (fun x => { x with pending := x.pending ++ [p] })).nextEpoch k c).nextRegion k c).done

/-- LNCH. -/
def execLnch (a q : BitVec 6) (s : State) : Host.Outcome State Fault Refusal := s.gate (.lnch a q) (fun s => s.lnch a q)

/-- R137. EMIT, once its operands are within the counts. It halts no queue (the model's choice, log entry 51). -/
def State.emit (s : State) (a o : BitVec 6) : State :=
  let off := (s.getS o.toNat).toNat
  let k := s.iss.k
  let c := s.iss.c
  if (s.getS a.toNat).toNat % 64 ≠ 0 then s.fail .badHandle a.toNat
  else s.withNode (s.getS a.toNat) (fun pa n =>
    let d := s.qdesc n.qid
    if !s.nodeOk n s.mine.aspace then s.fail .badHandle a.toNat
    else if off % 16 ≠ 0 || s.mine.spOff off n.recsz then s.switchOff s.iss.set
    else if s.mine.spPoisoned off n.recsz then s.trapWhole .poison (info260 (lowest s.iss.set) false false off)
    else if !s.releaseReady k c 3 then s.stallFor .other
    else if !d.room n.recsz then s.stallFor .launch
    else match s.ringPas d d.wr n.recsz with
      | .absent va => s.parkAll va 0 1
      | .bad cause va => s.trapWhole cause (info260 (lowest s.iss.set) true false va.toNat)
      | .pas pas => ((s.acceptRecord n pa pas (s.mine.spSee s.tick 0 off n.recsz)).releaseNow k c 3).done)

/-- EMIT. -/
def execEmit (a o : BitVec 6) (s : State) : Host.Outcome State Fault Refusal := s.gate (.emit a o) (fun s => s.emit a o)

/-! ### Join counters (R138) -/

/-- R138. An instruction that acts on the join counter at va: translation and permission. A counter in the host region is acted on
as one in device memory (the model's choice, log entry 51). -/
def State.withCounter (s : State) (va : DWord) (wr : Bool) (f : Nat → State) : State :=
  match s.xlate s.mine.aspace s.mine.hdr.checked va true wr with
  | .denied => s.trapWhole .xlateDenied (info260 (lowest s.iss.set) wr false va.toNat)
  | .absent e => s.parkAll va e (if wr then 2 else 0)
  | .ok pa _ =>
    if s.poisoned pa then s.trapWhole .poison (info260 (lowest s.iss.set) wr false va.toNat)
    else f pa

/-- R138. JCNEW and JCDEC: the counter takes the value f gives, once the course's earlier stores are visible. -/
def State.jcChange (s : State) (a n : BitVec 6) (f : Nat → Nat → Nat) : State :=
  let va := s.getS a.toNat
  let x := (s.getS n.toNat).toNat
  if va.toNat % 16 ≠ 0 then s.misaligned va true
  else if 2 ^ 32 ≤ x then s.fail .badHandle n.toNat
  else s.withCounter va true (fun pa =>
    if !s.releaseReady s.iss.k s.iss.c 3 then s.stallFor .other
    else ((s.jcPut pa (f (s.peek pa 8) x)).releaseNow s.iss.k s.iss.c 3).done)

/-- JCNEW. -/
def execJcnew (a n : BitVec 6) (s : State) : Host.Outcome State Fault Refusal :=
  s.gate (.jcnew a n) (fun s => s.jcChange a n (fun _ x => x))

/-- JCDEC. -/
def execJcdec (a n : BitVec 6) (s : State) : Host.Outcome State Fault Refusal :=
  s.gate (.jcdec a n) (fun s => s.jcChange a n (fun w x => jcAfter w x false))

/-- R138, R379. A JCWAIT completes with the counter's upper bits; it is an acquire. -/
def State.jcDone (s : State) (v : BitVec 7) (x : Word) : State :=
  (((s.writeDst v 5 (fun _ => x)).nextRegion s.iss.k s.iss.c).modMe (fun c =>
    { (c.soil [16 + v.toNat]) with hold := .none, age := s.clock })).done

/-- R377. Are stores of a course to n bytes from pa up still on their way home? -/
def State.storesTo (s : State) (k c pa n : Nat) : Bool :=
  s.ms.stores.any (fun t => t.k == k && t.c == c && t.cells.any (fun x => pa ≤ x.1 && x.1 < pa + n))

/-- R138, R377. JCWAIT, once its operands are within the counts: the course waits where COUNT is not zero. -/
def State.jcwait (s : State) (v : BitVec 7) (a : BitVec 6) : State :=
  let va := s.getS a.toNat
  match s.vecRead [] (some v) false [] true noCheck with
  | .error t => t
  | .ok (s1, _, _) =>
    if va.toNat % 16 ≠ 0 then s.misaligned va false
    else s.withCounter va false (fun pa =>
      if !s.loadsDone s.iss.k s.iss.c || s.storesTo s.iss.k s.iss.c pa 8 then s.stallFor .other
      else if s.peek pa 4 = 0 then s1.jcDone v (BitVec.ofNat 32 (s.peek (pa + 4) 4))
      else s.modMe (fun c => { c with hold := .jcwait pa v none s.iss, stall := none }))

/-- JCWAIT. -/
def execJcwait (v : BitVec 7) (a : BitVec 6) (s : State) : Host.Outcome State Fault Refusal :=
  s.gate (.jcwait v a) (fun s => s.jcwait v a)

/-- R414. A consort off the core may re-enter from now on. -/
def Consort.reenter (q : Consort) (clock : Nat) : Consort := { q with readyAt := some (q.readyAt.getD clock) }

/-! ### Mailboxes (R130, R131, R139) -/

/-- R139. A mailbox is released: what waits for it is discarded, and a handler that runs is its own no longer. -/
def State.releaseMailbox (s : State) (m : Nat) : State :=
  s.modWork (fun w =>
    { w with
      mailboxes := w.mailboxes.filter (fun b => b.num != m)
      arrivals := w.arrivals.filter (· != m)
      appends := w.appends.filter (fun a => a.mbox != m)
      handlers := w.handlers.map (fun h => if h.mbox = some m then { h with mbox := none } else h)
      launches := w.launches.map (fun l => if l.mbox = some m then { l with mbox := none } else l) })

/-- R139. Registering (handler not 0) or releasing the doorbell at an address of an address space; the result. -/
def State.mailbox (s : State) (bell handler : DWord) (aspace : BitVec 16) : State × Word :=
  let boxes := s.work.mailboxes
  match boxes.find? (fun b => b.doorbell == bell && b.aspace == aspace) with
  | some b => if handler = 0 then (s.releaseMailbox b.num, BitVec.ofNat 32 b.num) else (s, 0xFFFFFFFF)
  | none =>
    if handler = 0 then (s, 0xFFFFFFFF)
    else match (List.range 1024).find? (fun n => !boxes.any (fun b => b.num == n)) with
      | none => (s, 0xFFFFFFFF)
      | some n =>
        (s.freshId.1.modWork (fun w => { w with mailboxes := w.mailboxes ++
          [{ num := n, uid := s.nextId, doorbell := bell, handler := handler, aspace := aspace, running := false, count := 0 }] }),
         BitVec.ofNat 32 n)

/-- R139. MBOX, once its operands are within the counts. -/
def State.mbox (s : State) (v : BitVec 7) (a h : BitVec 6) : State :=
  match s.vecRead [] (some v) false [] true noCheck with
  | .error t => t
  | .ok _ =>
    if (s.getS a.toNat).toNat % 64 ≠ 0 then s.misaligned (s.getS a.toNat) false
    else if (s.getS h.toNat).toNat % 64 ≠ 0 then s.misaligned (s.getS h.toNat) false
    else s.answer v (fun s => s.mailbox (s.getS a.toNat) (s.getS h.toNat) s.mine.aspace)

/-- MBOX. -/
def execMbox (v : BitVec 7) (a h : BitVec 6) (s : State) : Host.Outcome State Fault Refusal :=
  s.gate (.mbox v a h) (fun s => s.mbox v a h)

/-! ### Consuming a record (R114, R118, R123, R128, R145) -/

/-- R118, R412. An absent translation met for queue q makes it FAULTED. -/
def State.faultQueue (s : State) (q : Nat) (va : DWord) : State :=
  (s.modQrun q (fun r => { r with faulted := true })).report
    { kind := 2, cause := 6, access := 0, course := 0xFF, aspace := (s.qdesc q).aspace, lanes := 0, cref := 0, ctx := 0
      addr := va }

/-- What stands at the head of a queue. -/
structure HeadRecord where
  bytes : List Byte
  inline : List Byte
  count : Nat
  length : Nat
  batch : Option Batch
  deriving DecidableEq, Repr

/-- How looking for a head record ends. -/
inductive Look where
  | empty
  | absent (va : DWord)
  | halt (errCause : Nat)
  | record (r : HeadRecord)
  deriving DecidableEq, Repr

/-- R118, R123. A read of the head record, or how it fails. -/
def Fetched.look (x : Fetched) (f : List Byte → Look) : Look :=
  match x with
  | .bytes bs _ => f bs
  | .absent _ va => .absent va
  | .denied _ => .halt 0x07
  | .poison _ => .halt 0x18

/-- R128. The records of a batch, read from the ring one after another. -/
def State.batchBytes (s : State) (d : QDesc) (recsz : Nat) : List Nat → Fetched
  | [] => .bytes [] 0
  | i :: is =>
    match s.ringFetch d i recsz with
    | .bytes bs _ =>
      match s.batchBytes d recsz is with
      | .bytes cs _ => .bytes (bs ++ cs) 0
      | x => x
    | x => x

/-- R17, R118, R122, R128, R151. The head record of queue q, when it is whole; a node outside the partition is one that cannot be read. A template's alignment is not tested (the model's choice, log
entry 51). -/
def State.lookHead (s : State) (q : Nat) : Look :=
  let d := s.qdesc q
  if d.kind = 2 then
    match (s.qrun q).closed with
    | [] => .empty
    | b :: _ =>
      if !s.spanOk b.node 64 then .halt 0x07
      else (s.fetchVa d.aspace b.tmpl 64).look (fun rb =>
        (s.batchBytes d b.recsz b.idxs).look (fun data =>
          .record { bytes := rb, inline := data, count := b.idxs.length, length := data.length, batch := some b }))
  else if d.level < 64 ∨ 2 ^ 31 ≤ d.level then .empty
  else (s.ringFetch d d.rd 64).look (fun rb =>
    let size := (rb.getD 1 0).toNat
    let len := if d.kind = 1 ∧ size < 3 then 64 * 2 ^ size else 64
    if d.size < len then .halt 0x15
    else if d.level < len then .empty
    else (s.ringFetch d (d.rd + 64) (len - 64)).look (fun inl =>
      .record { bytes := rb, inline := inl, count := if d.kind = 1 then inl.length else 0, length := len, batch := none }))

/-- R145, R146. Could a gang stand on the core with nothing else there? -/
def gangFits (h : Header) (cpg : Nat) : Bool :=
  cpg * h.courses ≤ 64 && cpg ≤ 16 && cpg * h.scratch ≤ 262144 && cpg * h.ntiles ≤ 8 && cpg * h.accslots ≤ 64 &&
    (!h.ctabbed || cpg ≤ 1)

/-- R114, R131, R133. The record at the head of queue q is refused: consumed, with nothing of it started. -/
def State.refuseHead (s : State) (q : Nat) (r : HeadRecord) : State :=
  let d := s.qdesc q
  let lr := LRecord.ofBytes r.bytes
  let hs := s.work.handlers.filter (fun h => h.queue == q && h.idx == d.rd)
  let s1 := ((s.qdSet q 0x10 4 (d.rd + r.length)).qdSet q 0x18 4 d.rd).qdSet q 0x1C 4 0x14
  let s2 := s1.modQrun q (fun x =>
    { x with head := none, closed := if r.batch.isSome then x.closed.drop 1 else x.closed })
  let s3 := s2.modWork (fun w =>
    { w with
      handlers := w.handlers.filter (fun h => !(h.queue == q && h.idx == d.rd))
      mailboxes := w.mailboxes.map (fun b =>
        if hs.any (fun h => h.mbox == some b.num) then { b with running := false, count := 0 } else b) })
  let s4 := s3.launchBad q 0xFF d.aspace 0
  if lr.jc then s4.decrementLater d.aspace lr.jcaddr true else s4

/-- R128. The template of a batch, its WIDBASE moved on by SEQ gangs modulo 2^W. -/
def LRecord.forBatch (r : LRecord) (seq : Nat) : LRecord :=
  { r with widbase := BitVec.ofNat 64 ((r.widbase.toNat + seq * 2 ^ r.low) % 2 ^ r.width) }

/-- R112, R115, R118. The record at the head of queue q becomes a launch whose gangs are to be released. -/
def State.acceptHead (s : State) (q : Nat) (r : HeadRecord) (hdr : Header) : State :=
  let d := s.qdesc q
  let (s1, id) := s.freshId
  let hand := s.work.handlers.find? (fun h => h.queue == q && h.idx == d.rd)
  let lr0 := LRecord.ofBytes r.bytes
  let lr := match r.batch with
    | some b => lr0.forBatch (s.peek (b.node + 0x18) 4)
    | none => lr0
  let l : Launch :=
    { id := id, queue := q, aspace := d.aspace, lr := lr, hdr := hdr, inline := r.inline, s0 := r.count, released := 0, live := 0
      err := false, node := r.batch.map (·.node), mbox := hand.bind (·.mbox), bell := hand.map (·.doorbell), rd := d.rd
      length := r.length }
  (s1.modQrun q (fun x => { x with head := some id, blocked := false })).modWork (fun w =>
    { w with launches := w.launches ++ [l], handlers := w.handlers.filter (fun h => !(h.queue == q && h.idx == d.rd)) })

/-- R114, R145. A whole head record is checked with its header, and refused or accepted. -/
def State.checkHead (s : State) (q : Nat) (r : HeadRecord) : State :=
  let d := s.qdesc q
  let la := lhAddr r.bytes
  let o : Origin := if r.batch.isSome then .batch
    else if s.work.handlers.any (fun h => h.queue == q && h.idx == d.rd) then .handler
    else if d.kind = 1 then .hostRing else .device
  if la.toNat % 64 ≠ 0 then s.refuseHead q r
  else match s.fetchVa d.aspace la 64 with
    | .absent _ va => s.faultQueue q va
    | .bytes hb _ =>
      if recordOk r.bytes hb o r.inline.length && gangFits (Header.ofBytes hb) (LRecord.ofBytes r.bytes).cpg then
        s.acceptHead q r (Header.ofBytes hb)
      else s.refuseHead q r
    | _ => s.refuseHead q r

/-- R17, R120, R121, R151. May queue q be consumed now? Only resident queues of the core's partition are, while the
distributors run. -/
def State.consumable (s : State) (q : Nat) : Bool :=
  !s.hub.stopped && s.hub.pstate.toNat < 2 && (s.qrun q).resident && !(s.qrun q).faulted && q < 4096 && s.qdMine q

/-- R118, R119. Does an accepted record stand at the head? It does until its last gang is released, unless RDIDX has been
moved. -/
def State.headLaunch (s : State) (q : Nat) : Option Launch :=
  match (s.qrun q).head with
  | none => none
  | some id => s.work.launches.find? (fun l => l.id == id && l.rd == (s.qdesc q).rd)

/-- R114, R117, R118, R123. LAUNCH_RECORD_CONSUME: the head of a resident queue is read and checked. -/
def execLaunchRecordConsume (q : Nat) (s : State) : Host.Outcome State Fault Refusal :=
  let d := s.qdesc q
  if !s.consumable q || d.halted || !d.enabled || 2 < d.kind || (s.headLaunch q).isSome then notNow
  else if d.malformed then .next (s.haltQueue q 0x15)
  else match s.lookHead q with
    | .empty => notNow
    | .absent va => .next (s.faultQueue q va)
    | .halt ec => .next (s.haltQueue q ec)
    | .record r => .next (s.checkHead q r)

/-! ### Pending launches (R126) -/

/-- R126. Every store that the course issued before the LNCH is visible at package scope. -/
def State.storesBefore (s : State) (k c upTo : Nat) : Bool :=
  !s.ms.stores.any (fun t => t.k == k && t.c == c && t.op < upTo) &&
    !s.ms.atoms.any (fun a => a.reqs.any (fun r => r.k == k && r.c == c && r.op < upTo))

/-- R387. A region closed at package scope, unless a later one is. -/
def State.closeAtPackage (s : State) (k c : Nat) (region : BitVec 32) (but : List Nat) : State :=
  if s.ms.closed.any (fun d => d.k == k && d.c == c && d.scope == 3 && region.toNat ≤ d.region.toNat) then s
  else s.closeRegion k c 3 region but

/-- R126, R132. What a course stored before a LNCH is seen by the launch's courses: no copy of what it replaced is left. -/
def State.seenBefore (s : State) (k c upTo : Nat) (but : List Nat) : State :=
  s.modMs (fun m => { m with stale := m.stale.filter (fun b =>
    !b.writers.any (fun w => w.2.1 == k && w.2.2.1 == c && w.2.2.2 < upTo && !but.contains w.2.2.2)) })

/-- R126. The oldest pending launch of a course leaves its queue. -/
def State.pendingGone (s : State) (k c : Nat) : State := s.modCrs k c (fun x => { x with pending := x.pending.drop 1 })

/-- R126. The oldest pending launch is dropped as a refused record. -/
def State.dropPending (s : State) (k c : Nat) (p : Pending) : State :=
  let q := s.cons k
  let lr := LRecord.ofBytes p.bytes
  let s1 := (s.pendingGone k c).launchBad p.queue c q.aspace q.ctx
  if lr.jc then s1.decrementLater q.aspace lr.jcaddr true else s1

/-- R126. PENDING_LAUNCH_APPEND: the oldest pending launch of a course enters its target, waits, or is dropped. -/
def execPendingLaunchAppend (k c : Nat) (s : State) : Host.Outcome State Fault Refusal :=
  match (s.crs k c).pending with
  | [] => notNow
  | p :: _ =>
    if p.waiting || !s.storesBefore k c p.upTo then notNow
    else if !s.qdMine p.queue then .next (s.dropPending k c p)
    else
      let s1 := s.testQueue p.queue
      let d := s1.qdesc p.queue
      if !d.enabled || d.halted || d.malformed || d.kind ≠ 0 then .next (s1.dropPending k c p)
      else if !d.room 64 then notNow
      else match s1.ringPas d d.wr 64 with
        | .bad _ _ => .next (s1.dropPending k c p)
        | .absent va =>
          .next ((s1.modCrs k c (fun x =>
            { x with pending := x.pending.take 1 |>.map (fun p => { p with waiting := true }) |>.append (x.pending.drop 1) })).report
            { kind := 2, cause := 6, access := 1, course := c, aspace := d.aspace, lanes := 0, cref := 0, ctx := (s.cons k).ctx
              addr := va })
        | .pas pas =>
          .next ((((s1.homeWrite (pas.zip p.bytes)).qdSet p.queue 0x14 4 (d.wr + 64)).pendingGone k c).closeAtPackage k c p.region p.but
            |>.seenBefore k c p.upTo p.but)

/-! ### Graph records (R128, R248) -/

/-- R128, R151, R248. GRAPH_RECORD_ACCEPT: a whole record of a KIND 5 port is delivered to its node, as by EMIT; one that cannot be
written to the queue's storage is dropped (log entry 51). -/
def execGraphRecordAccept (k c q : Nat) (s : State) : Host.Outcome State Fault Refusal :=
  let p := (s.crs k c).port q
  let cs := s.cons k
  let wait (va : DWord) : State := (s.modCrs k c (fun x => x.setPort q { p with waiting := true })).report
    { kind := 2, cause := 6, access := 1, course := c, aspace := cs.aspace, lanes := 0, cref := 0, ctx := cs.ctx, addr := va }
  if !cs.onCore || !s.portWhole k c q || p.waiting then notNow
  else match s.portNode k c q with
    | .absent _ va => .next (wait va)
    | .bytes bs pa =>
      let n := Node.ofBytes bs
      let d := s.qdesc n.qid
      if !s.nodeOk n cs.aspace || !s.storesDone k c 3 || !d.room n.recsz then notNow
      else match s.ringPas d d.wr n.recsz with
        | .absent va => .next (wait va)
        | .bad _ _ => .next ((s.modCrs k c (fun x => x.setPort q { p with part := p.part.drop (n.recsz / 4) })).launchBad n.qid c
            cs.aspace cs.ctx)
        | .pas pas =>
          let words := p.part.take (n.recsz / 4)
          .next ((s.acceptRecord n pa pas (words.flatMap (fun w => leBytes 4 w.toNat))).modCrs k c (fun x =>
            x.setPort q { p with part := p.part.drop (n.recsz / 4) }))
    | _ => notNow

/-- R128. GRAPH_BATCH_TIMEOUT: T clocks after its first record an open batch of the queue closes. -/
def execGraphBatchTimeout (q : Nat) (s : State) : Host.Outcome State Fault Refusal :=
  let due (b : Batch) : Bool := b.until_.any (fun t => t ≤ s.clock)
  match (s.qrun q).opened.find? due with
  | none => notNow
  | some b =>
    .next (s.modQrun q (fun r => { r with opened := r.opened.filter (fun x => x.node != b.node), closed := r.closed ++ [b] }))

/-! ### Arrivals (R131 to R133, R248) -/

def State.modBox (s : State) (m : Nat) (f : Mailbox → Mailbox) : State :=
  s.modWork (fun w => { w with mailboxes := modFirst (fun b => b.num == m) f w.mailboxes })

/-- R248. The payload of an arrival reaches a KIND 4 port, or DROPPED counts it. -/
def Port.payload (p : Port) (words : Option (List Elem)) : Port :=
  match words with
  | some es => if p.elems.length + 16 ≤ 64 then { p with elems := p.elems ++ es } else { p with dropped := min 255 (p.dropped + 1) }
  | none => { p with dropped := min 255 (p.dropped + 1) }

/-- R248. The sixteen words of a doorbell line, as elements. -/
def State.bellWords (s : State) (b : Mailbox) : Option (List Elem) :=
  match s.fetchVa b.aspace b.doorbell 64 with
  | .bytes bs _ => some ((List.range 16).map (fun i => { val := BitVec.ofNat 32 (leNat ((bs.drop (4 * i)).take 4)), tag := 0 }))
  | _ => none

/-- R418. The address of the auxiliary area that a context area names. -/
def State.auxAt (s : State) (ctx : Nat) : Nat := s.peek (ctx + 0x99000) 8

/-- R419. The address of the auxiliary area of a consort, and of its record of a port. -/
def State.auxArea (s : State) (q : Consort) : Nat := s.auxAt q.ctx

def auxPort (c n : Nat) : Nat := 0x14000 + 0x1800 * c + 0x180 * n

/-- A number of n bytes at an offset of a byte string. -/
def numAt (bs : List Byte) (o n : Nat) : Nat := leNat ((bs.drop o).take n)

/-- Entry i of a list as bytes, or zeros. -/
def padded {α : Type} (n : Nat) (xs : List α) (w : Nat) (f : α → List Byte) : List Byte :=
  (List.range n).flatMap (fun i => match xs[i]? with
    | some x => f x
    | none => List.replicate w 0)

/-- R419. A port, or a channel, as its 0x180 bytes. -/
def portBytes (word : Nat) (es : List Elem) (dropped : Nat) (arg : DWord) : List Byte :=
  let n := min 64 es.length
  leBytes 4 word ++ leBytes 2 n ++ leBytes 1 dropped ++ [0] ++ leBytes 8 arg.toNat ++
    padded 64 es 4 (fun e => leBytes 4 e.val.toNat) ++ padded 64 es 1 (fun e => [e.tag.setWidth 8]) ++ List.replicate 48 0

/-- R249, R419. A port's binding word with BOUND. -/
def Port.word (p : Port) : Nat := p.kind.toNat + 256 * p.chan.toNat + (if p.bound then 2 ^ 31 else 0)

/-- R250. What a port holds: elements to pop, or words pushed and not delivered. -/
def Port.held (p : Port) : List Elem :=
  if p.kind = 5 then p.part.map (fun w => { val := w, tag := 0 }) else p.elems

def Port.bytes (p : Port) : List Byte := portBytes p.word p.held p.dropped p.arg

/-- R419. The elements of a saved port or channel. -/
def savedElems (bs : List Byte) : List Elem :=
  (List.range (min 64 (numAt bs 4 2))).map (fun i => { val := BitVec.ofNat 32 (numAt bs (0x10 + 4 * i) 4), tag := (bs.getD (0x110 + i) 0).setWidth 4 })

/-- R249, R419. A port read back. -/
def Port.ofBytes (bs : List Byte) : Port :=
  let w := numAt bs 0 4
  let es := savedElems bs
  let kind : BitVec 3 := BitVec.ofNat 3 w
  { bound := 2 ^ 31 ≤ w, kind := kind, chan := BitVec.ofNat 3 (w / 256), arg := BitVec.ofNat 64 (numAt bs 8 8)
    elems := if kind = 5 then [] else es, dropped := numAt bs 6 1, part := if kind = 5 then es.map (·.val) else []
    waiting := false }

/-- R248, R421. Every KIND 4 port bound to mailbox m takes the payload of an arrival, one that stands saved in an auxiliary area
there. A port stays bound to the mailbox's number, whatever is registered under it later (the model's choice, log entry 72). -/
def State.payload (s : State) (m : Nat) (words : Option (List Elem)) : State :=
  let mine (p : Port) : Bool := p.bound && p.kind == 4 && p.arg.toNat == m
  let s1 : State := { s with consorts := s.consorts.map (fun q =>
    if q.onCore then { q with courses := q.courses.map (fun x =>
      { x with ports := vof 16 (fun n => if mine (x.port n) then (x.port n).payload words else x.port n) }) }
    else q) }
  let saved := s.consorts.filter (fun q => !q.onCore && q.place != .retired && s.spanOk q.ctx 0xA0000 && s.spanOk (s.auxArea q) 0x80000)
  forAll (saved.flatMap (fun q => q.courses.flatMap (fun x => (List.range 16).filterMap (fun n =>
      if mine (x.port n) then some (s.auxArea q + auxPort x.idx n) else none)))) s1
    (fun s a => s.partWrite a ((Port.ofBytes (memRead s.ms.mem a 0x180)).payload words).bytes)

/-- R443. A kick or an arrival returns the module from Idle to Run. -/
def State.wakeIdle (s : State) : State :=
  if s.hub.pstate = 2 then s.modHub (fun h => { h with pstate := 0, cclk := if h.therm then h.cclk else 2400 }) else s

/-- R131, R248. MAILBOX_ARRIVAL: the oldest arrival starts the handler of an IDLE mailbox, or is counted. -/
def execMailboxArrival (s : State) : Host.Outcome State Fault Refusal :=
  match s.work.arrivals with
  | [] => notNow
  | m :: rest =>
    let s1 := (s.modWork (fun w => { w with arrivals := rest })).wakeIdle
    match s.work.mailboxes.find? (fun b => b.num == m) with
    | none => .next s1
    | some b =>
      let s2 := s1.payload m (s.bellWords b)
      if b.running then .next (s2.modBox m (fun b => { b with count := min (2 ^ 32 - 1) (b.count + 1) }))
      else
        let a : Append := { mbox := m, doorbell := b.doorbell, handler := b.handler, aspace := b.aspace, waiting := false }
        .next ((s2.modBox m (fun b => { b with running := true, count := 1 })).modWork (fun w => { w with appends := w.appends ++ [a] }))

/-- R133. An append fails: the mailbox is IDLE again. -/
def State.appendFails (s : State) (a : Append) : State :=
  (((s.modWork (fun w => { w with appends := w.appends.filter (fun x => x.mbox != a.mbox) })).modBox a.mbox
    (fun b => { b with running := false, count := 0 }))).report
    { kind := 9, cause := 0x14, access := 0, course := 0xFF, aspace := a.aspace, lanes := 0, cref := 0, ctx := 0, addr := a.doorbell }

/-- R133. An append waits for fault service. -/
def State.appendWaits (s : State) (a : Append) (wr : Nat) (va : DWord) : State :=
  (s.modWork (fun w => { w with appends := w.appends.map (fun x => if x.mbox = a.mbox then { x with waiting := true } else x) })
    ).report
    { kind := 2, cause := 6, access := wr, course := 0xFF, aspace := a.aspace, lanes := 0, cref := 0, ctx := 0, addr := va }

/-- R133. HANDLER_APPEND: the handler record of mailbox m is read and appended to the queue it names; for uncorrected data and absent
ring storage see log entry 51. -/
def execHandlerAppend (m : Nat) (s : State) : Host.Outcome State Fault Refusal :=
  match s.work.appends.find? (fun a => a.mbox == m && !a.waiting) with
  | none => notNow
  | some a =>
    match s.fetchVa a.aspace a.handler 64 with
    | .absent _ va => .next (s.appendWaits a 0 va)
    | .bytes bs _ =>
      let q := leNat ((bs.drop 0x2C).take 4)
      if 4096 ≤ q ∨ !s.qdMine q then .next (s.appendFails a)
      else
        let s1 := s.testQueue q
        let d := s1.qdesc q
        if !d.enabled || d.malformed || d.kind ≠ 0 || d.aspace ≠ a.aspace then .next (s1.appendFails a)
        else if !d.room 64 then notNow
        else match s1.ringPas d d.wr 64 with
          | .absent va => .next (s1.appendWaits a 1 va)
          | .bad _ _ => .next (s1.appendFails a)
          | .pas pas =>
            .next (((s1.homeWrite (pas.zip bs)).qdSet q 0x14 4 (d.wr + 64)).modWork (fun w =>
              { w with
                appends := w.appends.filter (fun x => x.mbox != m)
                handlers := w.handlers ++ [{ queue := q, idx := d.wr, mbox := some m, doorbell := a.doorbell }] }))
    | _ => .next (s.appendFails a)

/-! ### Join-counter decrements of the device (R116) -/

/-- R116. JC_RETIRE_DECREMENT: decrement n of those the device has to make is made, waits, or changes no counter. -/
def execJcRetireDecrement (n : Nat) (s : State) : Host.Outcome State Fault Refusal :=
  match s.work.jcwork[n]? with
  | none => notNow
  | some j =>
    let gone : State := s.modWork (fun w => { w with jcwork := w.jcwork.eraseIdx n })
    let failed : State := gone.report
      { kind := 10, cause := 0, access := 2, course := 0xFF, aspace := j.aspace, lanes := 0, cref := 0, ctx := 0, addr := j.addr }
    if j.waiting then notNow
    else if j.addr.toNat % 16 ≠ 0 then .next failed
    else match s.xlate j.aspace false j.addr true true with
      | .denied => .next failed
      | .absent _ =>
        .next ((s.modWork (fun w => { w with jcwork := w.jcwork.set n { j with waiting := true } })).report
          { kind := 2, cause := 6, access := 2, course := 0xFF, aspace := j.aspace, lanes := 0, cref := 0, ctx := 0, addr := j.addr })
      | .ok pa _ => if s.poisoned pa then .next failed else .next (gone.jcPut pa (jcAfter (s.peek pa 8) 1 j.err))

end Sys2Proof.Machine
end

