-- ==== Sys2Proof/Machine/Fetch.lean ====
section
/-!
DEFINITION. What stands at the code reference of a course's issue set (spec/02_encoding.md R47, R48, R76;
spec/06_overlays.md R162, R164, R185), and the registers that instruction names (R155, R200).
-/

namespace Sys2Proof.Machine

/-- What a course would issue. -/
inductive Fetch where
  /-- No lane runs. -/
  | idle
  /-- R164, R470. Its overlay is not RESIDENT. -/
  | absent
  /-- R48. A halfword of it lies beyond LEN. -/
  | beyond
  /-- R78. No instruction; ENC and length. -/
  | undefined (enc : BitVec 32) (len : Nat)
  | instr (i : Instr) (len : Nat)
  deriving DecidableEq, Repr

/-- R47, R48, R185. Up to four halfwords of an instance from a halfword offset on. -/
def Inst.window (i : Inst) (off : Nat) : List (BitVec 16) := halfwords ((i.bytes.drop (2 * off)).take 8)

/-- R47, R76, R185. The fetch of a course. -/
def State.fetch (s : State) (k c : Nat) : Fetch :=
  let q := s.cons k
  let x := q.crs c
  match x.issueSet with
  | none => .idle
  | some (set, _) =>
    let r := x.lpcAt (lowest set)
    match s.instFor q (refOv r) with
    | some i =>
      if i.st = .resident then
        match decode (i.window (r.toNat % 65536)) with
        | .instr j len => .instr j len
        | .undefined enc len => .undefined enc len
        | .short => .beyond
      else .absent
    | none => .absent

/-- R75, R76. Does a LIMM stand first? Only the pair is as long as three halfwords or more. -/
def limmFirst (len : Nat) : Bool := 3 ≤ len

/-- R76, R79, R192. The record of an issue: the instruction's own reference is past its LIMM. -/
def Issue.make (k c : Nat) (set : BitVec 32) (at_ : BitVec 32) (len : Nat) (enc : BitVec 32) : Issue :=
  { k := k, c := c, own := if limmFirst len then refAdd at_ 2 else at_, at_ := at_, set := set, len := len, enc := enc, refused := 0 }

/-- R79. ENC of an instruction. -/
def Instr.enc (i : Instr) : BitVec 32 :=
  match i with
  | .limm _ fw => fw
  | i => BitVec.ofNat 32 (encodeWord i)

/-- R155. The lines of the vector registers that an instruction names. -/
def Instr.lines (i : Instr) : List Nat :=
  (Instr.names i).filterMap (fun o => match o with
    | .v n => if n < 112 then some (16 + n) else none
    | _ => none)

/-- R154, R155. The header lines. -/
def headerLines : List Nat := List.range 8

/-- R155, R156. The lines that a course's next instruction needs and that are not in the register cache. -/
def State.missingLines (s : State) (k c : Nat) : List Nat :=
  let x := s.crs k c
  let named : List Nat := match s.fetch k c with
    | .instr i _ => (Instr.lines i).filter (fun r => r < 16 + (s.cons k).hdr.vregs)
    | _ => []
  (headerLines ++ named).filter (fun r => !x.lines.any (fun y => y.reg == r))

/-- R200, R307, R332. Vector registers of a course that await data of a load, an atomic, an ACCRD or a bin scatter. -/
def State.awaiting (s : State) (k c n : Nat) : Bool :=
  s.ms.loads.any (fun l => l.blocks k c n) ||
    s.ms.atoms.any (fun a => a.reqs.any (fun r => r.k == k && r.c == c && r.dest == some n)) ||
    s.core.mq.any (fun e => e.k == k && e.c == c && (match e.op with
      | .accrd v _ _ _ _ => v.toNat == n
      | _ => false)) ||
    s.core.bins.any (fun b => b.k == k && b.c == c &&
      !b.gather && b.v.toNat == n)

/-- R200, R227. Scalar registers that await data. -/
def State.awaitingS (s : State) (k c n : Nat) : Bool :=
  s.ms.loads.any (fun l => l.k == k && l.c == c && l.scalar.any (fun d => d.1 == n))

/-- R200. Does an instruction name a register that awaits data? -/
def State.blockedOn (s : State) (k c : Nat) (i : Instr) : Bool :=
  (Instr.names i).any (fun o => match o with
    | .v n => s.awaiting k c n
    | .s n => s.awaitingS k c n
    | .t _ => false)

end Sys2Proof.Machine
end

