-- ==== Sys2Proof/Machine/Image.lean ====
section
/-!
DEFINITION. Context images (spec/05_placement.md R154 to R159; spec/15_interruption.md R403, R404, R409;
spec/10_copies_and_bins.md R295), and the explicitly saved state (spec/15_interruption.md R416 to R419), as bytes in memory.
-/

namespace Sys2Proof.Machine

/-! ### A line of a context image (R154) -/

/-- R154. The code of a lane state. -/
def LaneState.code : LaneState → Nat
  | .running => 0 | .parked => 1 | .off => 2 | .exited => 3
  | .waiting m => 4 + m.toNat

def LaneState.ofCode (n : Nat) : LaneState :=
  match n with
  | 0 => .running | 1 => .parked | 2 => .off | 3 => .exited
  | m => .waiting (BitVec.ofNat 4 (m - 4))

/-- R295. The image byte of a token. -/
def Token.byte (t : Token) : Byte :=
  match t.st with
  | .free => 0 | .pending => 1
  | .error c => BitVec.ofNat 8 (4 * c.code.toNat + 2)

/-- R295. A token whose image byte has been read back; what an error keeps beside it is not in that byte. -/
def Token.ofByte (t : Token) (b : Byte) : Token :=
  match b.toNat % 4 with
  | 0 => Token.fresh
  | 1 => { t with st := .pending }
  | _ => match Cause.ofCode (BitVec.ofNat 8 (b.toNat / 4)) with
    | some c => { t with st := .error c }
    | none => Token.fresh

/-- Two nibbles a byte, the even one low. -/
def nibbles (n : Nat) (f : Nat → Nat) : List Byte := (List.range n).map (fun i => BitVec.ofNat 8 (f (2 * i) + 16 * f (2 * i + 1)))

def nibbleAt (bs : List Byte) (i : Nat) : Nat := (bs.getD (i / 2) 0).toNat / (if i % 2 = 0 then 1 else 16) % 16

/-- R154. The 128 bytes of line r of a course's image. -/
def Course.line (c : Course) (r : Nat) : List Byte :=
  match r with
  | 0 => (List.range 32).flatMap (fun l => leBytes 4 (c.lpcAt l).toNat)
  | 1 => (List.range 12).flatMap (fun n => leBytes 4 (c.getM n).toNat) ++ nibbles 16 (fun l => (c.laneAt l).code) ++
      nibbles 56 (fun n => (c.getV n).tag.toNat) ++ leBytes 4 c.lapped.toNat ++
      [c.fpmode.setWidth 8, if c.probef then 1 else 0, 0, 0]
  | 6 => (List.range 8).map (fun n => (c.token n).byte) ++ leBytes 1 c.loads ++ leBytes 1 c.stores ++ leBytes 1 c.copies ++
      leBytes 1 c.tiles ++ List.replicate 52 0 ++ leBytes 8 c.trapcause.toNat ++ leBytes 8 c.trapinfo.toNat ++
      leBytes 8 c.missref.toNat ++ leBytes 8 c.hmask.toNat ++ leBytes 8 c.lastref.toNat ++ leBytes 4 c.ntraps.toNat ++
      List.replicate 20 0
  | 7 => List.replicate 128 0
  | r =>
    if r < 6 then (List.range 16).flatMap (fun i => leBytes 8 (vget c.s 0 (16 * (r - 2) + i)).toNat)
    else (List.range 32).flatMap (fun l => leBytes 4 ((c.getV (r - 16)).at l).toNat)

/-- R154. A course with the contents of line r taken from 128 bytes. -/
def Course.setLine (c : Course) (r : Nat) (bs : List Byte) : Course :=
  match r with
  | 0 => { c with lpc := vof 32 (fun l => BitVec.ofNat 32 (numAt bs (4 * l) 4)) }
  | 1 =>
    { c with
      m := vof 12 (fun n => BitVec.ofNat 32 (numAt bs (4 * n) 4))
      lane := vof 32 (fun l => LaneState.ofCode (nibbleAt (bs.drop 48) l))
      v := vof 112 (fun n => { (c.getV n) with tag := BitVec.ofNat 4 (nibbleAt (bs.drop 64) n) })
      lapped := BitVec.ofNat 32 (numAt bs 120 4)
      fpmode := (bs.getD 124 0).setWidth 3
      probef := (bs.getD 125 0).getLsbD 0 }
  | 6 =>
    { c with
      tokens := vof 8 (fun n => (c.token n).ofByte (bs.getD n 0))
      loads := numAt bs 8 1, stores := numAt bs 9 1, copies := numAt bs 10 1, tiles := numAt bs 11 1
      trapcause := bs.getD 64 0
      trapinfo := BitVec.ofNat 64 (numAt bs 72 8)
      missref := BitVec.ofNat 64 (numAt bs 80 8)
      hmask := BitVec.ofNat 32 (numAt bs 88 4)
      lastref := BitVec.ofNat 40 (numAt bs 96 5)
      ntraps := BitVec.ofNat 32 (numAt bs 104 4) }
  | 7 => c
  | r =>
    if r < 6 then { c with s := vof 64 (fun i => if i / 16 + 2 = r then BitVec.ofNat 64 (numAt bs (8 * (i % 16)) 8) else vget c.s 0 i) }
    else { c with v := vset c.v (r - 16) { (c.getV (r - 16)) with lanes := vof 32 (fun l => BitVec.ofNat 32 (numAt bs (4 * l) 4)) } }

/-- R150, R154. The address of line r of course c's image. -/
def Consort.lineAt (q : Consort) (c r : Nat) : Nat := q.ctx + 0x4000 * c + 128 * r

/-- R154, R155. The lines of a consort's images that exist: the header's, and those of the declared registers. -/
def Consort.allLines (q : Consort) : List Nat := headerLines ++ (List.range q.hdr.vregs).map (16 + ·)

/-- R17. Line r of a course's image as memory holds it; as the course has it where the area lies outside the partition. -/
def State.imageLine (s : State) (q : Consort) (c r : Nat) : List Byte :=
  if s.spanOk (q.lineAt c r) 128 then memRead s.ms.mem (q.lineAt c r) 128 else (q.crs c).line r

/-- R157, R158. Line r of a course is written to its image. -/
def State.putLine (s : State) (k c r : Nat) : State := s.partWrite ((s.cons k).lineAt c r) ((s.crs k c).line r)

def Course.hasLine (c : Course) (r : Nat) : Bool := c.lines.any (fun y => y.reg == r)

def Course.dirtyLine (c : Course) (r : Nat) : Bool := c.lines.any (fun y => y.reg == r && y.dirty)

/-- R158, R159, R413. The header of a course off the core: lines with nothing left to write back are read from the image, where
firmware may have edited them. -/
def State.refresh (s : State) (k c : Nat) : State :=
  let q := s.cons k
  forAll (headerLines.filter (fun r => !(q.crs c).dirtyLine r)) s (fun s r => s.modCrs k c (·.setLine r (s.imageLine q c r)))

/-- R158, R413. After a change of a saved course's header: cached lines are dirty, the others stand in the image. -/
def State.syncHeader (s : State) (k c : Nat) : State :=
  let x := s.crs k c
  let s1 := forAll (headerLines.filter (fun r => !x.hasLine r)) s (fun s r => s.putLine k c r)
  s1.modCrs k c (fun x => { x with lines := x.lines.map (fun y => if y.reg < 8 then { y with dirty := true } else y) })

/-! ### The explicitly saved state (R417 to R419) -/

/-- n bytes that the spec leaves to the device, for a position. -/
def State.openBytes (s : State) (pos n : Nat) : List Byte := (List.range n).map (fun i => Config.openByte s.tick (pos + i))

/-- R313. The bytes a row of a tile copy takes. -/
def TileCopy.rowSpan (c : TileCopy) : Nat := if c.narrow then 16 else 64

/-- R417. The saved part of a tile copy: its header is the device's own. -/
def TileCopy.body (c : TileCopy) : List Byte :=
  let data := c.data.flatMap (fun row => (row ++ List.replicate (c.rowSpan - row.length) (0 : Byte)).take c.rowSpan)
  let factors : List Byte := c.factors.flatMap (fun row => (row.zip (List.range 3)).flatMap (fun x => leBytes 4 x.1.2.toNat) ++
    List.replicate (12 - 4 * min 3 row.length) (0 : Byte))
  (data ++ List.replicate (1024 - data.length) (0 : Byte)).take 1024 ++ (factors ++ List.replicate (192 - factors.length) 0).take 192

/-- R417. A tile copy with its data and factors read back. -/
def TileCopy.ofBody (c : TileCopy) (bs : List Byte) : TileCopy :=
  { c with
    data := (c.data.zip (List.range c.data.length)).map (fun d => (bs.drop (c.rowSpan * d.2)).take d.1.length)
    factors := (c.factors.zip (List.range c.factors.length)).map (fun f =>
      (f.1.zip (List.range f.1.length)).map (fun x => (x.1.1, BitVec.ofNat 32 (numAt bs (1024 + 12 * f.2 + 4 * x.2) 4)))) }

/-- R417. Where a copy of a tile register is saved. -/
def tileArea (t k : Nat) : Nat := 0x94000 + 0xA00 * t + 0x500 * k

/-- R317, R417. The entries of a slot, as bytes. -/
def Slot.bytes (x : Slot) : List Byte := x.entries.toList.flatMap (fun e => leBytes 5 e.toNat)

/-- R418. The word of a slot in the control block. -/
def Slot.word (x : Slot) : Nat := x.ver.toNat + 2 ^ 16 * x.i40.toNat + 2 ^ 17 * x.lock.toNat

/-- R99. The active entries of the code table. -/
def State.activeTable (s : State) : List (BitVec 16) := (List.range 16).map (fun i => vget s.core.ctab 0 (16 * (s.core.ctgen.toNat % 2) + i))

/-- R99. The entries of the code table that are not active. -/
def State.spareTable (s : State) : List (BitVec 16) :=
  (List.range 16).map (fun i => vget s.core.ctab 0 (16 * ((s.core.ctgen.toNat + 1) % 2) + i))

/-- R418. BARHELD of a course. -/
def Course.barHeld (c : Course) : Nat :=
  match c.hold with
  | .bar b g => g.toNat + 2 ^ 32 * b.toNat + 2 ^ 36
  | _ => 0

/-- R418. The control block from CTGEN on, without AUXADDR and SAVEKIND before it, and without PRIVATE. -/
def State.controlBlock (s : State) (q : Consort) : List Byte :=
  let ct := q.hdr.ctabbed
  (if ct then leBytes 4 s.core.ctgen.toNat ++ s.activeTable.flatMap (fun e => leBytes 2 e.toNat) else List.replicate 36 0) ++
  List.replicate 16 0 ++
  padded 64 (q.slots.toList.take q.hdr.accslots) 4 (fun x => leBytes 4 x.word) ++
  padded 16 q.bars.toList 8 (fun b => leBytes 8 (b.gen.toNat + 2 ^ 32 * b.arr.toNat)) ++
  padded 8 q.rtokens 4 (fun t => leBytes 4 (t.ov.toNat + 2 ^ 16 * t.count)) ++
  List.replicate 32 0 ++
  padded 16 q.courses 4 (fun c => leBytes 4 c.region.toNat) ++
  padded 16 q.courses 8 (fun c => leBytes 8 c.barHeld) ++
  padded 16 q.courses 32 (fun c => c.tokens.toList.flatMap (fun t => leBytes 4 (t.failed.toNat + 2 ^ 16 * t.detail.toNat))) ++
  List.replicate 320 0

/-- R374, R419. Selection elements of a consort that have not been pushed, in delivery order, with their port and course. -/
def State.undelivered (s : State) (k : Nat) : List (Elem × Nat × Nat) :=
  (s.core.selbufs.filter (fun b => b.k == k)).flatMap (fun b => b.elems.map (fun e => (e, b.port.toNat, b.c)))

/-- R374. An element that a KIND 0 port holds beyond 64 is undelivered too. -/
def Consort.excess (q : Consort) : List (Elem × Nat × Nat) :=
  q.courses.flatMap (fun c => (List.range 16).flatMap (fun n => ((c.port n).elems.drop 64).map (fun e => (e, n, c.idx))))

/-- R416 to R419. The explicitly saved state is written to the context area and the auxiliary area. -/
def State.saveExplicit (s : State) (k kind : Nat) : State :=
  let q := s.cons k
  let aux := s.auxArea q
  let und := q.excess ++ s.undelivered k
  let put (off : Nat) (bs : List Byte) (s : State) : State := s.partWrite (q.ctx + off) bs
  let putAux (off : Nat) (bs : List Byte) (s : State) : State := s.partWrite (aux + off) bs
  let s1 := put 0x40000 (q.spRead 0 q.hdr.scratch) s
  let s2 := forAll (List.range q.hdr.accslots) s1 (fun s n => put (0x80000 + 1280 * n) (vget q.slots Slot.blank n).bytes s)
  let s3 := forAll (List.range 16) s2 (fun s i =>
    let cp := (vget q.tiles Tile.blank (i / 2)).copy (i % 2 == 1)
    if cp.st = .empty then s else put (tileArea (i / 2) (i % 2)) (s.openBytes (64 * i) 64 ++ cp.body) s)
  let s4 := put 0x99008 (leBytes 4 kind ++ s.controlBlock q ++ s.openBytes 4096 2560) s3
  let s5 := forAll (List.range q.buffers) s4 (fun s n => putAux (0x1240 * n) (s.openBytes (8192 * (n + 1)) 0x1240) s)
  let s6 := forAll q.courses s5 (fun s c => forAll (List.range 16) s (fun s n => putAux (auxPort c.idx n) (c.port n).bytes s))
  let s7 := forAll (List.range 8) s6 (fun s n => putAux (0x2C000 + 0x180 * n) (portBytes 0 (vget q.channels [] n) 0 0) s)
  putAux 0x2D000 (und.flatMap (fun x => leBytes 8 (x.1.val.toNat + 2 ^ 32 * x.1.tag.toNat + 2 ^ 36 * x.2.1 + 2 ^ 40 * x.2.2)))
    (putAux 0x2CC00 (leBytes 4 und.length) s7)

/-- R418. A course with what the control block and the auxiliary area hold of it. -/
def State.restoreCourse (s : State) (q : Consort) (aux : Nat) (und : List (Elem × Nat × Nat)) (c : Course) : Course :=
  let cb (o n : Nat) : Nat := s.peek (q.ctx + 0x99000 + o) n
  let held := cb (0x240 + 8 * c.idx) 8
  { c with
    region := BitVec.ofNat 32 (cb (0x200 + 4 * c.idx) 4)
    hold := if field held 36 36 = 1 then .bar (BitVec.ofNat 4 (held / 2 ^ 32)) (BitVec.ofNat 32 held)
      else match c.hold with
        | .bar _ _ => .none
        | h => h
    tokens := vof 8 (fun n =>
      let w := cb (0x2C0 + 32 * c.idx + 4 * n) 4
      { (c.token n) with failed := BitVec.ofNat 16 w, detail := BitVec.ofNat 8 (w / 2 ^ 16) })
    ports := vof 16 (fun n =>
      let p := Port.ofBytes (memRead s.ms.mem (aux + auxPort c.idx n) 0x180)
      if c.retired then Port.unbound else { p with elems := p.elems ++ (und.filter (fun x => x.2.1 == n && x.2.2 == c.idx)).map (·.1) }) }

/-- R99, R420, R421. The explicit state of a re-entering consort is restored, both buffers of the code table included (log entry
56). -/
def State.restoreExplicit (s : State) (k : Nat) : State :=
  let q := s.cons k
  let aux := s.auxArea q
  let cb (o n : Nat) : Nat := s.peek (q.ctx + 0x99000 + o) n
  let und : List (Elem × Nat × Nat) := (List.range (min 32768 (s.peek (aux + 0x2CC00) 4))).map (fun i =>
    let w := s.peek (aux + 0x2D000 + 8 * i) 8
    ({ val := BitVec.ofNat 32 w, tag := BitVec.ofNat 4 (w / 2 ^ 32) }, field w 39 36, field w 43 40))
  let gen : BitVec 32 := BitVec.ofNat 32 (cb 0x0C 4)
  let s1 := s.modCons k (fun q =>
    { q with
      scratch := ((List.range q.hdr.scratch).zip (memRead s.ms.mem (q.ctx + 0x40000) q.hdr.scratch)).filter (fun x => x.2 != 0)
      slots := vof 64 (fun n =>
        if n < q.hdr.accslots then
          let w := cb (0x40 + 4 * n) 4
          { entries := vof 256 (fun e => BitVec.ofNat 40 (s.peek (q.ctx + 0x80000 + 1280 * n + 5 * e) 5))
            i40 := field w 16 16 == 1, ver := BitVec.ofNat 16 w, lock := field w 17 17 == 1 }
        else Slot.blank)
      tiles := vof 8 (fun t =>
        let x := vget q.tiles Tile.blank t
        let back (c : Bool) : TileCopy :=
          let cp := x.copy c
          if cp.st = .empty then cp
          else { (cp.ofBody (memRead s.ms.mem (q.ctx + tileArea t c.toNat + 64) 1216)) with pins := 0 }
        { c0 := back false, c1 := back true, latest := x.latest })
      bars := vof 16 (fun b => let w := cb (0x140 + 8 * b) 8; { gen := BitVec.ofNat 32 w, arr := BitVec.ofNat 16 (w / 2 ^ 32) })
      rtokens := ((List.range 8).map (fun n => let w := cb (0x1C0 + 4 * n) 4
        { ov := BitVec.ofNat 16 w, count := field w 23 16 : RToken })).filter (fun t => t.count != 0)
      channels := vof 8 (fun n => savedElems (memRead s.ms.mem (aux + 0x2C000 + 0x180 * n) 0x180))
      courses := q.courses.map (s.restoreCourse q aux und) })
  if q.hdr.ctabbed then
    s1.modCore (fun c =>
      { c with
        ctgen := gen
        ctab := vof 32 (fun i =>
          if i / 16 = gen.toNat % 2 then BitVec.ofNat 16 (cb (0x10 + 2 * (i % 16)) 2) else q.spareTab.getD (i % 16) (vget c.ctab 0 i)) })
  else s1

end Sys2Proof.Machine
end

