-- ==== Sys2Proof/Machine/Place.lean ====
section
/-!
DEFINITION. Placement: what a core can hold, the release of gangs, tenants, the register cache, the context-area pool and
what firmware does to a core (spec/05_placement.md R141 to R160; spec/06_overlays.md R163, R186; spec/07_issue_and_control.md
R207).
-/

namespace Sys2Proof.Machine

/-! ### The fit test (R146, R163, R186, R342) -/

/-- R146. The ranges of granules that the consorts on the core hold: first granule and number. -/
def State.granules (s : State) : List (Nat × Nat) :=
  (s.consorts.filter (·.onCore)).map (fun q => (q.spBase, q.hdr.scratch / 128))

/-- R146. First fit by address: the lowest granule from which n are free, where there is one. -/
def firstFit (used : List (Nat × Nat)) (n : Nat) : Option Nat :=
  let free (p : Nat) : Bool := p + n ≤ 2048 && used.all (fun u => u.2 == 0 || n == 0 || u.1 + u.2 ≤ p || p + n ≤ u.1)
  let able := (0 :: used.map (fun u => u.1 + u.2)).filter free
  match able with
  | [] => none
  | p :: ps => some (ps.foldl min p)

/-- R144, R146. Ranges for m consorts of n granules each, in ascending order of consort. -/
def fitRanges (used : List (Nat × Nat)) (n : Nat) : Nat → Option (List Nat)
  | 0 => some []
  | m + 1 =>
    match firstFit used n with
    | none => none
    | some p => (fitRanges (used ++ [(p, n)]) n m).map (p :: ·)

/-- The distinct overlays of a list. -/
def distinctOv : List (BitVec 16) → List (BitVec 16)
  | [] => []
  | x :: xs => x :: (distinctOv xs).filter (· != x)

/-- R146, R186. The frames that overlays of a consort's table need which are not there for its tenant, those of a load that waits for
its frames among them, or the address of an absent entry. -/
def State.framesFor (s : State) (q : Consort) : List (BitVec 16) → Except DWord Nat
  | [] => .ok 0
  | ov :: rest =>
    match s.framesFor q rest with
    | .error va => .error va
    | .ok n =>
      match s.instFor q ov with
      | some i => .ok (if i.framed then n else n + i.entry.frames)
      | none => match s.readEntry q ov with
        | .absent va => .error va
        | .bad _ _ => .ok n
        | .entry e => .ok (n + e.frames)

/-- R146, R165. Frames that are free, or that could be freed at once for a load of the tenant; the instances it needs stay. -/
def State.framesFree (s : State) (q : Consort) (ovs : List (BitVec 16)) : Nat :=
  let keep (i : Inst) : Bool := ovs.any (fun ov => i.serves q.aspace q.hdr.otaddr ov)
  (128 - s.framesUsed) + (((s.victims.filter (fun i => !keep i)).map (·.entry.frames)).foldl (· + ·) 0)

/-- R163. Is the local number of a tenant free: no consort of it on the core, and no load of its own or that it waits for? -/
def State.tenantGone (s : State) (t : BitVec 16) : Bool :=
  !s.consorts.any (fun q => q.onCore && q.aspace == t) &&
    !s.core.insts.any (fun i => i.st == .loading && (i.sharers.any (·.aspace == t) || i.joiners.any (·.aspace == t)))

/-- R163. The local numbers that a new tenant could take: unused ones (none), or those of departed tenants. -/
def State.freeNumbers (s : State) : List (Option (BitVec 16)) :=
  (s.core.tenants.filter s.tenantGone).map some ++ (if s.core.tenants.length < 4 then [none] else [])

def State.tenantFits (s : State) (t : BitVec 16) : Bool := s.core.tenants.contains t || !s.freeNumbers.isEmpty

/-- R163. A tenant takes a free local number, if it has none: a departed tenant leaves every sharer mask, and instances left
with no sharer are freed. -/
def State.takeTenant (s : State) (t : BitVec 16) : State :=
  if s.core.tenants.contains t then s
  else match s.freeNumbers[Config.choose s.tick % s.freeNumbers.length]? with
    | some (some old) =>
      s.modCore (fun c =>
        { c with
          tenants := c.tenants.filter (· != old) ++ [t]
          insts := (c.insts.map (fun i => { i with sharers := i.sharers.filter (·.aspace != old) })).filter
            (fun i => !i.sharers.isEmpty) })
    | _ => s.modCore (fun c => { c with tenants := c.tenants ++ [t] })

/-- How the fit test of a gang ends. -/
inductive Fit where
  | fits (ranges : List Nat)
  | no
  | absent (va : DWord)
  deriving DecidableEq, Repr

/-- R146. Does the core hold m more consorts of a launch header, with so many landing buffers? q stands for them, and ovs are
the overlays that must be resident. -/
def State.fit (s : State) (q : Consort) (m : Nat) (ovs : List (BitVec 16)) (buffers : Nat) : Fit :=
  let here := s.consorts.filter (·.onCore)
  let h := q.hdr
  let sum (f : Header → Nat) : Nat := (here.map (fun q => f q.hdr)).foldl (· + ·) (m * f h)
  match s.framesFor q ovs with
  | .error va => .absent va
  | .ok n =>
    match fitRanges s.granules (h.scratch / 128) m with
    | none => .no
    | some ps =>
      if sum (·.courses) ≤ 64 && here.length + m ≤ 16 && sum (·.ntiles) ≤ 8 && sum (·.accslots) ≤ 64 &&
        sum (fun h => if h.ctabbed then 1 else 0) ≤ 1 && n ≤ s.framesFree q ovs && s.tenantFits q.aspace &&
        buffers ≤ s.freeBuffers && s.core.openToWork then .fits ps
      else .no

/-! ### First placement (R115, R141 to R150) -/

/-- R149, R186. Overlays that a header and a first reference ask for. -/
def Header.overlays (h : Header) (cref : BitVec 32) : List (BitVec 16) :=
  distinctOv (refOv cref :: (if h.ovmgr = 0xFFFFFFFF#32 then [] else [refOv h.ovmgr]))

/-- R115, R147, R148, R168. A consort of a launch at its first start, without its place on the core. -/
def Launch.consort (l : Launch) (num : Nat) : Consort :=
  let h := l.hdr
  let course (c : Nat) : Course :=
    { Course.blank with
      idx := c, lpc := Vector.replicate 32 l.lr.cref
      s := vset (vset Course.blank.s 0 (BitVec.ofNat 64 l.s0)) 1 l.lr.frame }
  { Consort.blank with
    launch := l.id, queue := l.queue, aspace := l.aspace, hdr := h, gang := l.released, num := num, cpg := l.lr.cpg
    widbase := l.lr.widbase, widw := l.lr.widw
    rtokens := if h.ovmgr = 0xFFFFFFFF#32 then [] else [{ ov := refOv h.ovmgr, count := 1 }]
    need := h.overlays l.lr.cref
    courses := (List.range h.courses).map course }

/-- R142, R146, R163. Can the next gang of a launch be placed now? -/
def State.launchFit (s : State) (l : Launch) : Fit :=
  s.fit (l.consort 0) l.lr.cpg (l.hdr.overlays l.lr.cref) 0

/-- R167, R170, R186. An overlay that a placed consort needs is asked for where it is absent, with its entry; its load may fail at
once. -/
def State.ensure (s : State) (k : Nat) (ov : BitVec 16) : State :=
  let q := s.cons k
  if (s.instFor q ov).isSome then s
  else match s.readEntry q ov with
    | .entry e => (s.request (q.sharer ov) e []).1
    | .bad cause va => s.modCons k (fun q => q.loadFailed ov cause va)
    | .absent _ => s

/-- R131. The doorbell line as the handler of a mailbox finds it: 64 bytes, open where the line cannot be read, or the address
of an absent translation. -/
def State.snapshot (s : State) (l : Launch) : Except DWord (List Byte) :=
  match l.bell with
  | none => .ok []
  | some a => match s.fetchVa l.aspace a 64 with
    | .bytes bs _ => .ok bs
    | .absent _ va => .error va
    | _ => .ok (s.openBytes 0 64)

/-- R115, R124, R154. One consort of a gang starts: identity, data at scratchpad offset 0, context area and images. -/
def State.startConsort (s : State) (l : Launch) (data : List Byte) (s0 : Nat) (num base ctx : Nat) : State × Nat :=
  let (s1, id) := s.freshId
  let q : Consort :=
    { ({ l with s0 := s0 } : Launch).consort num with
      id := id, ctx := ctx, placedAt := s.clock, onSince := s.clock, spBase := base, scratch := memWrite [] 0 data }
  let s2 : State := { s1 with consorts := s1.consorts ++ [q] }
  let s3 := forAll q.courses s2 (fun s c => forAll q.allLines s (fun s r => s.putLine id c.idx r))
  (s3.partWrite (ctx + 0x99008) [0, 0, 0, 0], id)

/-- R115, R142, R144. Every consort of a gang starts, each with its range and context area. -/
def State.startGang (s : State) (l : Launch) (data : List Byte) (s0 : Nat) : List (Nat × Nat × Nat) → State × List Nat
  | [] => (s, [])
  | (num, base, ctx) :: rest =>
    let (s1, id) := s.startConsort l data s0 num base ctx
    let (s2, ids) := s1.startGang l data s0 rest
    (s2, id :: ids)

/-- R118, R119, R128. The last gang of the head record has been released: the record leaves its queue, RDIDX moving by its bytes
whatever other node's records lie between (the model's choice, log entry 51). -/
def State.headReleased (s : State) (l : Launch) : State :=
  let d := s.qdesc l.queue
  let s1 := s.qdSet l.queue 0x10 4 (d.rd + l.length)
  let s2 := s1.modQrun l.queue (fun r =>
    { r with head := none, closed := if l.node.isSome then r.closed.drop 1 else r.closed })
  match l.node with
  | some pa => s2.partWrite (pa + 0x18) (leBytes 4 (s2.peek (pa + 0x18) 4 + 1))
  | none => s2

/-- R17, R150, R418. Do a context area and its auxiliary area lie in memory of the partition? -/
def State.areaOk (s : State) (ctx : Nat) : Bool := s.spanOk ctx 0xA0000 && s.spanOk (s.auxAt ctx) 0x80000

/-- R17, R150. The context areas of the pool that the partition can use. -/
def State.freeAreas (s : State) : List Nat := s.work.pool.filter s.areaOk

/-- R131, R142, R150. The next gang of a launch is placed in the ranges found, each consort with the next context area of the pool that is
free: which, R150 leaves open (the model's choice, log entry 72). -/
def State.releaseGang (s : State) (l : Launch) (ranges : List Nat) (snap : List Byte) : State :=
  let n := l.lr.cpg
  let areas := s.freeAreas.take n
  let data := if l.bell.isSome then snap else l.inline
  let count := match l.mbox.bind (fun m => s.work.mailboxes.find? (fun b => b.num == m)) with
    | some b => b.count
    | none => l.s0
  let s1 := (s.takeTenant l.aspace).modWork (fun w =>
    { w with
      pool := w.pool.filter (fun a => !areas.contains a)
      launches := modFirst (fun x => x.id == l.id) (fun x => { x with released := x.released + 1, live := x.live + n }) w.launches
      mailboxes := w.mailboxes.map (fun b => if l.mbox = some b.num then { b with count := 0 } else b)
      lastServed := w.lastServed.filter (fun x => x.1 != l.hdr.prio) ++ [(l.hdr.prio, l.queue)] })
  let (s2, ids) := s1.startGang l data count ((List.range n).zip (ranges.zip areas))
  let s3 := forAll ids s2 (fun s k => forAll (s.cons k).need s (fun s ov => s.ensure k ov))
  let s4 := s3.modQrun l.queue (fun r => { r with blocked := false })
  if l.lr.ngang ≤ l.released + 1 then s4.headReleased l else s4

/-! ### The order of service (R120, R141) -/

/-- R152, R440, R443. Do the distributors run? -/
def State.distributing (s : State) : Bool := !s.hub.stopped && !s.hub.stop && s.hub.pstate.toNat < 2 && s.core.openToWork

/-- R118, R123. The launch whose next gang queue q offers. -/
def State.offer (s : State) (q : Nat) : Option Launch :=
  let d := s.qdesc q
  if s.consumable q && d.enabled && !d.halted && d.kind ≤ 2 then s.headLaunch q else none

/-- R118. The resident READY queues, each with its launch and the context areas it needs at hand. -/
def State.readyQueues (s : State) : List (Nat × Launch) :=
  s.work.qrun.filterMap (fun r => match s.offer r.q with
    | some l => (match s.launchFit l with
      | .fits _ => if l.lr.cpg ≤ s.freeAreas.length then some (r.q, l) else none
      | _ => none)
    | none => none)

/-- R120. How far queue q stands behind the queue served last at a priority; where none has been served, queue 0 comes first (the
model's choice, log entry 51). -/
def State.turn (s : State) (prio q : Nat) : Nat :=
  let last := ((s.work.lastServed.find? (fun x => x.1 == prio)).map (·.2)).getD 4095
  (q + 4095 - last) % 4096

/-- R141, R142, R414, R420. The consorts of consort k's gang that re-enter together. -/
def State.reentering (s : State) (k : Nat) : List Consort :=
  let q := s.cons k
  s.consorts.filter (fun r => r.launch == q.launch && r.gang == q.gang && r.readyAt.isSome && (match r.place with
    | .saved _ => true
    | _ => false))

/-- R142. Is any consort of k's gang on its way off the core? -/
def State.gangDraining (s : State) (k : Nat) : Bool :=
  let q := s.cons k
  s.consorts.any (fun r => r.launch == q.launch && r.gang == q.gang && (match r.place with
    | .draining _ => true
    | _ => false))

/-- R166, R186. The overlays that a consort off the core must find resident: those of its counted lanes, those it holds tokens
on, and the manager's. -/
def Consort.overlays (q : Consort) : List (BitVec 16) :=
  distinctOv (q.courses.flatMap (fun c =>
      if c.retired then [] else ((List.range 32).filter (fun l => !bit c.gone l)).map (fun l => refOv (c.lpcAt l))) ++
    q.rtokens.map (·.ov) ++ (if q.hdr.ovmgr = 0xFFFFFFFF#32 then [] else [refOv q.hdr.ovmgr]))

/-- R420. Does the gang of re-entering consorts that k leads fit? -/
def State.gangFit (s : State) (k : Nat) : Fit :=
  let g := s.reentering k
  s.fit (s.cons k) g.length (distinctOv (g.flatMap Consort.overlays)) (total (g.map Consort.buffers))

/-- R159, R414. The courses that stand saved as their images have them, where firmware may have edited them. -/
def State.refreshSaved (s : State) : State :=
  forAll (s.consorts.filter (fun r => match r.place with
    | .saved _ => true
    | _ => false)) s (fun s r => forAll r.live s (fun s x => s.refresh r.id x.idx))

/-- R141, R153, R159. Does consort k lead a gang that may re-enter now, and since when? Its queue belongs to the core's partition; where
its members became ready at different times, the earliest counts (the model's choice, log entry 51). -/
def State.leads (s : State) (k : Nat) : Option Nat :=
  let g := s.reentering k
  if (g.head?.map (·.id)) = some k && s.qdMine (s.cons k).queue && !s.gangDraining k && g.all (fun q => !q.entryWait) then
    match s.refreshSaved.gangFit k with
    | .fits _ => some ((g.filterMap (·.readyAt)).foldl min ((s.cons k).readyAt.getD 0))
    | _ => none
  else none

/-- R141. The gangs that could re-enter now: leader, priority and since when. -/
def State.comers (s : State) : List (Nat × Nat × Nat) :=
  s.consorts.filterMap (fun q => (s.leads q.id).map (fun t => (q.id, q.hdr.prio, t)))

/-- R120, R141. Is queue q, with its launch, served next? -/
def State.servedNext (s : State) (q : Nat) (l : Launch) : Bool :=
  s.comers.all (fun x => x.2.1 < l.hdr.prio) &&
    s.readyQueues.all (fun x => x.1 == q || x.2.hdr.prio < l.hdr.prio ||
      (x.2.hdr.prio == l.hdr.prio && s.turn l.hdr.prio q < s.turn l.hdr.prio x.1))

/-- R142. GANG_RELEASE: the head gang of a queue is placed whole; or the queue becomes BLOCKED, or FAULTED at an overlay entry
or doorbell line that is absent. -/
def execGangRelease (q : Nat) (s : State) : Host.Outcome State Fault Refusal :=
  let block (s : State) : State := s.modQrun q (fun r => { r with blocked := true })
  if !s.distributing then notNow
  else match s.offer q with
    | none => notNow
    | some l =>
      match s.launchFit l with
      | .absent va => .next (s.faultQueue q va)
      | .no => if (s.qrun q).blocked then notNow else .next (block s)
      | .fits ranges =>
        if s.freeAreas.length < l.lr.cpg then
          if (s.qrun q).blocked && (s.qrun q).starved then notNow
          else .next ((s.modQrun q (fun r => { r with blocked := true, starved := true })).report
            { kind := 6, cause := 0, access := 0, course := 0xFF, aspace := l.aspace, lanes := 0, cref := 0, ctx := 0, addr := 0 })
        else if !s.servedNext q l then notNow
        else match s.snapshot l with
          | .error va => .next (s.faultQueue q va)
          | .ok snap => .next (s.releaseGang l ranges snap)

/-- R150. A context area joins the pool: no queue lacks one as it did. -/
def WorkSt.addArea (w : WorkSt) (ctx : Nat) : WorkSt :=
  { w with pool := w.pool ++ [ctx], qrun := w.qrun.map (fun r => { r with starved := false }) }

/-- R17, R150, R418. CONTEXT_POOL_REFILL: firmware adds a context area with its auxiliary area (log entry 54). -/
def execContextPoolRefill (ctx aux : Nat) (s : State) : Host.Outcome State Fault Refusal :=
  if !s.spanOk ctx 0xA0000 then .fault (.noSuchAddress ctx)
  else .next (((s.hubWrite (ctx + 0x99000) (leBytes 8 aux)).modWork (·.addArea ctx)))

/-- R120, R121. RESIDENT_SET_CHANGE: firmware chooses the resident queues. -/
def execResidentSetChange (qs : List Nat) (s : State) : Host.Outcome State Fault Refusal :=
  if 64 < qs.length || qs.any (fun q => 4096 ≤ q) then notNow
  else
    let s1 := s.modWork (fun w => { w with qrun := w.qrun.map (fun r => { r with resident := qs.contains r.q }) })
    .next (forAll qs s1 (fun s q => s.modQrun q (fun r => { r with resident := true })))

/-! ### The register cache (R155 to R159) -/

/-- R155. Lines in the register cache. -/
def State.linesUsed (s : State) : Nat := total (s.consorts.flatMap (fun q => q.courses.map (fun c => c.lines.length)))

/-- R207, R415. Does a course wait within an instruction that has not completed, and that issues again after a stop? -/
def Hold.waits : Hold → Bool
  | .arwait .. => true
  | .jcwait .. => true
  | .achjoin .. => true
  | .achwait .. => true
  | _ => false

/-- R157. The vector register of an instruction that waits. -/
def Hold.reg : Hold → Option (BitVec 7)
  | .arwait _ _ v _ => some v
  | .jcwait _ v _ _ => some v
  | .achwait v _ _ => some v
  | _ => Option.none

/-- R157. Does an instruction that has issued and not completed still use a vector line? -/
def State.lineBusy (s : State) (k c r : Nat) : Bool :=
  s.awaiting k c (r - 16) || (s.crs k c).hold.reg.any (fun v => 16 + v.toNat == r)

/-- A line of a course, and when it was last used. -/
structure LineOf where
  k : Nat
  c : Nat
  line : RegLine

def leastUsed (xs : List LineOf) : Option LineOf :=
  match xs with
  | [] => none
  | x :: rest => some (rest.foldl (fun a b => if b.line.lastUse < a.line.lastUse then b else a) x)

/-- R157. The victim of a fill for course (k, c), whose next instruction needs the lines of `names`. Among evictable lines of one class, and
among lines last used at one time, the first in the order of consorts, courses and lines is taken (the model's choice, log entry 72). -/
def State.victimLine (s : State) (k c : Nat) (names : List Nat) : Option LineOf :=
  let off := (s.consorts.filter (fun q => !q.onCore)).flatMap (fun q => q.courses.flatMap (fun x =>
    (x.lines.filter (fun l => l.reg < 8 || !s.lineBusy q.id x.idx l.reg)).map (fun l => ({ k := q.id, c := x.idx, line := l } : LineOf))))
  let vec (q : Consort) (x : Course) : List LineOf :=
    (x.lines.filter (fun l => 16 ≤ l.reg && !s.lineBusy q.id x.idx l.reg)).map (fun l => { k := q.id, c := x.idx, line := l })
  let many := (s.consorts.filter (·.onCore)).flatMap (fun q =>
    (q.courses.filter (fun x => 8 < (x.lines.filter (fun l => 16 ≤ l.reg)).length)).flatMap (vec q))
  let own := (vec (s.cons k) (s.crs k c)).filter (fun x => !names.contains x.line.reg)
  ((off.find? (fun x => !x.line.dirty)).orElse (fun _ => off.head?)).orElse
    (fun _ => (leastUsed many).orElse (fun _ => leastUsed own))

/-- R157. A line leaves the register cache, a dirty one by its image. -/
def State.dropLine (s : State) (x : LineOf) : State :=
  let s1 := if x.line.dirty then s.putLine x.k x.c x.line.reg else s
  s1.modCrs x.k x.c (fun y => { y with lines := y.lines.filter (fun l => l.reg != x.line.reg) })

/-- R17, R157. Does a line that is to be dropped go back to an image outside the partition? -/
def State.strays (s : State) (x : LineOf) : Bool := x.line.dirty && !s.areaOk (s.cons x.k).ctx

/-- R157, R159, R406. The line of the trap link register (register v) of course (k, c), which has just entered its handler, is written.
Where it is absent the lanes that did not enter are as the image has them, and it takes a free line or a victim's, or goes to the
image where there is neither or the victim's image lies outside the partition (R17). -/
def State.linkLine (s : State) (k c v : Nat) (e : TrapEntry) : State :=
  let x := s.crs k c
  let r := 16 + v
  if x.hasLine r then s.modCrs k c (·.soil [r])
  else
    let img := (x.setLine r (s.imageLine (s.cons k) c r)).getV v
    let now : VReg := { (x.getV v) with lanes := vof 32 (fun l => if bit e.lanes l then (x.getV v).at l else img.at l) }
    let old : VReg := { e.link with lanes := img.lanes }
    let s1 := s.modCrs k c (fun x => { x with v := vset x.v v now, entered := some { e with link := old } })
    let put (s : State) : State :=
      s.modCrs k c (fun x => { x with lines := x.lines ++ [{ reg := r, dirty := true, lastUse := s.clock }] })
    if s.linesUsed < 4096 then put s1
    else match s1.victimLine k c [r] with
      | some y => if s.strays y then s1.putLine k c r else put (s1.dropLine y)
      | none => s1.putLine k c r

/-- R156, R159. A line arrives: a vector register's from its image (physical: log entry 62); a header's was read when its consort
was placed. -/
def State.takeLine (s : State) (k c r : Nat) : State :=
  let bs := s.imageLine (s.cons k) c r
  s.modCrs k c (fun x =>
    let x1 := if r < 8 then x else x.setLine r bs
    { x1 with lines := x1.lines ++ [{ reg := r, dirty := false, lastUse := s.clock }], age := s.clock })

/-- R157. The line that gives up its place in the register cache where none is free. -/
def State.fillVictim (s : State) (k c : Nat) : Option LineOf :=
  s.victimLine k c (match s.fetch k c with
    | .instr i _ => Instr.lines i
    | _ => [])

/-- R17, R156, R157. REGISTER_FILL: line r that the next instruction of course (k, c) misses arrives. -/
def execRegisterFill (k c r : Nat) (s : State) : Host.Outcome State Fault Refusal :=
  let miss := s.missingLines k c
  if !(s.cons k).onCore || !miss.contains r then notNow
  else if !s.areaOk (s.cons k).ctx then .fault (.noSuchAddress (s.cons k).ctx)
  else if s.linesUsed < 4096 then .next (s.takeLine k c r)
  else match s.fillVictim k c with
    | some v => if s.strays v then .fault (.noSuchAddress (s.cons v.k).ctx) else .next ((s.dropLine v).takeLine k c r)
    | none => notNow

/-- R17, R158. LINE_WRITEBACK: a dirty evictable line is written to its image. -/
def execLineWriteback (k c r : Nat) (s : State) : Host.Outcome State Fault Refusal :=
  let q := s.cons k
  if !q.onCore && (s.crs k c).lines.any (fun l => l.reg == r && l.dirty) then
    if !s.areaOk q.ctx then .fault (.noSuchAddress q.ctx)
    else .next ((s.putLine k c r).modCrs k c (fun x =>
      { x with lines := x.lines.map (fun l => if l.reg = r then { l with dirty := false } else l) }))
  else notNow

/-! ### What firmware and failures do to the core (R153, R160, R207) -/

/-- R429. The detail of a host event, where the spec gives none. -/
def State.openDetail (s : State) : Nat := leNat (s.openBytes 0 4)

/-- R442. REPLACE_REQUEST, with its host event. -/
def State.replaceRequest (s : State) (detail : Nat) : State := (s.modHub (fun h => { h with replace := true })).hostEvent 2 detail 0

/-- R207, R208. HALF_WIDTH_ENABLE: firmware enables half width on a core whose port failed, on the half that is left. -/
def execHalfWidthEnable (s : State) : Host.Outcome State Fault Refusal :=
  if s.core.portFailed ∧ s.core.halves ≠ 3 then
    .next (s.modCore (fun c => { c with halfWidth := true, portFailed := false }))
  else notNow

/-- R160. CORE_DISABLE: the core is closed to the distributor, its consorts being off it. -/
def execCoreDisable (s : State) : Host.Outcome State Fault Refusal :=
  if s.consorts.any (·.onCore) then notNow else .next (s.modCore (fun c => { c with openToWork := false }))

/-- R153. WRITE_BACK_AND_INVALIDATE: every cached copy is written back and dropped, every code store is empty, and the code
table is lost. -/
def execWriteBackAndInvalidate (s : State) : Host.Outcome State Fault Refusal :=
  if s.consorts.any (·.onCore) || !s.hub.stop || !s.ms.atoms.isEmpty then notNow
  else
    let s1 := forAll s.ms.stores s (fun s t => s.storeHome t)
    let s2 := s1.modMs (fun m => { m with tlb := [], stale := [] })
    .next (s2.modCore (fun c =>
      { c with insts := [], tenants := []
               ctab := vof 32 (fun i => BitVec.ofNat 16 ((Config.openByte s.tick (2 * i)).toNat + 256 * (Config.openByte s.tick (2 * i + 1)).toNat)) }))

/-- R207, R415. The wait of an instruction that has not completed ends, and the instruction issues again later. -/
def Course.unwait (x : Course) : Course := if x.hold.waits then { x with hold := .none } else x

/-- R159, R414. As a consort resumes: a JCWAIT that has found its counter zero completes in the lanes that still run at it; every
other wait ends and its instruction issues again. -/
def Course.rejoin (x : Course) : Course :=
  match x.hold with
  | .jcwait pa v (some w) iss =>
    let set := maskOf (fun l => bit iss.set l && bit x.running l && x.lpcAt l == iss.at_)
    { x with hold := if set = 0 then .none else .jcwait pa v (some w) { iss with set := set } }
  | _ => x.unwait

/-- R207, R412. Every running lane of a course parks with PORT_FAIL, with one record. -/
def State.parkPort (s : State) (q : Consort) (c : Nat) : State :=
  let x := s.crs q.id c
  let run := x.running
  if run = 0 then s
  else (s.modCrs q.id x.idx (fun y =>
      { (y.unwait.setLane run .parked) with
        portParked := y.portParked ||| run, stall := none, entered := none
        parkAddr := vof 32 (fun l => if bit run l then 0 else vget y.parkAddr 0 l)
        parkWr := y.parkWr &&& ~~~run })).report
    { kind := 3, cause := 0x19, access := 0, course := x.idx, aspace := q.aspace, lanes := run
      cref := x.lpcAt (lowest run), ctx := q.ctx, addr := 0 }

/-- R207, R406. A trap entry whose transfer failed is discarded: its lanes stand at the faulting instruction again, and what it
consumed is there again. link is the trap link register. -/
def Course.undoEntry (x : Course) (link : Nat) (e : TrapEntry) : Course :=
  let y := forAll e.tokens ((x.setLpc e.lanes (vget e.lpc 0)).setLane e.lanes .running) (fun y t => y.setToken t.1 t.2)
  { y with
    refused := e.refused ++ y.refused, merrs := e.merrs ++ y.merrs, fetchFault := e.fetchFault ++ y.fetchFault
    v := vset x.v link e.link
    hmask := e.hmask, trapcause := e.trapcause, trapinfo := e.trapinfo, missref := e.missref, lastref := e.lastref
    ntraps := e.ntraps, lapped := x.lapped &&& ~~~e.lanes, entered := none }

/-- R202, R207, R247, R406. What had not passed its check is discarded: the instructions whose transfers fail, and of the trap
entries those whose transfers failed, which is open (log entry 23). -/
def State.failUnchecked (s : State) (q : Consort) : State :=
  s.modCons q.id (fun r => { r with courses := r.courses.map (fun x =>
    let y := { x with unchecked := none }
    match x.entered with
    | some e => if e.upTo < s.clock ∨ Config.racing s.tick (16 * q.id + x.idx + 2) % 2 = 0 then y else y.undoEntry (q.hdr.vregs - 1) e
    | none => y) })

/-- R207, R412. PORT_CHECK_FAIL: the core stops issuing and one of its halves is retired, instructions and trap entries whose transfers
failed are discarded, the running lanes of its courses park, with one record for each course that has any, or one for the core where none
runs, and REPLACE_REQUEST is raised. -/
def execPortCheckFail (s : State) : Host.Outcome State Fault Refusal :=
  let here := s.consorts.filter (·.onCore)
  let half : BitVec 2 := if s.core.halves ≠ 0 then ~~~s.core.halves else if Config.racing s.tick 0 % 2 = 0 then 1 else 2
  let s1 := s.modCore (fun c => { c with portFailed := true, halves := c.halves ||| half })
  let s2 := forAll here s1 State.failUnchecked
  let s3 := forAll here s2 (fun s q => forAll q.live s (fun s x => s.parkPort q x.idx))
  let s4 := if s3.hub.faults.length = s.hub.faults.length then
      s3.report { kind := 3, cause := 0x19, access := 0, course := 0xFF, aspace := 0, lanes := 0, cref := 0, ctx := 0, addr := 0 }
    else s3
  .next (s4.replaceRequest s.openDetail)

/-- R186. Is every overlay that a consort waits for RESIDENT? -/
def State.needMet (s : State) (q : Consort) : Bool :=
  q.need.all (fun ov => (s.instFor q ov).any (fun i => i.st == .resident))

/-- R156, R200. What the next instruction of a consort's course waits for on the core: its overlays and its lines. -/
def State.linesReady (s : State) (k c : Nat) : Bool := s.needMet (s.cons k) && (s.missingLines k c).isEmpty

/-- R138, R414. JCWAIT_WAKE: a course woken by the zero completes its JCWAIT; a consort off the core re-enters first. -/
def execJcwaitWake (k c : Nat) (s : State) : Host.Outcome State Fault Refusal :=
  let q := s.cons k
  let x := s.crs k c
  match x.hold with
  | .jcwait _ v (some w) iss =>
    match q.place with
    | .resident =>
      if (isPort v && s.portRoom k c (portOf v) < popcount iss.set) || !s.linesReady k c then notNow
      else .next ({ s with iss := iss }.jcDone v w)
    | .saved _ => if q.readyAt.isSome then notNow else .next (s.modCons k (·.reenter s.clock))
    | _ => notNow
  | _ => notNow

end Sys2Proof.Machine
end

