-- ==== Sys2Proof/Machine/Context.lean ====
section
/-!
DEFINITION. Leaving the core, resuming and retiring: swap-out, pre-emption, the save and the resume of a consort, retirement
with its exit record, firmware's commands and its service of faults (spec/15_interruption.md R411 to R423;
spec/07_issue_and_control.md R196, R216; spec/16_retirement_and_host.md R424 to R427, R437).
-/

namespace Sys2Proof.Machine

/-! ### Idle consorts and draining (R196, R414, R415) -/

/-- R159, R196. The lanes that stand at a JCWAIT whose counter has not been zero. -/
def Course.atCounter (x : Course) : BitVec 32 :=
  match x.hold with
  | .jcwait _ _ Option.none iss => maskOf (fun l => bit iss.set l && bit x.running l && x.lpcAt l == iss.at_)
  | _ => 0

/-- R196, R207. Is a course idle? Lanes that PORT_FAIL parked keep it from being so. -/
def Course.idle (x : Course) : Bool :=
  x.portParked &&& x.parkedLanes = 0 &&
    ((x.running = 0 && x.parkedLanes ≠ 0) || x.atCounter ≠ 0)

/-- R414. Does a course off the core hold a lane that could issue: one that runs and does not stand at such a JCWAIT? -/
def Course.couldIssue (x : Course) : Bool := !x.retired && x.running &&& ~~~x.atCounter ≠ 0

/-- R414. SWAP_OUT: a consort whose every course is idle or retired starts to leave the core. -/
def execSwapOut (k : Nat) (s : State) : Host.Outcome State Fault Refusal :=
  let q := s.cons k
  if q.place = .resident ∧ !q.live.isEmpty ∧ q.live.all Course.idle then
    .next (s.modCons k (fun q => { q with place := .draining 2, readyAt := none }))
  else notNow

/-- Does an event's meaning answer a next state? -/
def happens (o : Host.Outcome State Fault Refusal) : Bool :=
  match o with
  | .next _ => true
  | _ => false

/-- R212, R299, R338, R359, R374, R415. Has everything that consort k has in flight been drained? -/
def State.drained (s : State) (k : Nat) : Bool :=
  let q := s.cons k
  let c := s.core
  q.courses.all (fun x => x.pending.isEmpty && x.loads == 0 && x.stores == 0 && x.tokens.toList.all (fun t => !t.pending)) &&
    !c.copies.any (fun x => x.k == k || x.dests.any (fun d => d.cid == k)) && !c.bins.any (fun x => x.k == k) &&
    !c.selq.any (fun x => x.k == k) && !c.tfills.any (fun x => x.k == k) &&
    !c.mq.any (fun e => e.k == k && e.admitted && (!e.isLoop || e.inStep)) &&
    !c.packets.any (fun p => p.rcv == k || (let r := s.cons p.rcv
      r.launch == q.launch && r.gang == q.gang && p.member == q.num)) &&
    !s.consorts.any (fun r => q.mateOf r && (List.range 4).any (fun n => happens (execAcnOrderedForward r.id (BitVec.ofNat 2 n) s)))

/-- R385, R415. The implicit release of a course at package scope. -/
def State.releasePackage (s : State) (k c : Nat) : State := s.releaseNow k c 3

/-- R411. The lanes of a course that have not exited. -/
def Course.notExited (x : Course) : BitVec 32 := x.inState (· != .exited)

/-- R411. KILLED ends a course that has lanes left to run. -/
def State.killCourse (s : State) (k c : Nat) : State :=
  let x := s.crs k c
  if x.retired || x.ended then s
  else s.terminate k c { cls := 2, cause := .killed, lanes := x.notExited, ref := x.lpcAt (lowest x.notExited) }

/-- R411. Every course of a consort is killed. -/
def State.killCourses (s : State) (k : Nat) : State := forAll (s.cons k).courses s (fun s x => s.killCourse k x.idx)

/-- R349, R355, R411. The ASENDs that a killed consort saved with its queue arrive as sent. What one still unadmitted contributes is
the saved entries of its slots, whatever their versions and whatever stood before it in the queue (the model's choice, log entry
68). -/
def State.sendSaved (s : State) (k : Nat) : State :=
  forAll (s.core.mq.filter (fun e => e.k == k)) s (fun s e => match e.op with
    | .asend rcv chn epoch i40 exact _ =>
      if e.slots.any (fun n => ((s.cons k).slot n).i40 != i40) then s.sendBroken e rcv.toNat chn.toNat epoch
      else s.sendSlots e rcv.toNat chn.toNat epoch exact
    | _ => s)

/-- R355, R356, R411. Consort k has been killed: its chains no longer exist. -/
def State.markKilled (s : State) (k : Nat) : State := (s.modCons k (fun q => { q with killed := true })).leaveChains k

/-- R411. A kill of a consort off the core: its courses end as they stand saved, and what it kept for its return goes. -/
def State.killSaved (s : State) (k : Nat) : State :=
  let s1 := (forAll (s.cons k).live (s.sendSaved k) (fun s x => s.refresh k x.idx)).markKilled k
  let s2 := (s1.killCourses k).modCore (fun c =>
    { c with mq := c.mq.filter (fun e => e.k != k), selbufs := c.selbufs.filter (fun b => b.k != k) })
  s2.modCons k (fun q =>
    { q with readyAt := none, killPending := false, courses := q.courses.map (fun x => { x with tiles := 0 }) })

/-- R138, R140, R415. The holds of a course that stay with it off the core: a BAR's, a JCWAIT's that the zero has woken, and in a
swap-out any JCWAIT's. -/
def Course.keepHold (x : Course) (kind : Nat) : Course :=
  match x.hold with
  | .bar _ _ => x
  | .jcwait _ _ w _ => if kind = 2 ∨ w.isSome then x else { x with hold := .none }
  | _ => { x with hold := .none }

/-- R158. The header lines of a course that leaves the core are dirty, whatever changed them. -/
def Course.headerDirty (x : Course) : Course :=
  { x with lines := x.lines.map (fun y => if y.reg < 8 then { y with dirty := true } else y) }

/-- R158, R159. The header of a course that leaves the core as it stands now: its lines in the register cache are dirty, and what is not
there is in its image. -/
def State.leaveHeader (s : State) (k c : Nat) : State :=
  (forAll (headerLines.filter (fun r => !(s.crs k c).hasLine r)) s (fun s r => s.putLine k c r)).modCrs k c (·.headerDirty)

/-- R158, R415, R416. Consort k leaves the core: it is saved, what it had there is free, and it re-enters when it may. -/
def State.saveConsort (s : State) (k kind : Nat) : State :=
  let s1 := forAll (s.cons k).live s (fun s x => s.releasePackage k x.idx)
  let s1 := s1.modCons k (fun q => { q with courses := q.courses.map (fun x => { (x.keepHold kind) with stall := none, entered := none }) })
  let s2 := forAll (s1.cons k).live s1 (fun s x => s.leaveHeader k x.idx)
  let s3 := (s2.saveExplicit k kind).modCore (fun c => { c with selbufs := c.selbufs.filter (fun b => b.k != k) })
  let woken (x : Course) : Bool := match x.hold with
    | .jcwait _ _ (some _) _ => true
    | _ => false
  let s4 := s3.modCons k (fun q =>
    { q with
      place := .saved kind, spareTab := if q.hdr.ctabbed then s3.spareTable else [], need := [], sstale := [], entryWait := false
      readyAt := if kind = 1 ∨ q.courses.any woken then some (q.readyAt.getD s.clock) else q.readyAt
      tiles := vof 8 (fun t => let x := vget q.tiles Tile.blank t
        { x with c0 := { x.c0 with pins := 0 }, c1 := { x.c1 with pins := 0 } }) })
  if (s4.cons k).killPending then s4.killSaved k else s4

/-- R299, R415. CONTEXT_SAVE: a consort that has drained is saved; in a pre-emption, once its whole gang has drained. -/
def execContextSave (k : Nat) (s : State) : Host.Outcome State Fault Refusal :=
  let q := s.cons k
  match q.place with
  | .draining kind =>
    let mates := s.consorts.filter (fun r => r.launch == q.launch && r.gang == q.gang && r.place == .draining 1)
    if !s.drained k || (kind == 1 && !mates.all (fun r => s.drained r.id)) then notNow
    else if !s.areaOk q.ctx then .fault (.noSuchAddress q.ctx)
    else .next (s.saveConsort k kind)
  | _ => notNow

/-! ### Resume (R420) -/

/-- R158, R159. The clean vector lines that a course left in the register cache are as their images hold them. -/
def State.reclaim (s : State) (q : Consort) (x : Course) : Course :=
  forAll (x.lines.filter (fun l => 16 ≤ l.reg && !l.dirty)) x (fun x l => x.setLine l.reg (s.imageLine q x.idx l.reg))

/-- R338, R420. A re-entering consort stands on the core again, in the range found, with its state restored. Its saved entries re-enter
the matrix queue even where it then holds more than 32 (the model's choice, log entry 68). -/
def State.resumeConsort (s : State) (k base : Nat) : State :=
  let s1 := (s.takeTenant (s.cons k).aspace).modCons k (fun q =>
    { q with
      place := .resident, resumed := true, onSince := s.clock, spBase := base, readyAt := none
      courses := q.courses.map (fun x => { (s.reclaim q x).rejoin with age := s.clock, fetchWait := false }) })
  let s2 := (s1.restoreExplicit k).modCore (fun c =>
    { c with mq := c.mq.filter (fun e => e.k != k) ++
        (c.mq.filter (fun e => e.k == k)).map (fun e => { e with since := s.clock }) })
  let ovs := (s2.cons k).overlays
  forAll ovs (s2.modCons k (fun q => { q with need := ovs })) (fun s ov => s.ensure k ov)

/-- R141. Is the gang that k leads, ready since t, served next? -/
def State.comesNext (s : State) (k prio t : Nat) : Bool :=
  s.comers.all (fun x => x.1 == k || x.2.1 < prio || (x.2.1 == prio && (t < x.2.2 || (t == x.2.2 && k < x.1)))) &&
    s.readyQueues.all (fun x => x.2.hdr.prio ≤ prio)

/-- R141, R142, R420. CONSORT_RESUME: the re-entering consorts of the gang that k leads are placed together; or their return
waits for the service of an absent overlay entry. -/
def execConsortResume (k : Nat) (s : State) : Host.Outcome State Fault Refusal :=
  let g := s.reentering k
  let q := s.cons k
  if !s.distributing || (g.head?.map (·.id)) != some k || !s.qdMine q.queue || s.gangDraining k || g.any (·.entryWait) then notNow
  else if !g.all (fun r => s.areaOk r.ctx) then .fault (.noSuchAddress q.ctx)
  else
    let s1 := forAll g s (fun s r => forAll r.live s (fun s x => s.refresh r.id x.idx))
    match s1.gangFit k with
    | .no => notNow
    | .absent va =>
      .next ((s1.modCons k (fun q => { q with entryWait := true })).report
        { kind := 2, cause := 6, access := 0, course := 0xFF, aspace := q.aspace, lanes := 0, cref := 0, ctx := q.ctx, addr := va })
    | .fits ranges =>
      match s.leads k with
      | none => notNow
      | some t =>
        if s.comesNext k q.hdr.prio t then .next (forAll (g.zip ranges) s1 (fun s x => s.resumeConsort x.1.id x.2)) else notNow

/-! ### Retirement (R216, R424 to R427) -/

/-- R425. The class of a course that has ended. -/
def Course.cls (x : Course) : Nat :=
  match x.term with
  | some t => t.cls.toNat
  | none => if x.inState (· == .off) = 0 then 0 else 3

/-- R426. The auxiliary word. -/
def Course.aux (x : Course) : Nat :=
  let errors := ((List.range 8).filter (fun n => match (x.token n).st with
    | .error _ => true
    | _ => false)).foldl (fun m n => m + 2 ^ n) 0
  errors + 2 ^ 8 * ((x.merrs.head?.map (fun e => e.cause.code.toNat)).getD 0) + 2 ^ 16 * min 255 x.ntraps.toNat

/-- R425. The course status record. -/
def Course.statusWords (x : Course) : DWord × DWord :=
  let (cause, lanes, ref) : Nat × BitVec 32 × BitVec 32 := match x.term with
    | some t => (t.cause.code.toNat, t.lanes, t.ref)
    | none => if x.cls = 3 then (0x1B, x.fmask, x.exitRef) else (0, x.exitMask, x.exitRef)
  (BitVec.ofNat 64 (ref.toNat / 65536 * 2 ^ 48 + lanes.toNat * 2 ^ 16 + x.cls * 2 ^ 8 + cause),
   BitVec.ofNat 64 (x.aux * 2 ^ 32 + ref.toNat % 65536))

/-- R216, R250. May a course retire? One that was killed off the core has had its engines drained already. -/
def State.retirable (s : State) (k c : Nat) : Bool :=
  let q := s.cons k
  let x := s.crs k c
  (q.courses.any (·.idx == c)) && !x.retired && x.ended && x.loads == 0 && x.stores == 0 && x.tiles == 0 &&
    x.tokens.toList.all (fun t => !t.pending) && x.pending.isEmpty &&
    (match q.place with
     | .saved _ => q.killed || !(List.range 16).any (fun n => s.portBusy k c n)
     | .retired => false
     | _ => !(List.range 16).any (fun n => s.portBusy k c n))

/-- R399, R418. What a retiring course completes of the barriers of a consort off the core stands in its saved state. -/
def State.saveBars (s : State) (k : Nat) : State :=
  let q := s.cons k
  match q.place with
  | .saved _ =>
    (s.partWrite (q.ctx + 0x99140) (padded 16 q.bars.toList 8 (fun b => leBytes 8 (b.gen.toNat + 2 ^ 32 * b.arr.toNat)))).partWrite
      (q.ctx + 0x99240) (padded 16 q.courses 8 (fun c => leBytes 8 c.barHeld))
  | _ => s

/-- R216, R250, R385, R399, R425. A course retires. -/
def State.retireCourse (s : State) (k c : Nat) : State :=
  let s1 := s.releasePackage k c
  let s2 := s1.modCrs k c (fun x =>
    { x with retired := true, status := x.statusWords, ports := Vector.replicate 16 Port.unbound, lines := [], hold := .none
             stall := none })
  let s3 := (s2.modCons k (·.leaveBars s.clock c)).saveBars k
  match (s.crs k c).term with
  | some t => s3.report
      { kind := 7, cause := t.cause.code.toNat, access := 0, course := c, aspace := (s.cons k).aspace, lanes := 0
        cref := t.ref, ctx := (s.cons k).ctx, addr := 0 }
  | none => s3

/-- R424. XFLAGS[0]: some course has a class other than 0. -/
def Consort.failed (q : Consort) : Bool := q.courses.any (fun x => x.cls != 0)

/-- R424. The exit record of a consort. -/
def Consort.exitRecord (q : Consort) (clock : Nat) : List Byte :=
  leBytes 8 (q.wid 0 0).toNat ++ leBytes 8 (clock - q.placedAt) ++
    leBytes 4 (q.courses.foldl (fun (m : BitVec 32) (x : Course) => m ||| x.fmask) 0).toNat ++ leBytes 2 q.aspace.toNat ++
    leBytes 1 q.hdr.courses ++ leBytes 1 (q.failed.toNat + 2 * q.resumed.toNat) ++ leBytes 4 q.queue ++ leBytes 4 0 ++
    padded 16 q.courses 16 (fun x => leBytes 8 x.status.1.toNat ++ leBytes 8 x.status.2.toNat) ++ List.replicate 224 0

/-- R427. What becomes of an exit record at its ring: none where MODE keeps it out. -/
inductive RingWrite where
  | skip | drop
  | at (pa : Nat)
  deriving DecidableEq, Repr

def ExitRing.place (r : ExitRing) (failed : Bool) : RingWrite :=
  if r.mode = 2 ∨ (r.mode ≠ 0 ∧ !failed) then .skip
  else if !pow2In r.size.toNat 12 19 ∨ r.size.toNat < (r.wr - r.rd).toNat + 512 then .drop
  else .at (r.base.toNat + r.wr.toNat % r.size.toNat)

/-- R427. The exit ring of partition 0, which the core serves. -/
def State.exitRing (s : State) : ExitRing := vget s.hub.exits ExitRing.reset 0

def State.modExitRing (s : State) (f : ExitRing → ExitRing) : State :=
  s.modHub (fun h => { h with exits := vset h.exits 0 (f (vget h.exits ExitRing.reset 0)) })

/-- R424, R427. The exit record of consort k is written, dropped or kept out. -/
def State.writeExit (s : State) (k : Nat) : State :=
  let q := s.cons k
  match s.exitRing.place q.failed with
  | .skip => s
  | .drop => s.modExitRing (fun r => { r with lost := if r.lost = 0xFFFF#16 then r.lost else r.lost + 1 })
  | .at pa => (s.hubWrite pa (q.exitRecord s.clock)).modExitRing (fun r => { r with wr := r.wr + 512 })

/-- R131. The handler of mailbox m retires: the mailbox is IDLE, or its handler record is appended again. -/
def State.handlerRetires (s : State) (m : Nat) : State :=
  match s.work.mailboxes.find? (fun b => b.num == m) with
  | none => s
  | some b =>
    if b.count = 0 then s.modBox m (fun b => { b with running := false })
    else s.modWork (fun w => { w with appends := w.appends ++
      [{ mbox := m, doorbell := b.doorbell, handler := b.handler, aspace := b.aspace, waiting := false }] })

/-- R116, R131. A launch whose last consort has retired retires. -/
def State.retireLaunch (s : State) (id : Nat) : State :=
  match s.work.launches.find? (fun l => l.id == id) with
  | none => s
  | some l =>
    if l.live ≠ 0 ∨ l.released < l.lr.ngang then s
    else
      let s1 := s.modWork (fun w => { w with launches := w.launches.filter (fun x => x.id != id) })
      let s2 : State := { s1 with consorts := s1.consorts.filter (fun q => q.launch != id) }
      let s3 := if l.lr.jc then s2.decrementLater l.aspace l.lr.jcaddr l.err else s2
      match l.mbox with
      | some m => s3.handlerRetires m
      | none => s3

/-- R150, R168, R356, R424. A consort whose last course has retired writes its exit record and gives back what it holds. -/
def State.retireConsort (s : State) (k : Nat) : State :=
  let q := s.cons k
  let s1 := (s.leaveChains k).writeExit k
  let s2 := s1.modCons k (fun q => { q with place := .retired, rtokens := [], need := [], readyAt := none, scratch := [] })
  let s3 := s2.modWork (fun w =>
    { w.addArea q.ctx with
      launches := modFirst (fun l => l.id == q.launch) (fun l => { l with live := l.live - 1, err := l.err || q.failed }) w.launches })
  s3.retireLaunch q.launch

/-- R17, R216, R424. COURSE_RETIRE: a course that has ended and whose work is done retires, and with the last one its consort. -/
def execCourseRetire (k c : Nat) (s : State) : Host.Outcome State Fault Refusal :=
  if !s.retirable k c then notNow
  else
    let s1 := s.retireCourse k c
    let q := s1.cons k
    if !q.live.isEmpty then .next s1
    else match s1.exitRing.place q.failed with
      | .at pa => if pageOk s.hub.pmode pa then .next (s1.retireConsort k) else .fault (.noSuchAddress pa)
      | _ => .next (s1.retireConsort k)

/-! ### Firmware's commands (R411, R413, R415) -/

/-- R413. The consort that CTXADDR names. -/
def State.named (s : State) : Option Consort :=
  s.consorts.find? (fun q => q.place != .retired && q.ctx / 65536 == field s.hub.ctxaddr.toNat 47 16)

/-- R413. A write to CTXCMD is kept, with ERR as the command leaves it. -/
def State.command (s : State) (cmd : DWord) (err : Bool) : State :=
  let kept := s.hub.ctxcmd.getLsbD 17 && !cmd.getLsbD 17
  s.modHub (fun h => { h with ctxcmd := (cmd &&& 0xFFFFFFFFFFF0000F) ||| (if err || kept then 0x20000 else 0) })

/-- R413. The operation a command names. -/
def cmdOp (cmd : DWord) : Nat := field cmd.toNat 3 0

/-- R413, R415. PREEMPT: every resident consort of the gang starts to leave the core. -/
def execPreempt (cmd : BitVec 64) (s : State) : Host.Outcome State Fault Refusal :=
  if cmdOp cmd ≠ 1 then notNow
  else match s.named with
    | none => .next (s.command cmd true)
    | some q =>
      let mate (r : Consort) : Bool := r.launch == q.launch && r.gang == q.gang
      let leave (r : Consort) : Consort :=
        if mate r && r.place == .resident then { r with place := .draining 1, readyAt := none } else r
      if s.consorts.any (fun r => mate r && r.place == .draining 1) || !s.consorts.any (fun r => mate r && r.place == .resident)
      then .next (s.command cmd true)
      else .next (({ s with consorts := s.consorts.map leave } : State).command cmd false)

/-- R411, R413, R423. KILL. -/
def execKill (cmd : BitVec 64) (s : State) : Host.Outcome State Fault Refusal :=
  if cmdOp cmd ≠ 2 then notNow
  else match s.named with
    | none => .next (s.command cmd true)
    | some q =>
      let s1 := s.command cmd false
      match q.place with
      | .resident => .next ((s1.killCourses q.id).markKilled q.id)
      | .draining _ => .next (s1.modCons q.id (fun q => { q with killPending := true }))
      | .saved _ => .next (s1.killSaved q.id)
      | .retired => notNow

/-- R414. A consort off the core that holds a lane that could issue re-enters. -/
def State.testReentry (s : State) (k : Nat) : State :=
  s.modCons k (fun q => if q.courses.any Course.couldIssue then q.reenter s.clock else q)

/-- R159, R413. A change of the lanes of course c of consort k, in its saved image where the consort is off the core, and the
test of its return. -/
def State.editCourse (s : State) (q : Consort) (c : Nat) (f : Course → Course) : State :=
  match q.place with
  | .saved _ => (((s.refresh q.id c).modCrs q.id c f).syncHeader q.id c).testReentry q.id
  | .draining _ => (s.modCrs q.id c f).testReentry q.id
  | _ => s.modCrs q.id c f

/-- R413. The course and the lanes that a command names, and those of them that are parked. -/
def State.parkedNamed (s : State) (q : Consort) (cmd : DWord) : Nat × BitVec 32 × BitVec 32 :=
  let c := field cmd.toNat 23 20
  let s1 := match q.place with
    | .saved _ => s.refresh q.id c
    | _ => s
  let lanes := BitVec.ofNat 32 (cmd.toNat / 2 ^ 32)
  let x := s1.crs q.id c
  (c, lanes, if q.courses.any (fun y => y.idx == c && !y.retired) then lanes &&& x.parkedLanes else 0)

/-- R413, R414. UNPARK. -/
def execUnpark (cmd : BitVec 64) (s : State) : Host.Outcome State Fault Refusal :=
  if cmdOp cmd ≠ 3 then notNow
  else match s.named with
    | none => .next (s.command cmd true)
    | some q =>
      let (c, lanes, p) := s.parkedNamed q cmd
      let s1 := s.command cmd (lanes &&& ~~~p ≠ 0)
      if lanes = 0 then
        match q.place with
        | .saved _ => .next ((forAll q.live s1 (fun s x => s.refresh q.id x.idx)).testReentry q.id)
        | _ => .next s1
      else if p = 0 then .next s1
      else .next (s1.editCourse q c (fun x =>
        { (x.setLane p .running) with lapped := x.lapped &&& ~~~p, portParked := x.portParked &&& ~~~p }))

/-- R402, R413. May REFUSE give a consort's lanes this cause? OVERLAY_MISS is of trap class only where there is no manager. -/
def refusable (q : Consort) (cause : BitVec 8) : Bool :=
  match Cause.ofCode cause with
  | some .overlayMiss => q.hdr.ovmgr == 0xFFFFFFFF
  | some c => c.trapClass
  | none => false

/-- R413. REFUSE: the named parked lanes become running, unlapped, and take the cause at their instruction. -/
def execRefuse (cmd : BitVec 64) (s : State) : Host.Outcome State Fault Refusal :=
  if cmdOp cmd ≠ 4 then notNow
  else match s.named with
    | none => .next (s.command cmd true)
    | some q =>
      let (c, lanes, p) := s.parkedNamed q cmd
      let cause : BitVec 8 := BitVec.ofNat 8 (field cmd.toNat 31 24)
      if !refusable q cause then .next (s.command cmd true)
      else
        let s1 := s.command cmd (lanes &&& ~~~p ≠ 0)
        if p = 0 then .next s1
        else .next (s1.editCourse q c (fun x =>
          { (x.setLane p .running) with
            lapped := x.lapped &&& ~~~p, portParked := x.portParked &&& ~~~p
            refused := x.refused ++ (lanesOf p).map (fun l => { cause := cause, lane := l, ref := x.lpcAt l }) }))

/-- R413. CTXCMD_UNDEFINED_OP: an OP of 5 to 15 sets ERR. -/
def execCtxcmdUndefinedOp (cmd : BitVec 64) (s : State) : Host.Outcome State Fault Refusal :=
  if 5 ≤ cmdOp cmd then .next (s.command cmd true) else notNow

/-! ### Fault records and their service (R412, R437, R118, R126, R292, R335, R366) -/

/-- R412. The 32 bytes of a fault record. -/
def FaultRecord.bytes (r : FaultRecord) : List Byte :=
  leBytes 1 r.kind ++ leBytes 1 r.cause ++ leBytes 1 r.access ++ leBytes 1 r.course ++ leBytes 2 r.aspace.toNat ++ leBytes 2 0 ++
    leBytes 4 r.lanes.toNat ++ leBytes 4 r.cref.toNat ++ leBytes 8 r.ctx ++ leBytes 8 r.addr.toNat

/-- R437. FAULT_RING_FLUSH: the oldest record that waits in the hub is written, as there is room in the ring. -/
def execFaultRingFlush (s : State) : Host.Outcome State Fault Refusal :=
  let h := s.hub
  match h.faults with
  | [] => notNow
  | r :: rest =>
    if !pow2In h.frsize.toNat 12 13 || h.frsize.toNat < (h.frwr - h.frrd).toNat + 32 then notNow
    else
      let pa := h.frbase.toNat + h.frwr.toNat % h.frsize.toNat
      if !paExists pa then .fault (.noSuchAddress pa)
      else
        let s1 := (s.hubWrite pa r.bytes).modHub (fun h => { h with faults := rest, frwr := h.frwr + 32 })
        .next (if h.frien then { s1 with outbox := s1.outbox ++ [.firmwareInterrupt] } else s1)

/-- The n-th waiting thing of a list, where it waits, is let go. -/
def release {α : Type} (p : α → Bool) (f : α → α) (xs : List α) : Option (List α) :=
  if xs.any p then some (modFirst p f xs) else none

/-- R118, R126, R133, R167, R186, R248, R292, R335, R366, R470. FAULT_SERVICE: firmware has serviced what an access waits for,
and it tries again. `what` names the kind of access (log entry 4). -/
def execFaultService (what id : Nat) (s : State) : Host.Outcome State Fault Refusal :=
  let core (o : Option CoreSt) : Host.Outcome State Fault Refusal := match o with
    | some c => .next { s with core := c }
    | none => notNow
  let work (o : Option WorkSt) : Host.Outcome State Fault Refusal := match o with
    | some w => .next { s with work := w }
    | none => notNow
  let crs (k c : Nat) (p : Course → Bool) (f : Course → Course) : Host.Outcome State Fault Refusal :=
    if p (s.crs k c) then .next (s.modCrs k c f) else notNow
  match what with
  | 0 => core ((release (fun i => i.uid == id && i.waiting) (fun i => { i with waiting := false }) s.core.insts).map
      (fun x => { s.core with insts := x }))
  | 1 => core ((release (fun i => i.id == id && i.waiting) (fun i => { i with waiting := false }) s.core.copies).map
      (fun x => { s.core with copies := x }))
  | 2 => core ((release (fun i => i.id == id && i.waiting) (fun i => { i with waiting := false }) s.core.bins).map
      (fun x => { s.core with bins := x }))
  | 3 => core ((release (fun i => i.id == id && i.waiting) (fun i => { i with waiting := false }) s.core.tfills).map
      (fun x => { s.core with tfills := x }))
  | 4 => core ((release (fun i => i.id == id && i.waiting) (fun i => { i with waiting := false }) s.core.selq).map
      (fun x => { s.core with selq := x }))
  | 5 => crs (id / 16) (id % 16) (fun x => x.pending.any (·.waiting)) (fun x =>
      { x with pending := x.pending.map (fun p => { p with waiting := false }) })
  | 6 => work ((s.work.jcwork[id]?.filter (·.waiting)).map (fun j =>
      { s.work with jcwork := s.work.jcwork.set id { j with waiting := false } }))
  | 7 => work ((release (fun a => a.mbox == id && a.waiting) (fun a => { a with waiting := false }) s.work.appends).map
      (fun x => { s.work with appends := x }))
  | 8 => work ((release (fun r => r.q == id && r.faulted) (fun r => { r with faulted := false }) s.work.qrun).map
      (fun x => { s.work with qrun := x }))
  | 9 => crs (id / 16) (id % 16) (·.fetchWait) (fun x => { x with fetchWait := false })
  | 10 => core ((release (fun e => e.id == id && e.waiting) (fun e => { e with waiting := false }) s.core.mq).map
      (fun x => { s.core with mq := x }))
  | 11 => crs (id / 256) (id / 16 % 16) (fun x => (x.port (id % 16)).waiting) (fun x =>
      x.setPort (id % 16) { (x.port (id % 16)) with waiting := false })
  | 12 => if (s.cons id).entryWait then .next (s.modCons id (fun q => { q with entryWait := false })) else notNow
  | _ => notNow

end Sys2Proof.Machine
end

