-- ==== Sys2Proof/Machine/HostSide.lean ====
section
/-!
DEFINITION. What the host does to the module: kicks, BAR2 accesses, mailbox registration, the commands of BAR4, and the puts
of the scale-out links (spec/04_launch.md R125, R131, R139; spec/16_retirement_and_host.md R428 to R433, R438, R440, R441).
-/

namespace Sys2Proof.Machine

open Host (Cell)

/-! ### Kicks (R125, R429) -/

/-- R125. The newer of two indices within the window. -/
def kickMax (k w : Nat) : Nat := if idxSub w k = 0 ∨ 2 ^ 31 ≤ idxSub w k then k else w

/-- R123, R125, R429, R443. HOST_KICK: a write of W to the kick register of queue q; its high half does nothing. -/
def execHostKick (q : Nat) (hi : Bool) (w : BitVec 32) (s : State) : Host.Outcome State Fault Refusal :=
  let d := s.qdesc q
  let put (s : State) : State := s.qdSet q 0x14 4 (kickMax d.wr w.toNat)
  if 4096 ≤ q then notNow
  else if hi then .next s
  else if !paExists (s.qdPa q) then .fault (.noSuchAddress (s.qdPa q))
  else .next (
    if !d.enabled || d.kind ≠ 1 then s.modHub (fun h => { h with kerr := true })
    else if d.malformed then ((put s).testQueue q).wakeIdle
    else if w.toNat % 64 ≠ 0 then (if d.halted then put s else (put s).haltQueue q 0x15).wakeIdle
    else (put s).wakeIdle)

/-! ### BAR2 (R428, R438) -/

/-- R438. Does open window w cover n bytes from a BAR2 offset? -/
def windowCovers (w : DWord × DWord) (off n : Nat) : Bool :=
  let base := field w.1.toNat 47 16 * 65536
  let len := field w.2.toNat 47 16 * 65536
  w.1.getLsbD 0 && base ≤ off && off + n ≤ base + len

/-- R428, R438. The lowest open window that accepts an access, where one does; dies 24 to 31 are refused. -/
def State.windowFor (s : State) (off n : Nat) : Option (DWord × DWord) :=
  if (List.range n).all (fun i => paExists (off + i) && !isHost (off + i)) then
    s.hub.windows.toList.find? (fun w => windowCovers w off n)
  else none

/-- R131. The mailboxes of an address space whose doorbell line bytes of memory touch, in order of number. -/
def State.rung (s : State) (aspace : BitVec 16) (pas : List Nat) : List Nat :=
  (List.range 1024).filter (fun m => s.work.mailboxes.any (fun b => b.num == m && b.aspace == aspace &&
    (match s.lookup aspace b.doorbell with
     | .leaf e => let pa := e.base + b.doorbell.toNat % 2 ^ e.shift; pas.any (fun p => pa ≤ p && p < pa + 64)
     | _ => false)))

/-- R131, R132, R443. Bytes from outside land at home, and each mailbox they ring gets one arrival after them, which ends power
state Idle. -/
def State.landFromOutside (s : State) (aspace : BitVec 16) (cells : List Cell) : State :=
  let ms := s.rung aspace (cells.map (·.1))
  let s1 := s.modMs (fun m => { m with stale := m.stale.filter (fun b => !cells.any (fun x => x.1 == b.pa)) })
  let s2 := (s1.homeWrite cells).modWork (fun w => { w with arrivals := w.arrivals ++ ms })
  if ms.isEmpty then s2 else s2.wakeIdle

def State.refused2 (s : State) : State := s.modHub (fun h => { h with werr := true })

/-- R428, R438. HOST_BAR2_WRITE. -/
def execHostBar2Write (off : Nat) (data : List (BitVec 8)) (s : State) : Host.Outcome State Fault Refusal :=
  match s.windowFor off data.length with
  | none => .next s.refused2
  | some w => .next (s.landFromOutside (w.2.setWidth 16) ((List.range data.length).zip data |>.map (fun x => (off + x.1, x.2))))

/-- R428, R438. HOST_BAR2_READ. -/
def execHostBar2Read (off n : Nat) (s : State) : Host.Outcome State Fault Refusal :=
  match s.windowFor off n with
  | none => .next { s.refused2 with outbox := s.outbox ++ [.readReply (List.replicate n 0xFF)] }
  | some _ => .next { s with outbox := s.outbox ++ [.readReply (memRead s.ms.mem off n)] }

/-! ### MBOXHOST (R139, R429, R435) -/

/-- R139, R429. MBOXHOST: a write to the result word acts as MBOX in the block's address space. -/
def execMboxhost (mgmt : Bool) (s : State) : Host.Outcome State Fault Refusal :=
  let b := if mgmt then s.hub.mboxMgmt else s.hub.mboxBar0
  let (s1, res) : State × Word :=
    if b.doorbell.toNat % 64 ≠ 0 ∨ b.handler.toNat % 64 ≠ 0 then (s, 0xFFFFFFFF) else s.mailbox b.doorbell b.handler b.aspace
  .next (s1.modHub (fun h =>
    if mgmt then { h with mboxMgmt := { b with result := res } } else { h with mboxBar0 := { b with result := res } }))

/-! ### The command mailbox (R432, R433) -/

/-- R433. CMD, PLEN and TAG of a request. -/
def reqCmd (req : List Byte) : Nat := numAt req 0 4
def reqLen (req : List Byte) : Nat := numAt req 4 4
def reqWord (req : List Byte) (o n : Nat) : Nat := numAt req o n

/-- R433. A response: its header, and its data. -/
def response (req : List Byte) (status : Nat) (data : List Byte) : List Byte :=
  leBytes 4 status ++ leBytes 4 data.length ++ ((req ++ List.replicate 16 (0 : Byte)).drop 8).take 8 ++ List.replicate 48 0 ++ data

/-- R432. The request stands in BAR4 and is answered; the doorbell reads 0 again. -/
def State.answerHost (s : State) (req : List Byte) (status : Nat) (data : List Byte) : State :=
  let resp := response req status data
  { (s.modHub (fun h =>
      { h with
        bar4Req := (req ++ List.replicate 4096 0).take 4096, bar4Resp := (resp ++ List.replicate 4096 0).take 4096
        bar4Bell := 0 })) with
    outbox := s.outbox ++ [.response resp] }

/-- R432, R433. A command other than 5: refused while BOOTOK is 0, and with STATUS 2 where its parameters are not all there. -/
def State.served (s : State) (req : List Byte) (need : Nat) (f : State → State) : State :=
  if !s.hub.bootok then s.answerHost req 3 []
  else if reqLen req < need ∨ 4032 < reqLen req then s.answerHost req 2 []
  else f s

/-- R440. A quote over a host nonce, signed with the leaf that it names. -/
def State.quote (s : State) (nonce : List Byte) : List Byte :=
  let head := nonce ++ leBytes 4 s.hub.devid.toNat ++ leBytes 4 s.hub.leaf.toNat ++ s.hub.fwDigest ++ s.hub.cfgDigest
  (head ++ Config.signature s.hub.leaf.toNat head).take 4032

/-- R433, R440. ATTESTATION_QUOTE: the leaf is spent before the signature leaves; with all 2^30 leaves of the two levels spent it
fails (log entry 53). -/
def execAttestationQuote (req : List (BitVec 8)) (s : State) : Host.Outcome State Fault Refusal :=
  if reqCmd req ≠ 1 then notNow
  else .next (s.served req 32 (fun s =>
    if 2 ^ 30 ≤ s.hub.leaf.toNat then s.answerHost req 4 []
    else
    let q := s.quote ((req.drop 0x40 ++ List.replicate 32 0).take 32)
    (s.modHub (fun h => { h with leaf := h.leaf + 1 })).answerHost req 0 q))

/-- R433. The descriptor that a define writes: QFLAGS, RDIDX and WRIDX are firmware's own. -/
def defineBytes (req : List Byte) : List Byte :=
  let d := ((req.drop 0x48) ++ List.replicate 64 0).take 64
  d.take 13 ++ [0] ++ (d.drop 14).take 2 ++ List.replicate 8 0 ++ d.drop 24

/-- R117, R433. Are the fields of a descriptor in range? -/
def defineOk (bs : List Byte) : Bool :=
  pow2In (numAt bs 8 4) 6 25 && numAt bs 0 8 % 256 == 0 && numAt bs 12 1 ≤ 2 && numAt bs 0x20 32 == 0

/-- R433. A command on a queue's descriptor. -/
def State.queueCommand (s : State) (req : List Byte) (need : Nat) (f : State → Nat → Option State) : State :=
  s.served req need (fun s =>
    let q := reqWord req 0x40 4
    if 4096 ≤ q then s.answerHost req 2 []
    else if !paExists (s.qdPa q) then s.answerHost req 4 []
    else match f s q with
      | some t => t.answerHost req 0 []
      | none => s.answerHost req 2 [])

/-- R433. QUEUE_DEFINE; an operation that is not 0, 1 or 2 is a bad parameter. -/
def execQueueDefine (req : List (BitVec 8)) (s : State) : Host.Outcome State Fault Refusal :=
  let op := reqWord req 0x44 4
  if reqCmd req ≠ 2 ∨ op = 1 ∨ op = 2 then notNow
  else .next (s.queueCommand req 72 (fun s q =>
    if op = 0 ∧ defineOk (defineBytes req) then some (s.hubWrite (s.qdPa q) (defineBytes req)) else none))

/-- R433. QUEUE_ENABLE. -/
def execQueueEnable (req : List (BitVec 8)) (s : State) : Host.Outcome State Fault Refusal :=
  if reqCmd req ≠ 2 ∨ reqWord req 0x44 4 ≠ 1 then notNow
  else .next (s.queueCommand req 8 (fun s q => some (s.qdSet q 0x0D 1 ((s.qdesc q).flags ||| 1))))

/-- R433. QUEUE_DISABLE. -/
def execQueueDisable (req : List (BitVec 8)) (s : State) : Host.Outcome State Fault Refusal :=
  if reqCmd req ≠ 2 ∨ reqWord req 0x44 4 ≠ 2 then notNow
  else .next (s.queueCommand req 8 (fun s q => some (s.qdSet q 0x0D 1 ((s.qdesc q).flags &&& 0xFE))))

/-- R5. The TDP in watts, of either part. -/
def State.tdp (s : State) : Nat := if s.hub.fp16 then 5500 else 5300

/-- R433, R443. SET_POWER_CAP. -/
def execSetPowerCap (req : List (BitVec 8)) (s : State) : Host.Outcome State Fault Refusal :=
  if reqCmd req ≠ 3 then notNow
  else .next (s.served req 4 (fun s =>
    let w := reqWord req 0x40 4
    if w < 1500 ∨ s.tdp < w then s.answerHost req 2 []
    else (s.modHub (fun h => { h with powerCap := w })).answerHost req 0 (leBytes 4 w)))

/-- R433. READ_ERROR_COUNTERS. -/
def execReadErrorCounters (req : List (BitVec 8)) (s : State) : Host.Outcome State Fault Refusal :=
  if reqCmd req ≠ 4 then notNow
  else .next (s.served req 4 (fun s =>
    let g := reqWord req 0x40 4
    let cs := (s.hub.counters.getD g []).take 503
    if 5 ≤ g then s.answerHost req 2 []
    else s.answerHost req 0 (leBytes 4 cs.length ++ leBytes 4 0 ++ cs.flatMap (fun c => leBytes 8 c.toNat))))

/-- R433. WRITE_FLASH, which is served while BOOTOK is 0 too. -/
def execWriteFlash (req : List (BitVec 8)) (s : State) : Host.Outcome State Fault Refusal :=
  let off := reqWord req 0x40 8
  let n := reqWord req 0x48 4
  if reqCmd req ≠ 5 then notNow
  else if n = 0 ∨ 4016 < n ∨ reqLen req < 16 + n ∨ 4032 < reqLen req then .next (s.answerHost req 2 [])
  else .next ((s.modHub (fun h =>
    { h with flash := memWrite h.flash off (((req.drop 0x50) ++ List.replicate n 0).take n) })).answerHost req 0 [])

/-- R433. UNKNOWN_COMMAND. -/
def execUnknownCommand (req : List (BitVec 8)) (s : State) : Host.Outcome State Fault Refusal :=
  if 1 ≤ reqCmd req ∧ reqCmd req ≤ 5 then notNow
  else .next (s.answerHost req (if s.hub.bootok then 1 else 3) [])

/-! ### Puts (R441) -/

/-- R441. The sequence number last performed from a device through a port. -/
def Hub.lastSeq (h : Hub) (dev : BitVec 20) (port : Nat) : Option (BitVec 32) :=
  (h.seqs.find? (fun x => x.1 == dev && x.2.1 == port)).map (·.2.2)

def Hub.countPut (h : Hub) : Hub := { h with putDropped := h.putDropped + 1 }

/-- R441. PUT_RECEIVE: a put is dropped and counted, answered with a negative acknowledgement, or performs at home with its
arrival. Puts of one source through one port come in sequence order. The partition of pair 0 bounds the walk (the model's choice,
log entry 54). -/
def execPutReceive (port : Nat) (dstdev srcdev : BitVec 20) (aspace : BitVec 16) (va : BitVec 64) (seq : BitVec 32)
    (data : List (BitVec 8)) (s : State) : Host.Outcome State Fault Refusal :=
  let newer : Bool := match s.hub.lastSeq srcdev port with
    | none => true
    | some p => 0 < (seq - p).toNat && (seq - p).toNat < 2 ^ 31
  if 32 ≤ port ∨ data.isEmpty ∨ 8192 < data.length then notNow
  else if dstdev ≠ s.hub.devid then .next (s.modHub Hub.countPut)
  else if !newer then notNow
  else
    let s1 := s.modHub (fun h =>
      { h with seqs := h.seqs.filter (fun x => !(x.1 == srcdev && x.2.1 == port)) ++ [(srcdev, port, seq)] })
    match s1.xlateRange aspace false va false true data.length with
    | .error _ => .next { (s1.modHub Hub.countPut) with outbox := s.outbox ++ [.nack srcdev seq] }
    | .ok pas => .next (s1.landFromOutside aspace ((pas.map (·.1)).zip data))

/-- R441. PUT_SEND: the next descriptor of a send ring whose write index is ahead is sent; one that cannot be read sends nothing
(log entries 35 and 54). -/
def execPutSend (ring : Nat) (s : State) : Host.Outcome State Fault Refusal :=
  match s.hub.sends[ring]? with
  | none => notNow
  | some r =>
    match s.fetchVa r.aspace r.windex 4 with
    | .bytes ib _ =>
      if r.size = 0 ∨ leNat ib = r.rd % 2 ^ 32 then notNow
      else
        let s1 := s.modHub (fun h => { h with sends := h.sends.set ring { r with rd := r.rd + 1 } })
        match s.fetchVa r.aspace (r.base + BitVec.ofNat 64 (64 * (r.rd % r.size))) 64 with
        | .bytes d _ =>
          let f (i : Nat) : Nat := Config.sendField i d
          match s.fetchVa r.aspace (BitVec.ofNat 64 (f 6)) (f 4 % 8193) with
          | .bytes bs _ =>
            if bs.isEmpty then .next s1
            else .next { s1 with outbox := s1.outbox ++
              [.put (BitVec.ofNat 20 (f 0)) (BitVec.ofNat 20 (f 1)) (BitVec.ofNat 16 (f 2)) (BitVec.ofNat 64 (f 3))
                (BitVec.ofNat 32 (f 5)) bs] }
          | _ => .next s1
        | _ => .next s1
    | _ => notNow

end Sys2Proof.Machine
end

