-- ==== Sys2Proof/Machine/Firmware.lean ====
section
/-!
DEFINITION. The management window and what firmware and the hub do to the module: register writes, partition mode, the
watchdog, invalidation, reset, heat and power (spec/05_placement.md R152, R153; spec/16_retirement_and_host.md R427 to R443).
-/

namespace Sys2Proof.Machine

/-! ### PARTMODE (R152, R153) -/

/-- R152. DRAINED. -/
def State.drainedAll (s : State) : Bool :=
  let c := s.core
  s.hub.stop && !s.consorts.any (fun q => q.onCore || q.courses.any (fun x => !x.pending.isEmpty)) && c.copies.isEmpty &&
    c.bins.isEmpty && c.selq.isEmpty && c.tfills.isEmpty && c.packets.isEmpty && s.mqLevel == 0 && s.ms.stores.isEmpty &&
    s.ms.loads.isEmpty && s.ms.atoms.isEmpty

/-- R152. STOP and MERR as a write leaves them. -/
def State.writeStop (s : State) (w : DWord) : State :=
  s.modHub (fun h => { h with stop := w.getLsbD 16, merr := h.merr && !w.getLsbD 9 })

/-- R152. PARTMODE_STOP: a write that leaves MODE as it is. -/
def execPartmodeStop (w : BitVec 64) (s : State) : Host.Outcome State Fault Refusal :=
  if w.setWidth 2 = s.hub.pmode ∨ w.setWidth 2 = 3#2 then .next (s.writeStop w) else notNow

/-- R152, R153. PARTMODE_MODE_WRITE: a write to MODE, refused with MERR while DRAINED is 0; a MODE of 3 is ignored. -/
def execPartmodeModeWrite (w : BitVec 64) (s : State) : Host.Outcome State Fault Refusal :=
  if w.setWidth 2 = 3#2 then .next (s.writeStop w)
  else if !s.drainedAll then .next (s.modHub (fun h => { h with merr := true }))
  else .next ((s.writeStop w).modHub (fun h => { h with pmode := w.setWidth 2 }))

/-! ### The watchdog (R434) -/

/-- R434, R435. WATCHDOG_RESTART. -/
def execWatchdogRestart (s : State) : Host.Outcome State Fault Refusal :=
  .next (s.modHub (fun h => { h with watchdog := 50000, wdClocks := 0 }))

/-- R434. WATCHDOG_EXPIRY: once the 50 ms have run out. -/
def execWatchdogExpiry (s : State) : Host.Outcome State Fault Refusal :=
  if s.hub.watchdog ≠ 0 ∨ s.hub.fwlost then notNow
  else
    let s1 := (s.modHub (fun h => { h with stop := true, fwlost := true })).hostEvent 4 s.openDetail 0
    .next { s1 with outbox := s1.outbox ++ [.firmwareReset] }

/-- R434, R435. n clocks pass for the watchdog while firmware runs (log entry 63). -/
def Hub.pass (h : Hub) (n : Nat) : Hub :=
  if h.bootok && !h.fwlost then
    { h with
      watchdog := BitVec.ofNat 32 (h.watchdog.toNat - (h.wdClocks + n) / h.cclk), wdClocks := (h.wdClocks + n) % h.cclk }
  else h

/-! ### Invalidation (R439) -/

/-- R439. A write to INVALCMD with a scope starts an invalidation, or is ignored while one is in progress. -/
def State.startInval (s : State) (cmd : DWord) (scope : Nat) : Host.Outcome State Fault Refusal :=
  if field cmd.toNat 2 0 ≠ scope then notNow
  else .next (if s.hub.invalBusy then s
    else s.modHub (fun h => { h with invalcmd := cmd &&& 0xFFFF000000000007, invalBusy := true, invalFrom := h.invalva }))

def execInvalPage (cmd : BitVec 64) (s : State) : Host.Outcome State Fault Refusal := s.startInval cmd 0
def execInval2mib (cmd : BitVec 64) (s : State) : Host.Outcome State Fault Refusal := s.startInval cmd 1
def execInval1gib (cmd : BitVec 64) (s : State) : Host.Outcome State Fault Refusal := s.startInval cmd 2
def execInvalAspace (cmd : BitVec 64) (s : State) : Host.Outcome State Fault Refusal := s.startInval cmd 3
def execInvalAll (cmd : BitVec 64) (s : State) : Host.Outcome State Fault Refusal := s.startInval cmd 4

/-- R439. Does the invalidation in progress cover a held translation? -/
def Hub.invalidates (h : Hub) (e : TlbEntry) : Bool :=
  let scope := field h.invalcmd.toNat 2 0
  let size := if scope = 0 then 16 else if scope = 1 then 21 else 30
  let va := field h.invalFrom.toNat 55 16 * 65536
  let lo := va / 2 ^ size * 2 ^ size
  let at_ := e.vpn * 2 ^ e.shift
  scope == 4 || (e.aspace == BitVec.ofNat 16 (field h.invalcmd.toNat 63 48) &&
    (scope == 3 || (scope < 3 && lo < at_ + 2 ^ e.shift && at_ < lo + 2 ^ size)))

/-- R439. INVAL_COMPLETE: every core has dropped the translations, and BUSY reads 0. -/
def execInvalComplete (s : State) : Host.Outcome State Fault Refusal :=
  if s.hub.invalBusy then
    .next ((s.modMs (fun m => { m with tlb := m.tlb.filter (fun e => !s.hub.invalidates e) })).modHub
      (fun h => { h with invalBusy := false }))
  else notNow

/-! ### Register writes (R390, R413, R427, R429, R430, R435 to R439) -/

/-- Bits [hi:lo] of a word in place, the others zero. -/
def keepBits (w : DWord) (hi lo : Nat) : DWord := BitVec.ofNat 64 (field w.toNat hi lo * 2 ^ lo)

/-- R427. A write to register r of an exit ring. -/
def ExitRing.write (x : ExitRing) (r : Nat) (w : DWord) : ExitRing :=
  match r with
  | 0x00 => { x with base := keepBits w 47 8 }
  | 0x08 => { x with size := w.setWidth 32 }
  | 0x18 => { x with rd := w.setWidth 32 }
  | 0x20 => { x with lost := x.lost &&& ~~~(BitVec.ofNat 16 (field w.toNat 31 16)), mode := w.setWidth 2 }
  | _ => x

/-- R429. A write to word r of an MBOXHOST block. -/
def MboxHost.write (x : MboxHost) (r : Nat) (w : DWord) : MboxHost :=
  match r with
  | 0x00 => { x with doorbell := w }
  | 0x08 => { x with handler := w }
  | 0x10 => { x with aspace := w.setWidth 16 }
  | _ => x

/-- R435. A write to the management window, at the offsets that have no behaviour of their own. -/
def Hub.writeMgmt (h : Hub) (off : Nat) (w : DWord) : Hub :=
  if off = 0x10 then { h with ctxaddr := keepBits w 47 16 }
  else if off = 0x20 then { h with qdtbase := keepBits w 47 18 }
  else if off = 0x28 then { h with astbase := keepBits w 47 19 }
  else if off = 0x30 then { h with invalva := keepBits w 55 16 }
  else if off = 0x38 then (if h.invalBusy then h else { h with invalcmd := w &&& 0xFFFF000000000007 })
  else if 0x100 ≤ off ∧ off < 0x300 then
    let p := (off - 0x100) / 0x40
    { h with exits := vset h.exits p ((vget h.exits ExitRing.reset p).write (off % 0x40) w) }
  else if off = 0x400 then { h with frbase := keepBits w 47 5 }
  else if off = 0x408 then { h with frsize := w.setWidth 32 }
  else if off = 0x418 then { h with frrd := w.setWidth 32 }
  else if off = 0x420 then { h with frien := w.getLsbD 0 }
  else if 0x1000 ≤ off ∧ off < 0x10C0 then
    let m := (off - 0x1000) / 8
    let full : DWord := vget h.recarea 0 m &&& ~~~w &&& 4
    { h with recarea := vset h.recarea m (keepBits w 35 31 ||| keepBits w 0 0 ||| full) }
  else if 0x2000 ≤ off ∧ off < 0x3000 then
    let n := (off - 0x2000) / 16
    let x := vget h.windows (0, 0) n
    let y := if off % 16 = 0 then (keepBits w 47 16 ||| keepBits w 0 0, x.2) else (x.1, keepBits w 47 0)
    { h with windows := vset h.windows n y }
  else if 0x4000 ≤ off ∧ off < 0x4018 then { h with mboxMgmt := h.mboxMgmt.write (off - 0x4000) w }
  else h

/-- R429, R430. A write to BAR0, at the offsets that have no behaviour of their own. -/
def Hub.writeBar0 (h : Hub) (off : Nat) (w : DWord) : Hub :=
  if 0x8000 ≤ off ∧ off < 0x8018 then { h with mboxBar0 := h.mboxBar0.write (off - 0x8000) w }
  else if off = 0x9000 then
    { h with therm := h.therm && !w.getLsbD 5, kerr := h.kerr && !w.getLsbD 4, werr := h.werr && !w.getLsbD 3 }
  else if off = 0xA000 then { h with evBase := keepBits w 63 4 }
  else if off = 0xA008 then { h with evSize := BitVec.ofNat 16 (field w.toNat 31 16), evRd := w.setWidth 16 }
  else if off = 0xA018 then
    { h with evLost := h.evLost &&& ~~~(BitVec.ofNat 16 (field w.toNat 31 16)), evEn := w.getLsbD 0 }
  else h

/-- Offsets whose writes are events of their own: PARTMODE, WATCHDOG, CTXCMD with an OP, INVALCMD with a scope that acts, and
the result words of MBOXHOST; kicks and the result word in BAR0. -/
def ownWrite (bar0 : Bool) (off : Nat) (w : DWord) : Bool :=
  if bar0 then off < 0x8000 || off == 0x8018
  else off == 0 || off == 8 || (off == 0x18 && cmdOp w != 0) || (off == 0x38 && field w.toNat 2 0 ≤ 4) || off == 0x4018

/-- R429, R435. REGISTER_WRITE: an aligned 8-byte write; any other changes nothing. -/
def execRegisterWrite (bar0 : Bool) (off : Nat) (w : BitVec 64) (s : State) : Host.Outcome State Fault Refusal :=
  if off % 8 ≠ 0 then .next s
  else if ownWrite bar0 off w then notNow
  else if bar0 then .next (s.modHub (fun h => h.writeBar0 off w))
  else if off = 0x18 then .next (s.command w false)
  else .next (s.modHub (fun h => h.writeMgmt off w))

/-! ### Reset, heat and power (R440, R442, R443) -/

/-- R440. MODULE_RESET: everything stops, and the boot chain runs over the flash. Memory, flash, the leaf index, and what the
configuration record holds stay. -/
def execModuleReset (s : State) : Host.Outcome State Fault Refusal :=
  let ok := Config.bootVerified s.tick
  let digest (i : Nat) : List Byte := (List.range 32).map (fun n => Config.bootDigest (2 * s.tick + i) n)
  let h := Hub.reset
  .next { State.reset with
    tick := s.tick, nextId := s.nextId, inputs := s.inputs, outbox := s.outbox
    ms := { MemSys.reset with mem := s.ms.mem, poison := s.ms.poison }
    hub := { h with
      fp16 := s.hub.fp16, powerCap := s.tdp, devid := s.hub.devid, flash := s.hub.flash, leaf := s.hub.leaf, counters := s.hub.counters
      bootok := ok, stopped := !ok, fwDigest := if ok then digest 0 else h.fwDigest
      cfgDigest := if ok then digest 1 else h.cfgDigest } }

/-- R443. THERMAL_THROTTLE. -/
def execThermalThrottle (s : State) : Host.Outcome State Fault Refusal :=
  .next ((s.modHub (fun h => { h with cclk := 1200, therm := true })).hostEvent 3 s.openDetail 0)

/-- R443. THERMAL_TRIP. -/
def execThermalTrip (s : State) : Host.Outcome State Fault Refusal :=
  .next ((s.modHub (fun h => { h with therm := true, tripped := true, stopped := true })).hostEvent 3 s.openDetail 0)

/-- R443. POWER_CAP_STEP: the hardware steps CCLK by 100 MHz between 1.2 GHz and the full clock, down while the average power lies
above the cap and up while it does not. -/
def execPowerCapStep (up : Bool) (s : State) : Host.Outcome State Fault Refusal :=
  let h := s.hub
  if h.stopped || 2 ≤ h.pstate.toNat then notNow
  else if up then
    (if h.cclk + 100 ≤ 2400 && !h.therm && h.power ≤ h.powerCap then
      .next (s.modHub (fun h => { h with cclk := h.cclk + 100, pstate := if h.cclk + 100 = 2400 then 0 else 1 }))
    else notNow)
  else if 1200 + 100 ≤ h.cclk && h.powerCap < h.power then .next (s.modHub (fun h => { h with cclk := h.cclk - 100, pstate := 1 }))
  else notNow

/-- R443. POWER_STATE_IDLE: with no consort on the core and nothing in flight, the distributors stop. -/
def execPowerStateIdle (s : State) : Host.Outcome State Fault Refusal :=
  if s.hub.pstate.toNat < 2 && !s.hub.stopped && !s.consorts.any (·.onCore) && s.ms.stores.isEmpty && s.ms.atoms.isEmpty &&
      s.work.arrivals.isEmpty then
    .next (s.modHub (fun h => { h with pstate := 2 }))
  else notNow

/-- R443. PCIE_D3COLD: power state Off. -/
def execPcieD3cold (s : State) : Host.Outcome State Fault Refusal := .next (s.modHub (fun h => { h with pstate := 3 }))

/-- R433, R442. Unit u of group g counts one more error (log entry 63). -/
def Hub.count (h : Hub) (g u : Nat) : Hub :=
  if g < 5 ∧ u < 503 then
    let rows := h.counters ++ List.replicate (g + 1 - h.counters.length) []
    let row := rows.getD g []
    let row1 := row ++ List.replicate (u + 1 - row.length) 0
    { h with counters := rows.set g (row1.set u (row1.getD u 0 + 1)) }
  else h

/-- R433, R442. RESOURCE_RETIREMENT: REPLACE_REQUEST is raised, and the retired resource is counted. -/
def execResourceRetirement (detail : BitVec 32) (s : State) : Host.Outcome State Fault Refusal :=
  .next ((s.replaceRequest detail.toNat).modHub (·.count 4 detail.toNat))

end Sys2Proof.Machine
end

