-- ==== Sys2Proof/Machine/Dispatch.lean ====
section
/-!
DEFINITION. One arm per instruction: each names the definition that gives its meaning.
-/

namespace Sys2Proof.Machine

open Sys2Proof

def exec (i : Instr) (s : State) : Host.Outcome State Fault Refusal :=
  match i with
  | .movShort d sv => Sys2Proof.Machine.execMovShort d sv s
  | .iaddShort d sv => Sys2Proof.Machine.execIaddShort d sv s
  | .isubShort d sv => Sys2Proof.Machine.execIsubShort d sv s
  | .iandShort d sv => Sys2Proof.Machine.execIandShort d sv s
  | .iorShort d sv => Sys2Proof.Machine.execIorShort d sv s
  | .ixorShort d sv => Sys2Proof.Machine.execIxorShort d sv s
  | .shlShort d sv => Sys2Proof.Machine.execShlShort d sv s
  | .shrlShort d sv => Sys2Proof.Machine.execShrlShort d sv s
  | .shraShort d sv => Sys2Proof.Machine.execShraShort d sv s
  | .imulShort d sv => Sys2Proof.Machine.execImulShort d sv s
  | .faddShort d sv => Sys2Proof.Machine.execFaddShort d sv s
  | .fsubShort d sv => Sys2Proof.Machine.execFsubShort d sv s
  | .fmulShort d sv => Sys2Proof.Machine.execFmulShort d sv s
  | .fminShort d sv => Sys2Proof.Machine.execFminShort d sv s
  | .fmaxShort d sv => Sys2Proof.Machine.execFmaxShort d sv s
  | .moviShort d iv => Sys2Proof.Machine.execMoviShort d iv s
  | .nop => Sys2Proof.Machine.execNop s
  | .trap c => Sys2Proof.Machine.execTrap c s
  | .brk c => Sys2Proof.Machine.execBrk c s
  | .yield => Sys2Proof.Machine.execYield s
  | .rdsr d n => Sys2Proof.Machine.execRdsr d n s
  | .wrsr a n => Sys2Proof.Machine.execWrsr a n s
  | .clock d => Sys2Proof.Machine.execClock d s
  | .prbclr => Sys2Proof.Machine.execPrbclr s
  | .limm iv fw => Sys2Proof.Machine.execLimm iv fw s
  | .brnz c o px => Sys2Proof.Machine.execBrnz c o px s
  | .brz c o px => Sys2Proof.Machine.execBrz c o px s
  | .jmp iv px => Sys2Proof.Machine.execJmp iv px s
  | .call iv px => Sys2Proof.Machine.execCall iv px s
  | .ret r => Sys2Proof.Machine.execRet r s
  | .callx o e => Sys2Proof.Machine.execCallx o e s
  | .callxr r => Sys2Proof.Machine.execCallxr r s
  | .retx r => Sys2Proof.Machine.execRetx r s
  | .exit => Sys2Proof.Machine.execExit s
  | .nap n => Sys2Proof.Machine.execNap n s
  | .join m => Sys2Proof.Machine.execJoin m s
  | .leave m => Sys2Proof.Machine.execLeave m s
  | .waitm m => Sys2Proof.Machine.execWaitm m s
  | .mmov m sv px => Sys2Proof.Machine.execMmov m sv px s
  | .mread m v => Sys2Proof.Machine.execMread m v s
  | .mwrite m v => Sys2Proof.Machine.execMwrite m v s
  | .mcount m v => Sys2Proof.Machine.execMcount m v s
  | .waitc l sv c t k => Sys2Proof.Machine.execWaitc l sv c t k s
  | .sadd d a b => Sys2Proof.Machine.execSadd d a b s
  | .ssub d a b => Sys2Proof.Machine.execSsub d a b s
  | .smul d a b => Sys2Proof.Machine.execSmul d a b s
  | .sand d a b => Sys2Proof.Machine.execSand d a b s
  | .sor d a b => Sys2Proof.Machine.execSor d a b s
  | .sxor d a b => Sys2Proof.Machine.execSxor d a b s
  | .sshl d a b => Sys2Proof.Machine.execSshl d a b s
  | .sshrl d a b => Sys2Proof.Machine.execSshrl d a b s
  | .sshra d a b => Sys2Proof.Machine.execSshra d a b s
  | .smin d a b => Sys2Proof.Machine.execSmin d a b s
  | .smax d a b => Sys2Proof.Machine.execSmax d a b s
  | .snmin d a b => Sys2Proof.Machine.execSnmin d a b s
  | .snmax d a b => Sys2Proof.Machine.execSnmax d a b s
  | .scmpeq d a b => Sys2Proof.Machine.execScmpeq d a b s
  | .scmplt d a b => Sys2Proof.Machine.execScmplt d a b s
  | .scmpnlt d a b => Sys2Proof.Machine.execScmpnlt d a b s
  | .ssel d a b => Sys2Proof.Machine.execSsel d a b s
  | .saddi d a iv px => Sys2Proof.Machine.execSaddi d a iv px s
  | .sandi d a iv px => Sys2Proof.Machine.execSandi d a iv px s
  | .sori d a iv px => Sys2Proof.Machine.execSori d a iv px s
  | .sxori d a iv px => Sys2Proof.Machine.execSxori d a iv px s
  | .sshli d a iv px => Sys2Proof.Machine.execSshli d a iv px s
  | .sshrli d a iv px => Sys2Proof.Machine.execSshrli d a iv px s
  | .smovi d iv px => Sys2Proof.Machine.execSmovi d iv px s
  | .scmpeqi d a iv px => Sys2Proof.Machine.execScmpeqi d a iv px s
  | .sld d a iv px => Sys2Proof.Machine.execSld d a iv px s
  | .sst d a iv px => Sys2Proof.Machine.execSst d a iv px s
  | .sldw d a iv px => Sys2Proof.Machine.execSldw d a iv px s
  | .sstw d a iv px => Sys2Proof.Machine.execSstw d a iv px s
  | .iadd d a b => Sys2Proof.Machine.execIadd d a b s
  | .isub d a b => Sys2Proof.Machine.execIsub d a b s
  | .iand d a b => Sys2Proof.Machine.execIand d a b s
  | .ior d a b => Sys2Proof.Machine.execIor d a b s
  | .ixor d a b => Sys2Proof.Machine.execIxor d a b s
  | .andn d a b => Sys2Proof.Machine.execAndn d a b s
  | .shl d a b => Sys2Proof.Machine.execShl d a b s
  | .shrl d a b => Sys2Proof.Machine.execShrl d a b s
  | .shra d a b => Sys2Proof.Machine.execShra d a b s
  | .imin d a b => Sys2Proof.Machine.execImin d a b s
  | .imax d a b => Sys2Proof.Machine.execImax d a b s
  | .nmin d a b => Sys2Proof.Machine.execNmin d a b s
  | .nmax d a b => Sys2Proof.Machine.execNmax d a b s
  | .iabs d a => Sys2Proof.Machine.execIabs d a s
  | .ineg d a => Sys2Proof.Machine.execIneg d a s
  | .mov d a => Sys2Proof.Machine.execMov d a s
  | .imul d a b => Sys2Proof.Machine.execImul d a b s
  | .imulhi d a b => Sys2Proof.Machine.execImulhi d a b s
  | .nmulhi d a b => Sys2Proof.Machine.execNmulhi d a b s
  | .imad d a b => Sys2Proof.Machine.execImad d a b s
  | .popc d a => Sys2Proof.Machine.execPopc d a s
  | .clz d a => Sys2Proof.Machine.execClz d a s
  | .brev d a => Sys2Proof.Machine.execBrev d a s
  | .iaddsat d a b => Sys2Proof.Machine.execIaddsat d a b s
  | .iaddi d a iv px => Sys2Proof.Machine.execIaddi d a iv px s
  | .andi d a iv px => Sys2Proof.Machine.execAndi d a iv px s
  | .ori d a iv px => Sys2Proof.Machine.execOri d a iv px s
  | .xori d a iv px => Sys2Proof.Machine.execXori d a iv px s
  | .shli d a iv px => Sys2Proof.Machine.execShli d a iv px s
  | .shrli d a iv px => Sys2Proof.Machine.execShrli d a iv px s
  | .shrai d a iv px => Sys2Proof.Machine.execShrai d a iv px s
  | .movi d t iv px => Sys2Proof.Machine.execMovi d t iv px s
  | .ialusIadd d a sv => Sys2Proof.Machine.execIalusIadd d a sv s
  | .ialusIsub d a sv => Sys2Proof.Machine.execIalusIsub d a sv s
  | .ialusAnd d a sv => Sys2Proof.Machine.execIalusAnd d a sv s
  | .ialusOr d a sv => Sys2Proof.Machine.execIalusOr d a sv s
  | .ialusXor d a sv => Sys2Proof.Machine.execIalusXor d a sv s
  | .ialusAndn d a sv => Sys2Proof.Machine.execIalusAndn d a sv s
  | .ialusShl d a sv => Sys2Proof.Machine.execIalusShl d a sv s
  | .ialusShrl d a sv => Sys2Proof.Machine.execIalusShrl d a sv s
  | .ialusShra d a sv => Sys2Proof.Machine.execIalusShra d a sv s
  | .ialusImin d a sv => Sys2Proof.Machine.execIalusImin d a sv s
  | .ialusImax d a sv => Sys2Proof.Machine.execIalusImax d a sv s
  | .ialusNmin d a sv => Sys2Proof.Machine.execIalusNmin d a sv s
  | .ialusNmax d a sv => Sys2Proof.Machine.execIalusNmax d a sv s
  | .ialusIabs d a => Sys2Proof.Machine.execIalusIabs d a s
  | .icmpEq d a b => Sys2Proof.Machine.execIcmpEq d a b s
  | .icmpNe d a b => Sys2Proof.Machine.execIcmpNe d a b s
  | .icmpLt d a b => Sys2Proof.Machine.execIcmpLt d a b s
  | .icmpLe d a b => Sys2Proof.Machine.execIcmpLe d a b s
  | .icmpGt d a b => Sys2Proof.Machine.execIcmpGt d a b s
  | .icmpGe d a b => Sys2Proof.Machine.execIcmpGe d a b s
  | .icmpNlt d a b => Sys2Proof.Machine.execIcmpNlt d a b s
  | .icmpNle d a b => Sys2Proof.Machine.execIcmpNle d a b s
  | .icmpNgt d a b => Sys2Proof.Machine.execIcmpNgt d a b s
  | .icmpNge d a b => Sys2Proof.Machine.execIcmpNge d a b s
  | .sel d a b => Sys2Proof.Machine.execSel d a b s
  | .fadd d a b => Sys2Proof.Machine.execFadd d a b s
  | .fsub d a b => Sys2Proof.Machine.execFsub d a b s
  | .fmul d a b => Sys2Proof.Machine.execFmul d a b s
  | .fmin d a b => Sys2Proof.Machine.execFmin d a b s
  | .fmax d a b => Sys2Proof.Machine.execFmax d a b s
  | .fabs d a => Sys2Proof.Machine.execFabs d a s
  | .fneg d a => Sys2Proof.Machine.execFneg d a s
  | .fcopysign d a b => Sys2Proof.Machine.execFcopysign d a b s
  | .frint d a => Sys2Proof.Machine.execFrint d a s
  | .falusFadd d a sv => Sys2Proof.Machine.execFalusFadd d a sv s
  | .falusFsub d a sv => Sys2Proof.Machine.execFalusFsub d a sv s
  | .falusFmul d a sv => Sys2Proof.Machine.execFalusFmul d a sv s
  | .falusFmin d a sv => Sys2Proof.Machine.execFalusFmin d a sv s
  | .falusFmax d a sv => Sys2Proof.Machine.execFalusFmax d a sv s
  | .fma d a b => Sys2Proof.Machine.execFma d a b s
  | .fms d a b => Sys2Proof.Machine.execFms d a b s
  | .fnma d a b => Sys2Proof.Machine.execFnma d a b s
  | .fnms d a b => Sys2Proof.Machine.execFnms d a b s
  | .fcmpEq d a b => Sys2Proof.Machine.execFcmpEq d a b s
  | .fcmpNe d a b => Sys2Proof.Machine.execFcmpNe d a b s
  | .fcmpLt d a b => Sys2Proof.Machine.execFcmpLt d a b s
  | .fcmpLe d a b => Sys2Proof.Machine.execFcmpLe d a b s
  | .fcmpGt d a b => Sys2Proof.Machine.execFcmpGt d a b s
  | .fcmpGe d a b => Sys2Proof.Machine.execFcmpGe d a b s
  | .fcmpUn d a b => Sys2Proof.Machine.execFcmpUn d a b s
  | .fcmpOrd d a b => Sys2Proof.Machine.execFcmpOrd d a b s
  | .rcp d a => Sys2Proof.Machine.execRcp d a s
  | .rsq d a => Sys2Proof.Machine.execRsq d a s
  | .sqrt d a => Sys2Proof.Machine.execSqrt d a s
  | .div d a b => Sys2Proof.Machine.execDiv d a b s
  | .exp2 d a => Sys2Proof.Machine.execExp2 d a s
  | .log2 d a => Sys2Proof.Machine.execLog2 d a s
  | .sin d a => Sys2Proof.Machine.execSin d a s
  | .cos d a => Sys2Proof.Machine.execCos d a s
  | .cvt d a t m => Sys2Proof.Machine.execCvt d a t m s
  | .cast d a t => Sys2Proof.Machine.execCast d a t s
  | .pack d a b => Sys2Proof.Machine.execPack d a b s
  | .unpacklo d a => Sys2Proof.Machine.execUnpacklo d a s
  | .unpackhi d a => Sys2Proof.Machine.execUnpackhi d a s
  | .qdec d a b => Sys2Proof.Machine.execQdec d a b s
  | .shfl d a b => Sys2Proof.Machine.execShfl d a b s
  | .shflup d a b => Sys2Proof.Machine.execShflup d a b s
  | .shfldn d a b => Sys2Proof.Machine.execShfldn d a b s
  | .shflx d a b => Sys2Proof.Machine.execShflx d a b s
  | .ballot d a => Sys2Proof.Machine.execBallot d a s
  | .voteall d a => Sys2Proof.Machine.execVoteall d a s
  | .voteany d a => Sys2Proof.Machine.execVoteany d a s
  | .redadd d a => Sys2Proof.Machine.execRedadd d a s
  | .redmin d a => Sys2Proof.Machine.execRedmin d a s
  | .redmax d a => Sys2Proof.Machine.execRedmax d a s
  | .scanadd d a => Sys2Proof.Machine.execScanadd d a s
  | .matchv d a => Sys2Proof.Machine.execMatchv d a s
  | .movs d t h sv => Sys2Proof.Machine.execMovs d t h sv s
  | .vtos d a h => Sys2Proof.Machine.execVtos d a h s
  | .laneid d => Sys2Proof.Machine.execLaneid d s
  | .wid d h => Sys2Proof.Machine.execWid d h s
  | .widf d n => Sys2Proof.Machine.execWidf d n s
  | .rng d a k => Sys2Proof.Machine.execRng d a k s
  | .rng4 d a k => Sys2Proof.Machine.execRng4 d a k s
  | .ld d a sv k px => Sys2Proof.Machine.execLd d a sv k px s
  | .st d a sv k px => Sys2Proof.Machine.execSt d a sv k px s
  | .lds d a sv k px => Sys2Proof.Machine.execLds d a sv k px s
  | .sts d a sv k px => Sys2Proof.Machine.execSts d a sv k px s
  | .atom d a sv o px => Sys2Proof.Machine.execAtom d a sv o px s
  | .red d a sv o px => Sys2Proof.Machine.execRed d a sv o px s
  | .atoms d a sv o px => Sys2Proof.Machine.execAtoms d a sv o px s
  | .reds d a sv o px => Sys2Proof.Machine.execReds d a sv o px s
  | .fence o p => Sys2Proof.Machine.execFence o p s
  | .xfence p a b => Sys2Proof.Machine.execXfence p a b s
  | .bar b px => Sys2Proof.Machine.execBar b px s
  | .bararr b px => Sys2Proof.Machine.execBararr b px s
  | .armw v o px => Sys2Proof.Machine.execArmw v o px s
  | .arwait v o px => Sys2Proof.Machine.execArwait v o px s
  | .aradd v o px => Sys2Proof.Machine.execAradd v o px s
  | .cpy a c k => Sys2Proof.Machine.execCpy a c k s
  | .cpy2 a c k => Sys2Proof.Machine.execCpy2 a c k s
  | .cpym a c k => Sys2Proof.Machine.execCpym a c k s
  | .binsc v t r k => Sys2Proof.Machine.execBinsc v t r k s
  | .binga v t r k => Sys2Proof.Machine.execBinga v t r k s
  | .binrst t f => Sys2Proof.Machine.execBinrst t f s
  | .binqry v t b => Sys2Proof.Machine.execBinqry v t b s
  | .tfet t sv f n => Sys2Proof.Machine.execTfet t sv f n s
  | .mma a b l e m n sv k => Sys2Proof.Machine.execMma a b l e m n sv k s
  | .mloop l e n r sv => Sys2Proof.Machine.execMloop l e n r sv s
  | .accz a c => Sys2Proof.Machine.execAccz a c s
  | .accrd v a c => Sys2Proof.Machine.execAccrd v a c s
  | .accwr v a => Sys2Proof.Machine.execAccwr v a s
  | .accdr q a c => Sys2Proof.Machine.execAccdr q a c s
  | .accver v a => Sys2Proof.Machine.execAccver v a s
  | .accwv a c => Sys2Proof.Machine.execAccwv a c s
  | .ctset v => Sys2Proof.Machine.execCtset v s
  | .ctget v => Sys2Proof.Machine.execCtget v s
  | .achopen a => Sys2Proof.Machine.execAchopen a s
  | .achjoin c => Sys2Proof.Machine.execAchjoin c s
  | .asend c q => Sys2Proof.Machine.execAsend c q s
  | .achwait v c => Sys2Proof.Machine.execAchwait v c s
  | .achclose c => Sys2Proof.Machine.execAchclose c s
  | .topk q a k => Sys2Proof.Machine.execTopk q a k s
  | .softmx q a k => Sys2Proof.Machine.execSoftmx q a k s
  | .sample q a u k => Sys2Proof.Machine.execSample q a u k s
  | .lnch a q => Sys2Proof.Machine.execLnch a q s
  | .emit a o => Sys2Proof.Machine.execEmit a o s
  | .jcnew a n => Sys2Proof.Machine.execJcnew a n s
  | .jcdec a n => Sys2Proof.Machine.execJcdec a n s
  | .jcwait v a => Sys2Proof.Machine.execJcwait v a s
  | .mbox v a h => Sys2Proof.Machine.execMbox v a h s
  | .ovld iv k => Sys2Proof.Machine.execOvld iv k s
  | .ovpin v iv => Sys2Proof.Machine.execOvpin v iv s
  | .ovunpin iv => Sys2Proof.Machine.execOvunpin iv s
  | .ovevict v iv => Sys2Proof.Machine.execOvevict v iv s
  | .ovqry v iv => Sys2Proof.Machine.execOvqry v iv s
  | .qbind p a b => Sys2Proof.Machine.execQbind p a b s
  | .qfree p => Sys2Proof.Machine.execQfree p s
  | .qstat v a => Sys2Proof.Machine.execQstat v a s
  | .hostKick q hi w => Sys2Proof.Machine.execHostKick q hi w s
  | .hostBar2Write off data => Sys2Proof.Machine.execHostBar2Write off data s
  | .hostBar2Read off n => Sys2Proof.Machine.execHostBar2Read off n s
  | .mboxhost mgmt => Sys2Proof.Machine.execMboxhost mgmt s
  | .attestationQuote req => Sys2Proof.Machine.execAttestationQuote req s
  | .queueDefine req => Sys2Proof.Machine.execQueueDefine req s
  | .queueEnable req => Sys2Proof.Machine.execQueueEnable req s
  | .queueDisable req => Sys2Proof.Machine.execQueueDisable req s
  | .setPowerCap req => Sys2Proof.Machine.execSetPowerCap req s
  | .readErrorCounters req => Sys2Proof.Machine.execReadErrorCounters req s
  | .writeFlash req => Sys2Proof.Machine.execWriteFlash req s
  | .unknownCommand req => Sys2Proof.Machine.execUnknownCommand req s
  | .partmodeStop w => Sys2Proof.Machine.execPartmodeStop w s
  | .partmodeModeWrite w => Sys2Proof.Machine.execPartmodeModeWrite w s
  | .watchdogRestart => Sys2Proof.Machine.execWatchdogRestart s
  | .watchdogExpiry => Sys2Proof.Machine.execWatchdogExpiry s
  | .preempt cmd => Sys2Proof.Machine.execPreempt cmd s
  | .kill cmd => Sys2Proof.Machine.execKill cmd s
  | .unpark cmd => Sys2Proof.Machine.execUnpark cmd s
  | .refuse cmd => Sys2Proof.Machine.execRefuse cmd s
  | .ctxcmdUndefinedOp cmd => Sys2Proof.Machine.execCtxcmdUndefinedOp cmd s
  | .invalPage cmd => Sys2Proof.Machine.execInvalPage cmd s
  | .inval2mib cmd => Sys2Proof.Machine.execInval2mib cmd s
  | .inval1gib cmd => Sys2Proof.Machine.execInval1gib cmd s
  | .invalAspace cmd => Sys2Proof.Machine.execInvalAspace cmd s
  | .invalAll cmd => Sys2Proof.Machine.execInvalAll cmd s
  | .invalComplete => Sys2Proof.Machine.execInvalComplete s
  | .registerWrite bar0 off w => Sys2Proof.Machine.execRegisterWrite bar0 off w s
  | .moduleReset => Sys2Proof.Machine.execModuleReset s
  | .thermalThrottle => Sys2Proof.Machine.execThermalThrottle s
  | .thermalTrip => Sys2Proof.Machine.execThermalTrip s
  | .powerCapStep up => Sys2Proof.Machine.execPowerCapStep up s
  | .putReceive port dstdev srcdev aspace va seq data => Sys2Proof.Machine.execPutReceive port dstdev srcdev aspace va seq data s
  | .putSend ring => Sys2Proof.Machine.execPutSend ring s
  | .launchRecordConsume q => Sys2Proof.Machine.execLaunchRecordConsume q s
  | .gangRelease q => Sys2Proof.Machine.execGangRelease q s
  | .pendingLaunchAppend k c => Sys2Proof.Machine.execPendingLaunchAppend k c s
  | .graphRecordAccept k c q => Sys2Proof.Machine.execGraphRecordAccept k c q s
  | .graphBatchTimeout q => Sys2Proof.Machine.execGraphBatchTimeout q s
  | .mailboxArrival => Sys2Proof.Machine.execMailboxArrival s
  | .handlerAppend m => Sys2Proof.Machine.execHandlerAppend m s
  | .jcRetireDecrement n => Sys2Proof.Machine.execJcRetireDecrement n s
  | .courseRetire k c => Sys2Proof.Machine.execCourseRetire k c s
  | .jcwaitWake k c => Sys2Proof.Machine.execJcwaitWake k c s
  | .swapOut k => Sys2Proof.Machine.execSwapOut k s
  | .contextSave k => Sys2Proof.Machine.execContextSave k s
  | .consortResume k => Sys2Proof.Machine.execConsortResume k s
  | .napExpiry k c => Sys2Proof.Machine.execNapExpiry k c s
  | .portCheckFail => Sys2Proof.Machine.execPortCheckFail s
  | .translationWalk aspace va => Sys2Proof.Machine.execTranslationWalk aspace va s
  | .faultRingFlush => Sys2Proof.Machine.execFaultRingFlush s
  | .registerFill k c r => Sys2Proof.Machine.execRegisterFill k c r s
  | .lineWriteback k c r => Sys2Proof.Machine.execLineWriteback k c r s
  | .loadReturn id => Sys2Proof.Machine.execLoadReturn id s
  | .storePerform id => Sys2Proof.Machine.execStorePerform id s
  | .combineClose id => Sys2Proof.Machine.execCombineClose id s
  | .atomPerform id => Sys2Proof.Machine.execAtomPerform id s
  | .releaseClosure k c => Sys2Proof.Machine.execReleaseClosure k c s
  | .overlayLoadComplete id => Sys2Proof.Machine.execOverlayLoadComplete id s
  | .overlayFrameRetry id => Sys2Proof.Machine.execOverlayFrameRetry id s
  | .frameProtectionExpiry id => Sys2Proof.Machine.execFrameProtectionExpiry id s
  | .fetchAbsentLoad k c => Sys2Proof.Machine.execFetchAbsentLoad k c s
  | .copyChunk id n => Sys2Proof.Machine.execCopyChunk id n s
  | .copyComplete id => Sys2Proof.Machine.execCopyComplete id s
  | .binScatterComplete id => Sys2Proof.Machine.execBinScatterComplete id s
  | .binGatherComplete id => Sys2Proof.Machine.execBinGatherComplete id s
  | .arwaitWake k c => Sys2Proof.Machine.execArwaitWake k c s
  | .tfetFillComplete id => Sys2Proof.Machine.execTfetFillComplete id s
  | .tilePinTimeout id => Sys2Proof.Machine.execTilePinTimeout id s
  | .matrixAdmit id => Sys2Proof.Machine.execMatrixAdmit id s
  | .matrixPerform id => Sys2Proof.Machine.execMatrixPerform id s
  | .versionWait id => Sys2Proof.Machine.execVersionWait id s
  | .matrixErrorDelivery k c => Sys2Proof.Machine.execMatrixErrorDelivery k c s
  | .accdrPush id => Sys2Proof.Machine.execAccdrPush id s
  | .codeTableBusy k c => Sys2Proof.Machine.execCodeTableBusy k c s
  | .queueStall k c => Sys2Proof.Machine.execQueueStall k c s
  | .achjoinBind k c => Sys2Proof.Machine.execAchjoinBind k c s
  | .acnFlitLanding n => Sys2Proof.Machine.execAcnFlitLanding n s
  | .acnOrderedForward k chn => Sys2Proof.Machine.execAcnOrderedForward k chn s
  | .achwaitComplete k c => Sys2Proof.Machine.execAchwaitComplete k c s
  | .selServe id => Sys2Proof.Machine.execSelServe id s
  | .selResultReady id => Sys2Proof.Machine.execSelResultReady id s
  | .selDeliver id => Sys2Proof.Machine.execSelDeliver id s
  | .softmxComplete id => Sys2Proof.Machine.execSoftmxComplete id s
  | .undefinedEncoding enc => Sys2Proof.Machine.execUndefinedEncoding enc s
  | .fetchBeyondOverlay => Sys2Proof.Machine.execFetchBeyondOverlay s
  | .faultService what id => Sys2Proof.Machine.execFaultService what id s
  | .residentSetChange qs => Sys2Proof.Machine.execResidentSetChange qs s
  | .halfWidthEnable => Sys2Proof.Machine.execHalfWidthEnable s
  | .coreDisable => Sys2Proof.Machine.execCoreDisable s
  | .writeBackAndInvalidate => Sys2Proof.Machine.execWriteBackAndInvalidate s
  | .contextPoolRefill ctx aux => Sys2Proof.Machine.execContextPoolRefill ctx aux s
  | .resourceRetirement detail => Sys2Proof.Machine.execResourceRetirement detail s
  | .powerStateIdle => Sys2Proof.Machine.execPowerStateIdle s
  | .pcieD3cold => Sys2Proof.Machine.execPcieD3cold s

end Sys2Proof.Machine
end

