-- ==== Sys2Proof/Machine/Registers.lean ====
section
/-!
DEFINITION. What reads of the module's registers return, to the host (BAR0, BAR4) and to firmware (the management window)
(spec/16_retirement_and_host.md R413, R427, R429, R430, R432, R435 to R439; spec/05_placement.md R152; spec/14_consistency.md R390).
-/

namespace Sys2Proof.Machine

/-- R429. HSTATUS. -/
def Hub.hstatus (h : Hub) : DWord :=
  BitVec.ofNat 64 (h.replace.toNat + h.bootok.toNat * 2 ^ 1 + h.werr.toNat * 2 ^ 3 + h.kerr.toNat * 2 ^ 4 + h.therm.toNat * 2 ^ 5 +
    h.fwlost.toNat * 2 ^ 6 + h.pstate.toNat * 2 ^ 16 + h.devid.toNat * 2 ^ 20)

/-- R429, R435. Word r of an MBOXHOST block. -/
def MboxHost.read (x : MboxHost) (r : Nat) : DWord :=
  match r with
  | 0x00 => x.doorbell
  | 0x08 => x.handler
  | 0x10 => x.aspace.setWidth 64
  | 0x18 => x.result.setWidth 64
  | _ => 0

/-- R427. Register r of an exit ring. -/
def ExitRing.read (x : ExitRing) (r : Nat) : DWord :=
  match r with
  | 0x00 => x.base
  | 0x08 => x.size.setWidth 64
  | 0x10 => x.wr.setWidth 64
  | 0x18 => x.rd.setWidth 64
  | 0x20 => BitVec.ofNat 64 (x.lost.toNat * 2 ^ 16 + x.mode.toNat)
  | _ => 0

/-- R125, R429. What the kick register of queue q reads: WRIDX, in its low half. -/
def State.kickWord (s : State) (q : Nat) : DWord := if paExists (s.qdPa q) then BitVec.ofNat 64 (s.qdesc q).wr else 0

/-- R429, R430. The aligned word of BAR0 at an offset. -/
def State.bar0Word (s : State) (off : Nat) : DWord :=
  let h := s.hub
  if off < 0x8000 then s.kickWord (off / 8)
  else if off < 0x8020 then h.mboxBar0.read (off - 0x8000)
  else if off = 0x9000 then h.hstatus
  else if off = 0xA000 then h.evBase
  else if off = 0xA008 then BitVec.ofNat 64 (h.evSize.toNat * 2 ^ 16 + h.evRd.toNat)
  else if off = 0xA010 then h.evWr.setWidth 64
  else if off = 0xA018 then BitVec.ofNat 64 (h.evLost.toNat * 2 ^ 16 + h.evEn.toNat)
  else 0

/-- R152. PARTMODE. -/
def State.partmode (s : State) : DWord :=
  BitVec.ofNat 64 (s.hub.pmode.toNat + s.drainedAll.toNat * 2 ^ 8 + s.hub.merr.toNat * 2 ^ 9 + s.hub.stop.toNat * 2 ^ 16)

/-- R435. The register of the management window at an aligned offset; zero where the table lists none. -/
def State.mgmtWord (s : State) (off : Nat) : DWord :=
  let h := s.hub
  if off = 0x00 then s.partmode
  else if off = 0x08 then h.watchdog.setWidth 64
  else if off = 0x10 then h.ctxaddr
  else if off = 0x18 then h.ctxcmd
  else if off = 0x20 then h.qdtbase
  else if off = 0x28 then h.astbase
  else if off = 0x30 then h.invalva
  else if off = 0x38 then h.invalcmd ||| BitVec.ofNat 64 (h.invalBusy.toNat * 2 ^ 8)
  else if 0x100 ≤ off ∧ off < 0x300 then (vget h.exits ExitRing.reset ((off - 0x100) / 0x40)).read (off % 0x40)
  else if off = 0x400 then h.frbase
  else if off = 0x408 then h.frsize.setWidth 64
  else if off = 0x410 then h.frwr.setWidth 64
  else if off = 0x418 then h.frrd.setWidth 64
  else if off = 0x420 then BitVec.ofNat 64 (min 0xFFFF h.faults.length * 2 ^ 16 + h.frien.toNat)
  else if 0x1000 ≤ off ∧ off < 0x10C0 then vget h.recarea 0 ((off - 0x1000) / 8)
  else if 0x2000 ≤ off ∧ off < 0x3000 then
    let x := vget h.windows (0, 0) ((off - 0x2000) / 16)
    if off % 16 = 0 then x.1 else x.2
  else if 0x4000 ≤ off ∧ off < 0x4020 then h.mboxMgmt.read (off - 0x4000)
  else 0

/-- R429. n bytes of BAR0 (narrow reads: log entry 64). -/
def State.readBar0 (s : State) (off n : Nat) : List Byte :=
  (List.range n).map (fun i => (leBytes 8 (s.bar0Word ((off + i) / 8 * 8)).toNat).getD ((off + i) % 8) 0)

/-- R432. n bytes of the command mailbox. -/
def State.readBar4 (s : State) (off n : Nat) : List Byte :=
  let h := s.hub
  (List.range n).map (fun i =>
    let a := off + i
    if a < 0x1000 then h.bar4Req.getD a 0
    else if a < 0x2000 then h.bar4Resp.getD (a - 0x1000) 0
    else if a < 0x2004 then (leBytes 4 h.bar4Bell.toNat).getD (a - 0x2000) 0
    else 0)

/-- R435. n bytes of the management window: an aligned 8-byte word, or zeros. -/
def State.readMgmt (s : State) (off n : Nat) : List Byte :=
  if n = 8 ∧ off % 8 = 0 then leBytes 8 (s.mgmtWord off).toNat else List.replicate n 0

end Sys2Proof.Machine
end

