-- ==== Sys2Proof/Machine/Slots.lean ====
section
/-!
DEFINITION. The vertical-port slots that each instruction claims (spec/07_issue_and_control.md R203 to R205, with the columns of
R188, R199, R249, R302, R305, R331, R334 and R345).
-/

namespace Sys2Proof.Machine

/-- R205. Up-slots and down-slots per half in each clock of the claim, at full width; none where an instruction takes no slot. A
queue port counts as the register it stands for (R203). -/
def Instr.slots : Instr → List (Nat × Nat)
  | .moviShort .. | .call .. | .callx .. | .mread .. | .mcount .. | .movi ..
  | .movs .. | .laneid .. | .wid .. | .widf .. | .binqry .. | .accrd ..
  | .accver .. | .ctget .. | .achwait .. | .jcwait .. | .mbox .. | .ovpin ..
  | .ovevict .. | .ovqry .. | .qstat .. => [(0, 1)]
  | .brnz .. | .brz .. | .ret .. | .retx .. | .mwrite .. | .vtos ..
  | .armw .. | .aradd .. | .accwr .. | .ctset .. => [(1, 0)]
  | .movShort .. | .callxr .. | .iabs .. | .ineg .. | .mov .. | .popc ..
  | .clz .. | .brev .. | .iaddi .. | .andi .. | .ori .. | .xori ..
  | .shli .. | .shrli .. | .shrai .. | .ialusIadd .. | .ialusIsub .. | .ialusAnd ..
  | .ialusOr .. | .ialusXor .. | .ialusAndn .. | .ialusShl .. | .ialusShrl .. | .ialusShra ..
  | .ialusImin .. | .ialusImax .. | .ialusNmin .. | .ialusNmax .. | .ialusIabs .. | .fabs ..
  | .fneg .. | .frint .. | .falusFadd .. | .falusFsub .. | .falusFmul .. | .falusFmin ..
  | .falusFmax .. | .rcp .. | .rsq .. | .sqrt .. | .exp2 .. | .log2 ..
  | .sin .. | .cos .. | .cvt .. | .cast .. | .unpacklo .. | .unpackhi ..
  | .ballot .. | .voteall .. | .voteany .. | .redadd .. | .redmin .. | .redmax ..
  | .scanadd .. | .matchv .. | .rng .. | .arwait .. => [(1, 1)]
  | .rng4 .. => [(1, 2), (0, 2)]
  | .iaddShort .. | .isubShort .. | .iandShort .. | .iorShort .. | .ixorShort .. | .shlShort ..
  | .shrlShort .. | .shraShort .. | .imulShort .. | .faddShort .. | .fsubShort .. | .fmulShort ..
  | .fminShort .. | .fmaxShort .. | .iadd .. | .isub .. | .iand .. | .ior ..
  | .ixor .. | .andn .. | .shl .. | .shrl .. | .shra .. | .imin ..
  | .imax .. | .nmin .. | .nmax .. | .imul .. | .imulhi .. | .nmulhi ..
  | .iaddsat .. | .icmpEq .. | .icmpNe .. | .icmpLt .. | .icmpLe .. | .icmpGt ..
  | .icmpGe .. | .icmpNlt .. | .icmpNle .. | .icmpNgt .. | .icmpNge .. | .fadd ..
  | .fsub .. | .fmul .. | .fmin .. | .fmax .. | .fcopysign .. | .fcmpEq ..
  | .fcmpNe .. | .fcmpLt .. | .fcmpLe .. | .fcmpGt .. | .fcmpGe .. | .fcmpUn ..
  | .fcmpOrd .. | .div .. | .pack .. | .shfl .. | .shflup .. | .shfldn ..
  | .shflx .. => [(2, 1)]
  | .qdec .. => [(2, 2), (0, 2)]
  | .imad .. | .sel .. | .fma .. | .fms .. | .fnma .. | .fnms .. => [(3, 1)]
  | .tfet _ _ _ n => if n = 1 then [(2, 0)] else [(4, 0), (4, 0)]
  | .nop | .trap .. | .brk .. | .yield | .rdsr .. | .wrsr ..
  | .clock .. | .prbclr | .limm .. | .jmp .. | .exit | .nap ..
  | .join .. | .leave .. | .waitm .. | .mmov .. | .waitc .. | .sadd ..
  | .ssub .. | .smul .. | .sand .. | .sor .. | .sxor .. | .sshl ..
  | .sshrl .. | .sshra .. | .smin .. | .smax .. | .snmin .. | .snmax ..
  | .scmpeq .. | .scmplt .. | .scmpnlt .. | .ssel .. | .saddi .. | .sandi ..
  | .sori .. | .sxori .. | .sshli .. | .sshrli .. | .smovi .. | .scmpeqi ..
  | .sld .. | .sst .. | .sldw .. | .sstw .. | .ld .. | .st ..
  | .lds .. | .sts .. | .atom .. | .red .. | .atoms .. | .reds ..
  | .fence .. | .xfence .. | .bar .. | .bararr .. | .cpy .. | .cpy2 ..
  | .cpym .. | .binsc .. | .binga .. | .binrst .. | .mma .. | .mloop ..
  | .accz .. | .accdr .. | .accwv .. | .achopen .. | .achjoin .. | .asend ..
  | .achclose .. | .topk .. | .softmx .. | .sample .. | .lnch .. | .emit ..
  | .jcnew .. | .jcdec .. | .ovld .. | .ovunpin .. | .qbind .. | .qfree ..
  | .hostKick .. | .hostBar2Write .. | .hostBar2Read .. | .mboxhost .. | .attestationQuote .. | .queueDefine ..
  | .queueEnable .. | .queueDisable .. | .setPowerCap .. | .readErrorCounters .. | .writeFlash .. | .unknownCommand ..
  | .partmodeStop .. | .partmodeModeWrite .. | .watchdogRestart | .watchdogExpiry | .preempt .. | .kill ..
  | .unpark .. | .refuse .. | .ctxcmdUndefinedOp .. | .invalPage .. | .inval2mib .. | .inval1gib ..
  | .invalAspace .. | .invalAll .. | .invalComplete | .registerWrite .. | .moduleReset | .thermalThrottle
  | .thermalTrip | .powerCapStep .. | .putReceive .. | .putSend .. | .launchRecordConsume .. | .gangRelease ..
  | .pendingLaunchAppend .. | .graphRecordAccept .. | .graphBatchTimeout .. | .mailboxArrival | .handlerAppend .. | .jcRetireDecrement ..
  | .courseRetire .. | .jcwaitWake .. | .swapOut .. | .contextSave .. | .consortResume .. | .napExpiry ..
  | .portCheckFail | .translationWalk .. | .faultRingFlush | .registerFill .. | .lineWriteback .. | .loadReturn ..
  | .storePerform .. | .combineClose .. | .atomPerform .. | .releaseClosure .. | .overlayLoadComplete .. | .overlayFrameRetry ..
  | .frameProtectionExpiry .. | .fetchAbsentLoad .. | .copyChunk .. | .copyComplete .. | .binScatterComplete .. | .binGatherComplete ..
  | .arwaitWake .. | .tfetFillComplete .. | .tilePinTimeout .. | .matrixAdmit .. | .matrixPerform .. | .versionWait ..
  | .matrixErrorDelivery .. | .accdrPush .. | .codeTableBusy .. | .queueStall .. | .achjoinBind .. | .acnFlitLanding ..
  | .acnOrderedForward .. | .achwaitComplete .. | .selServe .. | .selResultReady .. | .selDeliver .. | .softmxComplete ..
  | .undefinedEncoding .. | .fetchBeyondOverlay | .faultService .. | .residentSetChange .. | .halfWidthEnable | .coreDisable
  | .writeBackAndInvalidate | .contextPoolRefill .. | .resourceRetirement .. | .powerStateIdle | .pcieD3cold => []

end Sys2Proof.Machine
end

