-- ==== Sys2Proof/Machine/Run.lean ====
section
/-!
DEFINITION. What may happen next, and how an instruction issues: readiness, the choice among ready courses and device events,
and the marks an issue leaves (spec/05_placement.md R156; spec/07_issue_and_control.md R192, R194, R200;
spec/15_interruption.md R336 of spec/11_matrix.md, R413). Step.lean only calls what stands here.
-/

namespace Sys2Proof.Machine

/-! ### Readiness and order (R156, R192, R194, R200) -/

/-- R207, R440, R443. Does the core issue? -/
def State.coreRuns (s : State) : Bool := !s.hub.stopped && s.hub.pstate.toNat < 2 && !s.core.portFailed

/-- R336, R407. Is a matrix error of a course to be delivered at its next issue? -/
def Course.errorDue (x : Course) : Bool := !x.merrs.isEmpty && !x.heldFirm && x.hmask = 0

/-- R156, R200. Could a course issue now, its overlay and registers being there? -/
def State.fetchReady (s : State) (k c : Nat) : Bool :=
  (match (s.crs k c).issueSet with
    | some (set, _) => !((s.crs k c).faultsOf set).isEmpty
    | none => false) || (match s.fetch k c with
    | .instr i _ => !s.blockedOn k c i
    | .undefined _ _ => true
    | .beyond => true
    | .absent => false
    | .idle => false)

/-! ### An issue (R76, R185, R192, R405, R413) -/

/-- R156, R157, R165. The marks an issue leaves: the course's header lines and the lines it names are used, its age starts again
at the next clock, and an instance has been fetched from. -/
def State.touch (s : State) (k c : Nat) (ov : BitVec 16) (named : List Nat) : State :=
  let use (l : RegLine) : RegLine := if l.reg < 8 ∨ named.contains l.reg then { l with dirty := true, lastUse := s.clock } else l
  let s1 := (s.modCons k (fun q => { q with need := [] })).modCrs k c (fun x =>
    { x with lines := x.lines.map use, age := s.clock + 1, entered := none })
  match s.instFor (s.cons k) ov with
  | some i => s1.modInst i.uid (fun i => { i with fetched := true, lastFetch := s.clock })
  | none => s1

/-- R167. Lanes outside the handler that issue elsewhere have left the instructions at which failed loads gave them causes. -/
def Course.dropFaults (x : Course) (set : BitVec 32) : Course :=
  { x with fetchFault := x.fetchFault.filter (fun f => !(bit set f.lane && !bit x.hmask f.lane && f.ref != x.lpcAt f.lane)) }

/-- R192. The issue set of course (k, c) is formed and its instruction, of a length and an encoding, starts: lapped marks that step 2
clears are cleared in the state here, not each time a course that cannot issue is considered (the model's choice, log entry 72). -/
def State.start (s : State) (k c : Nat) (set laps : BitVec 32) (len : Nat) (enc : BitVec 32) (named : List Nat) : State :=
  let r := (s.crs k c).lpcAt (lowest set)
  let s1 := (s.modCrs k c (fun x => ({ x with lapped := laps } : Course).dropFaults set)).touch k c (refOv r) named
  { s1 with iss := Issue.make k c set r len enc }

/-- R167, R186. The causes of failed loads, as trap groups: BAD_HANDLE names no register and, since no instruction is at fault, no encoding
(ENC 0: the model's choice, log entry 72); any other names the address that failed. -/
def faultGroups (fs : List FetchFault) : List TrapGroup :=
  Cause.all.filterMap (fun cause =>
    let mine := fs.filter (·.cause == cause)
    let lanes := maskOf (fun l => mine.any (·.lane == l))
    let l := lowest lanes
    let va := ((mine.find? (·.lane == l)).map (fun f => f.va.toNat)).getD 0
    if lanes = 0 then none
    else some { cause := cause, lanes := lanes, info := if cause = .badHandle then info79 0 0 0 else info260 l false false va })

/-- R167, R186, R404, R405, R407. The lanes of the issue set that waited for loads take their failures; the cause that is delivered is
theirs no longer, and a failure that the lanes that issue first take is no other's. -/
def State.takeFetchFault (s : State) (fs : List FetchFault) : State :=
  let all := maskOf (fun l => fs.any (·.lane == l))
  let first := ((faultGroups fs).find? (fun g => bit g.lanes (lowest all))).map (·.cause)
  let gone (f : FetchFault) : Bool := fs.any (fun g => g.lane == f.lane || (g.once && f.once)) && first == some f.cause
  let s1 := if s.me.hmask = 0 then s.modMe (fun x => { x with fetchFault := x.fetchFault.filter (fun f => !gone f) }) else s
  s1.deliver s.iss.k s.iss.c s.iss.own (fun _ => s.iss.at_) (faultGroups fs)

/-- R405, R413. The lanes of the issue set that REFUSE let go take their causes at the instruction, which the others execute. -/
def State.withRefused (s : State) (f : State → Host.Outcome State Fault Refusal) : Host.Outcome State Fault Refusal :=
  let let_ := maskOf (fun l => bit s.iss.set l && s.me.refused.any (fun r => r.lane == l && r.ref == s.iss.at_))
  let s1 : State := { s with iss := { s.iss with set := s.iss.set &&& ~~~let_, refused := let_ } }
  let done (t : State) : State := { t with iss := { t.iss with refused := 0 } }
  if let_ = 0 then f s
  else if s1.iss.set = 0 then .next (done (s1.deliver s.iss.k s.iss.c s.iss.own (fun _ => s.iss.at_) []))
  else match f s1 with
    | .next t =>
      .next (done (if (t.crs s.iss.k s.iss.c).stall.isSome then t else t.deliver s.iss.k s.iss.c s.iss.own (fun _ => s.iss.at_) []))
    | o => o

/-- R47, R48, R78, R167, R192, R336, R413. The issue of course (k, c). -/
def State.issue (s : State) (k c : Nat) : Host.Outcome State Fault Refusal :=
  let x := s.crs k c
  match x.issueSet with
  | none => notNow
  | some (set, laps) =>
    if x.errorDue then execMatrixErrorDelivery k c s
    else match x.faultsOf set with
      | [] => match s.fetch k c with
        | .instr i len => (s.start k c set laps len (Instr.enc i) (Instr.lines i)).withRefused (exec i)
        | .undefined enc len => (s.start k c set laps len enc []).withRefused (execUndefinedEncoding enc)
        | .beyond => (s.start k c set laps 2 0 []).withRefused execFetchBeyondOverlay
        | _ => notNow
      | fs => .next ((s.start k c set laps 2 0 []).takeFetchFault fs)

/-! ### Which courses are ready (R156, R192, R194, R200) -/

/-- R136, R247, R334, R347. Has a stall reached its limit? Then its cause comes before anything else. -/
def Course.overdue (x : Course) (clock : Nat) : Bool :=
  x.stalled.any (fun st => st.why != .waitc && st.why != .other && st.since + 2 ^ 20 ≤ clock)

/-- R200. Would the instruction that a course stalls at stall again, for the same reason? -/
def State.stalls (s : State) (k c : Nat) : Bool :=
  match (s.crs k c).stalled with
  | none => false
  | some st => match s.issue k c with
    | .next t => (t.crs k c).stall.any (fun u => u.why == st.why && u.reg == st.reg)
    | _ => false

/-- R156, R192, R200, R336. Is a course ready? A matrix error waits for nothing but its issue set. -/
def State.ready (s : State) (k c : Nat) : Bool :=
  let q := s.cons k
  let x := s.crs k c
  s.coreRuns && q.place == .resident && !x.retired && x.running != 0 && x.unchecked.isNone && s.needMet q && headerLines.all x.hasLine &&
    (x.errorDue || (x.hold == .none && !x.overdue s.clock && s.fetchReady k c && (s.missingLines k c).isEmpty && !s.stalls k c))

/-- The ready courses, by consort and index. -/
def State.readyCourses (s : State) : List (Nat × Nat) :=
  (s.consorts.flatMap (fun q => q.courses.map (fun x => (q.id, x.idx)))).filter (fun p => s.ready p.1 p.2)

/-- R156. Has course a been ready for longer than course b, or as long and on the core for longer? -/
def State.older (s : State) (a b : Nat × Nat) : Bool :=
  let x := (s.crs a.1 a.2).age
  let y := (s.crs b.1 b.2).age
  x < y || (x == y && (s.cons a.1).onSince < (s.cons b.1).onSince)

/-! ### Slots (R201 to R208) -/

/-- R205, R208, R336. The slots per half that the next issue of a course needs, clock by clock from its own; the delivery of a matrix
error needs none. At half width an instruction makes two passes. -/
def State.slotNeed (s : State) (k c : Nat) : List (Nat × Nat) :=
  if (s.crs k c).errorDue then [] else match s.fetch k c with
  | .instr i _ => if s.core.halfWidth then Instr.slots i ++ Instr.slots i else Instr.slots i
  | _ => []

/-- R337. Up-slots per half that the fetches of an MLOOP take in this clock, before any course: open while one streams (log entry
57). -/
def State.loopSlots (s : State) : Nat :=
  if s.core.mq.any (fun e => e.admitted && e.isLoop && (s.cons e.k).onCore) then Config.racing s.tick 1 % 5 else 0

/-- R204. Slots per half in use n clocks from now. -/
def State.slotsUsed (s : State) (n : Nat) : Nat × Nat :=
  let xs := s.core.slotUse.filter (fun x => x.1 == s.clock + n)
  (total (xs.map (·.2.1)) + (if n = 0 then s.loopSlots else 0), total (xs.map (·.2.2)))

/-- R201, R204. Are the slots that a course needs free? -/
def State.slotsFree (s : State) (k c : Nat) : Bool :=
  let need := s.slotNeed k c
  (need.zip (List.range need.length)).all (fun x =>
    let used := s.slotsUsed x.2
    (x.1.1 = 0 || x.1.1 + used.1 ≤ 4) && (x.1.2 = 0 || x.1.2 + used.2 ≤ 2))

/-- R201. The courses that have issued in this clock. -/
def State.issuedNow (s : State) : List (Nat × Nat) := (s.core.issues.filter (fun x => x.1 == s.clock)).map (·.2)

/-- R156, R201. The course that issues next in this clock: the one ready for longest among those whose slots are free. (Several
only where R156 makes no difference between them.) -/
def State.issuable (s : State) : List (Nat × Nat) :=
  let done := s.issuedNow
  if 2 ≤ done.length then []
  else
    let rs := s.readyCourses.filter (fun p => !done.contains p && s.slotsFree p.1 p.2)
    rs.filter (fun p => !rs.any (fun r => s.older r p))

/-- R201, R204. The issue of course (k, c) claims its slots, and those of `entry`. -/
def State.claimSlots (before s : State) (k c : Nat) (entry : List (Nat × Nat × Nat)) : State :=
  let need := before.slotNeed k c
  let mine := (need.zip (List.range need.length)).map (fun x => (before.clock + x.2, x.1.1, x.1.2))
  s.modCore (fun x =>
    { x with
      issues := x.issues.filter (fun y => y.1 == before.clock) ++ [(before.clock, k, c)]
      slotUse := x.slotUse.filter (fun y => before.clock ≤ y.1) ++ mine ++ entry })

/-- R201, R204, R406. An issue claims its slots; so does a trap entry it leads to, in this clock or the next. A course that
stalls has not issued. -/
def State.claim (before s : State) (k c : Nat) : State :=
  if (s.crs k c).stall.isSome then s
  else
    let need := before.slotNeed k c
    let down := (before.slotsUsed 0).2 + ((need.head?.map (·.2)).getD 0)
    let late := if down < 2 then 0 else 1
    let entry := if (s.crs k c).entered.isNone then [] else [(before.clock + late, 0, 1)]
    let keep (x : Course) : Course :=
      { (x.keepConsumed (before.crs k c)) with entered := (x.keepConsumed (before.crs k c)).entered.map (fun e => { e with upTo := e.upTo + late }) }
    before.claimSlots (s.modCrs k c keep) k c entry

/-! ### Issues that a port failure discards (R202, R207, R247) -/

/-- R202, R207. Does the port failure that comes next catch the issue of course (k, c) before its check? Where the instruction makes
slot transfers that is open (log entry 23). -/
def State.caught (s : State) (k c : Nat) : Bool :=
  (match s.inputs with
    | .row .portCheckFail :: _ => true
    | _ => false) && (s.slotNeed k c).any (fun x => x.1 != 0 || x.2 != 0) && Config.racing s.tick (2 ^ 60) % 2 == 1

/-- R247. The elements that the issue of course (k, c) pops of each channel, read as though each port had the channel to itself. -/
def State.channelPops (s : State) (k c : Nat) : List (Nat × Nat) :=
  let alone (n : Nat) (p : Port) : Port := if p.kind = 2 then { p with kind := 0, elems := s.portElems k c n } else p
  let s0 := s.modCrs k c (fun x => { x with ports := vof 16 (fun n => alone n (x.port n)) })
  match s0.issue k c with
  | .next t => ((List.range 16).filter (fun n => ((s.crs k c).port n).kind == 2)).map (fun n =>
      (((s.crs k c).port n).chan.toNat, ((s0.crs k c).port n).elems.length - ((t.crs k c).port n).elems.length))
  | _ => []

/-- R202, R207, R247. The issue of an instruction that the failure will discard: its slots are claimed and what it pops is no other's;
nothing of it takes effect, and its course issues nothing more. -/
def State.issueInVain (s : State) (k c : Nat) : State :=
  s.claimSlots (s.modCrs k c (fun x => { x with unchecked := some { since := s.clock, pops := s.channelPops k c } })) k c []

/-- R202. Has the check of such an instruction come? -/
def State.checkDue (s : State) : Bool :=
  s.consorts.any (fun q => q.courses.any (fun x => x.unchecked.any (fun u => u.since + 2 ≤ s.clock)))

/-! ### The events of the device -/

/-- The events that the device brings about itself, each named as its row of the opcode table. -/
inductive Event where
  | napExpiry (k : Nat) (c : Nat)
  | releaseClosure (k : Nat) (c : Nat)
  | arwaitWake (k : Nat) (c : Nat)
  | jcwaitWake (k : Nat) (c : Nat)
  | achjoinBind (k : Nat) (c : Nat)
  | achwaitComplete (k : Nat) (c : Nat)
  | queueStall (k : Nat) (c : Nat)
  | codeTableBusy (k : Nat) (c : Nat)
  | versionWait (id : Nat)
  | pendingLaunchAppend (k : Nat) (c : Nat)
  | graphRecordAccept (k : Nat) (c : Nat) (q : Nat)
  | courseRetire (k : Nat) (c : Nat)
  | fetchAbsentLoad (k : Nat) (c : Nat)
  | registerFill (k : Nat) (c : Nat) (r : Nat)
  | lineWriteback (k : Nat) (c : Nat) (r : Nat)
  | swapOut (k : Nat)
  | contextSave (k : Nat)
  | consortResume (k : Nat)
  | acnOrderedForward (k : Nat) (chn : BitVec 2)
  | loadReturn (id : Nat)
  | storePerform (id : Nat)
  | combineClose (id : Nat)
  | atomPerform (id : Nat)
  | overlayLoadComplete (id : Nat)
  | overlayFrameRetry (id : Nat)
  | frameProtectionExpiry (id : Nat)
  | copyChunk (id : Nat) (n : Nat)
  | copyComplete (id : Nat)
  | binGatherComplete (id : Nat)
  | binScatterComplete (id : Nat)
  | tfetFillComplete (id : Nat)
  | tilePinTimeout (id : Nat)
  | matrixAdmit (id : Nat)
  | matrixPerform (id : Nat)
  | accdrPush (id : Nat)
  | acnFlitLanding (n : Nat)
  | selServe (id : Nat)
  | selResultReady (id : Nat)
  | softmxComplete (id : Nat)
  | selDeliver (id : Nat)
  | launchRecordConsume (q : Nat)
  | gangRelease (q : Nat)
  | graphBatchTimeout (q : Nat)
  | mailboxArrival
  | handlerAppend (m : Nat)
  | jcRetireDecrement (n : Nat)
  | faultRingFlush
  | invalComplete
  | putSend (n : Nat)
  | watchdogExpiry
  | powerCapStep (up : Bool)
  deriving DecidableEq, Repr

/-- What an event does: the meaning of its row. -/
def Event.run (e : Event) (s : State) : Host.Outcome State Fault Refusal :=
  match e with
  | .napExpiry k c => execNapExpiry k c s
  | .releaseClosure k c => execReleaseClosure k c s
  | .arwaitWake k c => execArwaitWake k c s
  | .jcwaitWake k c => execJcwaitWake k c s
  | .achjoinBind k c => execAchjoinBind k c s
  | .achwaitComplete k c => execAchwaitComplete k c s
  | .queueStall k c => execQueueStall k c s
  | .codeTableBusy k c => execCodeTableBusy k c s
  | .versionWait id => execVersionWait id s
  | .pendingLaunchAppend k c => execPendingLaunchAppend k c s
  | .graphRecordAccept k c q => execGraphRecordAccept k c q s
  | .courseRetire k c => execCourseRetire k c s
  | .fetchAbsentLoad k c => execFetchAbsentLoad k c s
  | .registerFill k c r => execRegisterFill k c r s
  | .lineWriteback k c r => execLineWriteback k c r s
  | .swapOut k => execSwapOut k s
  | .contextSave k => execContextSave k s
  | .consortResume k => execConsortResume k s
  | .acnOrderedForward k chn => execAcnOrderedForward k chn s
  | .loadReturn id => execLoadReturn id s
  | .storePerform id => execStorePerform id s
  | .combineClose id => execCombineClose id s
  | .atomPerform id => execAtomPerform id s
  | .overlayLoadComplete id => execOverlayLoadComplete id s
  | .overlayFrameRetry id => execOverlayFrameRetry id s
  | .frameProtectionExpiry id => execFrameProtectionExpiry id s
  | .copyChunk id n => execCopyChunk id n s
  | .copyComplete id => execCopyComplete id s
  | .binGatherComplete id => execBinGatherComplete id s
  | .binScatterComplete id => execBinScatterComplete id s
  | .tfetFillComplete id => execTfetFillComplete id s
  | .tilePinTimeout id => execTilePinTimeout id s
  | .matrixAdmit id => execMatrixAdmit id s
  | .matrixPerform id => execMatrixPerform id s
  | .accdrPush id => execAccdrPush id s
  | .acnFlitLanding n => execAcnFlitLanding n s
  | .selServe id => execSelServe id s
  | .selResultReady id => execSelResultReady id s
  | .softmxComplete id => execSoftmxComplete id s
  | .selDeliver id => execSelDeliver id s
  | .launchRecordConsume q => execLaunchRecordConsume q s
  | .gangRelease q => execGangRelease q s
  | .graphBatchTimeout q => execGraphBatchTimeout q s
  | .mailboxArrival => execMailboxArrival s
  | .handlerAppend m => execHandlerAppend m s
  | .jcRetireDecrement n => execJcRetireDecrement n s
  | .faultRingFlush => execFaultRingFlush s
  | .invalComplete => execInvalComplete s
  | .putSend n => execPutSend n s
  | .watchdogExpiry => execWatchdogExpiry s
  | .powerCapStep up => execPowerCapStep up s

/-- Does an outcome say that the rule of an event does not allow it now? -/
def barred (o : Host.Outcome State Fault Refusal) : Bool :=
  match o with
  | .refused .notEnabled => true
  | _ => false

/-- Does the rule of an event allow it now? -/
def State.enabled (s : State) (e : Event) : Bool := !barred (e.run s)

/-- The events that course c of consort k could meet. -/
def State.courseEvents (s : State) (q : Consort) (x : Course) : List Event :=
  let k := q.id
  let c := x.idx
  let held : List Event := match x.hold with
    | .none => []
    | .nap _ => [Event.napExpiry k c]
    | .closing _ _ _ _ => [Event.releaseClosure k c]
    | .bar _ _ => []
    | .arwait .. => [Event.arwaitWake k c]
    | .jcwait .. => [Event.jcwaitWake k c]
    | .achjoin _ _ => [Event.achjoinBind k c]
    | .achwait _ _ _ => [Event.achwaitComplete k c]
  let stalls : List Event :=
    if x.stall.isSome then [Event.queueStall k c, Event.codeTableBusy k c, Event.versionWait (2 * (16 * k + c) + 1)] else []
  let appends : List Event := if x.pending.isEmpty then [] else [Event.pendingLaunchAppend k c]
  let ports : List Event :=
      ((List.range 16).filter (fun n => (x.port n).kind == 5)).map (fun n => Event.graphRecordAccept k c n)
  let goes : List Event :=
    if x.retired then []
    else Event.courseRetire k c :: Event.fetchAbsentLoad k c :: (s.missingLines k c).map (fun r => Event.registerFill k c r)
  let lines : List Event := if q.onCore then [] else x.lines.map (fun l => Event.lineWriteback k c l.reg)
  [held, stalls, appends, ports, goes, lines].flatten

/-- The events that a consort could meet. -/
def State.consortEvents (s : State) (q : Consort) : List Event :=
  let place : List Event := match q.place with
    | .resident => [Event.swapOut q.id]
    | .draining _ => [Event.contextSave q.id]
    | .saved _ => [Event.consortResume q.id]
    | .retired => []
  let chains : List Event := ((List.range 4).filter (fun n => (q.chain n).st == .opened)).map (fun n => Event.acnOrderedForward q.id (BitVec.ofNat 2 n))
  q.courses.flatMap (s.courseEvents q) ++ place ++ chains

/-- The events of memory and of the engines. -/
def State.engineEvents (s : State) : List Event :=
  let loads : List Event := s.ms.loads.map (fun l => Event.loadReturn l.id)
  let stores : List Event := s.ms.stores.map (fun t => Event.storePerform t.id)
  let atoms : List Event := s.ms.atoms.flatMap (fun a => [Event.combineClose a.id, Event.atomPerform a.id])
  let insts : List Event := s.core.insts.flatMap (fun i =>
    if i.st = .loading then [Event.overlayLoadComplete i.uid, Event.overlayFrameRetry i.uid]
    else if i.fetched || !s.core.insts.any (fun j => !j.framed && (s.allocate j.uid).isSome) then []
    else [Event.frameProtectionExpiry i.uid])
  let copies : List Event := s.core.copies.flatMap (fun x =>
    Event.copyComplete x.id :: (List.range x.chunks.length).map (fun n => Event.copyChunk x.id n))
  let bins : List Event := s.core.bins.map (fun b => if b.gather then Event.binGatherComplete b.id else Event.binScatterComplete b.id)
  let fills : List Event := s.core.tfills.flatMap (fun f => [Event.tfetFillComplete f.id, Event.tilePinTimeout f.id])
  let mq : List Event := s.core.mq.flatMap (fun e =>
    [Event.matrixAdmit e.id, Event.matrixPerform e.id, Event.accdrPush e.id, Event.versionWait (2 * e.id)])
  let packets : List Event := (List.range s.core.packets.length).map (fun n => Event.acnFlitLanding n)
  let selq : List Event := s.core.selq.flatMap (fun o => [Event.selServe o.id, Event.selResultReady o.id, Event.softmxComplete o.id])
  let selbufs : List Event := s.core.selbufs.map (fun b => Event.selDeliver b.id)
  [loads, stores, atoms, insts, copies, bins, fills, mq, packets, selq, selbufs].flatten

/-- The events of queues, mailboxes, join counters and the hub. -/
def State.hubEvents (s : State) : List Event :=
  let queues : List Event :=
    s.work.qrun.flatMap (fun r => [Event.launchRecordConsume r.q, Event.gangRelease r.q, Event.graphBatchTimeout r.q])
  let arrival : List Event := if s.work.arrivals.isEmpty then [] else [Event.mailboxArrival]
  let appends : List Event := s.work.appends.map (fun a => Event.handlerAppend a.mbox)
  let counters : List Event := (List.range s.work.jcwork.length).map (fun n => Event.jcRetireDecrement n)
  let flush : List Event := if s.hub.faults.isEmpty then [] else [Event.faultRingFlush]
  let inval : List Event := if s.hub.invalBusy then [Event.invalComplete] else []
  let sends : List Event := (List.range s.hub.sends.length).map (fun n => Event.putSend n)
  [queues, arrival, appends, counters, flush, inval, sends, [.watchdogExpiry, .powerCapStep true, .powerCapStep false]].flatten

/-- R444. The events of a pre-emption in progress when the trip came: it drains and saves, and then the module halts (log entry
65). -/
def State.drainEvents (s : State) : List Event :=
  let going := s.consorts.filter (fun q => q.place == .draining 1)
  if going.isEmpty then [] else going.flatMap s.consortEvents ++ s.engineEvents

/-- R443, R444. The device's own events, as their rules allow them; in power state Off there are none, and after a trip those of a
drain in progress. -/
def State.ownEvents (s : State) : List Event :=
  if s.hub.pstate = 3 then []
  else if s.hub.tripped then s.drainEvents.filter s.enabled
  else (s.consorts.flatMap s.consortEvents ++ s.engineEvents ++ s.hubEvents).filter s.enabled

/-- The events that come from outside: the host, firmware, the links, sensors and failures (log entry 4). -/
def fromOutside (e : Instr) : Bool :=
  match e with
  | .hostKick .. | .hostBar2Write .. | .hostBar2Read .. | .mboxhost .. | .attestationQuote .. | .queueDefine .. | .queueEnable ..
  | .queueDisable .. | .setPowerCap .. | .readErrorCounters .. | .writeFlash .. | .unknownCommand .. | .partmodeStop ..
  | .partmodeModeWrite .. | .watchdogRestart | .preempt .. | .kill .. | .unpark .. | .refuse ..
  | .ctxcmdUndefinedOp .. | .invalPage .. | .inval2mib .. | .inval1gib .. | .invalAspace .. | .invalAll .. | .registerWrite ..
  | .moduleReset | .thermalThrottle | .thermalTrip | .putReceive .. | .portCheckFail | .translationWalk ..
  | .faultService .. | .residentSetChange .. | .halfWidthEnable | .coreDisable | .writeBackAndInvalidate | .contextPoolRefill ..
  | .resourceRetirement .. | .powerStateIdle | .pcieD3cold => true
  | _ => false

/-- R18, R431, R435. The events that firmware brings about. -/
def byFirmware (e : Instr) : Bool :=
  match e with
  | .mboxhost mgmt => mgmt
  | .registerWrite bar0 _ _ => !bar0
  | .partmodeStop .. | .partmodeModeWrite .. | .watchdogRestart | .preempt .. | .kill .. | .unpark .. | .refuse ..
  | .ctxcmdUndefinedOp .. | .invalPage .. | .inval2mib .. | .inval1gib .. | .invalAspace .. | .invalAll .. | .faultService ..
  | .residentSetChange .. | .halfWidthEnable | .coreDisable | .writeBackAndInvalidate | .contextPoolRefill .. => true
  | _ => false

/-- R432. The request of a command. -/
def commandOf (e : Instr) : Option (List Byte) :=
  match e with
  | .attestationQuote r | .queueDefine r | .queueEnable r | .queueDisable r | .setPowerCap r | .readErrorCounters r
  | .writeFlash r | .unknownCommand r => some r
  | _ => none

/-- R434. Does firmware run? -/
def Hub.firmwareRuns (h : Hub) : Bool := h.bootok && !h.fwlost

/-- R432, R434. An event of the table from outside. Once firmware is lost, what it would do does not happen, and a command stays
unanswered. -/
def State.outside (s : State) (e : Instr) : Host.Outcome State Fault Refusal :=
  if !fromOutside e then notNow
  else if byFirmware e && !s.hub.firmwareRuns then .next s
  else match commandOf e with
    | some r =>
      if s.hub.fwlost then .next (s.modHub (fun h => { h with bar4Req := (r ++ List.replicate 4096 0).take 4096, bar4Bell := 1 }))
      else exec e s
    | none => exec e s

/-- R153, R390, R400. Firmware moves the context area of consort k, and its auxiliary area, while the module is stopped and the
consort is off the core with its write-backs complete: what they hold goes with them, and the records of its courses close. -/
def State.moveArea (s : State) (k ctx aux : Nat) : State :=
  let q := s.cons k
  let s1 := s.poke ctx (memRead s.ms.mem q.ctx 655360)
  let s2 := s1.poke aux (memRead s.ms.mem (s.auxArea q) 524288)
  let s3 := s2.poke (ctx + 0x99000) (leBytes 8 aux)
  (s3.modCons k (fun q => { q with ctx := ctx })).modMs (fun m => { m with records := m.records.filter (fun r => r.k != k) })

/-- R17, R150, R153, R159. May firmware move a consort's areas to these addresses? -/
def State.mayMove (s : State) (k ctx aux : Nat) : Bool :=
  let q := s.cons k
  s.hub.stop && s.consorts.any (·.id == k) && (match q.place with
    | .saved _ => true
    | _ => false) && !q.courses.any (fun x => x.lines.any (·.dirty)) && ctx % 65536 == 0 && aux % 65536 == 0 && s.spanOk ctx 0xA0000 && s.spanOk aux 0x80000

/-- R153, R283, R429, R430, R432, R435, R441 to R443. What an input does. -/
def State.input (s : State) (i : Input) : Host.Outcome State Fault Refusal :=
  match i with
  | .row e => s.outside e
  | .readBar0 off n => .next { s with outbox := s.outbox ++ [.readReply (s.readBar0 off n)] }
  | .readBar4 off n => .next { s with outbox := s.outbox ++ [.readReply (s.readBar4 off n)] }
  | .readMgmt off n => .next { s with outbox := s.outbox ++ [.readReply (s.readMgmt off n)] }
  | .takeInterrupt => .next (s.modHub (fun h => { h with msix := false }))
  | .message detail addr => .next (if s.hub.firmwareRuns then s.hostEvent 5 detail addr else s)
  | .sendRing r =>
    .next (if s.hub.firmwareRuns && s.hub.sends.length < 256 then s.modHub (fun h => { h with sends := h.sends ++ [r] }) else s)
  | .errorCounted g u => .next (s.modHub (·.count g u))
  | .sectorError pa =>
    if s.ms.atoms.any (fun a => a.pa / 32 == pa / 32) then notNow
    else .next (if paExists pa && !isHost pa && !s.poisoned pa then s.modMs (fun m => { m with poison := m.poison ++ [pa / 32] }) else s)
  | .scratchError k off =>
    .next (s.modCons k (fun q =>
      if q.onCore && off < q.hdr.scratch && !q.spoison.contains (off / 4 * 4) then { q with spoison := q.spoison ++ [off / 4 * 4] } else q))
  | .power w => .next (s.modHub (fun h => { h with power := w }))
  | .moveArea k ctx aux => if !s.hub.firmwareRuns then .next s else if s.mayMove k ctx aux then .next (s.moveArea k ctx aux) else notNow

/-! ### What acts next -/

/-- What a step does. -/
inductive Act where
  | input (i : Input)
  | event (e : Event)
  | issue (k c : Nat)
  deriving DecidableEq, Repr

/-- The oldest input, once its rule allows it. -/
def State.inputAct (s : State) : List Act :=
  match s.inputs with
  | [] => []
  | i :: _ => if barred (s.input i) then [] else [.input i]

/-- R431, R434, R444. Has the watchdog run out? Then nothing comes before its expiry. -/
def State.watchdogDue (s : State) : Bool :=
  s.hub.watchdog == 0 && s.hub.bootok && !s.hub.fwlost && s.hub.pstate != 3 && !s.hub.tripped

/-- R324, R446. The admission of a matrix-queue entry that qualifies: it comes in this clock, before anything that could change its
conditions. -/
def State.admission (s : State) : Option Event :=
  if s.hub.pstate = 3 || s.hub.tripped then none
  else (s.nextAdmission.map (fun e => Event.matrixAdmit e.id)).filter s.enabled

/-- Everything that may happen next. -/
def State.acts (s : State) : List Act :=
  if s.watchdogDue then [.event .watchdogExpiry]
  else if s.checkDue then s.inputAct
  else if let some e := s.admission then [.event e]
  else s.inputAct ++ s.ownEvents.map .event ++ s.issuable.map (fun p => .issue p.1 p.2)

/-- R143, R156, R194. The one act that happens: which of several it is, is open. -/
def State.next (s : State) : Option Act :=
  match s.acts with
  | [] => none
  | [a] => some a
  | as => as[Config.choose s.tick % as.length]?

/-- What an act does. -/
def State.act (s : State) : Act → Host.Outcome State Fault Refusal
  | .input i => ({ s with inputs := s.inputs.drop 1 } : State).input i
  | .event e => e.run s
  | .issue k c => match s.issue k c with
    | .next t => .next (if s.caught k c && (t.crs k c).stall.isNone then s.issueInVain k c else s.claim t k c)
    | o => o

/-- R157, R406. After an act: the link register's line of each course that has entered its handler. -/
def State.linkLines (before s : State) : State :=
  forAll (s.consorts.filter (·.onCore)) s (fun s q => forAll q.courses s (fun s x => match x.entered with
    | some e => if (before.crs q.id x.idx).entered = some e then s else s.linkLine q.id x.idx (q.hdr.vregs - 1) e
    | none => s))

/-- R201, R221. The clock after an act: the same where the act was the first issue of a clock and a second follows in it. -/
def State.clockAfter (before s : State) : Nat :=
  if s.core.issues ≠ before.core.issues ∧ !s.issuable.isEmpty then s.clock else s.clock + 1 + Config.elapse s.tick

/-- R156. Is the instruction a course is ready for another than before, or has it become ready only now? -/
def State.freshlyReady (before s : State) (k c : Nat) : Bool :=
  s.ready k c && !(before.ready k c &&
    (s.crs k c).issueSet.map (fun p => (s.crs k c).lpcAt (lowest p.1)) == (before.crs k c).issueSet.map (fun p => (before.crs k c).lpcAt (lowest p.1)))

/-- R156. The age of a course counts from the clock in which its next instruction became ready. -/
def State.ages (before s : State) (clock : Nat) : State :=
  { s with consorts := s.consorts.map (fun q => { q with courses := q.courses.map (fun x =>
      if before.freshlyReady s q.id x.idx then { x with age := max x.age clock } else x) }) }

/-- R156, R221, R390, R434. After an act: the marks it leaves, the records that have spilled, and the clocks that have passed. -/
def State.finish (before s : State) : State :=
  let s1 := before.linkLines s
  let clock := before.clockAfter s1
  { ((before.ages s1 clock).modHub (·.pass (clock - before.clock))).spillOut with tick := s.tick + 1, clock := clock }

/-- The outcome of a step in which an act ended so. -/
def State.stepEnd (before : State) (o : Host.Outcome State Fault Refusal) : Host.Outcome State Fault Refusal :=
  match o with
  | .next s => .next (before.finish s)
  | .fault f => .fault f
  | .refused r => .refused r

/-! ### A machine about to run one instruction -/

/-- The header of a consort with every register, tile and slot, the whole scratchpad and the code table, without a handler. -/
def Header.whole : Header :=
  { khw := BitVec.ofNat 32 (3 * 2 ^ 28 + 112 * 2 ^ 13 + 31 * 2 ^ 8 + 8), traph := 0xFFFFFFFF, ovmgr := 0xFFFFFFFF
    scratch := 262144, otaddr := 0, courses := 1, accslots := 64, prio := 0, hflags := 2 }

/-- A consort of one course that stands at halfword 0 of overlay 0, its register lines present. -/
def Consort.ready : Consort :=
  { Consort.blank with
    hdr := Header.whole
    courses := [{ Course.blank with
      lines := (List.range 8 ++ (List.range 112).map (16 + ·)).map (fun r => { reg := r, dirty := false, lastUse := 0 }) }] }

/-- Overlay 0 of that consort, RESIDENT, holding the given bytes. -/
def Inst.holding (bs : List Byte) : Inst :=
  { uid := 0, owner := 0, sharers := [{ aspace := 0, ot := 0, ov := 0 }]
    entry := { base := 0, len := bs.length, oflags := 0, nentry := 0, entryoff := [], digest := [] }
    st := .resident, verified := false, bytes := bs, framed := true, waiting := false, waiters := [], joiners := [], fetched := true
    lastFetch := 0, residentAt := 0 }

/-- The machine with one consort whose only course fetches these bytes next, and with nothing else that could act. -/
def State.about (s : State) (bs : List Byte) : State :=
  { s with
    consorts := [Consort.ready]
    core := { CoreSt.reset with insts := [Inst.holding bs], tenants := [0] }
    ms := { s.ms with stores := [], loads := [], atoms := [] }
    work := WorkSt.reset
    hub := { s.hub with stopped := false, tripped := false, pstate := 0, fwlost := false, watchdog := 50000, power := 0, cclk := 2400, faults := [], invalBusy := false, sends := [] }
    inputs := [] }

end Sys2Proof.Machine
end

