-- ==== Sys2Proof/Machine/Step.lean ====
section
/-!
DEFINITION. One step of the machine, and a machine about to run a given instruction.
-/

namespace Sys2Proof.Machine

/-- One step: the act that happens next, or, with nothing that could happen, time passing. -/
def step (s : State) : Host.Outcome State Fault Refusal :=
  match s.next with
  | some a => s.stepEnd (s.act a)
  | none => .next (s.finish s)

/-- s with the instruction whose bits are w, numbered as the opcode table numbers them and zero above nbits, standing where
the next step fetches: in a RESIDENT overlay of a consort on the core (log entry 4). -/
def State.withFetchWord (s : State) (nbits w : Nat) : State := s.about (leBytes 8 (w % 2 ^ nbits))

end Sys2Proof.Machine
end

