-- ==== Sys2Proof/Safety.lean ====
section
/-!
DEFINITION. What counts as a safe state and a safe run: memory, the scratchpads and flash stay in canonical form, and no step
stops with a fault or a refusal.
-/

namespace Sys2Proof.Machine

/-- Home memory, every scratchpad and the flash stand in the canonical form of Memory.wf. -/
def State.canonical (s : State) : Prop :=
  Memory.wf s.ms.mem ∧ (∀ q ∈ s.consorts, Memory.wf q.scratch) ∧ Memory.wf s.hub.flash

/-- A step answers a next state. -/
def State.steps (s : State) : Prop := ∃ t, step s = .next t

/-- n steps from s, none of which stops. -/
def State.safeFor : Nat → State → Bool
  | 0, _ => true
  | n + 1, s =>
    match step s with
    | .next t => State.safeFor n t
    | _ => false

end Sys2Proof.Machine
end

