-- ==== Sys2Proof/Certificates/Slice0/Obligations.lean ====
section
/-!
DEFINITION. The statements for the provers, each a Prop under its own name, and the few words they share.
-/

open Sys2Proof Sys2Proof.Machine

namespace Sys2Proof.Statements

/-- The issuing course exists, and every register that i names lies within the counts of its header (R32). -/
abbrev Fits (s : State) (i : Instr) : Prop := s.issuing = true ∧ s.overCount i = none

/-- The issuing course changed by f and then moved past the instruction (R47), its stall over; nothing else changes. -/
def moved (s : State) (f : Course → Course) : State :=
  s.modMe (fun c => { ((f c).setLpc s.iss.set (fun _ => refAdd s.iss.at_ s.iss.len)) with stall := none })

/-- R75. The 64-bit value of an n-bit immediate, alone or behind the imm25 of a LIMM. -/
def wide (n : Nat) (i : BitVec n) (px : Option (BitVec 25)) : DWord :=
  match px with
  | none => i.signExtend 64
  | some p => (p ++ i).signExtend 64

/-- R75. Its 32-bit value. -/
def narrow (n : Nat) (i : BitVec n) (px : Option (BitVec 25)) : Word := (wide n i px).setWidth 32

/-- Every w-bit element k of r is g of k, modulo 2^w. -/
def Elementwise (w : Nat) (r : Word) (g : Nat → Int) : Prop :=
  ∀ k : Nat, k < 32 / w → (elem w r k : Int) = g k % (2 ^ w : Nat)

/-- An instruction with a vector result: from s, its sources read as s1 shows, it completes with tag t and words that satisfy P
in every lane of the issue set. -/
def Yields (s s1 : State) (i : Instr) (d : BitVec 7) (t : BitVec 4) (P : Nat → Word → Prop) : Prop :=
  ∃ g, exec i s = .next ((s1.writeDst d t g).done) ∧ ∀ l : Nat, l < 32 → bit s.iss.set l = true → P l (g l)

/-- The names of the rows that are device events and have no encoding. -/
abbrev encoded (i : Instr) : Prop := i.shape ≠ .event

end Sys2Proof.Statements

open Sys2Proof.Statements

/-! ### Encodings -/

/-- R47 to R77. Decoding the halfwords of a well-formed instruction, whatever follows them, gives that instruction back with its
length: every operand at every value that its encoding admits. -/
def Obligations.EncodeThenDecode : Prop :=
  ∀ (i : Instr) (rest : List (BitVec 16)), i.wf = true → encoded i → decode (encode i ++ rest) = .instr i i.len

/-- R58, R78. What decodes is well formed, and encodes to exactly the halfwords it was read from: no field is dropped, no
reserved bit is read as clear, and no two words name one instruction. -/
def Obligations.DecodeThenEncode : Prop :=
  ∀ (hs : List (BitVec 16)) (i : Instr) (n : Nat),
    decode hs = .instr i n → i.wf = true ∧ encoded i ∧ n = i.len ∧ encode i = hs.take n

/-- Words that the spec gives, with the instruction each stands for: those of its examples (R135, R220, R226, R229), and 0x0000, which
R44 names as MOV v0, v0 (the fields are those of R53 to R55). -/
def Obligations.ExampleWordsDecode : Prop :=
  decodeTableWord 32 0x08000201 = some (.rdsr 4 0) ∧ decodeTableWord 32 0x0A384001 = some (.wrsr 2 7) ∧
  decodeTableWord 32 0xFEF0018F = some (.smovi 3 0x3FB none) ∧ decodeTableWord 32 0x70E18295 = some (.iaddsat 5 6 7) ∧
  decodeTableWord 32 0x00920051 = some (.lnch 8 9) ∧ decodeTableWord 32 0x10014151 = some (.jcwait 2 5) ∧
  decodeTableWord 16 0x0000 = some (.movShort 0 0)

/-! ### A step -/

/-- R47, R76, R192, R202, R207. Where a course that may issue, with no error to take first, finds in its RESIDENT overlay halfwords that
encode a well-formed instruction, and that issue is the act that happens, a step forms the issue set and is exec of that
instruction, followed by the slots it claims (R204) and the marks and the clocks of State.finish. Where a port failure that comes next
catches its slot transfers (State.caught: a failure comes from outside, and which transfers it catches is open, log entry 23), the
slots are claimed and nothing of the instruction takes effect: the course issues no more before the failure discards it. -/
def Obligations.StepRunsDecodedInstruction : Prop :=
  (∀ (s : State) (k c : Nat) (set laps : BitVec 32) (i : Instr) (inst : Inst) (rest : List (BitVec 16)),
    s.next = some (.issue k c) → (s.crs k c).issueSet = some (set, laps) → (s.crs k c).errorDue = false →
    (s.crs k c).faultsOf set = [] → s.instFor (s.cons k) (refOv ((s.crs k c).lpcAt (lowest set))) = some inst →
    inst.st = .resident → i.wf = true → encoded i →
    inst.window (((s.crs k c).lpcAt (lowest set)).toNat % 65536) = encode i ++ rest →
    (s.crs k c).refused.any (fun r => bit set r.lane && r.ref == (s.crs k c).lpcAt (lowest set)) = false →
    step s = s.stepEnd (match exec i (s.start k c set laps i.len (Instr.enc i) (Instr.lines i)) with
      | .next t => .next (if s.caught k c = true ∧ (t.crs k c).stall = none then s.issueInVain k c else s.claim t k c)
      | o => o)) ∧
  ∀ (s : State) (k c : Nat),
    ((∀ rest : List Input, s.inputs ≠ .row .portCheckFail :: rest) → s.caught k c = false) ∧
    let v := s.issueInVain k c
    v.ms = s.ms ∧ v.work = s.work ∧ v.hub = s.hub ∧ v.inputs = s.inputs ∧ v.outbox = s.outbox ∧ v.clock = s.clock ∧
      (∀ n m : Nat, ¬ (n = k ∧ m = c) → v.crs n m = s.crs n m) ∧
      ∀ q : Consort, s.consorts.find? (·.id == k) = some q → (q.courses.find? (·.idx == c)).isSome = true →
        v.ready k c = false ∧ ∃ u : Unchecked, u.since = s.clock ∧ v.crs k c = { s.crs k c with unchecked := some u }

/-- A step keeps home memory, every scratchpad and the flash in the canonical form of Memory.wf. -/
def Obligations.StepKeepsCanonicalMemory : Prop :=
  ∀ s t : State, s.canonical → step s = .next t → t.canonical

/-- R152, R209, R413, R427 to R430, R434, R435, R437 to R440. That form holds right after reset. Every core and distributor is stopped then, no
consort is on the core, BOOTOK is 0, and every register that the spec gives a reset value reads it. -/
def Obligations.ResetState : Prop :=
  let s := State.reset
  let h := s.hub
  s.canonical ∧ s.clock = 0 ∧ s.consorts = [] ∧ h.stopped = true ∧ s.coreRuns = false ∧ s.distributing = false ∧ s.acts = [] ∧
    h.bootok = false ∧ h.replace = false ∧ h.fwlost = false ∧ h.therm = false ∧ h.kerr = false ∧ h.werr = false ∧ h.pstate = 0 ∧
    h.stop = false ∧ h.merr = false ∧ h.ctxaddr = 0 ∧ h.ctxcmd = 0 ∧ h.invalva = 0 ∧ h.invalcmd = 0 ∧
    h.invalBusy = false ∧
    (∀ p : Nat, p < 8 → let x := vget h.exits ExitRing.reset p
      x.base = 0 ∧ x.size = 0 ∧ x.wr = 0 ∧ x.rd = 0 ∧ x.lost = 0 ∧ x.mode = 0) ∧
    h.frbase = 0 ∧ h.frsize = 0 ∧ h.frwr = 0 ∧ h.frrd = 0 ∧ h.frien = false ∧ h.faults = [] ∧
    (∀ m : Nat, m < 24 → vget h.recarea 0 m = 0) ∧ (∀ n : Nat, n < 256 → vget h.windows (0, 0) n = (0, 0)) ∧
    h.evBase = 0 ∧ h.evSize = 0 ∧ h.evRd = 0 ∧ h.evWr = 0 ∧ h.evLost = 0 ∧ h.evEn = false

/-- R192. The issue set of a course: of the running lanes without a lapped mark, or of all running lanes where every one is
lapped (the marks are then cleared), those whose reference is the least; none only where no lane runs. A course that waits in an
ARWAIT, JCWAIT, ACHJOIN, ACHWAIT or WAITC keeps the lanes of that instruction that still run (the model's reading of R196 and R211,
log entry 66). -/
def Obligations.IssueSetIsLowestUnlapped : Prop :=
  (∀ (s : State) (k c : Nat), (s.crs k c).issueSet = none → s.ready k c = false) ∧
  ∀ c : Course,
    let stay := ((c.standing.map (·.set)).getD 0) &&& c.running
    (c.issueSet = none ↔ c.running = 0) ∧ (stay ≠ 0 → c.issueSet = some (stay, c.lapped)) ∧
    ∀ set laps, stay = 0 → c.issueSet = some (set, laps) →
      let fresh := c.running &&& ~~~c.lapped
      let cand := if fresh = 0 then c.running else fresh
      (laps = if fresh = 0 then 0#32 else c.lapped) ∧ set ≠ 0 ∧
      ∀ l : Nat, l < 32 → (bit set l = true ↔
        bit cand l = true ∧ ∀ l', l' < 32 → bit cand l' = true → (c.lpcAt l).toNat ≤ (c.lpcAt l').toNat)

/-- R201, R221, and the model's own count of steps: a step that does not stop counts, and leaves a later clock but where it was an
issue and another course may issue in the same clock. Two courses that have issued in a clock keep any
other from it. -/
def Obligations.StepAdvancesClock : Prop :=
  (∀ s t : State, step s = .next t → (∃ u, (s.next = none ∧ u = s ∨ ∃ a, s.next = some a ∧ s.act a = .next u) ∧
    u.clock ≤ t.clock ∧ t.tick = u.tick + 1 ∧
    (t.clock = u.clock → u.core.issues ≠ s.core.issues ∧ (s.linkLines u).issuable ≠ []))) ∧
  ∀ (s : State) (a b : Nat × Nat), s.core.issues = [(s.clock, a), (s.clock, b)] → s.issuable = []

/-! ### Counts and traps -/

/-- R32. An operand lies outside the counts that the kernel header word declares where a vector register has N ≥ VREGS, a scalar register
N ≥ 2 × (SREGS + 1), a tile register N ≥ TILES; queue ports are not limited. An instruction that names one takes ILLEGAL, in probe mode
too, for the whole issue set, with TRAPINFO of sub-cause 1 and the operand's number. -/
def Obligations.OperandBeyondCountTraps : Prop :=
  ∀ (s : State) (i : Instr),
    let k := s.mine.hdr.khw.toNat
    let inside (o : Opnd) : Prop := match o with
      | .v n => 112 ≤ n ∨ n < field k 19 13
      | .s n => n < 2 * (field k 12 8 + 1)
      | .t n => n < field k 3 0
    (s.overCount i = none ↔ ∀ o ∈ Instr.names i, inside o) ∧
    ∀ r : Nat, s.overCount i = some r → (∃ o ∈ Instr.names i, ¬ inside o ∧ o.num = r) ∧
      exec i s = .next (s.trapWhole .illegal (info79 s.iss.enc 1 r)) ∧ (info79 s.iss.enc 1 r).toNat % 256 = r % 256

/-- R405, R406, R408, R409. Lanes of one issue take the causes of some groups while no lane handles a trap, where the handler's overlay
is on the core and REFUSE has let no lane of the same issue go (R413). The cause of the lowest lane that takes one is delivered to
the lanes that took it: they, and only they, stand at the handler and run, with their return reference and tag N32 in register
VREGS − 1; they are inside the handler; cause and information are kept, and the count of traps rises by one up to its limit. Every
other lane keeps its words, reference and state, one that took another cause with a lapped mark. -/
def Obligations.TrapEntersHandler : Prop :=
  ∀ (s : State) (k c : Nat) (ref : BitVec 32) (ret : Nat → BitVec 32) (gs : List TrapGroup) (g : TrapGroup) (q : Consort) (i : Inst),
    let all := gs.foldl (fun m h => m ||| h.lanes) 0
    let d := gs.foldl (fun m h => if h.cause = g.cause then m ||| h.lanes else m) 0
    s.consorts.find? (·.id == k) = some q → (q.courses.find? (·.idx == c)).isSome = true →
    (q.crs c).hmask = 0 → all ≠ 0 → gs.find? (fun h => bit h.lanes (lowest all)) = some g →
    q.hdr.traph ≠ 0xFFFFFFFF#32 → s.instFor q (refOv q.hdr.traph) = some i →
    1 ≤ q.hdr.vregs → q.hdr.vregs ≤ 112 → s.refusedNow k c = 0 →
    let x := q.crs c
    let y := (s.deliver k c ref ret gs).crs k c
    bit d (lowest all) = true ∧ y.hmask = d ∧ y.trapcause = g.cause.code ∧ y.trapinfo = g.info ∧
    y.lastref = BitVec.ofNat 40 (g.cause.code.toNat * 2 ^ 32 + ref.toNat) ∧
    y.ntraps = (if x.ntraps = 0xFFFFFFFF#32 then x.ntraps else x.ntraps + 1) ∧
    (y.getV (q.hdr.vregs - 1)).tag = 5 ∧
    (∀ l : Nat, l < 32 → bit d l = true →
      y.lpcAt l = q.hdr.traph ∧ y.laneAt l = .running ∧ (y.getV (q.hdr.vregs - 1)).at l = ret l ∧ bit y.lapped l = false) ∧
    (∀ l : Nat, l < 32 → bit d l = false →
      y.lpcAt l = x.lpcAt l ∧ y.laneAt l = x.laneAt l ∧ (y.getV (q.hdr.vregs - 1)).at l = (x.getV (q.hdr.vregs - 1)).at l ∧
      bit y.lapped l = (bit x.lapped l || bit all l)) ∧
    (∀ n : Nat, n ≠ q.hdr.vregs - 1 → y.getV n = x.getV n) ∧ y.s = x.s ∧ y.m = x.m ∧
    (s.deliver k c ref ret gs).ms = s.ms

/-- R405, R406, R407, R410. Causes that lanes of one issue take, where REFUSE has let no lane of the same issue go. With no lane inside
the handler and no handler named, the course ends with the cause of the lowest lane that takes one, the lanes that took it and
the reference. One taken by a lane that is inside the handler ends the course likewise, with the cause of the lowest such lane:
every lane has exited, and no handler runs. While a lane is inside, causes of lanes outside it alone are not delivered, and those
lanes are lapped. -/
def Obligations.TrapInsideHandlerEndsCourse : Prop :=
  ∀ (s : State) (k c : Nat) (ref : BitVec 32) (ret : Nat → BitVec 32) (gs : List TrapGroup) (q : Consort),
    s.consorts.find? (·.id == k) = some q → (q.courses.find? (·.idx == c)).isSome = true → s.refusedNow k c = 0 →
    let all := gs.foldl (fun m h => m ||| h.lanes) 0
    let x := q.crs c
    let t := s.deliver k c ref ret gs
    let ends (among : BitVec 32) : Prop := (t.crs k c).ended = true ∧
      (∀ l : Nat, l < 32 → (t.crs k c).laneAt l = .exited) ∧ (t.crs k c).v = x.v ∧ t.ms = s.ms ∧
      (x.term = none → ∃ g ∈ gs, bit g.lanes (lowest among) = true ∧ (t.crs k c).term = some
        { cls := 1, cause := g.cause, lanes := gs.foldl (fun m h => if h.cause = g.cause then m ||| h.lanes else m) 0, ref := ref })
    (x.hmask = 0 → all ≠ 0 → q.hdr.traph = 0xFFFFFFFF#32 → ends all) ∧
    (all &&& x.hmask ≠ 0 → ends (all &&& x.hmask)) ∧
    (x.hmask ≠ 0 → all ≠ 0 → all &&& x.hmask = 0 →
      (t.crs k c).lapped = x.lapped ||| all ∧ (t.crs k c).trapcause = x.trapcause ∧ (t.crs k c).trapinfo = x.trapinfo ∧
      (t.crs k c).lpc = x.lpc ∧ (t.crs k c).lane = x.lane ∧ (t.crs k c).v = x.v ∧ t.ms = s.ms)

/-! ### Operands -/

/-- R52, R404. Two typed register sources: equal tags that the member accepts, or a RAW operand beside one where RAW is accepted, give
the type; a second tag that differs, a type that is not accepted, and a RAW operand where none is accepted raise FORMAT with the
number of the first operand at fault in field order, and write nothing. -/
def Obligations.TypedSourcesChooseType : Prop :=
  ∀ (s : State) (a b d : BitVec 7) (accept : List (BitVec 4)) (rawOk : Bool),
    isPort a = false → isPort b = false → isPort d = false →
    let x := s.me.getV a.toNat
    let y := s.me.getV b.toNat
    let r := s.vecRead [Src.typed a, Src.typed b] (some d) false accept rawOk noCheck
    let at_ (v : BitVec 7) : Prop := r = .error (s.fail .format v.toNat)
    x.tag.toNat < 12 → y.tag.toNat < 12 →
    (x.tag ≠ 0 → x.tag ∉ accept → at_ a) ∧ (x.tag = 0 → rawOk = false → at_ a) ∧
    (x.tag ≠ 0 → x.tag ∈ accept → y.tag = x.tag → r = .ok (s, x.tag, [x, y])) ∧
    (x.tag ≠ 0 → x.tag ∈ accept → y.tag ≠ 0 → y.tag ≠ x.tag → at_ b) ∧
    (x.tag ≠ 0 → x.tag ∈ accept → y.tag = 0 → rawOk = false → at_ b) ∧
    (x.tag ≠ 0 → x.tag ∈ accept → y.tag = 0 → rawOk = true → r = .ok (s, x.tag, [x, y])) ∧
    (x.tag = 0 → rawOk = true → y.tag ≠ 0 → y.tag ∈ accept → r = .ok (s, y.tag, [x, y])) ∧
    (x.tag = 0 → rawOk = true → y.tag ≠ 0 → y.tag ∉ accept → at_ b) ∧
    (x.tag = 0 → rawOk = true → y.tag = 0 → r = .ok (s, 0, [x, y]))

/-- R247. Reading a queue port: an unbound port or a sink raises BAD_HANDLE; a source that lacks an element for a lane of the issue
set makes the instruction wait with nothing of it done; one that has them gives them to the lanes in ascending order, with
their one tag, and loses exactly them. -/
def Obligations.PortReadPopsOnePerLane : Prop :=
  ∀ (s : State) (v : BitVec 7), isPort v = true → s.issuing = true →
    let q := portOf v
    let n := popcount s.iss.set
    let p := s.me.port q
    let es := s.portElems s.iss.k s.iss.c q
    (p.isSource = false → s.readSrcs [v] none 0 = .error (s.fail .badHandle v.toNat)) ∧
    (p.isSource = true → es.length < n → s.readSrcs [v] none 0 = .error (s.stallAt .port v.toNat)) ∧
    (p.isSource = true → n ≤ es.length → mixedTags (es.take n) = true → s.readSrcs [v] none 0 = .error (s.fail .format v.toNat)) ∧
    (p.isSource = true → n ≤ es.length → 0 < n → mixedTags (es.take n) = false → (∀ e ∈ es, e.tag.toNat < 12) →
      ∃ s1 x, s.readSrcs [v] none 0 = .ok (s1, [x]) ∧ (∀ e ∈ es.take n, x.tag = e.tag) ∧
        (∀ l : Nat, l < 32 → bit s.iss.set l = true → some (x.at l) = (es[laneRank s.iss.set l]?).map (·.val)) ∧
        s1.portElems s.iss.k s.iss.c q = es.drop n ∧ s1.ms = s.ms ∧ s1.core = s.core)

/-- R49, R195, R247. A result written to a register changes it, and its tag, in the lanes of the issue set alone; one written to a
sink port enters it as one element per lane, in ascending order, behind what stands there. -/
def Obligations.ResultWritesIssueSetOnly : Prop :=
  ∀ (s : State) (d : BitVec 7) (t : BitVec 4) (f : Nat → Word), s.issuing = true →
    let u := s.writeDst d t f
    (isPort d = false →
      (u.me.getV d.toNat).tag = t ∧
      (∀ l : Nat, l < 32 → (u.me.getV d.toNat).at l = if bit s.iss.set l then f l else (s.me.getV d.toNat).at l) ∧
      (∀ n : Nat, n ≠ d.toNat → u.me.getV n = s.me.getV n) ∧
      u.me.s = s.me.s ∧ u.me.m = s.me.m ∧ u.me.lpc = s.me.lpc ∧ u.me.ports = s.me.ports) ∧
    (isPort d = true → (s.me.port (portOf d)).bound = true → (s.me.port (portOf d)).kind = 3 →
      vget u.mine.channels [] (s.me.port (portOf d)).chan.toNat =
        vget s.mine.channels [] (s.me.port (portOf d)).chan.toNat ++
          (lanesOf s.iss.set).map (fun l => { val := f l, tag := t : Elem }) ∧ u.me = s.me) ∧
    (isPort d = true → (s.me.port (portOf d)).bound = true → (s.me.port (portOf d)).kind = 5 →
      (u.me.port (portOf d)).part = (s.me.port (portOf d)).part ++ (lanesOf s.iss.set).map f ∧
      u.me.v = s.me.v ∧ u.mine.channels = s.mine.channels) ∧
    u.ms = s.ms ∧ u.core = s.core ∧ u.work = s.work ∧ u.hub = s.hub

/-! ### Scalar instructions -/

/-- R225. The members of SALU: the word each assembles to, its 64-bit result, and fn7 17 to 127 unused.
R226. The members of SALUI, with the immediate alone or behind a LIMM (R75): the word each assembles to and its result. -/
def Obligations.ScalarResults : Prop :=
  (
  (∀ (s : State) (d a b : BitVec 6),
    let x := s.getS a.toNat
    let y := s.getS b.toNat
    let R (fn : Nat) (i : Instr) (v : DWord) : Prop :=
      encodeWord i = fn * 2 ^ 25 + b.toNat * 2 ^ 19 + a.toNat * 2 ^ 13 + d.toNat * 2 ^ 7 + 0x0D ∧
      (Fits s i → exec i s = .next (moved s (·.setS d.toNat v)))
    R 0 (.sadd d a b) (BitVec.ofNat 64 (x.toNat + y.toNat)) ∧
    R 1 (.ssub d a b) (BitVec.ofInt 64 ((x.toNat : Int) - y.toNat)) ∧
    R 2 (.smul d a b) (BitVec.ofNat 64 (x.toNat * y.toNat)) ∧
    R 3 (.sand d a b) (x &&& y) ∧
    R 4 (.sor d a b) (x ||| y) ∧
    R 5 (.sxor d a b) (x ^^^ y) ∧
    R 6 (.sshl d a b) (if 64 ≤ y.toNat then 0 else BitVec.ofNat 64 (x.toNat * 2 ^ y.toNat)) ∧
    R 7 (.sshrl d a b) (if 64 ≤ y.toNat then 0 else BitVec.ofNat 64 (x.toNat / 2 ^ y.toNat)) ∧
    R 8 (.sshra d a b) (BitVec.ofInt 64 (if 64 ≤ y.toNat then (if x.msb then -1 else 0) else x.toInt / (2 ^ y.toNat : Nat))) ∧
    R 9 (.smin d a b) (BitVec.ofInt 64 (min x.toInt y.toInt)) ∧
    R 10 (.smax d a b) (BitVec.ofInt 64 (max x.toInt y.toInt)) ∧
    R 11 (.snmin d a b) (BitVec.ofNat 64 (min x.toNat y.toNat)) ∧
    R 12 (.snmax d a b) (BitVec.ofNat 64 (max x.toNat y.toNat)) ∧
    R 13 (.scmpeq d a b) (if x = y then 1 else 0) ∧
    R 14 (.scmplt d a b) (if x.toInt < y.toInt then 1 else 0) ∧
    R 15 (.scmpnlt d a b) (if x.toNat < y.toNat then 1 else 0) ∧
    R 16 (.ssel d a b) (if s.getS d.toNat = 0 then y else x)) ∧
  ∀ fn low : Nat, 17 ≤ fn → fn < 128 → low < 2 ^ 25 → decodeWord (fn * 2 ^ 25 + low / 128 * 128 + 0x0D) = none
  ) ∧ (
  ∀ (s : State) (d a : BitVec 6) (i : BitVec 10) (px : Option (BitVec 25)),
    let x := s.getS a.toNat
    let z := wide 10 i px
    let word (fn sa : Nat) : Nat := i.toNat * 2 ^ 22 + fn * 2 ^ 19 + sa * 2 ^ 13 + d.toNat * 2 ^ 7 + 0x0F
    let R (fn sa : Nat) (j : Instr) (v : DWord) : Prop :=
      encodeWord j = word fn sa ∧ (Fits s j → exec j s = .next (moved s (·.setS d.toNat v)))
    R 0 a.toNat (.saddi d a i px) (x + z) ∧
    R 1 a.toNat (.sandi d a i px) (x &&& z) ∧
    R 2 a.toNat (.sori d a i px) (x ||| z) ∧
    R 3 a.toNat (.sxori d a i px) (x ^^^ z) ∧
    R 4 a.toNat (.sshli d a i px) (BitVec.ofNat 64 (x.toNat * 2 ^ (z.toNat % 64))) ∧
    R 5 a.toNat (.sshrli d a i px) (BitVec.ofNat 64 (x.toNat / 2 ^ (z.toNat % 64))) ∧
    R 6 0 (.smovi d i px) z ∧
    R 7 a.toNat (.scmpeqi d a i px) (if x = z then 1 else 0) ∧
    ((Instr.sshli d a i px).wf = true ↔ z.toNat < 64) ∧ ((Instr.sshrli d a i px).wf = true ↔ z.toNat < 64)
  )

/-! ### Integer lane instructions -/

/-- R228, R229, R52. IADD, ISUB, IMIN, IMAX, NMIN, NMAX and IADDSAT, element by element for the types each accepts; IMUL, IMULHI,
NMULHI and IMAD; the bitwise members, for any type. -/
def Obligations.IntegerResults : Prop :=
  ∀ (s s1 : State) (d a b : BitVec 7) (t : BitVec 4) (x y z : VReg),
    let w := elemBits t
    let u (e : Nat) : Int := (e : Int)
    let v (e : Nat) : Int := intVal t e
    let top : Int := if t = 5 then 2 ^ 32 - 1 else 2 ^ (w - 1) - 1
    let bottom : Int := if t = 5 then 0 else -2 ^ (w - 1)
    let R (i : Instr) (accept : List (BitVec 4)) (rawOk : Bool) (P : Word → Word → Word → Prop) : Prop :=
      s.overCount i = none → s.vecRead [Src.typed a, Src.typed b] (some d) false accept rawOk noCheck = .ok (s1, t, [x, y]) →
      Yields s s1 i d t (fun l r => P (x.at l) (y.at l) r)
    let E (i : Instr) (accept : List (BitVec 4)) (g : Nat → Nat → Int) : Prop :=
      R i accept false (fun p q r => Elementwise w r (fun k => g (elem w p k) (elem w q k)))
    E (.iadd d a b) [4, 5, 6, 7, 8] (fun p q => u p + u q) ∧
    E (.isub d a b) [4, 5, 6, 7, 8] (fun p q => u p - u q) ∧
    E (.imin d a b) [4, 6, 7, 8] (fun p q => min (v p) (v q)) ∧
    E (.imax d a b) [4, 6, 7, 8] (fun p q => max (v p) (v q)) ∧
    E (.nmin d a b) [5] (fun p q => min (u p) (u q)) ∧
    E (.nmax d a b) [5] (fun p q => max (u p) (u q)) ∧
    E (.iaddsat d a b) [4, 5, 6, 7, 8] (fun p q => max bottom (min top (v p + v q))) ∧
    E (.imul d a b) [4, 5] (fun p q => u p * u q) ∧
    R (.imulhi d a b) [4] false (fun p q r => r = BitVec.ofInt 32 (p.toInt * q.toInt / 2 ^ 32)) ∧
    R (.nmulhi d a b) [5] false (fun p q r => r.toNat = p.toNat * q.toNat / 2 ^ 32) ∧
    R (.iand d a b) anyTag true (fun p q r => r = p &&& q) ∧
    R (.ior d a b) anyTag true (fun p q r => r = p ||| q) ∧
    R (.ixor d a b) anyTag true (fun p q r => r = p ^^^ q) ∧
    R (.andn d a b) anyTag true (fun p q r => r = p &&& ~~~q) ∧
    (s.overCount (.imad d a b) = none →
      s.vecRead [Src.typed a, Src.typed b, Src.typed d] (some d) false [4, 5] false noCheck = .ok (s1, t, [x, y, z]) →
      Yields s s1 (.imad d a b) d t (fun l r => r.toNat = ((x.at l).toNat * (y.at l).toNat + (z.at l).toNat) % 2 ^ 32))

/-- R228, R229, R239. The members of one source: IABS and INEG element by element, MOV and CAST, POPC, CLZ and BREV; and the shifts,
whose count is a role operand (R223).
R230, R231. IALUI, with the immediate alone or behind a LIMM (R75), and IALUS, whose second operand is the low word of a scalar
register: the element results of the members they name, with that one second operand in every lane. -/
def Obligations.IntegerUnaryShiftAndImmediateResults : Prop :=
  (
  ∀ (s s1 : State) (d a b : BitVec 7) (t : BitVec 4) (x y : VReg),
    let w := elemBits t
    let R (i : Instr) (accept : List (BitVec 4)) (rawOk : Bool) (rt : BitVec 4) (P : Word → Word → Prop) : Prop :=
      s.overCount i = none → s.vecRead [Src.typed a] (some d) false accept rawOk noCheck = .ok (s1, t, [x]) →
      Yields s s1 i d rt (fun l r => P (x.at l) r)
    let S (i : Instr) (P : Word → Nat → Word → Prop) : Prop :=
      s.overCount i = none →
      s.vecRead [Src.typed a, Src.of b [4, 5]] (some d) false [4, 5] false noCheck = .ok (s1, t, [x, y]) →
      Yields s s1 i d t (fun l r => P (x.at l) (y.at l).toNat r)
    R (.iabs d a) [4, 6, 7, 8] false t (fun p r => Elementwise w r (fun k => (sextInt w (elem w p k)).natAbs)) ∧
    R (.ialusIabs d a) [4, 6, 7, 8] false t (fun p r => Elementwise w r (fun k => (sextInt w (elem w p k)).natAbs)) ∧
    R (.ineg d a) [4, 5, 6, 7, 8] false t (fun p r => Elementwise w r (fun k => -(elem w p k : Int))) ∧
    R (.mov d a) anyTag true t (fun p r => r = p) ∧
    (∀ tag, R (.cast d a tag) anyTag true tag (fun p r => r = p)) ∧
    R (.popc d a) [4, 5] false 5 (fun p r => r.toNat = ((List.range 32).filter (fun k => p.getLsbD k)).length) ∧
    R (.clz d a) [4, 5] false 5 (fun p r => r.toNat ≤ 32 ∧ (∀ k : Nat, k < r.toNat → p.getLsbD (31 - k) = false) ∧
      (r.toNat < 32 → p.getLsbD (31 - r.toNat) = true)) ∧
    R (.brev d a) [4, 5] false t (fun p r => ∀ k : Nat, k < 32 → r.getLsbD k = p.getLsbD (31 - k)) ∧
    S (.shl d a b) (fun p n r => r.toNat = if 32 ≤ n then 0 else p.toNat * 2 ^ n % 2 ^ 32) ∧
    S (.shrl d a b) (fun p n r => r.toNat = if 32 ≤ n then 0 else p.toNat / 2 ^ n) ∧
    S (.shra d a b) (fun p n r => r.toInt = if 32 ≤ n then (if p.msb then -1 else 0) else p.toInt / (2 ^ n : Nat))
  ) ∧ (
  ∀ (s s1 : State) (d a : BitVec 7) (n : BitVec 6) (i : BitVec 8) (px : Option (BitVec 25)) (t : BitVec 4) (x : VReg),
    let w := elemBits t
    let z := narrow 8 i px
    let y : Word := (s.getS n.toNat).setWidth 32
    let R (j : Instr) (accept : List (BitVec 4)) (rawOk : Bool) (P : Word → Word → Prop) : Prop :=
      s.overCount j = none → s.vecRead [Src.typed a] (some d) false accept rawOk noCheck = .ok (s1, t, [x]) →
      Yields s s1 j d t (fun l r => P (x.at l) r)
    let E (j : Instr) (accept : List (BitVec 4)) (g : Nat → Nat → Int) : Prop :=
      R j accept false (fun p r => Elementwise w r (fun k => g (elem w p k) (elem w y k)))
    let shl (m : Nat) (p r : Word) : Prop := r.toNat = if 32 ≤ m then 0 else p.toNat * 2 ^ m % 2 ^ 32
    let shrl (m : Nat) (p r : Word) : Prop := r.toNat = if 32 ≤ m then 0 else p.toNat / 2 ^ m
    let shra (m : Nat) (p r : Word) : Prop := r.toInt = if 32 ≤ m then (if p.msb then -1 else 0) else p.toInt / (2 ^ m : Nat)
    R (.iaddi d a i px) [4, 5] false (fun p r => r.toNat = (p.toNat + z.toNat) % 2 ^ 32) ∧
    R (.andi d a i px) anyTag true (fun p r => r = p &&& z) ∧
    R (.ori d a i px) anyTag true (fun p r => r = p ||| z) ∧
    R (.xori d a i px) anyTag true (fun p r => r = p ^^^ z) ∧
    R (.shli d a i px) [4, 5] false (shl z.toNat) ∧
    R (.shrli d a i px) [4, 5] false (shrl z.toNat) ∧
    R (.shrai d a i px) [4, 5] false (shra z.toNat) ∧
    (∀ tag, s.overCount (.movi d tag i px) = none → s.vecRead [] (some d) false [] true noCheck = .ok (s1, 0, []) →
      Yields s s1 (.movi d tag i px) d tag (fun _ r => r = z)) ∧
    E (.ialusIadd d a n) [4, 5, 6, 7, 8] (fun p q => (p : Int) + q) ∧
    E (.ialusIsub d a n) [4, 5, 6, 7, 8] (fun p q => (p : Int) - q) ∧
    R (.ialusAnd d a n) anyTag true (fun p r => r = p &&& y) ∧
    R (.ialusOr d a n) anyTag true (fun p r => r = p ||| y) ∧
    R (.ialusXor d a n) anyTag true (fun p r => r = p ^^^ y) ∧
    R (.ialusAndn d a n) anyTag true (fun p r => r = p &&& ~~~y) ∧
    R (.ialusShl d a n) [4, 5] false (shl y.toNat) ∧
    R (.ialusShrl d a n) [4, 5] false (shrl y.toNat) ∧
    R (.ialusShra d a n) [4, 5] false (shra y.toNat) ∧
    E (.ialusImin d a n) [4, 6, 7, 8] (fun p q => min (intVal t p) (intVal t q)) ∧
    E (.ialusImax d a n) [4, 6, 7, 8] (fun p q => max (intVal t p) (intVal t q)) ∧
    E (.ialusNmin d a n) [5] (fun p q => min (p : Int) q) ∧
    E (.ialusNmax d a n) [5] (fun p q => max (p : Int) q)
  )

/-- R232. A comparison writes each element as all ones where it holds and as zero where it does not, with tag N32; SEL takes a's word
where d's old word is not zero, else b's. -/
def Obligations.IntegerCompareAndSelectResults : Prop :=
  ∀ (s s1 : State) (d a b : BitVec 7) (t : BitVec 4) (x y z : VReg),
    let w := elemBits t
    let R (i : Instr) (accept : List (BitVec 4)) (c : Int → Int → Prop) : Prop :=
      s.overCount i = none → s.vecRead [Src.typed a, Src.typed b] (some d) false accept false noCheck = .ok (s1, t, [x, y]) →
      Yields s s1 i d 5 (fun l r => ∀ k : Nat, k < 32 / w →
        (c (intVal t (elem w (x.at l) k)) (intVal t (elem w (y.at l) k)) → elem w r k = 2 ^ w - 1) ∧
        (¬ c (intVal t (elem w (x.at l) k)) (intVal t (elem w (y.at l) k)) → elem w r k = 0))
    R (.icmpEq d a b) [4, 5, 6, 7, 8] (fun p q => p = q) ∧ R (.icmpNe d a b) [4, 5, 6, 7, 8] (fun p q => p ≠ q) ∧
    R (.icmpLt d a b) [4, 6, 7, 8] (fun p q => p < q) ∧ R (.icmpLe d a b) [4, 6, 7, 8] (fun p q => p ≤ q) ∧
    R (.icmpGt d a b) [4, 6, 7, 8] (fun p q => p > q) ∧ R (.icmpGe d a b) [4, 6, 7, 8] (fun p q => p ≥ q) ∧
    R (.icmpNlt d a b) [5] (fun p q => p < q) ∧ R (.icmpNle d a b) [5] (fun p q => p ≤ q) ∧
    R (.icmpNgt d a b) [5] (fun p q => p > q) ∧ R (.icmpNge d a b) [5] (fun p q => p ≥ q) ∧
    (s.overCount (.sel d a b) = none →
      s.vecRead [Src.typed a, Src.typed b, Src.of d anyTag] (some d) false [1, 2, 3, 4, 5, 6, 7, 8, 9, 10, 11] false noCheck =
        .ok (s1, t, [x, y, z]) →
      Yields s s1 (.sel d a b) d t (fun l r => r = if z.at l = 0 then y.at l else x.at l))

/-- R54, R55. The 16-bit forms: with d and s carrying tags that the member accepts, d's word of every lane of the issue set becomes the
result of the 32-bit member over d and s, with d's tag kept, and the course moves past the instruction. -/
def Obligations.ShortFormResults : Prop :=
  ∀ (s : State) (d : BitVec 6) (n : BitVec 5),
    let dv := s.me.getV d.toNat
    let sv := s.me.getV n.toNat
    let R (i : Instr) (ok : Prop) (g : Word → Word → Word) : Prop :=
      Fits s i → ok → exec i s = .next (moved s (·.putV d.toNat dv.tag s.iss.set (fun l => g (dv.at l) (sv.at l))))
    let ints : Prop := (dv.tag = 4 ∨ dv.tag = 5) ∧ (sv.tag = 4 ∨ sv.tag = 5)
    let floats : Prop := dv.tag = 1 ∧ sv.tag = 1
    let F (g : BitVec 2 → Bool → Fmt → Nat → Nat → Nat) : Word → Word → Word :=
      fun p q => BitVec.ofNat 32 (g s.rm s.ftz F32 p.toNat q.toNat)
    R (.movShort d n) (dv.tag.toNat < 12 ∧ (sv.tag = dv.tag ∨ sv.tag = 0)) (fun _ q => q) ∧
    R (.iaddShort d n) ints (fun p q => BitVec.ofNat 32 (p.toNat + q.toNat)) ∧
    R (.isubShort d n) ints (fun p q => BitVec.ofInt 32 ((p.toNat : Int) - q.toNat)) ∧
    R (.iandShort d n) ints (fun p q => p &&& q) ∧ R (.iorShort d n) ints (fun p q => p ||| q) ∧
    R (.ixorShort d n) ints (fun p q => p ^^^ q) ∧
    R (.shlShort d n) ints (fun p q => if 32 ≤ q.toNat then 0 else BitVec.ofNat 32 (p.toNat * 2 ^ q.toNat)) ∧
    R (.shrlShort d n) ints (fun p q => if 32 ≤ q.toNat then 0 else BitVec.ofNat 32 (p.toNat / 2 ^ q.toNat)) ∧
    R (.shraShort d n) ints
      (fun p q => BitVec.ofInt 32 (if 32 ≤ q.toNat then (if p.msb then -1 else 0) else p.toInt / (2 ^ q.toNat : Nat))) ∧
    R (.imulShort d n) ints (fun p q => BitVec.ofNat 32 (p.toNat * q.toNat)) ∧
    R (.moviShort d n) (dv.tag = 4 ∨ dv.tag = 5) (fun _ _ => n.signExtend 32) ∧
    R (.faddShort d n) floats (F elemAdd) ∧ R (.fsubShort d n) floats (F elemSub) ∧ R (.fmulShort d n) floats (F elemMul) ∧
    R (.fminShort d n) floats (F elemMin) ∧ R (.fmaxShort d n) floats (F elemMax)

/-! ### Floating point -/

/-- R84, R87. A value that a format represents is never rounded, in any mode: reading an element's bits and rounding gives the bits
back, and every NaN becomes the format's canonical one. -/
def Obligations.RepresentableValuesRoundToThemselves : Prop :=
  ∀ (f : Fmt) (rm : BitVec 2) (x : Nat), f = F32 ∨ f = BF16 ∨ f = F16 ∨ f = AX40 → x < 2 ^ (1 + f.eb + f.mb) →
    f.round rm (f.val x) = if f.val x = .nan then f.nan else x

/-- R85, R84. The smaller and the larger of two elements: one NaN gives the other operand, two the canonical NaN, and −0 orders below
+0; a comparison takes the zeros as equal and a NaN as unordered. -/
def Obligations.MinMaxAndCompareRules : Prop :=
  ∀ (f : Fmt) (x y : Nat), f = F32 ∨ f = BF16 ∨ f = F16 → x < 2 ^ (1 + f.eb + f.mb) → y < 2 ^ (1 + f.eb + f.mb) →
    (∀ mx, f.val x = .nan → f.val y = .nan → f.minmax mx x y = f.nan) ∧
    (∀ mx, f.val x = .nan → f.val y ≠ .nan → f.minmax mx x y = y) ∧
    (∀ mx, f.val x ≠ .nan → f.val y = .nan → f.minmax mx x y = x) ∧
    f.minmax false (f.sign true) (f.sign false) = f.sign true ∧ f.minmax false (f.sign false) (f.sign true) = f.sign true ∧
    f.minmax true (f.sign true) (f.sign false) = f.sign false ∧ f.minmax true (f.sign false) (f.sign true) = f.sign false ∧
    ((f.val (f.sign true)).cmp (f.val (f.sign false)) = .eq) ∧
    (f.val x = .nan ∨ f.val y = .nan ↔ (f.val x).cmp (f.val y) = .un)

namespace Sys2Proof.Statements

/-- R84, R87. n is the magnitude of ±m × 2^e rounded to an integer in a mode: to the nearest, the even one of two as near (RNE), toward
zero (RTZ), up (RUP) or down (RDN). -/
def RoundsTo (rm : BitVec 2) (neg : Bool) (m : Nat) (e : Int) (n : Nat) : Prop :=
  let u : Int := (2 ^ (-e).toNat : Nat)
  let v : Int := (m * 2 ^ e.toNat : Nat)
  let down : Prop := n * u ≤ v ∧ v < n * u + u
  let up : Prop := v ≤ n * u ∧ n * u < v + u
  if rm = 0 then 2 * (v - n * u).natAbs ≤ u ∧ (2 * (v - n * u).natAbs = u → n % 2 = 0)
  else if rm = 1 then down
  else if rm = 2 then (if neg then down else up)
  else (if neg then up else down)

/-- R89. The least and the greatest integer of an element type. -/
def leastOf (t : BitVec 4) : Int := if t = 5 then 0 else -(2 ^ (elemBits t - 1) : Nat)
def mostOf (t : BitVec 4) : Int := if t = 5 then 2 ^ 32 - 1 else (2 ^ (elemBits t - 1) : Nat) - 1

/-- R242. The F32 sum of two words, rounded to nearest, with FTZ on its inputs and its result. -/
def sumOf (ftz : Bool) (x y : Word) : Word :=
  BitVec.ofNat 32 (F32.write 0 ftz ((F32.read ftz x.toNat).add 0 (F32.read ftz y.toNat)))

/-- R84, R242. A lane's own F32 value under FTZ; a NaN is the canonical one. -/
def ownOf (ftz : Bool) (x : Word) : Word :=
  BitVec.ofNat 32 (if F32.val x.toNat = .nan then F32.nan else F32.flush ftz x.toNat)

end Sys2Proof.Statements

/-- R233, R234, R236, R84 to R88. Where the type is F32, BF16X2 or, on a part that has it, F16X2, each element of the result is the exact
value, rounded once in FPMODE's mode with its flushing; FMIN, FMAX, FABS, FNEG and FCOPYSIGN do not round. FRINT gives the integer that
the operand rounds to, with the operand's sign, and returns an infinity as it is.
R235. FCMP writes each element as all ones where the relation holds and as zero where it does not, with tag N32. -/
def Obligations.FloatResults : Prop :=
  (
  ∀ (s s1 : State) (d a b : BitVec 7) (n : BitVec 6) (t : BitVec 4) (x y z : VReg),
    let w := elemBits t
    let f := fmtOf t
    let rd (e : Nat) : Machine.Num := f.read s.ftz e
    let wr (v : Machine.Num) : Nat := f.write s.rm s.ftz v
    let sy : Word := (s.getS n.toNat).setWidth 32
    let Read (srcs : List (BitVec 7)) (vs : List VReg) : Prop :=
      s.vecRead (srcs.map Src.typed) (some d) true [1, 2, 3] false noCheck = .ok (s1, t, vs)
    let R1 (i : Instr) (g : Nat → Nat) : Prop := s.overCount i = none → Read [a] [x] →
      Yields s s1 i d t (fun l r => Elementwise w r (fun k => g (elem w (x.at l) k)))
    let R2 (i : Instr) (g : Nat → Nat → Nat) : Prop := s.overCount i = none → Read [a, b] [x, y] →
      Yields s s1 i d t (fun l r => Elementwise w r (fun k => g (elem w (x.at l) k) (elem w (y.at l) k)))
    let RS (i : Instr) (g : Nat → Nat → Nat) : Prop := s.overCount i = none → Read [a] [x] →
      Yields s s1 i d t (fun l r => Elementwise w r (fun k => g (elem w (x.at l) k) (elem w sy k)))
    let R3 (i : Instr) (g : Machine.Num → Machine.Num → Machine.Num → Machine.Num) : Prop := s.overCount i = none → Read [a, b, d] [x, y, z] →
      Yields s s1 i d t (fun l r => Elementwise w r (fun k =>
        wr (g (rd (elem w (x.at l) k)) (rd (elem w (y.at l) k)) (rd (elem w (z.at l) k)))))
    let add (p q : Nat) : Nat := wr ((rd p).add s.rm (rd q))
    let sub (p q : Nat) : Nat := wr ((rd p).add s.rm (rd q).neg)
    let mul (p q : Nat) : Nat := wr ((rd p).mul (rd q))
    let least (p q : Nat) : Nat := f.minmax false (f.flush s.ftz p) (f.flush s.ftz q)
    let most (p q : Nat) : Nat := f.minmax true (f.flush s.ftz p) (f.flush s.ftz q)
    R2 (.fadd d a b) add ∧ R2 (.fsub d a b) sub ∧ R2 (.fmul d a b) mul ∧ R2 (.fmin d a b) least ∧ R2 (.fmax d a b) most ∧
    RS (.falusFadd d a n) add ∧ RS (.falusFsub d a n) sub ∧ RS (.falusFmul d a n) mul ∧ RS (.falusFmin d a n) least ∧
    RS (.falusFmax d a n) most ∧
    R1 (.fabs d a) (fun p => f.withSign false (f.flush s.ftz p)) ∧
    R1 (.fneg d a) (fun p => f.withSign (!f.neg p) (f.flush s.ftz p)) ∧
    R2 (.fcopysign d a b) (fun p q => if f.val q = .nan then f.nan else f.withSign (f.neg q) (f.flush s.ftz p)) ∧
    (s.overCount (.frint d a) = none → Read [a] [x] → Yields s s1 (.frint d a) d t (fun l r => ∀ k : Nat, k < 32 / w →
      match rd (elem w (x.at l) k) with
      | .nan => elem w r k = f.nan
      | .inf neg => elem w r k = f.round 0 (.inf neg)
      | .num neg m e => ∃ n, RoundsTo s.rm neg m e n ∧ elem w r k = wr (.num neg n 0))) ∧
    R3 (.fma d a b) (fun p q c => (p.mul q).add s.rm c) ∧ R3 (.fms d a b) (fun p q c => (p.mul q).add s.rm c.neg) ∧
    R3 (.fnma d a b) (fun p q c => (p.mul q).neg.add s.rm c) ∧ R3 (.fnms d a b) (fun p q c => (p.mul q).neg.add s.rm c.neg) ∧
    R2 (.div d a b) (fun p q => wr ((rd p).div (rd q))) ∧ R1 (.sqrt d a) (fun p => wr (rd p).sqrt)
  ) ∧ (
  ∀ (s s1 : State) (d a b : BitVec 7) (t : BitVec 4) (x y : VReg),
    let w := elemBits t
    let o (l k : Nat) : Ord3 :=
      ((fmtOf t).read s.ftz (elem w (x.at l) k)).cmp ((fmtOf t).read s.ftz (elem w (y.at l) k))
    let R (i : Instr) (c : Ord3 → Prop) : Prop :=
      s.overCount i = none → s.vecRead [Src.typed a, Src.typed b] (some d) true [1, 2, 3] false noCheck = .ok (s1, t, [x, y]) →
      Yields s s1 i d 5 (fun l r => ∀ k : Nat, k < 32 / w →
        (c (o l k) → elem w r k = 2 ^ w - 1) ∧ (¬ c (o l k) → elem w r k = 0))
    R (.fcmpEq d a b) (fun q => q = .eq) ∧ R (.fcmpNe d a b) (fun q => q ≠ .eq) ∧ R (.fcmpLt d a b) (fun q => q = .lt) ∧
    R (.fcmpLe d a b) (fun q => q = .lt ∨ q = .eq) ∧ R (.fcmpGt d a b) (fun q => q = .gt) ∧
    R (.fcmpGe d a b) (fun q => q = .gt ∨ q = .eq) ∧ R (.fcmpUn d a b) (fun q => q = .un) ∧ R (.fcmpOrd d a b) (fun q => q ≠ .un)
  )

/-- R107 to R109, R236. The special functions: at the special operands, the results of the table of R109 (a NaN gives the canonical NaN);
at every operand, the algorithm's FP32 value rounded to the element's format, flushed under FTZ. -/
def Obligations.SpecialFunctionResults : Prop :=
  (∀ (s s1 : State) (d a : BitVec 7) (t : BitVec 4) (x : VReg),
    let w := elemBits t
    let f := fmtOf t
    let R (i : Instr) (g : SpecFn) : Prop := s.overCount i = none →
      s.vecRead [Src.typed a] (some d) true [1, 2, 3] false noCheck = .ok (s1, t, [x]) →
      Yields s s1 i d t (fun l r => Elementwise w r (fun k =>
        f.flush s.ftz (f.round 0 (F32.val (F32.round 0 (g.eval (f.read s.ftz (elem w (x.at l) k))))))))
    R (.rcp d a) .rcp ∧ R (.rsq d a) .rsq ∧ R (.exp2 d a) .exp2 ∧ R (.log2 d a) .log2 ∧ R (.sin d a) .sin ∧ R (.cos d a) .cos) ∧
  (∀ g : SpecFn, g.eval .nan = .nan) ∧
  (∀ (n : Bool) (e : Int), SpecFn.rcp.eval (.num n 0 e) = .inf n ∧ SpecFn.rcp.eval (.inf n) = .num n 0 0 ∧
    SpecFn.rsq.eval (.num n 0 e) = .inf n ∧ SpecFn.exp2.eval (.num n 0 e) = .num false 1 0 ∧
    SpecFn.log2.eval (.num n 0 e) = .inf true ∧ SpecFn.sin.eval (.num n 0 e) = .num n 0 0 ∧
    SpecFn.cos.eval (.num n 0 e) = .num false 1 0 ∧ SpecFn.sin.eval (.inf n) = .nan ∧ SpecFn.cos.eval (.inf n) = .nan) ∧
  SpecFn.rsq.eval (.inf false) = .num false 0 0 ∧ SpecFn.rsq.eval (.inf true) = .nan ∧
  SpecFn.exp2.eval (.inf false) = .inf false ∧ SpecFn.exp2.eval (.inf true) = .num false 0 0 ∧
  SpecFn.log2.eval (.inf false) = .inf false ∧ SpecFn.log2.eval (.inf true) = .nan ∧
  ∀ (m : Nat) (e : Int), m ≠ 0 → SpecFn.rsq.eval (.num true m e) = .nan ∧ SpecFn.log2.eval (.num true m e) = .nan

/-! ### Conversions -/

/-- R105, R238 to R240, R106. CVT element by element under the mode it names; PACK, UNPACKLO and UNPACKHI; and QDEC, whose eight
elements fill the four registers of its group. R105. A conversion between floating-point formats rounds the exact value once; one to an
integer type rounds to an integer in the mode and saturates, NaN giving 0; one from an integer rounds it once; one between
integers saturates. -/
def Obligations.ConversionResults : Prop :=
  (∀ (m : BitVec 2) (ftz : Bool) (st dt : BitVec 4) (x : Nat), dt ∈ cvtTargets st → x < 2 ^ elemBits st →
    let fs : Bool := st = 1 || st = 2 || st = 3
    let fd : Bool := dt = 1 || dt = 2 || dt = 3
    let z := cvtElem m ftz st dt x
    let clamp (i : Int) : Int := max (leastOf dt) (min (mostOf dt) i)
    (fs = true → fd = true → z = (fmtOf dt).write m ftz ((fmtOf st).read ftz x)) ∧
    (fs = true → fd = false → match (fmtOf st).read ftz x with
      | .nan => z = 0
      | .inf neg => intVal dt z = if neg then leastOf dt else mostOf dt
      | .num neg a e => ∃ n : Nat, RoundsTo m neg a e n ∧ intVal dt z = clamp (if neg then -(n : Int) else n)) ∧
    (fs = false → fd = true → z = (fmtOf dt).write m ftz (.num (decide (intVal st x < 0)) (intVal st x).natAbs 0)) ∧
    (fs = false → fd = false → intVal dt z = clamp (intVal st x))) ∧
  ∀ (s s1 : State) (d a b : BitVec 7) (g : BitVec 5) (tt : BitVec 4) (m : BitVec 2) (t : BitVec 4) (x y : VReg),
    let w := elemBits t
    (cvtTarget tt = true → s.overCount (.cvt d a tt m) = none →
      s.vecRead [Src.typed a] (some d) false (anyTag.filter (fun st => (cvtTargets st).contains tt)) false noCheck =
        .ok (s1, t, [x]) →
      Yields s s1 (.cvt d a tt m) d tt (fun l r => ∀ k : Nat, k < 32 / elemBits tt →
        elem (elemBits tt) r k =
          if k < 32 / w then cvtElem m s.ftz t tt (elem w (x.at l) k) % 2 ^ elemBits tt else 0)) ∧
    (s.overCount (.pack d a b) = none →
      s.vecRead [Src.typed a, Src.typed b] (some d) false [2, 3, 6, 7, 8] false noCheck = .ok (s1, t, [x, y]) →
      Yields s s1 (.pack d a b) d t (fun l r => r.toNat = (x.at l).toNat % 2 ^ 16 + (y.at l).toNat % 2 ^ 16 * 2 ^ 16)) ∧
    (∀ hi : Bool, s.overCount (if hi then .unpackhi d a else .unpacklo d a) = none →
      s.vecRead [Src.typed a] (some d) false [2, 3, 6, 7, 8] false noCheck = .ok (s1, t, [x]) →
      let wide := widerTag t
      let n := 32 / elemBits wide
      Yields s s1 (if hi then .unpackhi d a else .unpacklo d a) d wide (fun l r => ∀ k : Nat, k < n →
        elem (elemBits wide) r k =
          cvtElem 0 s.ftz t wide (elem w (x.at l) (k + (if hi then n else 0))) % 2 ^ elemBits wide)) ∧
    (Fits s (.qdec g a b) → g.toNat < 28 → ∀ p q : VReg, s.readSrcs [a, b] none 1 = .ok (s1, [p, q]) →
      (p.tag = 9 ∨ p.tag = 10 ∧ s.mine.hdr.ctabbed = true) → q.tag = 1 →
      let val : Nat → Machine.Num := if p.tag = 10 then s.qpVal s.core.ctgen else q16nVal
      ∃ u : State, exec (.qdec g a b) s = .next u ∧
        (∀ l : Nat, l < 32 → bit s.iss.set l = true → ∀ j : Nat, j < 4 → ∀ k : Nat, k < 2 →
          elem 16 ((u.me.getV (4 * g.toNat + j)).at l) k =
            BF16.round 0 ((val (elem 4 (p.at l) (2 * j + k))).mul (F32.val (q.at l).toNat)) % 2 ^ 16) ∧
        (∀ j : Nat, j < 4 → (u.me.getV (4 * g.toNat + j)).tag = 2) ∧
        (∀ v : Nat, v < 4 * g.toNat ∨ 4 * g.toNat + 4 ≤ v → u.me.getV v = s.me.getV v) ∧ u.me.s = s.me.s ∧ u.ms = s.ms ∧
        u.me.ports = s1.me.ports ∧ u.mine.channels = s1.mine.channels)

/-! ### Between lanes -/

/-- R241, R243. The shuffles take the word of their source lane, in compatibility mode within each half of 16 lanes; a source lane
outside the bounds or the issue set gives the lane its own word. Ballots, votes and MATCH look at the lanes of the issue set.
R241 to R243. REDADD and SCANADD of integers add modulo 2^32 over the lanes of the issue set in the lane's span, SCANADD up to the
lane itself; of F32 REDADD adds by the tree of R242 over the span and SCANADD in ascending lane order, each sum rounded to nearest under
FTZ. REDMIN and REDMAX give every lane the least and greatest of the whole issue set, NaNs left aside (R85). -/
def Obligations.CrossLaneResults : Prop :=
  (
  ∀ (s s1 : State) (d a b : BitVec 7) (t : BitVec 4) (x y : VReg),
    let compat := s.mine.hdr.compat
    let half (l : Nat) : Nat := l / 16 * 16
    let inSpan (l j : Nat) : Prop := j < 32 ∧ bit s.iss.set j = true ∧ (compat = true → j / 16 = l / 16)
    let S (i : Instr) (src : Nat → Nat → Option Nat) : Prop :=
      s.overCount i = none →
      s.vecRead [Src.typed a, Src.of b [4, 5]] (some d) false anyTag true noCheck = .ok (s1, t, [x, y]) →
      Yields s s1 i d t (fun l r => r = match src l (y.at l).toNat with
        | some j => if bit s.iss.set j then x.at j else x.at l
        | none => x.at l)
    let K (i : Instr) (P : Nat → Word → Prop) : Prop :=
      s.overCount i = none → s.vecRead [Src.of a anyTag] (some d) false [] true noCheck = .ok (s1, t, [x]) → Yields s s1 i d 5 P
    S (.shfl d a b) (fun l n => some (if compat then half l + n % 16 else n % 32)) ∧
    S (.shflup d a b) (fun l n => if n ≤ l - (if compat then half l else 0) then some (l - n) else none) ∧
    S (.shfldn d a b) (fun l n => if l + n < (if compat then half l + 16 else 32) then some (l + n) else none) ∧
    S (.shflx d a b) (fun l n => some (l ^^^ (if compat then n % 16 else n % 32))) ∧
    K (.ballot d a) (fun l r => ∀ j : Nat, j < 32 → (r.getLsbD j = true ↔
      if compat then inSpan l (half l + j % 16) ∧ x.at (half l + j % 16) ≠ 0 else inSpan l j ∧ x.at j ≠ 0)) ∧
    K (.voteall d a) (fun l r => ((∀ j, inSpan l j → x.at j ≠ 0) → r = 0xFFFFFFFF) ∧ (¬ (∀ j, inSpan l j → x.at j ≠ 0) → r = 0)) ∧
    K (.voteany d a) (fun l r => ((∃ j, inSpan l j ∧ x.at j ≠ 0) → r = 0xFFFFFFFF) ∧ (¬ (∃ j, inSpan l j ∧ x.at j ≠ 0) → r = 0)) ∧
    K (.matchv d a) (fun l r => ∀ j : Nat, j < 32 → (r.getLsbD j = true ↔ bit s.iss.set j = true ∧ x.at j = x.at l))
  ) ∧ (
  ∀ (s s1 : State) (d a : BitVec 7) (t : BitVec 4) (x : VReg),
    let compat := s.mine.hdr.compat
    let lanes (l : Nat) : List Nat :=
      (List.range 32).filter (fun j => bit s.iss.set j && (!compat || j / 16 == l / 16))
    let sum (js : List Nat) : Nat := (js.map (fun j => (x.at j).toNat)).foldl (· + ·) 0
    let R (i : Instr) (P : Nat → Word → Prop) : Prop :=
      s.overCount i = none → s.vecRead [Src.typed a] (some d) false [4, 5, 1] false noCheck = .ok (s1, t, [x]) → Yields s s1 i d t P
    R (.redadd d a) (fun l r => if t = 1 then
        ∃ S : Nat → Nat → Option Word, (∀ j : Nat, S 0 j = if bit s.iss.set j then some (ownOf s.ftz (x.at j)) else none) ∧
          (∀ n j : Nat, S (n + 1) j = match S n j, S n (j + 2 ^ n) with
            | none, y => y
            | y, none => y
            | some y, some z => some (sumOf s.ftz y z)) ∧
          S (if compat then 4 else 5) (if compat then l / 16 * 16 else 0) = some r
      else r.toNat = sum (lanes l) % 2 ^ 32) ∧
    R (.scanadd d a) (fun l r => if t = 1 then
        ∃ T : Nat → Word, (∀ j ∈ lanes l, (∀ i ∈ lanes l, j ≤ i) → T j = ownOf s.ftz (x.at j)) ∧
          (∀ i ∈ lanes l, ∀ j ∈ lanes l, i < j → (∀ m ∈ lanes l, m ≤ i ∨ j ≤ m) → T j = sumOf s.ftz (T i) (x.at j)) ∧ T l = r
      else r.toNat = sum ((lanes l).filter (· ≤ l)) % 2 ^ 32) ∧
    (∀ (mx : Bool) (i : Instr), i = (if mx then .redmax d a else .redmin d a) →
      R i (fun _ r =>
        if t = 1 then
          let nan (j : Nat) : Prop := F32.val (x.at j).toNat = .nan
          let own (j : Nat) : Nat := F32.flush s.ftz (x.at j).toNat
          ((∀ j : Nat, j < 32 → bit s.iss.set j = true → nan j) → r.toNat = F32.nan) ∧
          ((∃ j : Nat, j < 32 ∧ bit s.iss.set j = true ∧ ¬ nan j) →
            (∃ j : Nat, j < 32 ∧ bit s.iss.set j = true ∧ ¬ nan j ∧ r.toNat = own j) ∧
            ∀ j : Nat, j < 32 → bit s.iss.set j = true → ¬ nan j → F32.minmax mx r.toNat (own j) = r.toNat)
        else (∃ j : Nat, j < 32 ∧ bit s.iss.set j = true ∧ r = x.at j) ∧ ∀ j : Nat, j < 32 → bit s.iss.set j = true →
          if mx then intVal t (x.at j).toNat ≤ intVal t r.toNat else intVal t r.toNat ≤ intVal t (x.at j).toNat))
  )

/-- R244 to R246, R110, R111. MOVS, LANEID, WID, WIDF and the random words; VTOS, whose lanes must agree. WIDF reads its field between two
levels of the WID; in compatibility mode field 0 has four bits and field 1 one bit more than natively. The random words are those of
ten rounds of Philox-4x32 over the counter word, the WID and the key group. -/
def Obligations.IdentityAndRandomResults : Prop :=
  (∀ (ctr : Word) (wid key next : DWord), ∃ c0 c1 c2 c3 k0 k1 : Nat → Nat,
    c0 0 = ctr.toNat ∧ c1 0 = wid.toNat % 2 ^ 32 ∧ c2 0 = wid.toNat / 2 ^ 32 ∧ c3 0 = next.toNat / 2 ^ 32 ∧
    k0 0 = key.toNat % 2 ^ 32 ∧ k1 0 = next.toNat % 2 ^ 32 ∧
    (∀ n : Nat, n < 10 →
      c0 (n + 1) = (0xCD9E8D57 * c2 n / 2 ^ 32) ^^^ c1 n ^^^ k0 n ∧ c1 (n + 1) = 0xCD9E8D57 * c2 n % 2 ^ 32 ∧
      c2 (n + 1) = (0xD2511F53 * c0 n / 2 ^ 32) ^^^ c3 n ^^^ k1 n ∧ c3 (n + 1) = 0xD2511F53 * c0 n % 2 ^ 32 ∧
      k0 (n + 1) = (k0 n + 0x9E3779B9) % 2 ^ 32 ∧ k1 (n + 1) = (k1 n + 0xBB67AE85) % 2 ^ 32) ∧
    (philox ctr wid key next).map (·.toNat) = [c0 10, c1 10, c2 10, c3 10]) ∧
  ∀ (s s1 : State) (d a : BitVec 7) (e : BitVec 6) (g : BitVec 5) (h : BitVec 1) (n : BitVec 3) (tag t : BitVec 4) (x : VReg),
    let q := s.mine
    let half (v : DWord) : Word := BitVec.ofNat 32 (if h = 1 then v.toNat / 2 ^ 32 else v.toNat)
    let wid (l : Nat) : DWord :=
      q.widbase + BitVec.ofNat 64 (q.gang * 2 ^ q.level 3 + q.num * 2 ^ q.level 2 + s.iss.c * 2 ^ q.level 1 + l)
    let K (i : Instr) (rt : BitVec 4) (P : Nat → Word → Prop) : Prop :=
      s.overCount i = none → s.vecRead [] (some d) false [] true noCheck = .ok (s1, t, []) → Yields s s1 i d rt P
    K (.movs d tag h e) tag (fun _ r => r = half (s.getS e.toNat)) ∧
    K (.laneid d) 5 (fun l r => r.toNat = l) ∧
    K (.wid d h) 5 (fun l r => r = half (wid l)) ∧
    (q.hdr.compat = false → K (.widf d n) 5 (fun l r =>
      r.toNat = (wid l).toNat / 2 ^ q.level n.toNat % 2 ^ (q.level (n.toNat + 1) - q.level n.toNat) % 2 ^ 32)) ∧
    (q.hdr.compat = true → K (.widf d n) 5 (fun l r =>
      r.toNat = if n = 0 then (wid l).toNat % 16
        else if n = 1 then (wid l).toNat / 16 % 2 ^ (q.widw.getD 1 0 + 1) % 2 ^ 32
        else (wid l).toNat / 2 ^ q.level n.toNat % 2 ^ (q.level (n.toNat + 1) - q.level n.toNat) % 2 ^ 32)) ∧
    (s.overCount (.rng d a e) = none → s.vecRead [Src.of a [4, 5, 0]] (some d) false [] true noCheck = .ok (s1, t, [x]) →
      Yields s s1 (.rng d a e) d 5 (fun l r =>
        some r = (philox (x.at l) (wid l) (s.getS e.toNat) (s.getS (e.toNat + 1)))[0]?)) ∧
    (Fits s (.rng4 g a e) → g.toNat < 28 → s.vecRead [Src.of a [4, 5, 0]] none false [] true noCheck = .ok (s1, t, [x]) →
      ∃ u : State, exec (.rng4 g a e) s = .next u ∧
        (∀ l : Nat, l < 32 → bit s.iss.set l = true → ∀ j : Nat, j < 4 →
          some ((u.me.getV (4 * g.toNat + j)).at l) = (philox (x.at l) (wid l) (s.getS e.toNat) (s.getS (e.toNat + 1)))[j]?) ∧
        (∀ v : Nat, v < 4 * g.toNat ∨ 4 * g.toNat + 4 ≤ v → u.me.getV v = s.me.getV v) ∧ u.me.s = s.me.s ∧ u.ms = s.ms ∧
        u.me.ports = s1.me.ports ∧ u.mine.channels = s1.mine.channels) ∧
    (Fits s (.vtos e a h) → ∀ p : VReg, s.readSrcs [a] none 1 = .ok (s1, [p]) →
      ((∀ l l', l < 32 → l' < 32 → bit s.iss.set l = true → bit s.iss.set l' = true → p.at l = p.at l') →
        exec (.vtos e a h) s = .next (moved s1 (·.setS e.toNat
          (let v := (p.at (lowest s.iss.set)).toNat
           if h = 1 then BitVec.ofNat 64 ((s.getS e.toNat).toNat % 2 ^ 32 + v * 2 ^ 32) else BitVec.ofNat 64 v)))) ∧
      ((∃ l l', l < 32 ∧ l' < 32 ∧ bit s.iss.set l = true ∧ bit s.iss.set l' = true ∧ p.at l ≠ p.at l') →
        exec (.vtos e a h) s = .next (s.fail .uniform a.toNat)))

/-! ### System, control and masks -/

/-- R60, R61, R78, R79, R218 to R221, R48, R34. NOP, YIELD, CLOCK, PRBCLR, WRSR and RDSR of every special register; TRAP and BREAK, which
return past themselves; a LIMM before a member that takes none, an undefined encoding and a fetch beyond the overlay, which raise
ILLEGAL with their sub-causes, the first two a NOP that sets PROBEF in probe mode. ID.CAPS is laid out as R3 and R4 say; that its two
half-width fields are those of the one core of the module is the model's choice (log entry 1). -/
def Obligations.SystemInstructionResults : Prop :=
  ∀ (s : State) (d n : BitVec 6) (c : BitVec 6) (p : BitVec 25) (fw enc : BitVec 32),
    let soft (cause : Cause) : State :=
      s.deliver s.iss.k s.iss.c s.iss.own (fun _ => refAdd s.iss.at_ s.iss.len)
        [{ cause := cause, lanes := s.iss.set, info := BitVec.ofNat 64 c.toNat }]
    let illegal (e : BitVec 32) (sub : Nat) : State :=
      if s.mine.hdr.probe then moved s (fun x => { x with probef := true }) else s.trapWhole .illegal (info79 e sub 0)
    let rd (v : DWord) : Prop := Fits s (.rdsr d n) → exec (.rdsr d n) s = .next (moved s (·.setS d.toNat v))
    exec .nop s = .next (moved s id) ∧
    exec .yield s = .next (moved s (fun x => { x with age := s.clock + 1 })) ∧
    (Fits s (.clock d) → exec (.clock d) s = .next (moved s (·.setS d.toNat (BitVec.ofNat 64 s.clock)))) ∧
    exec .prbclr s = .next (moved s (fun x => { x with probef := false })) ∧
    (Fits s (.wrsr d 7) → exec (.wrsr d 7) s = .next (moved s (fun x => { x with fpmode := (s.getS d.toNat).setWidth 3 }))) ∧
    (n = 1 → rd (s.hub.devid.setWidth 64)) ∧ (n = 2 → rd (if s.me.probef then 1 else 0)) ∧
    (n = 3 → rd (s.me.fmask.setWidth 64)) ∧ (n = 4 → rd s.me.missref) ∧ (n = 5 → rd (s.me.trapcause.setWidth 64)) ∧
    (n = 6 → rd s.me.trapinfo) ∧ (n = 7 → rd (s.me.fpmode.setWidth 64)) ∧ (n = 8 → rd (s.core.ctgen.setWidth 64)) ∧
    (n = 0 → rd (BitVec.ofNat 64 (s.hub.fp16.toNat + 3 * 2 ^ 4 + s.core.halfWidth.toNat * 2 ^ 19 + s.core.halfWidth.toNat * 2 ^ 20 +
      s.hub.pmode.toNat * 2 ^ 30))) ∧
    exec (.trap c) s = .next (soft .trap) ∧ exec (.brk c) s = .next (soft .brk) ∧
    exec (.limm p fw) s = .next (illegal fw 3) ∧ exec (.undefinedEncoding enc) s = .next (illegal enc 0) ∧
    exec .fetchBeyondOverlay s = .next (s.trapWhole .illegal (info79 0 2 0))

/-- R193, R213 to R217, R63, R64, R75. The transfers within an overlay: lanes taken go to the reference the displacement gives, modulo 2^16
in the overlay, and are lapped where it is not above the instruction's own; the others go past it. CALL links in v0; RET goes
where each lane's register says. EXIT ends the lanes and takes them out of every mask. NAP n holds the course. -/
def Obligations.ControlTransferResults : Prop :=
  ∀ (s : State) (r : BitVec 7) (o : BitVec 17) (i : BitVec 21) (px : Option (BitVec 25)), s.issuing = true →
    let set := s.iss.set
    let x := s.me
    let own := s.iss.own
    let hop (z : DWord) : BitVec 32 :=
      BitVec.ofNat 32 (own.toNat / 65536 * 65536 + ((((own.toNat % 65536 : Nat) : Int) + z.toInt) % 65536).toNat)
    let next : BitVec 32 := refAdd s.iss.at_ s.iss.len
    let Goes (j : Instr) (taken : Nat → Prop) (f : Nat → BitVec 32) : Prop :=
      ∃ t : State, exec j s = .next t ∧
        (∀ l : Nat, l < 32 → bit set l = true → (taken l → t.me.lpcAt l = f l ∧
            (bit t.me.lapped l = true ↔ bit x.lapped l = true ∨ (f l).toNat ≤ own.toNat)) ∧
          (¬ taken l → t.me.lpcAt l = next ∧ bit t.me.lapped l = bit x.lapped l)) ∧
        (∀ l : Nat, l < 32 → bit set l = false → t.me.lpcAt l = x.lpcAt l ∧ bit t.me.lapped l = bit x.lapped l) ∧
        (∀ n : Nat, n ≠ 0 → t.me.getV n = x.getV n) ∧ t.me.s = x.s ∧ t.me.m = x.m ∧ t.me.lane = x.lane ∧ t.ms = s.ms ∧ t.core = s.core
    (isPort r = false → (x.getV r.toNat).tag.toNat < 12 →
      (s.overCount (.brnz r o px) = none → Goes (.brnz r o px) (fun l => (x.getV r.toNat).at l ≠ 0) (fun _ => hop (wide 17 o px))) ∧
      (s.overCount (.brz r o px) = none → Goes (.brz r o px) (fun l => (x.getV r.toNat).at l = 0) (fun _ => hop (wide 17 o px)))) ∧
    Goes (.jmp i px) (fun _ => True) (fun _ => hop (wide 21 i px)) ∧
    (s.overCount (.call i px) = none →
      Goes (.call i px) (fun _ => True) (fun _ => hop (wide 21 i px)) ∧
      ∀ t, exec (.call i px) s = .next t → (t.me.getV 0).tag = 5 ∧ ∀ l : Nat, l < 32 → bit set l = true → (t.me.getV 0).at l = refAdd own 2) ∧
    (isPort r = false → s.overCount (.ret r) = none → (x.getV r.toNat).tag = 5 ∨ (x.getV r.toNat).tag = 0 →
      (∀ l : Nat, l < 32 → bit set l = true → refOv ((x.getV r.toNat).at l) = refOv own) →
      Goes (.ret r) (fun _ => True) (x.getV r.toNat).at) ∧
    (∃ t : State, exec .exit s = .next t ∧ (∀ l : Nat, l < 32 → bit set l = true → t.me.laneAt l = .exited) ∧
      (∀ n : Nat, n < 12 → t.me.getM n &&& set = 0) ∧ t.me.exitRef = own ∧ t.me.exitMask = x.exitMask ||| set) ∧
    exec (.nap i) s = .next (moved s (fun c => if i = 0 then c else { c with hold := .nap (s.clock + i.toNat + 1) }))

/-- R215. RET faults FORMAT for the whole issue set where its register is tagged neither N32 nor RAW; a lane whose word names another
overlay than the instruction's takes BAD_HANDLE, and every other lane goes where its word says. -/
def Obligations.ReturnFaults : Prop :=
  ∀ (s : State) (r : BitVec 7), Fits s (.ret r) → isPort r = false →
    let x := s.me.getV r.toNat
    let bad := maskOf (fun l => bit s.iss.set l && refOv (x.at l) != refOv s.iss.own)
    (x.tag ≠ 5 → x.tag ≠ 0 → exec (.ret r) s = .next (s.fail .format r.toNat)) ∧
    ((x.tag = 5 ∨ x.tag = 0) → bad = 0 → ∃ u : State, exec (.ret r) s = .next u ∧ u.me.v = s.me.v ∧ u.ms = s.ms ∧
      ∀ l : Nat, l < 32 → u.me.lpcAt l = if bit s.iss.set l then x.at l else s.me.lpcAt l) ∧
    ((x.tag = 5 ∨ x.tag = 0) → bad ≠ 0 →
      ∃ u : State, exec (.ret r) s = .next (u.deliver s.iss.k s.iss.c s.iss.own (fun _ => s.iss.at_)
          [{ cause := .badHandle, lanes := bad, info := info79 s.iss.enc 0 r.toNat }]) ∧
        (∀ l : Nat, l < 32 → bit s.iss.set l = true → refOv (x.at l) = refOv s.iss.own → u.me.lpcAt l = x.at l) ∧
        (∀ l : Nat, l < 32 → bit bad l = true → u.me.lpcAt l = s.me.lpcAt l) ∧ u.ms = s.ms)

/-- R196 to R199, R211. JOIN, LEAVE, MMOV and MWRITE change one mask, and the masks are then tested for release; MREAD and MCOUNT report
one. MWRITE, from a register or a popped port, faults FORMAT for a tag other than N32 and RAW and UNIFORM where the issue set's words
differ. WAITM makes the issue set members that wait at the instruction, released at once where every member waits; where no lane runs or
is parked then, every waiting lane takes MASK_DEADLOCK. WAITC stalls until the counters and tokens it names allow it; then it goes on,
or delivers the error of the lowest token of its mask that is in error, which becomes free unless no lane may take it (R297, R407). -/
def Obligations.MaskAndWaitResults : Prop :=
  ∀ (s s1 : State) (m : BitVec 4) (i : BitVec 10) (px : Option (BitVec 25)) (v : BitVec 7) (t : BitVec 4)
    (ld : BitVec 5) (st cp tl : BitVec 4) (tk : BitVec 8), s.issuing = true → m.toNat < 12 →
    let x := s.me
    let set := s.iss.set
    let put (y : BitVec 32) : State := (moved s (·.setM m.toNat y)).modMe Course.releaseMasks
    exec (.join m) s = .next (put (x.getM m.toNat ||| set)) ∧
    exec (.leave m) s = .next (put (x.getM m.toNat &&& ~~~set)) ∧
    ((Instr.mmov m i px).wf = true → i.toNat < 12 ∧ exec (.mmov m i px) s = .next (put (x.getM i.toNat &&& ~~~x.gone))) ∧
    (s.overCount (.mwrite m v) = none → isPort v = false → (x.getV v.toNat).tag = 5 ∨ (x.getV v.toNat).tag = 0 →
      (∀ l l', l < 32 → l' < 32 → bit set l = true → bit set l' = true → (x.getV v.toNat).at l = (x.getV v.toNat).at l') →
      exec (.mwrite m v) s = .next (put ((x.getV v.toNat).at (lowest set) &&& ~~~x.gone))) ∧
    (s.overCount (.mwrite m v) = none → ∀ y, s.readSrcs [v] none 0 = .ok (s1, [y]) →
      let differ : Prop := ∃ l l', l < 32 ∧ l' < 32 ∧ bit set l = true ∧ bit set l' = true ∧ y.at l ≠ y.at l'
      (y.tag ≠ 5 → y.tag ≠ 0 → exec (.mwrite m v) s = .next (s.fail .format v.toNat)) ∧
      (y.tag = 5 ∨ y.tag = 0 → differ → exec (.mwrite m v) s = .next (s.fail .uniform v.toNat)) ∧
      (y.tag = 5 ∨ y.tag = 0 → ¬ differ →
        exec (.mwrite m v) s = .next ((moved s1 (·.setM m.toNat (y.at (lowest set) &&& ~~~x.gone))).modMe Course.releaseMasks))) ∧
    (s.overCount (.mwrite m v) = none → ∀ e, s.readSrcs [v] none 0 = .error e → exec (.mwrite m v) s = .next e) ∧
    (s.overCount (.mread m v) = none → s.vecRead [] (some v) false [] true noCheck = .ok (s1, t, []) →
      Yields s s1 (.mread m v) v 5 (fun _ r => r = x.getM m.toNat)) ∧
    (s.overCount (.mcount m v) = none → s.vecRead [] (some v) false [] true noCheck = .ok (s1, t, []) →
      Yields s s1 (.mcount m v) v 5 (fun _ r => r.toNat = popcount (x.getM m.toNat))) ∧
    (set ≠ 0 → (∃ l : Nat, l < 32 ∧ bit set l = false ∧ x.laneAt l = .running) →
      (∃ l : Nat, l < 32 ∧ bit (x.getM m.toNat) l = true ∧ bit set l = false ∧ x.laneAt l ≠ .waiting m) →
      ∃ u : State, exec (.waitm m) s = .next u ∧ (∀ l : Nat, l < 32 → bit set l = true → u.me.laneAt l = .waiting m ∧ u.me.lpcAt l = x.lpcAt l) ∧
        u.me.getM m.toNat = x.getM m.toNat ||| set ∧ u.me.v = x.v ∧ u.me.s = x.s ∧ u.ms = s.ms) ∧
    (set ≠ 0 → (∀ l : Nat, l < 32 → bit (x.getM m.toNat) l = true → bit set l = true ∨ x.laneAt l = .waiting m) →
      ∃ u : State, exec (.waitm m) s = .next u ∧ ∀ l : Nat, l < 32 → bit set l = true → u.me.laneAt l = .running) ∧
    (let u : State := (s.modMe (fun y =>
        { (y.setLane set (.waiting m)).setM m.toNat (x.getM m.toNat ||| set) with stall := none })).modMe Course.releaseMasks
      let w : BitVec 32 := maskOf (fun l => (u.me.laneAt l).isWaiting)
      (w = 0 ∨ (∃ l : Nat, l < 32 ∧ (u.me.laneAt l = .running ∨ u.me.laneAt l = .parked)) → exec (.waitm m) s = .next u) ∧
      (w ≠ 0 → (∀ l : Nat, l < 32 → u.me.laneAt l ≠ .running ∧ u.me.laneAt l ≠ .parked) →
        exec (.waitm m) s = .next (u.deliver s.iss.k s.iss.c (u.me.lpcAt (lowest w)) u.me.lpcAt
          [{ cause := .maskDeadlock, lanes := w, info := w.setWidth 64 }]))) ∧
    let met : Prop := (ld = 31 ∨ x.loads ≤ ld.toNat) ∧ (st = 15 ∨ x.stores ≤ st.toNat) ∧ (cp = 15 ∨ x.copies ≤ cp.toNat) ∧
      (tl = 15 ∨ x.tiles ≤ tl.toNat) ∧ ∀ n : Nat, n < 8 → tk.getLsbD n = true → (x.token n).st ≠ .pending
    (met →
      (x.tokenError tk = none ↔ ∀ n : Nat, n < 8 → tk.getLsbD n = true → ∀ cause, (x.token n).st ≠ .error cause) ∧
      (x.tokenError tk = none → exec (.waitc ld st cp tl tk) s = .next (moved s id)) ∧
      ∀ (n : Nat) (cause : Cause), n < 8 → tk.getLsbD n = true → (x.token n).st = .error cause →
        (∀ i, i < n → tk.getLsbD i = true → ∀ cause, (x.token i).st ≠ .error cause) →
        let tok := x.token n
        let low : Nat := if cause = .multicastPartial then tok.failed.toNat + tok.detail.toNat * 2 ^ 16 else tok.addr.toNat
        let info : DWord := BitVec.ofNat 64 (n * 2 ^ 61 + tok.dst.toNat * 2 ^ 60 + low)
        exec (.waitc ld st cp tl tk) s = .next
          (if x.hmask ≠ 0 ∧ set &&& x.hmask = 0 then s.trapWhole cause info
           else (s.modMe (fun y => { y with tokens := vset y.tokens n Token.fresh })).trapWhole cause info)) ∧
    (¬ met →
      exec (.waitc ld st cp tl tk) s = .next (s.stallFor .waitc))

/-! ### Overlays -/

/-- R175 to R177. Transfers between overlays, where every target is in the table and on the core: CALLX goes to the entry it names and
links in v0; CALLXR and RETX go where each lane's register says, CALLXR linking; lanes are lapped where the target is below the
instruction. A CALLX of an overlay that is not below COUNT, or of an entry that is not below NENTRY, raises BAD_HANDLE, and a CALLXR or
RETX through a register tagged neither N32 nor RAW raises FORMAT, for the whole issue set. Where REFUSE let lanes of the same issue
go, these take their causes besides (R413). -/
def Obligations.OverlayTransferResults : Prop :=
  ∀ (s : State) (o : BitVec 16) (e : BitVec 5) (r : BitVec 7) (cnt : List Byte) (pa : Nat), s.issuing = true →
    s.fetchCount s.mine = .bytes cnt pa →
    let set := s.iss.set
    let x := s.me
    let Goes (j : Instr) (linked : Bool) (f : Nat → BitVec 32) : Prop :=
      ∃ t : State, exec j s = .next t ∧
        (∀ l : Nat, l < 32 → bit set l = true → t.me.lpcAt l = f l ∧
          (bit t.me.lapped l = true ↔ bit x.lapped l = true ∨ (f l).toNat < s.iss.own.toNat) ∧
          (linked = true → (t.me.getV 0).at l = refAdd s.iss.own 2)) ∧
        (∀ l : Nat, l < 32 → bit set l = false → t.me.lpcAt l = x.lpcAt l) ∧
        (∀ n : Nat, n ≠ 0 ∨ linked = false → t.me.getV n = x.getV n) ∧ t.me.s = x.s ∧ t.me.m = x.m ∧ t.me.lane = x.lane ∧ t.ms = s.ms
    (∀ inst, s.overCount (.callx o e) = none → o.toNat < leNat cnt → o ≠ 0xFFFF#16 → s.instFor s.mine o = some inst → e.toNat < inst.entry.nentry →
      Goes (.callx o e) true (fun _ => BitVec.ofNat 32 (o.toNat * 65536 + inst.entry.entryoff.getD e.toNat 0))) ∧
    (s.overCount (.callx o e) = none → leNat cnt ≤ o.toNat ∨ o = 0xFFFF#16 → exec (.callx o e) s = .next (s.fail .badHandle 0)) ∧
    (∀ inst, s.overCount (.callx o e) = none → o.toNat < leNat cnt → o ≠ 0xFFFF#16 → s.instFor s.mine o = some inst → inst.entry.nentry ≤ e.toNat →
      exec (.callx o e) s = .next (s.fail .badHandle 0)) ∧
    (isPort r = false → (x.getV r.toNat).tag ≠ 5 → (x.getV r.toNat).tag ≠ 0 →
      (s.overCount (.callxr r) = none → exec (.callxr r) s = .next (s.fail .format r.toNat)) ∧
      (s.overCount (.retx r) = none → exec (.retx r) s = .next (s.fail .format r.toNat))) ∧
    (s.iss.refused = 0 → isPort r = false → (x.getV r.toNat).tag = 5 ∨ (x.getV r.toNat).tag = 0 →
      (∀ l : Nat, l < 32 → bit set l = true → (refOv ((x.getV r.toNat).at l)).toNat < leNat cnt ∧ refOv ((x.getV r.toNat).at l) ≠ 0xFFFF#16 ∧
        (s.instFor s.mine (refOv ((x.getV r.toNat).at l))).isSome = true) →
      (s.overCount (.callxr r) = none → Goes (.callxr r) true (x.getV r.toNat).at) ∧
      (s.overCount (.retx r) = none → Goes (.retx r) false (x.getV r.toNat).at))

/-- R29, R177, R178, R180, R182. A CALLX of an overlay that is not on the core reads its table entry, and raises BAD_HANDLE where that
is malformed; else it sends the issue set to the overlay manager with MISSREF naming the overlay and the instruction, lapped where
the manager lies below, or, without a manager, raises OVERLAY_MISS. That a malformed entry is found at the miss, with REG 0, is the
model's reading (log entry 44). Of the lanes of a CALLXR or RETX those whose overlay is on the core go on, those whose overlay is not
go to the manager or take OVERLAY_MISS, and those that name no overlay, or a malformed entry, take BAD_HANDLE at the register. A trap
whose handler's overlay is not on the core reaches the handler through the manager. That without a manager it ends the whole
course, where R182 speaks of its lanes, and that it ends the course with BAD_HANDLE where the table can be read and has no such
overlay, or a malformed entry, is the model's choice (log entry 11). -/
def Obligations.OverlayMissGoesToManager : Prop :=
  (∀ (s : State) (o : BitVec 16) (e : BitVec 5) (cnt ent : List Byte) (pa p2 : Nat), Fits s (.callx o e) → s.fetchCount s.mine = .bytes cnt pa →
    o.toNat < leNat cnt → o ≠ 0xFFFF#16 → s.instFor s.mine o = none → s.fetchEntry s.mine o.toNat = .bytes ent p2 →
    ((OvEntry.ofBytes ent).ok = false → exec (.callx o e) s = .next (s.fail .badHandle 0)) ∧
    ((OvEntry.ofBytes ent).ok = true →
    let mr : DWord := BitVec.ofNat 64 (1 * 2 ^ 61 + o.toNat * 2 ^ 32 + s.iss.own.toNat)
    (s.mine.hdr.ovmgr ≠ 0xFFFFFFFF#32 → ∃ t : State, exec (.callx o e) s = .next t ∧ t.me.missref = mr ∧ t.me.v = s.me.v ∧ t.ms = s.ms ∧
      ∀ l : Nat, l < 32 → (t.me.lpcAt l = if bit s.iss.set l then s.mine.hdr.ovmgr else s.me.lpcAt l) ∧
        (bit t.me.lapped l = true ↔ bit s.me.lapped l = true ∨ bit s.iss.set l = true ∧ s.mine.hdr.ovmgr.toNat < s.iss.own.toNat)) ∧
    (s.mine.hdr.ovmgr = 0xFFFFFFFF#32 → exec (.callx o e) s =
      .next ((s.modMe (fun c => { c with missref := mr })).deliver s.iss.k s.iss.c s.iss.own (fun _ => s.iss.at_)
        [{ cause := .overlayMiss, lanes := s.iss.set, info := mr }])))) ∧
  (∀ (s : State) (r : BitVec 7) (linked : Bool) (cnt : List Byte) (pa : Nat),
    let j : Instr := if linked then .callxr r else .retx r
    Fits s j → isPort r = false → (s.me.getV r.toNat).tag = 5 ∨ (s.me.getV r.toNat).tag = 0 → s.fetchCount s.mine = .bytes cnt pa →
    let set := s.iss.set
    let x := s.me.getV r.toNat
    let own := s.iss.own
    let ov (l : Nat) : BitVec 16 := refOv (x.at l)
    let named (l : Nat) : Prop := (ov l).toNat < leNat cnt ∧ ov l ≠ 0xFFFF#16
    let here (l : Nat) : Prop := bit set l = true ∧ named l ∧ (s.instFor s.mine (ov l)).isSome = true
    let read (l : Nat) (good : Bool) : Prop := ∃ ent p2, s.fetchEntry s.mine (ov l).toNat = .bytes ent p2 ∧ (OvEntry.ofBytes ent).ok = good
    let gone (l : Nat) : Prop := bit set l = true ∧ named l ∧ s.instFor s.mine (ov l) = none
    (∀ l : Nat, l < 32 → gone l → read l true ∨ read l false) →
    ∀ bad away : BitVec 32,
      (∀ l : Nat, l < 32 → (bit bad l = true ↔ bit set l = true ∧ (¬ named l ∨ gone l ∧ read l false))) →
      (∀ l : Nat, l < 32 → (bit away l = true ↔ gone l ∧ read l true)) →
      let mr : DWord := BitVec.ofNat 64 ((if linked then 2 else 3) * 2 ^ 61 + (ov (lowest away)).toNat * 2 ^ 32 + own.toNat)
      let bads : List TrapGroup := if bad = 0 then [] else [{ cause := .badHandle, lanes := bad, info := info79 s.iss.enc 0 r.toNat }]
      let mgr := s.mine.hdr.ovmgr
      ∃ u : State, exec j s = .next (u.deliver s.iss.k s.iss.c own (fun _ => s.iss.at_)
          (bads ++ if away ≠ 0 ∧ mgr = 0xFFFFFFFF#32 then [{ cause := .overlayMiss, lanes := away, info := mr }] else [])) ∧
        (∀ l : Nat, l < 32 → (here l → u.me.lpcAt l = x.at l ∧ (linked = true → (u.me.getV 0).at l = refAdd own 2)) ∧
          (bit away l = true → mgr ≠ 0xFFFFFFFF#32 → u.me.lpcAt l = mgr ∧
            (bit u.me.lapped l = true ↔ bit s.me.lapped l = true ∨ mgr.toNat < own.toNat)) ∧
          (¬ here l → (bit away l = false ∨ mgr = 0xFFFFFFFF#32) → u.me.lpcAt l = s.me.lpcAt l)) ∧
        (∀ n : Nat, n ≠ 0 ∨ linked = false → u.me.getV n = s.me.getV n) ∧ u.me.s = s.me.s ∧ u.ms = s.ms ∧
        u.me.missref = if away = 0 then s.me.missref else mr) ∧
  ∀ (s : State) (k c : Nat) (ref : BitVec 32) (ret : Nat → BitVec 32) (g : TrapGroup) (q : Consort),
    s.consorts.find? (·.id == k) = some q → (q.courses.find? (·.idx == c)).isSome = true → (q.crs c).hmask = 0 → g.lanes ≠ 0 →
    s.refusedNow k c = 0 → q.hdr.traph ≠ 0xFFFFFFFF#32 → s.instFor q (refOv q.hdr.traph) = none →
    let y := (s.deliver k c ref ret [g]).crs k c
    let ov := refOv q.hdr.traph
    let none_ : Prop := ∃ cnt pa, s.fetchCount q = .bytes cnt pa ∧ (leNat cnt ≤ ov.toNat ∨ ov = 0xFFFF#16 ∨
      ∃ ent p2, s.fetchEntry q ov.toNat = .bytes ent p2 ∧ (OvEntry.ofBytes ent).ok = false)
    let ends (e : Cause) : Prop := (∀ l : Nat, l < 32 → y.laneAt l = .exited) ∧
      ((q.crs c).term = none → y.term = some { cls := 1, cause := e, lanes := g.lanes, ref := ref })
    (none_ → ends .badHandle) ∧
    (¬ none_ → q.hdr.ovmgr ≠ 0xFFFFFFFF#32 → y.trapcause = g.cause.code ∧ y.trapinfo = g.info ∧
      y.missref = BitVec.ofNat 64 (4 * 2 ^ 61 + (refOv q.hdr.traph).toNat * 2 ^ 32 + q.hdr.traph.toNat) ∧
      ∀ l : Nat, l < 32 → bit g.lanes l = true → y.lpcAt l = q.hdr.ovmgr ∧
        (bit y.lapped l = true ↔ q.hdr.ovmgr.toNat < ref.toNat)) ∧
    (¬ none_ → q.hdr.ovmgr = 0xFFFFFFFF#32 → ends g.cause)

/-- R162, R169 to R174, R183. The five members raise BAD_HANDLE for the whole issue set where the scalar register holds no overlay id
of the table. OVLD of an overlay that is on the core completes at once, and of one that is being loaded takes the token
until then; of one that is absent it reads the entry, faults BAD_HANDLE where that is malformed, completes at once where another
tenant's verified instance fits it, and else takes the token until a load, its own or another tenant's, ends.
OVPIN, OVUNPIN and OVEVICT report and change the residency tokens and instances as their tables say; OVQRY reports. The model's
choices: what OVEVICT answers for a LOADING overlay (log entry 44), and FRAMES of one that still waits for frames (log entry 67). -/
def Obligations.OverlayInstructionResults : Prop :=
  ∀ (s s1 : State) (i : BitVec 6) (k : BitVec 3) (v : BitVec 7) (t : BitVec 4) (cnt : List Byte) (pa : Nat), s.issuing = true →
    s.fetchCount s.mine = .bytes cnt pa →
    let listed : Prop := (s.getS i.toNat).toNat < leNat cnt ∧ (s.getS i.toNat).toNat < 0xFFFF
    (¬ listed → ∀ j ∈ [Instr.ovld i k, .ovpin v i, .ovunpin i, .ovevict v i, .ovqry v i], s.overCount j = none →
      (j = .ovld i k → (s.me.token k.toNat).st = .free) → exec j s = .next (s.fail .badHandle i.toNat)) ∧
    (listed →
    let ov : BitVec 16 := (s.getS i.toNat).setWidth 16
    let q := s.mine
    let tokens := (q.rtokens.find? (fun y => y.ov == ov)).map (·.count)
    let Says (j : Instr) (u : State) (w : Word) : Prop :=
      s.overCount j = none → s.vecRead [] (some v) false [] true noCheck = .ok (s1, t, []) → s1 = s →
      exec j s = .next ((u.writeDst v 5 (fun _ => w)).done)
    (∀ x, s.overCount (.ovld i k) = none → (s.me.token k.toNat).st = .free → s.instFor q ov = some x → x.st = .resident →
      exec (.ovld i k) s = .next (moved s id)) ∧
    (∀ x, s.overCount (.ovld i k) = none → (s.me.token k.toNat).st = .free → s.instFor q ov = some x → x.st ≠ .resident →
      ∃ u : State, exec (.ovld i k) s = .next u ∧ (u.me.token k.toNat).st = .pending ∧
        ∃ y ∈ u.core.insts, y.uid = x.uid ∧ (s.iss.k, s.iss.c, k.toNat) ∈ y.waiters) ∧
    (∀ ent p2, s.overCount (.ovld i k) = none → (s.me.token k.toNat).st = .free → s.instFor q ov = none →
      s.fetchEntry q ov.toNat = .bytes ent p2 → (∀ y ∈ s.core.insts, y.uid < s.nextId) →
      let e := OvEntry.ofBytes ent
      let h : Sharer := { aspace := q.aspace, ot := q.hdr.otaddr, ov := ov }
      let tok : Nat × Nat × Nat := (s.iss.k, s.iss.c, k.toNat)
      let mine (j : Joiner) : Prop := j.aspace = h.aspace ∧ j.ot = h.ot ∧ j.ov = h.ov
      let offers (y : Inst) : Prop := e.shareable = true ∧ y.st = .resident ∧ y.verified = true ∧ y.entry.same e = true ∧
        ∀ z ∈ y.sharers, z.aspace ≠ q.aspace
      let loads (y : Inst) : Prop := e.shareable = true ∧ y.st = .loading ∧ y.entry.shareable = true ∧ y.entry.same e = true ∧
        y.owner ≠ q.aspace ∧ ∀ z ∈ y.joiners, mine z ∨ z.aspace ≠ q.aspace
      (e.ok = false → exec (.ovld i k) s = .next (s.fail .badHandle i.toNat)) ∧
      (e.ok = true → ∃ u : State, exec (.ovld i k) s = .next u ∧ u.me.v = s.me.v ∧ u.me.s = s.me.s ∧ u.ms = s.ms ∧
        (∀ l : Nat, l < 32 → u.me.lpcAt l = if bit s.iss.set l then refAdd s.iss.at_ s.iss.len else s.me.lpcAt l) ∧
        ((∃ y ∈ s.core.insts, offers y) → (u.me.token k.toNat).st = .free ∧ ∃ y ∈ u.core.insts, h ∈ y.sharers) ∧
        ((∀ y ∈ s.core.insts, ¬ offers y) → (u.me.token k.toNat).st = .pending) ∧
        ((∀ y ∈ s.core.insts, ¬ offers y) → (∃ y ∈ s.core.insts, loads y) →
          ∃ y ∈ u.core.insts, ∃ j ∈ y.joiners, mine j ∧ tok ∈ j.tokens) ∧
        ((∀ y ∈ s.core.insts, ¬ offers y ∧ ¬ loads y) → ∃ y ∈ u.core.insts, y.uid = s.nextId ∧ y.owner = q.aspace ∧
          y.sharers = [h] ∧ y.entry = e ∧ y.st = .loading ∧ y.waiters = [tok]))) ∧
    (s.instFor q ov = none → Says (.ovpin v i) s 0 ∧ Says (.ovevict v i) s 0) ∧
    (∀ x, s.instFor q ov = some x →
      (tokens = some 255 ∨ tokens = none ∧ 8 ≤ q.rtokens.length → Says (.ovpin v i) s 3) ∧
      (tokens = none → q.rtokens.length < 8 →
        Says (.ovpin v i) (s.modMine (fun _ => { q with rtokens := q.rtokens ++ [{ ov := ov, count := 1 }] }))
          (if x.st = .resident then 1 else 2)) ∧
      (∀ n, tokens = some n → n ≠ 255 → Says (.ovpin v i)
        (s.modMine (fun _ => { q with
          rtokens := modFirst (fun y => y.ov == ov) (fun y => { y with count := y.count + 1 }) q.rtokens }))
        (if x.st = .resident then 1 else 2)) ∧
      (x.st = .loading → Says (.ovevict v i) s 3) ∧
      (x.st ≠ .loading → s.pins x (some q.aspace) = 0 → s.lanesInside x (some q.aspace) = false →
        let rest := x.sharers.filter (fun h => h.aspace != q.aspace)
        Says (.ovevict v i)
          (if rest.isEmpty then s.freeInst x.uid else s.modInst x.uid (fun x => { x with sharers := rest })) 0) ∧
      (x.st ≠ .loading → s.pins x (some q.aspace) ≠ 0 → Says (.ovevict v i) s 1) ∧
      (x.st ≠ .loading → s.pins x (some q.aspace) = 0 → s.lanesInside x (some q.aspace) = true → Says (.ovevict v i) s 2)) ∧
    Says (.ovqry v i) s (BitVec.ofNat 32 (q.held ov % 256 * 2 ^ 24 + match s.instFor q ov with
      | none => 0
      | some x => x.verified.toNat * 2 ^ 23 + x.entry.frames * 2 ^ 16 + min (s.pins x none) 255 * 2 ^ 8 +
          (s.lanesInside x none).toNat * 4 + (if x.st = .resident then 2 else 1))) ∧
    (s.overCount (.ovunpin i) = none →
      (q.held ov ≤ q.permanent ov → exec (.ovunpin i) s = .next (s.fail .badHandle i.toNat)) ∧
      (q.permanent ov < q.held ov → exec (.ovunpin i) s = .next ((s.modMine (·.dropToken ov)).done))))

/-! ### Memory -/

namespace Sys2Proof.Statements

/-- Every byte of home memory and of flash, every scratchpad and all that the work queues hold are as they were. -/
def SameMemory (s t : State) : Prop :=
  (∀ a, memGet t.ms.mem a = memGet s.ms.mem a) ∧ (∀ k a : Nat, memGet (t.cons k).scratch a = memGet (s.cons k).scratch a) ∧
  t.hub = s.hub ∧ t.work = s.work

/-- The lanes of the issue set stand past the instruction, the others where they stood; scalar registers, masks and lane states are as
they were. -/
def LanesPast (s t : State) : Prop :=
  (∀ l : Nat, l < 32 → t.me.lpcAt l = if bit s.iss.set l then refAdd s.iss.at_ s.iss.len else s.me.lpcAt l) ∧
  t.me.s = s.me.s ∧ t.me.m = s.me.m ∧ t.me.lane = s.me.lane

/-- R195, R247. Course (k, c) receives the words w in the lanes of a set, with a tag: in register v, whose other lanes and every
other register are as they were; or, where v names a port, as elements pushed in ascending lane order. -/
def Receives (s t : State) (k c : Nat) (v : BitVec 7) (tag : BitVec 4) (set : BitVec 32) (w : Nat → Word) : Prop :=
  let p := (s.crs k c).port (portOf v)
  let es : List Elem := (lanesOf set).map (fun l => { val := w l, tag := tag })
  (isPort v = false → ((t.crs k c).getV v.toNat).tag = tag ∧ (∀ m : Nat, m ≠ v.toNat → (t.crs k c).getV m = (s.crs k c).getV m) ∧
    ∀ l : Nat, l < 32 → ((t.crs k c).getV v.toNat).at l = if bit set l then w l else ((s.crs k c).getV v.toNat).at l) ∧
  (isPort v = true → (∀ m : Nat, (t.crs k c).getV m = (s.crs k c).getV m) ∧
    (p.kind = 3 → vget (t.cons k).channels [] p.chan.toNat = vget (s.cons k).channels [] p.chan.toNat ++ es) ∧
    (p.kind ≠ 3 → ((t.crs k c).port (portOf v)).part = p.part ++ es.map (·.val)))

/-- Every byte of home memory, of flash and of the scratchpads, and all that the work queues hold, are as they were. -/
def SameBytes (s t : State) : Prop :=
  (∀ a, memGet t.ms.mem a = memGet s.ms.mem a) ∧ (∀ k a : Nat, memGet (t.cons k).scratch a = memGet (s.cons k).scratch a) ∧
  t.hub.flash = s.hub.flash ∧ t.work = s.work

/-- The stores on their way lie within one sector each; in the order in which they stand, those at the die slices come first, and a
course's stores to one line are in the order of its releases. -/
def StoresInOrder (s : State) (k c : Nat) : Prop :=
  (∀ o ∈ s.ms.stores, ∀ x ∈ o.cells, ∀ y ∈ o.cells, x.1 / 32 = y.1 / 32) ∧
  s.ms.stores.Pairwise (fun a b => (b.at_ = .die → a.at_ = .die) ∧
    (a.k = k → a.c = c → b.k = k → b.c = c → cellsMeet a.cells b.cells = true → a.epoch ≤ b.epoch))

/-- Lane l meets the fate f in an access whose fates are xs. -/
def Met (xs : List LaneFate) (l : Nat) (f : Fate) : Prop := ∃ x ∈ xs, x.lane = l ∧ x.fate = f

/-- Lane l has no cause in an access whose fates are xs. -/
abbrev Clear (xs : List LaneFate) (l : Nat) : Prop := ∃ pa ch, Met xs l (.ok pa ch)

/-- R264. From s to u, in which no trap has been delivered yet: the lanes without a cause stand past the instruction, every other where
it stood; those whose translation is absent are parked, the others in the state they were in; registers and masks are as before. -/
def LanesSettle (s u : State) (xs : List LaneFate) : Prop :=
  (∀ l : Nat, l < 32 →
    (Clear xs l → u.me.lpcAt l = refAdd s.iss.at_ s.iss.len) ∧ (¬ Clear xs l → u.me.lpcAt l = s.me.lpcAt l) ∧
    ((∃ e, Met xs l (.park e)) → u.me.laneAt l = .parked) ∧ ((∀ e, ¬ Met xs l (.park e)) → u.me.laneAt l = s.me.laneAt l)) ∧
  u.me.v = s.me.v ∧ u.me.s = s.me.s ∧ u.me.m = s.me.m

/-- R260, R263. The groups in which lanes trap: one for each cause met, with its lanes and the address of the lowest of them. -/
def Traps (xs : List LaneFate) (gs : List TrapGroup) (addr : Nat → DWord) (wr : Bool) : Prop :=
  (∀ g ∈ gs, g.lanes ≠ 0 ∧ (∀ l : Nat, l < 32 → (bit g.lanes l = true ↔ Met xs l (.trap g.cause))) ∧
    g.info = BitVec.ofNat 64 (lowest g.lanes * 2 ^ 59 + wr.toNat * 2 ^ 58 + (addr (lowest g.lanes)).toNat % 2 ^ 56)) ∧
  (∀ (l : Nat) (cause : Cause), l < 32 → Met xs l (.trap cause) → ∃ g ∈ gs, g.cause = cause) ∧ (gs.map (·.cause)).Nodup

/-- R259, R412. Every parked lane stands in a fault record, which follows those that were there; with no lane parked and none without
room for a record the hub is as it was. -/
def Reported (s u : State) (xs : List LaneFate) (access : Nat) : Prop :=
  s.hub.faults <+: u.hub.faults ∧
  (∀ l e, l < 32 → Met xs l (.park e) → ∃ r ∈ u.hub.faults, r.kind = 1 ∧ r.cause = 6 ∧ r.access = access ∧ r.course = s.iss.c ∧
    bit r.lanes l = true ∧ r.cref = s.iss.own) ∧
  ((∀ l : Nat, (∀ e, ¬ Met xs l (.park e)) ∧ ¬ Met xs l (.trap .recordFull)) → u.hub = s.hub)

/-- R390. The fates of the lanes of a write: each is that of its access alone, but that the records which lower lanes make are made
first. -/
def WriteFates (s : State) (xs : List LaneFate) (fate : Nat → List Nat → Fate) : Prop :=
  (∀ l f, Met xs l f → l < 32 ∧ bit s.iss.set l = true) ∧
  ∀ l : Nat, l < 32 → bit s.iss.set l = true → ∃ secs, (∀ f, Met xs l f ↔ f = fate l secs) ∧
    ∀ x : Nat, x ∈ secs ↔ ∃ j pa, j < l ∧ Met xs j (.ok pa true) ∧ x = pa / 32

/-- The outcome of an access: the lanes' causes are delivered at the instruction to u; where there are none, u is what follows. -/
def Ends (s : State) (j : Instr) (u : State) (gs : List TrapGroup) : Prop :=
  exec j s = .next (u.deliver s.iss.k s.iss.c s.iss.own (fun _ => s.iss.at_) gs) ∧
    (gs = [] → s.iss.refused = 0 → exec j s = .next u)

/-- No lane of the issue set that counts above l touches byte a. -/
def LastTo (s : State) (pa : Nat → Nat) (n l a : Nat) : Prop :=
  ∀ j, l < j → j < 32 → bit s.iss.set j = true → ¬ (pa j ≤ a ∧ a < pa j + n)

/-- R281. The word that the lanes of `who` leave, one after another in ascending order, in a word that held `old`. -/
def Turns (o : BitVec 4) (x c : Nat → Word) (old : Word) (who : Nat → Prop) (w : Word) : Prop :=
  ∃ js : List Nat, js.Pairwise (· < ·) ∧ (∀ j, j ∈ js ↔ who j) ∧ w = js.foldl (fun m j => atomStep o m (x j) (c j)) old

/-- R265. Elements of the lanes of `who`, in ascending order, enter the sink port that v names. -/
def Pushes (s t : State) (v : BitVec 7) (who : Nat → Prop) (es : Nat → List Elem) : Prop :=
  let p := s.me.port (portOf v)
  ∃ ls : List Nat, ls.Pairwise (· < ·) ∧ (∀ l, l ∈ ls ↔ who l) ∧
    (p.kind = 3 → vget t.mine.channels [] p.chan.toNat = vget s.mine.channels [] p.chan.toNat ++ ls.flatMap es) ∧
    (p.kind ≠ 3 → (t.me.port (portOf v)).part = p.part ++ (ls.flatMap es).map (·.val))

end Sys2Proof.Statements

/-- R227, R259, R260, R263, R266, R377, R388, R390. The cause that an access meets, the first of: MISALIGN, XLATE_DENIED, an absent
translation, on a Checked page RACE or RECORD_FULL, and POISON in a byte read. SLD and SLDW send the 8 or 4 bytes at the address, as
the course sees them, to their register; SST and SSTW store the low bytes of theirs: the course sees them at once, and every other byte
as before. A cause traps the whole issue set, an absent translation parks it. That SLD's word is the one at its issue is the model's
reading (log entry 9). -/
def Obligations.ScalarMemoryResults : Prop :=
  (∀ (s : State) (va : DWord) (n : Nat) (rd wr atomic : Bool) (secs : List Nat),
    let q := s.mine
    let f := s.laneFate va n rd wr atomic secs
    let x := s.xlate q.aspace q.hdr.checked va rd wr
    (va.toNat % n ≠ 0 → f = .trap .misalign) ∧
    (va.toNat % n = 0 → (x = .denied → f = .trap .xlateDenied) ∧ (∀ e, x = .absent e → f = .park e) ∧
      ∀ pa ch, x = .ok pa ch →
        let race : Prop := ch = true ∧ ∃ r ∈ s.ms.records, r.sector = pa / 32 ∧ ¬ (atomic = true ∧ r.atomic = true) ∧
          s.openMask r s.iss.k s.iss.c &&& sectorMask pa n ≠ 0
        let full : Prop := ch = true ∧ wr = true ∧ s.recordRoom pa secs = false
        let poison : Prop := rd = true ∧ ∃ i : Nat, i < n ∧ s.poisonedFor s.iss.k s.iss.c (pa + i) = true
        (atomic = true → isHost pa = true → f = .trap .xlateDenied) ∧
        (atomic = false ∨ isHost pa = false →
          (race → f = .trap .race) ∧ (¬ race → full → f = .trap .recordFull) ∧ (¬ race → ¬ full → poison → f = .trap .poison) ∧
          (¬ race → ¬ full → ¬ poison → f = .ok pa ch)))) ∧
  ∀ (s : State) (d a : BitVec 6) (i : BitVec 10) (px : Option (BitVec 25)) (n pa : Nat) (ch : Bool) (j : Instr),
    s.issuing = true → s.overCount j = none →
    let k := s.iss.k
    let c := s.iss.c
    let va := s.getS a.toNat + wide 10 i px
    let load : Prop := j = .sld d a i px ∧ n = 8 ∨ j = .sldw d a i px ∧ n = 4
    let store : Prop := j = .sst d a i px ∧ n = 8 ∨ j = .sstw d a i px ∧ n = 4
    (load → s.me.loads < 255 → s.laneFate va n true false false [] = .ok pa ch → s.atomPending k c [pa] n = false →
      ∃ t : State, exec j s = .next t ∧
        t.ms.loads = s.ms.loads ++ [{ id := s.nextId, k := k, c := c, regs := [], words := [], tag := 0
                                      scalar := some (d.toNat, BitVec.ofNat 64 (leNat (s.readBytes 0 pa n))) }] ∧
        t.me.loads = s.me.loads + 1 ∧ LanesPast s t ∧ t.me.v = s.me.v ∧ SameMemory s t ∧ t.ms.stores = s.ms.stores) ∧
    (store → s.me.stores < 255 → s.laneFate va n false true false [] = .ok pa ch → s.atomPending k c [pa] n = false →
      (∀ o ∈ s.ms.stores, o.id < s.nextId) → (s.ms.stores.map (·.id)).Nodup →
      ∃ t : State, exec j s = .next t ∧ t.me.stores = s.me.stores + 1 ∧ LanesPast s t ∧ t.me.v = s.me.v ∧ SameMemory s t ∧
        (∀ b : Nat, b < n → (t.lsuByte k c (pa + b)).toNat = (s.getS d.toNat).toNat / 256 ^ b % 256) ∧
        ((ch = true → StoresInOrder s k c) → ∀ x : Nat, x < pa ∨ pa + n ≤ x → t.lsuByte k c x = s.lsuByte k c x)) ∧
    ∀ (wr : Bool), (if wr then store else load) → (if wr then s.me.stores else s.me.loads) < 255 →
      (∀ cause, s.laneFate va n (!wr) wr false [] = .trap cause → ∃ u : State, u.consorts = s.consorts ∧ u.ms = s.ms ∧ (cause ≠ .recordFull → u = s) ∧
        exec j s = .next (u.trapWhole cause
          (BitVec.ofNat 64 (lowest s.iss.set * 2 ^ 59 + wr.toNat * 2 ^ 58 + va.toNat % 2 ^ 56)))) ∧
      (∀ e, s.laneFate va n (!wr) wr false [] = .park e → s.iss.set ≠ 0 → ∃ t : State, exec j s = .next t ∧
        (∀ l : Nat, l < 32 → t.me.laneAt l = if bit s.iss.set l then .parked else s.me.laneAt l) ∧ t.me.lpc = s.me.lpc ∧
        t.me.v = s.me.v ∧ t.me.s = s.me.s ∧ t.ms = s.ms ∧ ∃ r, t.hub.faults = s.hub.faults ++ [r] ∧ r.kind = 1 ∧ r.cause = 6 ∧
          r.access = 4 + wr.toNat ∧ r.lanes = s.iss.set ∧ r.cref = s.iss.own ∧ r.addr = va) ∧
      (s.laneFate va n (!wr) wr false [] = .ok pa ch → s.atomPending k c [pa] n = true → exec j s = .next (s.stallFor .other))

/-- R67. The words that a load of each kind delivers, and their tag: zero- or sign-extended for the narrow kinds, as they stand for the
others, the first at the lowest address; and the bytes that a store of each kind takes from its words, of which a narrow kind takes
the low ones.
R261 to R265, R67. LD: of each lane of the issue set without a cause the words, as the course sees memory when the load issues, are on
their way to the registers of the group with the kind's tag, or enter the queue port in ascending lane order; these lanes move on. Lanes
whose translation is absent park, and are reported; lanes with another cause trap. Nothing is stored. That a load takes its bytes at its
issue is the model's reading (log entry 9). -/
def Obligations.VectorLoadResults : Prop :=
  (∀ (kd : BitVec 5) (bs : List Byte) (ws : List Word), bs.length = kindSize kd → ws.length = kindRegs kd →
    let b (i : Nat) : Byte := bs.getD i 0
    let word (i : Nat) : Word := b (4 * i + 3) ++ b (4 * i + 2) ++ b (4 * i + 1) ++ b (4 * i)
    let low (w : Word) : List Byte := [w.setWidth 8, (w >>> 8).setWidth 8, (w >>> 16).setWidth 8, (w >>> 24).setWidth 8]
    let list (n : Nat) : BitVec 4 := [0, 1, 2, 3, 4, 7, 9, 10].getD n 0
    (kd = 0 → kindSize kd = 1 ∧ kindWords kd bs = [(b 0).zeroExtend 32] ∧ kindTag kd = 5) ∧
    (kd = 1 → kindSize kd = 1 ∧ kindWords kd bs = [(b 0).signExtend 32] ∧ kindTag kd = 4) ∧
    (kd = 2 → kindSize kd = 2 ∧ kindWords kd bs = [(b 1 ++ b 0).zeroExtend 32] ∧ kindTag kd = 5) ∧
    (kd = 3 → kindSize kd = 2 ∧ kindWords kd bs = [(b 1 ++ b 0).signExtend 32] ∧ kindTag kd = 4) ∧
    (4 ≤ kd.toNat → kd.toNat < 16 → kindSize kd = 4 ∧ kindWords kd bs = [word 0] ∧ (kindTag kd).toNat = kd.toNat - 4) ∧
    (16 ≤ kd.toNat → kd.toNat < 24 → kindSize kd = 8 ∧ kindWords kd bs = [word 0, word 1] ∧ kindTag kd = list (kd.toNat - 16)) ∧
    (24 ≤ kd.toNat → kindSize kd = 16 ∧ kindWords kd bs = [word 0, word 1, word 2, word 3] ∧ kindTag kd = list (kd.toNat - 24)) ∧
    kindBytes kd ws = (ws.flatMap low).take (kindSize kd)) ∧
  ∀ (s : State) (d a : BitVec 7) (b : BitVec 6) (kd : BitVec 5) (px : Option (BitVec 25)),
    let j : Instr := .ld d a b kd px
    Fits s j → isPort a = false → s.iss.set ≠ 0 → (∃ z, s.readSrcs [] (some d) 1 = .ok z) →
    let x := s.me.getV a.toNat
    let n := kindSize kd
    let off : DWord := match px with
      | none => 0
      | some p => p.signExtend 64
    let addr (l : Nat) : DWord := s.getS b.toNat + (x.at l).zeroExtend 64 + off
    let fate (l : Nat) : Fate := s.laneFate (addr l) n true false false []
    (x.tag = 4 ∨ x.tag = 5 ∨ x.tag = 0) → s.me.loads < 255 →
    (∀ l pa ch, l < 32 → bit s.iss.set l = true → fate l = .ok pa ch → s.atomPending s.iss.k s.iss.c [pa] n = false) →
    ∃ (u : State) (gs : List TrapGroup) (xs : List LaneFate), Ends s j u gs ∧
      (∀ l f, Met xs l f ↔ l < 32 ∧ bit s.iss.set l = true ∧ f = fate l) ∧ Traps xs gs addr false ∧ LanesSettle s u xs ∧ Reported s u xs 4 ∧
      SameBytes s u ∧ u.ms.stores = s.ms.stores ∧
      (isPort d = false → (∀ l, ¬ Clear xs l) → u.ms.loads = s.ms.loads ∧ u.me.loads = s.me.loads) ∧
      (isPort d = false → (∃ l, Clear xs l) → ∃ ld : Load, u.ms.loads = s.ms.loads ++ [ld] ∧ ld.k = s.iss.k ∧ ld.c = s.iss.c ∧
        ld.regs = (List.range (kindRegs kd)).map (d.toNat + ·) ∧ ld.tag = kindTag kd ∧ ld.scalar = none ∧
        (∀ r l w, (r, l, w) ∈ ld.words ↔ ∃ i pa ch, Met xs l (.ok pa ch) ∧ r = d.toNat + i ∧
          (kindWords kd (s.readBytes 0 pa n))[i]? = some w) ∧
        u.me.loads = s.me.loads + 1) ∧
      (isPort d = true → u.ms.loads = s.ms.loads ∧ u.me.loads = s.me.loads ∧
        Pushes s u d (Clear xs) (fun l => match fate l with
          | .ok pa _ => (kindWords kd (s.readBytes 0 pa n)).map (fun w => { val := w, tag := kindTag kd })
          | _ => []))

/-- R261 to R267, R377. ST, from registers or a queue port: the bytes of each lane without a cause are stored at its address, where lanes
overlap those of the highest remain, the course sees them at once, and every byte outside these lanes' bytes as before; these lanes
move on. Lanes whose translation is absent park, and are reported; lanes with another cause trap. From a queue port nothing is popped or
stored where a lane is misaligned, denied or without a translation: the other lanes stay at the instruction. -/
def Obligations.VectorStoreResults : Prop :=
  ∀ (s s1 : State) (d a : BitVec 7) (b : BitVec 6) (kd : BitVec 5) (px : Option (BitVec 25)) (data : List VReg),
    let j : Instr := .st d a b kd px
    Fits s j → isPort a = false → s.iss.set ≠ 0 → s.storeData a d kd = .ok (s1, data) →
    let x := s.me.getV a.toNat
    let n := kindSize kd
    let k := s.iss.k
    let c := s.iss.c
    let off : DWord := match px with
      | none => 0
      | some p => p.signExtend 64
    let addr (l : Nat) : DWord := s.getS b.toNat + (x.at l).zeroExtend 64 + off
    let xs := s.laneFates addr n false true false
    let soon (l : Nat) : Prop := Met xs l (.trap .misalign) ∨ Met xs l (.trap .xlateDenied) ∨ ∃ e, Met xs l (.park e)
    WriteFates s xs (fun l secs => s.laneFate (addr l) n false true false secs) ∧
    (isPort d = true → (∃ l, soon l) → ∃ (u : State) (gs : List TrapGroup), Ends s j u gs ∧
      Traps (xs.filter (fun y => earlyFault y.fate)) gs addr true ∧ u.me.lpc = s.me.lpc ∧ u.me.v = s.me.v ∧ u.me.ports = s.me.ports ∧
      u.mine.channels = s.mine.channels ∧ u.me.stores = s.me.stores ∧ u.ms.stores = s.ms.stores ∧ u.ms.records = s.ms.records ∧
      ∀ l : Nat, l < 32 → ((∃ e, Met xs l (.park e)) → u.me.laneAt l = .parked) ∧
        ((∀ e, ¬ Met xs l (.park e)) → u.me.laneAt l = s.me.laneAt l)) ∧
    (isPort d = false ∨ (∀ l, ¬ soon l) → s.me.stores < 255 → (∀ o ∈ s.ms.stores, o.id < s.nextId) → (s.ms.stores.map (·.id)).Nodup →
      (∀ l pa ch, Met xs l (.ok pa ch) → s.atomPending k c [pa] n = false) →
      ∃ (u : State) (gs : List TrapGroup), Ends s j u gs ∧ Traps xs gs addr true ∧ LanesSettle s u xs ∧ Reported s u xs 5 ∧
        SameBytes s u ∧ u.me.ports = s1.me.ports ∧ u.mine.channels = s1.mine.channels ∧
        ((∀ l, ¬ Clear xs l) → u.me.stores = s.me.stores) ∧ ((∃ l, Clear xs l) → u.me.stores = s.me.stores + 1) ∧
        (∀ l i pa ch, Met xs l (.ok pa ch) → i < n →
          (∀ m pm cm, l < m → Met xs m (.ok pm cm) → ¬ (pm ≤ pa + i ∧ pa + i < pm + n)) →
          some (u.lsuByte k c (pa + i)) = (kindBytes kd (data.map (fun r => r.at l)))[i]?) ∧
        (((∃ l pa, Met xs l (.ok pa true)) → StoresInOrder s k c) →
          ∀ y : Nat, (∀ l pa ch, Met xs l (.ok pa ch) → ¬ (pa ≤ y ∧ y < pa + n)) → u.lsuByte k c y = s.lsuByte k c y))

/-- R262. Data whose tag is the kind's passes the check of ST, and so does data tagged RAW under any kind and any data under the kinds .u8,
.u16 and RAW, of which .u8 stores the low byte and .u16 the low two; the first register, or popped port, whose tag fails makes ST
raise FORMAT for the whole issue set, and nothing is written. (The data, once the offset register's tag is accepted: storeData gives
them where every tag passes.) -/
def Obligations.StoreDataTagCheck : Prop :=
  (∀ (kd : BitVec 5) (t : BitVec 4), t.toNat < 12 →
    (storeAccepts kd t = true ↔ t = 0 ∨ kd = 0 ∨ kd = 2 ∨ kindTag kd = 0 ∨ t = kindTag kd)) ∧
  (∀ w : Word, kindBytes 0 [w] = [w.setWidth 8] ∧ kindBytes 2 [w] = [w.setWidth 8, (w >>> 8).setWidth 8]) ∧
  ∀ (s s1 : State) (d a : BitVec 7) (b : BitVec 6) (kd : BitVec 5) (px : Option (BitVec 25)) (data : List VReg) (i : Nat),
    Fits s (.st d a b kd px) →
    (isPort d = false → data = (List.range (kindRegs kd)).map (fun i => s.me.getV (d.toNat + i))) →
    (isPort d = true → s.readSrcs [d] none 0 = .ok (s1, data)) →
    (s.me.getV a.toNat).tag = 4 ∨ (s.me.getV a.toNat).tag = 5 ∨ (s.me.getV a.toNat).tag = 0 →
    ((∀ r ∈ data, storeAccepts kd r.tag = true) → ∃ s2, s.storeData a d kd = .ok (s2, data)) ∧
    ((data[i]?.map (fun r => storeAccepts kd r.tag)) = some false →
    (∀ j : Nat, j < i → (data[j]?.map (fun r => storeAccepts kd r.tag)) = some true) →
    exec (.st d a b kd px) s = .next (s.fail .format (d.toNat + i)) ∧ (s.fail .format (d.toNat + i)).ms = s.ms)

/-- R269, R275, R281. Scratchpad accesses whose every lane lies inside SCRATCH, aligned and outside tracked ranges and poison: LDS sends the
words it sees to its registers; STS writes each lane's bytes, the highest lane's where they overlap, and no other byte; ATOMS and
REDS apply the lanes of one word in ascending order to it, and ATOMS gives each the word that it found. That each performs at its
issue is the model's reading (log entry 9). -/
def Obligations.ScratchpadAccessResults : Prop :=
  ∀ (s : State) (d a : BitVec 7) (b : BitVec 6) (kd : BitVec 5) (o : BitVec 4) (px : Option (BitVec 25)), s.issuing = true → s.iss.refused = 0 →
    isPort d = false → isPort a = false → s.iss.set ≠ 0 → Memory.wf s.mine.scratch → s.mine.sstale = [] → s.me.loads < 255 → s.me.stores < 255 →
    let x := s.me.getV a.toNat
    let off : DWord := match px with
      | none => 0
      | some p => p.signExtend 64
    let addr (l : Nat) : Nat := (s.getS b.toNat + (x.at l).zeroExtend 64 + off).toNat
    let inside (n : Nat) : Prop := (x.tag = 4 ∨ x.tag = 5 ∨ x.tag = 0) ∧ ∀ l : Nat, l < 32 → bit s.iss.set l = true →
      addr l % n = 0 ∧ s.mine.spOff (addr l) n = false ∧ s.mine.spPoisoned (addr l) n = false
    let n := kindSize kd
    let data : List VReg := (List.range (kindRegs kd)).map (fun i => s.me.getV (d.toNat + i))
    let p := s.me.getV d.toNat
    let c := s.me.getV (d.toNat + 1)
    let old (l : Nat) : Word := BitVec.ofNat 32 (leNat (memRead s.mine.scratch (addr l) 4))
    (s.overCount (.lds d a b kd px) = none → inside n →
      ∃ (t : State) (ld : Load), exec (.lds d a b kd px) s = .next t ∧ t.ms.loads = s.ms.loads ++ [ld] ∧ ld.k = s.iss.k ∧ ld.c = s.iss.c ∧
        ld.regs = (List.range (kindRegs kd)).map (d.toNat + ·) ∧ ld.tag = kindTag kd ∧
        (∀ r l w, (r, l, w) ∈ ld.words ↔ l < 32 ∧ bit s.iss.set l = true ∧ ∃ i, r = d.toNat + i ∧
          (kindWords kd (memRead s.mine.scratch (addr l) n))[i]? = some w) ∧
        LanesPast s t ∧ t.me.v = s.me.v ∧ SameMemory s t) ∧
    (s.overCount (.sts d a b kd px) = none → inside n → (∀ r ∈ data, storeAccepts kd r.tag = true) →
      ∃ t : State, exec (.sts d a b kd px) s = .next t ∧ LanesPast s t ∧ t.me.v = s.me.v ∧ t.ms = s.ms ∧
        (∀ l i, l < 32 → bit s.iss.set l = true → i < n → LastTo s addr n l (addr l + i) →
          some (memGet t.mine.scratch (addr l + i)) = (kindBytes kd (data.map (fun r => r.at l)))[i]?) ∧
        ∀ y : Nat, (∀ l : Nat, l < 32 → bit s.iss.set l = true → ¬ (addr l ≤ y ∧ y < addr l + n)) →
          memGet t.mine.scratch y = memGet s.mine.scratch y) ∧
    (∀ ret : Bool, s.overCount (if ret then .atoms d a b o px else .reds d a b o px) = none → inside 4 →
      (p.tag ∈ atomTags o ∧ (p.tag ≠ 0 ∨ 0 ∈ atomTags o)) → (o = 9 → c.tag = p.tag) →
      let who (l j : Nat) : Prop := j < 32 ∧ bit s.iss.set j = true ∧ addr j = addr l
      ∃ t : State, exec (if ret then .atoms d a b o px else .reds d a b o px) s = .next t ∧ LanesPast s t ∧ t.me.v = s.me.v ∧
        (∀ l : Nat, l < 32 → bit s.iss.set l = true →
          Turns o p.at c.at (old l) (who l) (BitVec.ofNat 32 (leNat (memRead t.mine.scratch (addr l) 4)))) ∧
        (∀ y : Nat, (∀ l : Nat, l < 32 → bit s.iss.set l = true → ¬ (addr l ≤ y ∧ y < addr l + 4)) →
          memGet t.mine.scratch y = memGet s.mine.scratch y) ∧
        (ret = false → t.ms = s.ms) ∧
        (ret = true → ∃ ld : Load, t.ms.loads = s.ms.loads ++ [ld] ∧ ld.k = s.iss.k ∧ ld.c = s.iss.c ∧ ld.regs = [d.toNat] ∧ ld.tag = p.tag ∧
          ∀ r l w, (r, l, w) ∈ ld.words ↔ r = d.toNat ∧ l < 32 ∧ bit s.iss.set l = true ∧
            Turns o p.at c.at (old l) (fun j => who l j ∧ j < l) w))

/-- R263, R269 to R271, R275, R281, R283. A lane whose scratchpad access ends beyond SCRATCH or touches a tracked range is switched off: it is
off, in FMASK and in no mask, and nothing of its access is done. Of the others, a misaligned lane takes MISALIGN and one that reads poison
takes POISON; the rest perform and move on, in LDS, STS, ATOMS and REDS alike. (Where no lane then runs and none is parked, R196 gives
lanes that wait MASK_DEADLOCK; the second part is about the other cases.) That each performs at its issue is the model's reading (log entry 9), and so is the address that
TRAPINFO gives with POISON (log entry 68). R265: LDS into a queue port pushes the elements of the lanes that read; STS from one pops
nothing, writes nothing and switches no lane off where a lane is misaligned, and else pops an element for every lane. Lanes of ATOMS and
REDS that name one word apply to it in ascending order. -/
def Obligations.ScratchpadRangeSwitchesLanesOff : Prop :=
  (∀ (s : State) (d a : BitVec 7) (b : BitVec 6) (kd : BitVec 5) (px : Option (BitVec 25)), Fits s (.sts d a b kd px) →
    isPort d = false → isPort a = false → s.iss.set ≠ 0 → s.me.stores < 255 →
    (s.me.getV a.toNat).tag = 4 ∨ (s.me.getV a.toNat).tag = 5 ∨ (s.me.getV a.toNat).tag = 0 →
    (∀ i : Nat, i < kindRegs kd → storeAccepts kd (s.me.getV (d.toNat + i)).tag = true) →
    (∀ l : Nat, l < 32 → bit s.iss.set l = true →
      s.mine.hdr.scratch < (laneAddr (s.getS b.toNat) (s.me.getV a.toNat) (memOff px) l).toNat + kindSize kd) →
    ∃ t : State, exec (.sts d a b kd px) s = .next t ∧ t.me.fmask = s.me.fmask ||| s.iss.set ∧
      (∀ l : Nat, l < 32 → bit s.iss.set l = true → t.me.laneAt l = .off ∨ t.me.laneAt l = .exited) ∧
      (∀ m : Nat, m < 12 → t.me.getM m &&& s.iss.set = 0) ∧ t.mine.scratch = s.mine.scratch ∧ t.ms = s.ms) ∧
  ∀ (s : State) (d a : BitVec 7) (b : BitVec 6) (kd : BitVec 5) (o : BitVec 4) (px : Option (BitVec 25)), s.issuing = true →
    isPort a = false → s.iss.set ≠ 0 → Memory.wf s.mine.scratch → s.mine.sstale = [] → s.me.loads < 255 → s.me.stores < 255 →
    let x := s.me.getV a.toNat
    x.tag = 4 ∨ x.tag = 5 ∨ x.tag = 0 →
    let off : DWord := match px with
      | none => 0
      | some p => p.signExtend 64
    let addr (l : Nat) : Nat := (s.getS b.toNat + (x.at l).zeroExtend 64 + off).toNat
    let gone (n l : Nat) : Prop := bit s.iss.set l = true ∧
      (s.mine.hdr.scratch < addr l + n ∨ ∃ r ∈ s.mine.tracks, addr l ≤ r.hi ∧ r.lo < addr l + n)
    let calm (n : Nat) : Prop := (∀ l : Nat, l < 32 → (s.me.laneAt l).isWaiting = false) ∨
      ∃ l : Nat, l < 32 ∧ s.me.laneAt l = .running ∧ ¬ gone n l
    let bad (n l : Nat) : Prop := bit s.iss.set l = true ∧ ¬ gone n l ∧ addr l % n ≠ 0
    let ill (rd : Bool) (n l : Nat) : Prop := bit s.iss.set l = true ∧ ¬ gone n l ∧ addr l % n = 0 ∧ rd = true ∧
      ∃ w ∈ s.mine.spoison, addr l < w + 4 ∧ w < addr l + n
    let works (rd : Bool) (n l : Nat) : Prop := l < 32 ∧ bit s.iss.set l = true ∧ ¬ gone n l ∧ ¬ bad n l ∧ ¬ ill rd n l
    let Settles (j : Instr) (n : Nat) (rd wr : Bool) (u : State) : Prop :=
      ∃ gs : List TrapGroup, Ends s j u gs ∧
        (∀ g ∈ gs, g.cause = .misalign ∧ (∀ l : Nat, l < 32 → (bit g.lanes l = true ↔ bad n l)) ∧
              g.info = BitVec.ofNat 64 (lowest g.lanes * 2 ^ 59 + wr.toNat * 2 ^ 58 + 2 ^ 57 + addr (lowest g.lanes) % 2 ^ 56) ∨
            g.cause = .poison ∧ (∀ l : Nat, l < 32 → (bit g.lanes l = true ↔ ill rd n l)) ∧
              g.info = BitVec.ofNat 64 (lowest g.lanes * 2 ^ 59 + wr.toNat * 2 ^ 58 + addr (lowest g.lanes) % 2 ^ 56)) ∧
        (∀ l : Nat, l < 32 → bad n l ∨ ill rd n l → ∃ g ∈ gs, bit g.lanes l = true) ∧
        (∀ l : Nat, l < 32 →
          (gone n l → u.me.laneAt l = .off ∧ u.me.lpcAt l = s.me.lpcAt l ∧ ∀ m : Nat, m < 12 → bit (u.me.getM m) l = false) ∧
          (¬ gone n l → ∀ m : Nat, m < 12 → bit (u.me.getM m) l = bit (s.me.getM m) l) ∧
          (¬ gone n l → (s.me.laneAt l).isWaiting = false → u.me.laneAt l = s.me.laneAt l ∧
            (works rd n l → u.me.lpcAt l = refAdd s.iss.at_ s.iss.len) ∧ (¬ works rd n l → u.me.lpcAt l = s.me.lpcAt l)) ∧
          (bit u.me.fmask l = true ↔ bit s.me.fmask l = true ∨ gone n l)) ∧
        u.me.v = s.me.v ∧ u.me.s = s.me.s ∧ u.ms.mem = s.ms.mem ∧ u.ms.stores = s.ms.stores
    let Sends (u : State) (rd : Bool) (n : Nat) (regs : List Nat) (tag : BitVec 4) (is : Nat → Nat → Word → Prop) : Prop :=
      ((∀ l, ¬ works rd n l) → u.ms.loads = s.ms.loads ∧ u.me.loads = s.me.loads) ∧
      ((∃ l, works rd n l) → ∃ ld : Load, u.ms.loads = s.ms.loads ++ [ld] ∧ ld.k = s.iss.k ∧ ld.c = s.iss.c ∧ ld.regs = regs ∧ ld.tag = tag ∧
        u.me.loads = s.me.loads + 1 ∧ ∀ r l w, (r, l, w) ∈ ld.words ↔ works rd n l ∧ is r l w)
    let n := kindSize kd
    let p := s.me.getV d.toNat
    let c := s.me.getV (d.toNat + 1)
    let old (l : Nat) : Word := BitVec.ofNat 32 (leNat (memRead s.mine.scratch (addr l) 4))
    (s.overCount (.lds d a b kd px) = none → isPort d = true → (∃ z, s.readSrcs [] (some d) 1 = .ok z) → calm n →
      ∃ u : State, Settles (.lds d a b kd px) n true false u ∧
        (∀ y : Nat, memGet u.mine.scratch y = memGet s.mine.scratch y) ∧ u.ms = s.ms ∧ u.me.loads = s.me.loads ∧
        Pushes s u d (works true n) (fun l =>
          (kindWords kd (memRead s.mine.scratch (addr l) n)).map (fun w => { val := w, tag := kindTag kd }))) ∧
    (∀ s1 data, s.overCount (.sts d a b kd px) = none → isPort d = true → s.storeData a d kd = .ok (s1, data) → (∃ l, l < 32 ∧ bad n l) →
      ∃ g : TrapGroup, g.cause = .misalign ∧ (∀ l : Nat, l < 32 → (bit g.lanes l = true ↔ bad n l)) ∧
        g.info = BitVec.ofNat 64 (lowest g.lanes * 2 ^ 59 + 2 ^ 58 + 2 ^ 57 + addr (lowest g.lanes) % 2 ^ 56) ∧
        ∃ u : State, Ends s (.sts d a b kd px) u [g] ∧ u = s.modMe (fun y => { y with stall := none })) ∧
    (s.overCount (.lds d a b kd px) = none → isPort d = false → calm n → ∃ u : State, Settles (.lds d a b kd px) n true false u ∧
      (∀ y : Nat, memGet u.mine.scratch y = memGet s.mine.scratch y) ∧
      Sends u true n ((List.range (kindRegs kd)).map (d.toNat + ·)) (kindTag kd) (fun r l w => ∃ i, r = d.toNat + i ∧
        (kindWords kd (memRead s.mine.scratch (addr l) n))[i]? = some w)) ∧
    (∀ s1 data, s.overCount (.sts d a b kd px) = none → s.storeData a d kd = .ok (s1, data) →
      isPort d = false ∨ (∀ l, l < 32 → ¬ bad n l) → calm n →
      ∃ u : State, Settles (.sts d a b kd px) n false true u ∧ u.ms = s.ms ∧ u.me.stores = s.me.stores ∧
        u.me.ports = s1.me.ports ∧ u.mine.channels = s1.mine.channels ∧
        (∀ l i, works false n l → i < n → (∀ m, l < m → works false n m → ¬ (addr m ≤ addr l + i ∧ addr l + i < addr m + n)) →
          some (memGet u.mine.scratch (addr l + i)) = (kindBytes kd (data.map (fun r => r.at l)))[i]?) ∧
        ∀ y : Nat, (∀ l, works false n l → ¬ (addr l ≤ y ∧ y < addr l + n)) → memGet u.mine.scratch y = memGet s.mine.scratch y) ∧
    ∀ ret : Bool, let j : Instr := if ret then .atoms d a b o px else .reds d a b o px
      s.overCount j = none → isPort d = false → calm 4 → (p.tag ∈ atomTags o ∧ (p.tag ≠ 0 ∨ 0 ∈ atomTags o)) → (o = 9 → c.tag = p.tag) →
      let who (l m : Nat) : Prop := works true 4 m ∧ addr m = addr l
      ∃ u : State, Settles j 4 true true u ∧
        (∀ l, works true 4 l → Turns o p.at c.at (old l) (who l) (BitVec.ofNat 32 (leNat (memRead u.mine.scratch (addr l) 4)))) ∧
        (∀ y : Nat, (∀ l, works true 4 l → ¬ (addr l ≤ y ∧ y < addr l + 4)) → memGet u.mine.scratch y = memGet s.mine.scratch y) ∧
        (ret = false → u.ms = s.ms) ∧
        (ret = true → Sends u true 4 [d.toNat] p.tag (fun r l w => r = d.toNat ∧
          Turns o p.at c.at (old l) (fun m => who l m ∧ m < l) w))

/-- R277. The new word of one lane's operation, by op4: sum, signed and unsigned minimum and maximum, the bitwise ones, exchange, compare
and swap, F32 sum rounded to nearest without FTZ, F32 minimum and maximum (R85), and the two that wrap.
R259, R263, R264, R276 to R279. ATOM and RED: the operand of each lane without a cause stands in a request of the course to its word,
ATOM's naming the destination, and these lanes move on; lanes whose translation is absent park, and are reported; lanes with another
cause trap. Home memory has not changed. -/
def Obligations.AtomicIssueResults : Prop :=
  (∀ m x c : Word,
    let is (o : BitVec 4) (w : Word) : Prop := atomStep o m x c = w
    let sum : Word := BitVec.ofNat 32 (F32.round 0 ((F32.val m.toNat).add 0 (F32.val x.toNat)))
    is 0 (BitVec.ofNat 32 (m.toNat + x.toNat)) ∧ is 1 (BitVec.ofInt 32 (min m.toInt x.toInt)) ∧ is 2 (BitVec.ofInt 32 (max m.toInt x.toInt)) ∧
    is 3 (BitVec.ofNat 32 (min m.toNat x.toNat)) ∧ is 4 (BitVec.ofNat 32 (max m.toNat x.toNat)) ∧
    is 5 (m &&& x) ∧ is 6 (m ||| x) ∧ is 7 (m ^^^ x) ∧ is 8 x ∧ is 9 (if m = c then x else m) ∧ is 10 sum ∧ is 11 sum ∧
    is 12 (BitVec.ofNat 32 (F32.minmax false m.toNat x.toNat)) ∧ is 13 (BitVec.ofNat 32 (F32.minmax true m.toNat x.toNat)) ∧
    is 14 (if x.toNat ≤ m.toNat then 0 else BitVec.ofNat 32 (m.toNat + 1)) ∧
    is 15 (if m = 0 ∨ x.toNat < m.toNat then x else BitVec.ofNat 32 (m.toNat - 1))) ∧
  ∀ (s : State) (d a : BitVec 7) (b : BitVec 6) (o : BitVec 4) (px : Option (BitVec 25)) (ret : Bool),
    let j : Instr := if ret then .atom d a b o px else .red d a b o px
    Fits s j → isPort d = false → isPort a = false → s.iss.set ≠ 0 →
    let x := s.me.getV a.toNat
    let p := s.me.getV d.toNat
    let c := s.me.getV (d.toNat + 1)
    let addr := laneAddr (s.getS b.toNat) x (memOff px)
    let xs := s.laneFates addr 4 true true true
    (x.tag = 4 ∨ x.tag = 5 ∨ x.tag = 0) → p.tag ∈ atomTags o → (o = 9 → c.tag = p.tag) → s.me.loads < 255 → s.me.stores < 255 →
    (∀ e ∈ s.ms.atoms, e.id < s.nextId) → (s.ms.atoms.map (·.id)).Nodup →
    WriteFates s xs (fun l secs => s.laneFate (addr l) 4 true true true secs) ∧
    ∃ (u : State) (gs : List TrapGroup), Ends s j u gs ∧ Traps xs gs addr true ∧ LanesSettle s u xs ∧ Reported s u xs 6 ∧
      (∀ l pa ch, Met xs l (.ok pa ch) → ∃ e ∈ u.ms.atoms, e.pa = pa ∧ e.code = o ∧ ∃ r ∈ e.reqs,
        r.k = s.iss.k ∧ r.c = s.iss.c ∧ r.dest = (if ret then some d.toNat else none) ∧ r.tag = p.tag ∧
        { lane := l, x := p.at l, c := c.at l : AtomLane } ∈ r.lanes) ∧
      ((∀ l, ¬ Clear xs l) → u.me.loads = s.me.loads ∧ u.me.stores = s.me.stores) ∧
      ((∃ l, Clear xs l) → u.me.loads = s.me.loads + (if ret then 1 else 0) ∧ u.me.stores = s.me.stores + (if ret then 0 else 1)) ∧
      SameBytes s u ∧ u.ms.stores = s.ms.stores ∧ u.ms.loads = s.ms.loads

namespace Sys2Proof.Statements

/-- R278. The serial sum of F32 operands, the first unrounded. -/
def serialSum (xs : List Word) : Option Word := xs.head?.map (fun x => xs.tail.foldl addF32 x)

/-- A request meets M, or M plus what was summed before it. -/
def metWord (m : Word) (q : Option Word) : Word := (q.map (addF32 m)).getD m

/-- R279. The tree of R242 over the totals of the first i requests; an absent total is passed over. -/
def TreeOver (ts : List Word) (S : Nat → Nat → Nat → Option Word) : Prop :=
  ∀ i : Nat, (∀ j : Nat, S i 0 j = if j < i then ts[j]? else none) ∧ ∀ n j : Nat, S i (n + 1) j = match S i n j, S i n (j + 2 ^ n) with
    | none, y => y
    | y, none => y
    | some y, some z => some (addF32 y z)

end Sys2Proof.Statements

/-- R210, R254, R263, R266, R277 to R280, R378. The events that end accesses: LOAD_RETURN writes the words of one, two or four registers to
the lanes that loaded them and no others (what a load sends to a queue port has entered it at its issue, log entry 9); STORE_PERFORM performs a
store at its die slice, where no copy of its line then serves a load with an older value, and then at home, where its bytes and no others change; COMBINE_CLOSE shuts
an entry that has been open for 64 clocks; ATOM_PERFORM folds the lanes of the requests over the word, in arrival order and ascending lane
order, .faddnc included, and of .fadd adds the tree over the requests' serial sums to it once; the lanes of an ATOM receive what R277
to R279 give; TRANSLATION_WALK changes no byte. -/
def Obligations.AccessEventResults : Prop :=
  (∀ (s : State) (ld : Load), s.ms.loads.find? (fun y => y.id == ld.id) = some ld → (s.consorts.find? (·.id == ld.k)).isSome = true →
    ((s.cons ld.k).courses.find? (·.idx == ld.c)).isSome = true →
    ∃ t : State, exec (.loadReturn ld.id) s = .next t ∧ (∀ y ∈ t.ms.loads, y.id ≠ ld.id) ∧
      (∀ d v, ld.scalar = some (d, v) → ld.regs = [] → d < 64 →
        (t.crs ld.k ld.c).s = vset (s.crs ld.k ld.c).s d v ∧ (t.crs ld.k ld.c).v = (s.crs ld.k ld.c).v) ∧
      (ld.scalar = none → (∀ r ∈ ld.regs, r < 112) → ld.regs.Nodup → (ld.words.map (fun w => (w.1, w.2.1))).Nodup →
        (∀ r ∈ ld.regs, ((t.crs ld.k ld.c).getV r).tag = ld.tag ∧
          (∀ l w, l < 32 → (r, l, w) ∈ ld.words → ((t.crs ld.k ld.c).getV r).at l = w) ∧
          ∀ l : Nat, l < 32 → (∀ w, (r, l, w) ∉ ld.words) → ((t.crs ld.k ld.c).getV r).at l = ((s.crs ld.k ld.c).getV r).at l) ∧
        (∀ n : Nat, n ∉ ld.regs → (t.crs ld.k ld.c).getV n = (s.crs ld.k ld.c).getV n) ∧ (t.crs ld.k ld.c).s = (s.crs ld.k ld.c).s) ∧
      (t.crs ld.k ld.c).loads = (s.crs ld.k ld.c).loads - 1 ∧ SameMemory s t) ∧
  (∀ (s : State) (o : Store), s.ms.stores.find? (fun y => y.id == o.id) = some o →
    (s.storeDieReady o = true → ∃ t : State, exec (.storePerform o.id) s = .next t ∧ { o with at_ := .die } ∈ t.ms.stores ∧
      (∀ y ∈ t.ms.stale, (∃ x ∈ o.cells, x.1 / 64 = y.pa / 64) → y.blind = true) ∧ SameMemory s t) ∧
    (s.storeDieReady o = false → s.storeHomeReady o = true → Memory.wf s.ms.mem → (o.cells.map (·.1)).Nodup →
      ∃ t : State, exec (.storePerform o.id) s = .next t ∧ (∀ y ∈ t.ms.stores, y.id ≠ o.id) ∧
        (∀ y ∈ o.cells, memGet t.ms.mem y.1 = y.2) ∧
        ∀ a : Nat, (∀ y ∈ o.cells, y.1 ≠ a) → memGet t.ms.mem a = memGet s.ms.mem a)) ∧
  (∀ (s : State) (e : Atomic), s.ms.atoms.find? (fun y => y.id == e.id) = some e → e.open_ = true → e.opened + 64 ≤ s.clock →
    ∃ t : State, exec (.combineClose e.id) s = .next t ∧ t.ms.atoms.find? (fun y => y.id == e.id) = some { e with open_ := false } ∧
      SameMemory s t) ∧
  (∀ (s : State) (e : Atomic), s.ms.atoms.find? (fun y => y.id == e.id) = some e → s.atomReady e = true → Memory.wf s.ms.mem →
    e.reqs.length ≤ 16 → (∀ r ∈ e.reqs, r.lanes ≠ [] ∧ (r.lanes.map (·.lane)).Nodup ∧ ∀ y ∈ r.lanes, y.lane < 32) →
    let m : Word := BitVec.ofNat 32 (leNat (memRead s.ms.mem e.pa 4))
    let after (ys : List AtomLane) : Word := ys.foldl (fun w y => atomStep e.code w y.x y.c) m
    let ts : List Word := e.reqs.filterMap (fun r => serialSum (r.lanes.map (·.x)))
    ∃ t : State, exec (.atomPerform e.id) s = .next t ∧ (∀ y ∈ t.ms.atoms, y.id ≠ e.id) ∧
      (∀ a : Nat, a < e.pa ∨ e.pa + 4 ≤ a → memGet t.ms.mem a = memGet s.ms.mem a) ∧
      (∀ y ∈ t.ms.stale, y.pa / 64 = e.pa / 64 → y.blind = true) ∧
      ∃ S, TreeOver ts S ∧
        let got : Word := BitVec.ofNat 32 (leNat (memRead t.ms.mem e.pa 4))
        (e.code ≠ 10 → got = after (e.reqs.flatMap (·.lanes))) ∧
        (e.code = 10 → got = metWord m (S e.reqs.length 5 0)) ∧
        ∀ (i : Nat) (r : AtomReq) (d : Nat), e.reqs[i]? = some r → r.dest = some d → d < 112 →
          (∀ (i' : Nat) (r' : AtomReq), e.reqs[i']? = some r' → i' ≠ i → ¬ (r'.k = r.k ∧ r'.c = r.c ∧ r'.dest = some d)) →
          (s.consorts.find? (·.id == r.k)).isSome = true → ((s.cons r.k).courses.find? (·.idx == r.c)).isSome = true →
          ((t.crs r.k r.c).getV d).tag = r.tag ∧
          (∀ l : Nat, l < 32 → (∀ y ∈ r.lanes, y.lane ≠ l) → ((t.crs r.k r.c).getV d).at l = ((s.crs r.k r.c).getV d).at l) ∧
          ∀ (p : Nat) (y : AtomLane), r.lanes[p]? = some y → ((t.crs r.k r.c).getV d).at y.lane =
            if e.code = 10 then metWord (metWord m (S i 5 0)) (serialSum ((r.lanes.take p).map (·.x)))
            else after ((e.reqs.take i).flatMap (·.lanes) ++ r.lanes.take p)) ∧
  ∀ (s : State) (aspace : BitVec 16) (va : DWord),
    ∃ t : State, exec (.translationWalk aspace va) s = .next t ∧ SameMemory s t ∧ t.consorts = s.consorts ∧
      (∀ e, s.walk aspace va = .leaf e → e ∈ t.ms.tlb)

/-! ### Synchronisation -/

namespace Sys2Proof.Statements

/-- The tag of r is one that accepts a count (N32 or RAW), and its word is x in every lane of the issue set. -/
def Counts (s : State) (v : BitVec 7) (x : Word) : Prop :=
  isPort v = false ∧ ((s.me.getV v.toNat).tag = 5 ∨ (s.me.getV v.toNat).tag = 0) ∧ s.iss.set ≠ 0 ∧
    ∀ l : Nat, l < 32 → bit s.iss.set l = true → (s.me.getV v.toNat).at l = x

/-- R301. COUNT and GEN after a change to count: generations complete while COUNT reaches a nonzero TARGET. -/
def Settled (target count gen count' gen' : Nat) : Prop :=
  (target = 0 → count' = count ∧ gen' = gen) ∧
    (target ≠ 0 → count' < target ∧ ∃ n, count = count' + n * target ∧ gen' = (gen + n) % 2 ^ 32)

/-- R302. The byte offset that an arrival-word member names. -/
def arrivalAt (o : BitVec 10) (px : Option (BitVec 25)) : Nat :=
  16 * (match px with
    | none => o.toNat
    | some _ => (narrow 10 o px).toNat)

end Sys2Proof.Statements

/-- R381, R383, R394, R395, R397, R398. FENCE and XFENCE issue where what they release has performed, end the region, and hold the
course until RELEASE_CLOSURE where they have something to close; FENCE.sc at device scope waits also for the stores that stood at
the die slices when it was first tried; BAR and BARARR release at consort scope and arrive, once per
generation; with the last live course's arrival the generation advances and every course held on the barrier goes on. What must
wait stalls. A closure discards every copy of what the course's classes have written to, but leaves out what engine operations
that were incomplete when the release issued have written (R381, R395). That a
FENCE.sc has reached issue at its first try, and keeps the set of stores it found then, is the model's reading (log entry 42). -/
def Obligations.FenceAndBarrierResults : Prop :=
  ∀ s : State, s.issuing = true →
    let k := s.iss.k
    let c := s.iss.c
    let waits : State := (s.stallFor .other).modMe (fun x => { x with stall := x.stall.map (fun st => { st with drain := s.toDrain }) })
    let but := s.flying k c
    let Passes (j : Instr) (held : Prop) (h : Hold) : Prop :=
      ∃ t : State, exec j s = .next t ∧ t.me.region = s.me.region + 1 ∧ (held → t.me.hold = h) ∧ (¬ held → t.me.hold = s.me.hold) ∧
        LanesPast s t ∧ t.me.v = s.me.v ∧ SameMemory s t ∧ t.ms.stores = s.ms.stores ∧ t.ms.closed = s.ms.closed
    (∀ id : Nat, id ∈ but ↔ (∃ x ∈ s.core.copies, x.k = k ∧ x.c = c ∧ x.id = id) ∨ (∃ x ∈ s.core.bins, x.k = k ∧ x.c = c ∧ x.id = id) ∨
      ∃ x ∈ s.core.selq, x.k = k ∧ x.c = c ∧ x.id = id) ∧
    (∀ (o : BitVec 2) (p : BitVec 3),
      (o = 0 → (s.loadsDone k c = true → Passes (.fence o p) False .none) ∧
        (s.loadsDone k c = false → exec (.fence o p) s = .next waits)) ∧
      (o ≠ 0 → s.releaseReady k c p.toNat = true → (o ≠ 3 ∨ p.toNat < 3 ∨ s.slicesDrained = true) →
        Passes (.fence o p) (p ≠ 0) (.closing p.toNat s.me.region 0x3F but)) ∧
      (o ≠ 0 → s.releaseReady k c p.toNat = false ∨ (o = 3 ∧ 3 ≤ p.toNat ∧ s.slicesDrained = false) →
        exec (.fence o p) s = .next waits)) ∧
    ((∀ st, s.me.stall = some st → st.iss.at_ ≠ s.iss.at_) →
      s.toDrain = (s.ms.stores.filter (·.at_ == .die)).map (·.id)) ∧
    (∀ st, s.me.stall = some st → st.iss.at_ = s.iss.at_ → s.toDrain = st.drain) ∧
    (s.slicesDrained = true ↔ ∀ st ∈ s.ms.stores, st.at_ = .die → st.id ∉ s.toDrain) ∧
    (∀ (p : BitVec 3) (a b : BitVec 6),
      (s.releaseReady k c p.toNat = true → Passes (.xfence p a b) (a ≠ 0) (.closing p.toNat s.me.region a but)) ∧
      (s.releaseReady k c p.toNat = false → exec (.xfence p a b) s = .next (s.stallFor .other))) ∧
    (∀ (k c scope : Nat) (r : BitVec 32) (classes : BitVec 6) (but : List Nat), (s.crs k c).hold = .closing scope r classes but →
      ∃ t : State, exec (.releaseClosure k c) s = .next t ∧ (t.crs k c).hold = .none ∧
        (scope ≠ 0 → { k := k, c := c, scope := scope, region := r, but := but : Closed } ∈ t.ms.closed) ∧
        (∀ b, b ∈ t.ms.stale ↔ b ∈ s.ms.stale ∧
          ¬ ∃ cls op, (cls, k, c, op) ∈ b.writers ∧ classes.getLsbD cls = true ∧ op ∉ but) ∧
        (t.crs k c).v = (s.crs k c).v ∧ SameMemory s t) ∧
    ∀ (b : BitVec 10) (px : Option (BitVec 25)) (stay : Bool), b.toNat < 16 → c < 16 →
      let n := b.toNat
      let bar := s.mine.bar n
      let j : Instr := if stay then .bar b px else .bararr b px
      (bar.arr.getLsbD c = true ∨ s.releaseReady k c 1 = false → exec j s = .next (s.stallFor .other)) ∧
      (bar.arr.getLsbD c = false → s.releaseReady k c 1 = true →
        let all : Prop := ∀ x ∈ s.mine.courses, x.retired = false → x.idx = c ∨ bar.arr.getLsbD x.idx = true
        ∃ t : State, exec j s = .next t ∧ t.me.region = s.me.region + 1 ∧ LanesPast s t ∧ t.me.v = s.me.v ∧ SameMemory s t ∧
          (∀ m : Nat, m ≠ n → t.mine.bar m = s.mine.bar m) ∧
          (¬ all → t.mine.bar n = { gen := bar.gen, arr := bar.arr ||| (1#16 <<< c) } ∧
            t.me.hold = if stay then .bar (.ofNat 4 n) bar.gen else s.me.hold) ∧
          (all → t.mine.bar n = { gen := bar.gen + 1, arr := 0 } ∧ (stay = true → t.me.hold = .none) ∧
            ∀ x ∈ t.mine.courses, ∀ m g, x.hold = .bar m g → m.toNat = n → g = bar.gen + 1))

/-- R301 to R303. ARMW and ARADD, where their operand is one count and the arrival word lies in the scratchpad outside tracked
ranges, change TARGET or COUNT and complete generations; no byte outside the word's TARGET, COUNT and GEN changes. ARWAIT
returns a generation other than its operand's to every lane of the issue set, at once or, held until then, at ARWAIT_WAKE. -/
def Obligations.ArrivalWordResults : Prop :=
  ∀ (s : State) (v : BitVec 7) (o : BitVec 10) (px : Option (BitVec 25)) (x : Word), s.issuing = true → Counts s v x →
    let off := arrivalAt o px
    let target := s.mine.spNat off 4
    let count := s.mine.spNat (off + 4) 4
    let gen := s.mine.spNat (off + 8) 4
    s.mine.spOff off 16 = false →
    let Updates (j : Instr) (target' count' : Nat) : Prop :=
      ∃ t : State, exec j s = .next t ∧ t.mine.spNat off 4 = target' ∧
        Settled target' count' gen (t.mine.spNat (off + 4) 4) (t.mine.spNat (off + 8) 4) ∧
        (∀ a : Nat, a < off ∨ off + 12 ≤ a → memGet t.mine.scratch a = memGet s.mine.scratch a) ∧
        LanesPast s t ∧ t.me.v = s.me.v ∧ t.ms = s.ms ∧ t.core = s.core
    let Returns (t : State) (k c : Nat) (set : BitVec 32) (v : BitVec 7) (len g : Nat) : Prop :=
      ((t.crs k c).getV v.toNat).tag = 5 ∧ (t.crs k c).hold = .none ∧ (t.crs k c).region = (s.crs k c).region + 1 ∧
      (∀ l : Nat, l < 32 → bit set l = true →
        (((t.crs k c).getV v.toNat).at l).toNat = g ∧ (t.crs k c).lpcAt l = refAdd ((s.crs k c).lpcAt l) len) ∧
      (∀ l : Nat, l < 32 → bit set l = false → ((t.crs k c).getV v.toNat).at l = ((s.crs k c).getV v.toNat).at l ∧
        (t.crs k c).lpcAt l = (s.crs k c).lpcAt l) ∧
      (∀ m : Nat, m ≠ v.toNat → (t.crs k c).getV m = (s.crs k c).getV m) ∧ SameMemory s t
    (Memory.wf s.mine.scratch → s.overCount (.armw v o px) = none → Updates (.armw v o px) x.toNat count) ∧
    (Memory.wf s.mine.scratch → s.overCount (.aradd v o px) = none →
      Updates (.aradd v o px) target ((count + x.toNat) % 2 ^ 32)) ∧
    (s.overCount (.arwait v o px) = none →
      (s.loadsDone s.iss.k s.iss.c = false → exec (.arwait v o px) s = .next (s.stallFor .other)) ∧
      (s.loadsDone s.iss.k s.iss.c = true → gen ≠ x.toNat →
        ∃ t : State, exec (.arwait v o px) s = .next t ∧ Returns t s.iss.k s.iss.c s.iss.set v s.iss.len gen) ∧
      (s.loadsDone s.iss.k s.iss.c = true → gen = x.toNat →
        ∃ t : State, exec (.arwait v o px) s = .next t ∧ t.me.hold = .arwait off x v s.iss ∧ t.me.v = s.me.v ∧ t.me.lpc = s.me.lpc ∧
          SameMemory s t)) ∧
    ∀ (k c off : Nat) (iss : Issue) (g : Word), (s.crs k c).hold = .arwait off g v iss → (s.cons k).place = .resident → (s.cons k).spNat (off + 8) 4 ≠ g.toNat →
      ∃ t : State, exec (.arwaitWake k c) s = .next t ∧ Returns t k c iss.set v iss.len ((s.cons k).spNat (off + 8) 4)

/-! ### Copies and bins -/

/-- R286, R289 to R291, R295, R296. CPY, CPY2 and CPYM with their token free: COPY_RIGHTS from a course that is not the producer, then
BAD_HANDLE where a check of R289 fails, with the operand word at fault (the CPYM destination word, the control word, or none; that
order of the words is the model's, log entry 58), done at once where no byte is to move; else, with a tracked range free at every
destination and room in the copies counter, the token is pending and a copy is in flight whose chunks take exactly every byte
of every row from its source to its destination. -/
def Obligations.CopyIssueResults : Prop :=
  ∀ (s : State) (a c : BitVec 6) (k : BitVec 3) (kind : CopyKind), s.issuing = true →
    let j : Instr := match kind with
      | .one => .cpy a c k
      | .rows => .cpy2 a c k
      | .multi => .cpym a c k
    s.overCount j = none → (s.me.token k.toNat).st = .free →
    let g (i : Nat) : DWord := s.getS (a.toNat + i)
    let ctl := s.getS c.toNat
    let n := if kind = .rows then field ctl.toNat 39 28 else 1
    let len := field ctl.toNat 23 0
    let src (i : Nat) : DWord := if kind = .rows then g 0 + BitVec.ofNat 64 i * g 2 else g 0
    let dst (i : Nat) : DWord :=
      if kind = .rows then g 1 + BitVec.ofNat 64 i * g 3
      else if kind = .multi then (g 1).extractLsb' 0 32 |>.setWidth 64 else g 1
    let dir := field ctl.toNat 25 24
    let fromSp : Prop := 2 ≤ dir
    let toSp : Prop := dir % 2 = 1
    let arw : Prop := ctl.getLsbD 26 = true
    let mbx : Prop := ctl.getLsbD 27 = true
    let aux := field ctl.toNat 53 40
    let kbase := field ctl.toNat 59 54
    let size := s.mine.hdr.scratch
    let picks (i : Nat) : Prop := i < 16 ∧ (g 1).getLsbD (32 + i) = true
    let badWord : Prop := kind = .multi ∧ (field (g 1).toNat 63 48 ≠ 0 ∨ ∀ i, ¬ picks i)
    let badCtl : Prop := field ctl.toNat 63 60 ≠ 0 ∨ (kind ≠ .multi ∧ kbase ≠ 0) ∨ (kind ≠ .rows ∧ field ctl.toNat 39 28 ≠ 0) ∨
      (arw ∧ ¬ toSp) ∨ (mbx ∧ toSp) ∨ (arw ∧ mbx) ∨ (¬ arw ∧ ¬ mbx ∧ aux ≠ 0) ∨
      (mbx ∧ ¬ (aux < 1024 ∧ ∃ m ∈ s.work.mailboxes, m.num = aux ∧ m.aspace = s.mine.aspace)) ∨
      (kind = .rows ∧ field ctl.toNat 39 28 = 0) ∨ (arw ∧ size < 16 * aux + 16) ∨ (kind = .multi ∧ ¬ toSp)
    let badRange : Prop := (len ≠ 0 ∧ fromSp ∧ ∃ i < n, size < (src i).toNat + len) ∨ (len ≠ 0 ∧ toSp ∧ ∃ i < n, size < (dst i).toNat + len) ∨
      (len ≠ 0 ∧ dir = 3 ∧ (kind ≠ .multi ∨ ∃ i, picks i ∧ kbase + i = s.mine.num) ∧
        (∃ i < n, ∃ m < n, (src i).toNat ≤ (dst m).toNat + len - 1) ∧ ∃ i < n, ∃ m < n, (dst i).toNat ≤ (src m).toNat + len - 1) ∨
      (kind = .multi ∧ ∃ i, picks i ∧ s.mine.cpg ≤ kbase + i)
    let good : Prop := ¬ badWord ∧ ¬ badCtl ∧ ¬ badRange
    let ds := s.copyDests kind (CopyCtl.of ctl) (g 1) (n * len)
    (s.iss.c ≠ s.mine.hdr.producer → exec j s = .next (s.fail .copyRights 0)) ∧
    (s.iss.c = s.mine.hdr.producer → badWord → exec j s = .next (s.fail .badHandle (a.toNat + 1))) ∧
    (s.iss.c = s.mine.hdr.producer → ¬ badWord → badCtl → exec j s = .next (s.fail .badHandle c.toNat)) ∧
    (s.iss.c = s.mine.hdr.producer → ¬ badWord → ¬ badCtl → badRange → exec j s = .next (s.fail .badHandle 0)) ∧
    (s.iss.c = s.mine.hdr.producer → good → n * len = 0 → exec j s = .next (moved s id)) ∧
    (s.iss.c = s.mine.hdr.producer → good → n * len ≠ 0 → s.tracksFree ds = false ∨ 255 ≤ s.me.copies →
      exec j s = .next (s.stallFor .other)) ∧
    (s.iss.c = s.mine.hdr.producer → good → n * len ≠ 0 → s.tracksFree ds = true → s.me.copies < 255 →
      ∃ (t : State) (cp : Copy), exec j s = .next t ∧ t.core.copies = s.core.copies ++ [cp] ∧ cp.k = s.iss.k ∧ cp.c = s.iss.c ∧ cp.tok = k ∧
        (cp.srcSp = true ↔ 2 ≤ field ctl.toNat 25 24) ∧ (cp.dstSp = true ↔ field ctl.toNat 25 24 % 2 = 1) ∧ cp.dests = ds ∧
        (∀ i b, i < n → b < len → ∃ ch ∈ cp.chunks, ∃ y : Nat, y < ch.len ∧
          ch.src + BitVec.ofNat 64 y = src i + BitVec.ofNat 64 b ∧ ch.dst + BitVec.ofNat 64 y = dst i + BitVec.ofNat 64 b) ∧
        (cp.chunks.map (·.len)).sum = n * len ∧ (∀ ch ∈ cp.chunks, ch.len ≤ 64) ∧
        (t.me.token k.toNat).st = .pending ∧ t.me.copies = s.me.copies + 1 ∧ LanesPast s t ∧ t.me.v = s.me.v ∧ SameMemory s t)

/-- R290 to R293, R295. COPY_CHUNK lands a chunk whose source reads well: in a scratchpad, or at the physical bytes of its global
destination, every byte of it and no other; it is counted at the copy's arrival word; a destination of a multicast that meets an
uncorrectable error, or has retired, fails alone (that a poisoned word which the chunk covers whole is none, and that a CPY's destination
meets none, is the model's reading, log entry 59); a source
that faults ends the copy's movement; a chunk that must wait for what the course issued before does not land yet (R377, R384, log entry 69).
COPY_COMPLETE, with no chunk left, releases the copy's ranges, frees its token or leaves it
in error, and makes its arrival at the mailbox it was issued with, whose handler sees the copied bytes. -/
def Obligations.CopyEventResults : Prop :=
  ∀ (s : State) (cp : Copy), s.core.copies.find? (fun c => c.id == cp.id) = some cp →
    (∀ (n : Nat) (ch : Chunk) (bs : List Byte), cp.chunks[n]? = some ch → cp.waiting = false → cp.error = none →
      s.chunkWaits cp ch = false → s.chunkSource cp ch = .ok bs → bs.length = ch.len →
      (cp.dstSp = true → ((cp.dests.filter (·.failed.isNone)).map (·.cid)).Nodup →
        ∃ (t : State) (ds : List CopyDest), exec (.copyChunk cp.id n) s = .next t ∧ t.ms = s.ms ∧ ds.length = cp.dests.length ∧
          t.core.copies.find? (fun c => c.id == cp.id) = some { cp with chunks := cp.chunks.eraseIdx n, dests := ds } ∧
          (∀ k : Nat, (∀ d ∈ cp.dests, d.failed = none → d.cid ≠ k) → (t.cons k).scratch = (s.cons k).scratch) ∧
          ∀ (i : Nat) (d : CopyDest), cp.dests[i]? = some d →
            let q := s.cons d.cid
            let at_ := ch.dst.toNat
            let there : Prop := (s.consorts.find? (·.id == d.cid)).isSome = true ∧ q.place ≠ .retired
            let meets : Prop := cp.multi = true ∧ ∃ w ∈ q.spoison, at_ < w + 4 ∧ w < at_ + ch.len ∧ ¬ (at_ ≤ w ∧ w + 4 ≤ at_ + ch.len)
            (d.failed.isSome = true → ds[i]? = some d) ∧
            (d.failed = none → ¬ there → ds[i]? = some { d with failed := some 1 }) ∧
            (d.failed = none → there → meets → ds[i]? = some { d with failed := some 2 } ∧ (t.cons d.cid).scratch = q.scratch) ∧
            (d.failed = none → there → ¬ meets → Memory.wf q.scratch → ds[i]? = some { d with left := d.left - ch.len } ∧
              (cp.arw = none ∨ (∃ off, cp.arw = some off ∧ (off + 12 ≤ at_ ∨ at_ + ch.len ≤ off)) →
                (∀ b : Nat, b < ch.len → some (memGet (t.cons d.cid).scratch (at_ + b)) = bs[b]?) ∧
                (∀ x : Nat, x < at_ ∨ at_ + ch.len ≤ x → (∀ off, cp.arw = some off → x < off ∨ off + 12 ≤ x) →
                  memGet (t.cons d.cid).scratch x = memGet q.scratch x) ∧
                ∀ off, cp.arw = some off → (t.cons d.cid).spNat off 4 = q.spNat off 4 ∧
                  Settled (q.spNat off 4) ((q.spNat (off + 4) 4 + ch.len) % 2 ^ 32) (q.spNat (off + 8) 4)
                    ((t.cons d.cid).spNat (off + 4) 4) ((t.cons d.cid).spNat (off + 8) 4)))) ∧
      (∀ pas, cp.dstSp = false → s.engineAccess cp.k cp.c ch.dst true ch.len = .ok pas → pas.Nodup → Memory.wf s.ms.mem →
        ∃ t : State, exec (.copyChunk cp.id n) s = .next t ∧ (∀ (i a : Nat), pas[i]? = some a → some (memGet t.ms.mem a) = bs[i]?) ∧
          (∀ a : Nat, a ∉ pas → memGet t.ms.mem a = memGet s.ms.mem a) ∧
          t.core.copies.find? (fun c => c.id == cp.id) = some { cp with chunks := cp.chunks.eraseIdx n })) ∧
    (∀ (n : Nat) (ch : Chunk) (cause : Cause) (va : DWord), cp.chunks[n]? = some ch → cp.waiting = false → cp.error = none →
      s.chunkWaits cp ch = false → s.chunkSource cp ch = .error (.fault cause va) →
      ∃ t : State, exec (.copyChunk cp.id n) s = .next t ∧ t.ms = s.ms ∧
        t.core.copies.find? (fun c => c.id == cp.id) = some { cp with error := some (cause, false, va.setWidth 56) }) ∧
    (∀ (n : Nat) (ch : Chunk), cp.chunks[n]? = some ch → cp.waiting = false → cp.error = none → (s.chunkWaits cp ch = true → exec (.copyChunk cp.id n) s = .refused .notEnabled) ∧
      (s.ms.stores = [] → s.ms.atoms = [] → s.chunkWaits cp ch = false)) ∧
    (cp.chunks = [] ∨ cp.error.isSome = true → (s.consorts.find? (·.id == cp.k)).isSome = true →
      ((s.cons cp.k).courses.find? (·.idx == cp.c)).isSome = true →
      ∃ t : State, exec (.copyComplete cp.id) s = .next t ∧ (∀ x ∈ t.core.copies, x.id ≠ cp.id) ∧
        (∀ q ∈ t.consorts, ∀ x ∈ q.tracks, x.op ≠ cp.id) ∧ (t.crs cp.k cp.c).copies = (s.crs cp.k cp.c).copies - 1 ∧
        (cp.error = none → (∀ d ∈ cp.dests, d.failed = none) → ((t.crs cp.k cp.c).token cp.tok.toNat).st = .free ∧
          (∀ m, cp.mbx = some m → (∀ b ∈ s.work.mailboxes, b.uid ≠ m) → t.work = s.work) ∧
          ∀ m b, cp.mbx = some m → s.work.mailboxes.find? (fun x => x.uid == m) = some b →
            t.work.arrivals = s.work.arrivals ++ [b.num] ∧ ∀ x ∈ t.ms.stale, x.op ≠ cp.id) ∧
        (∀ cause d va, cp.error = some (cause, d, va) →
          ((t.crs cp.k cp.c).token cp.tok.toNat).st = .error cause ∧ ((t.crs cp.k cp.c).token cp.tok.toNat).addr = va) ∧
        (cp.error = none → (∃ d ∈ cp.dests, d.failed.isSome = true) →
          ((t.crs cp.k cp.c).token cp.tok.toNat).st = .error .multicastPartial ∧
          ∀ i : Nat, i < 16 → (((t.crs cp.k cp.c).token cp.tok.toNat).failed.getLsbD i = true ↔
            ∃ d ∈ cp.dests, d.failed.isSome = true ∧ d.num = i)) ∧
        t.ms.mem = s.ms.mem ∧ t.ms.stores = s.ms.stores ∧ t.ms.records = s.ms.records)

/-- R304 to R309. With a table that reads well and every row inside the scratchpad: BINSC and BINGA take the token and keep each
lane's bin and row, and no encoding of them names a port; BINRST makes the counters of its bins zero, and OVFLAG with them where it names every bin, once what the course issued before lets it (R377, R384, log
entry 69); BINQRY reports one. -/
def Obligations.BinIssueResults : Prop :=
  ∀ (s s1 : State) (v : BitVec 7) (p : BitVec 6) (t r : BitVec 6) (k : BitVec 3) (bs : List Byte) (pa : Nat) (h : BinHeader)
    (tg : BitVec 4), s.issuing = true →
    let table := s.getS t.toNat
    let base := s.getS r.toNat
    let off (l : Nat) : Nat := (base + BitVec.ofNat 64 (l * h.rowb)).toNat
    let x := s.me.getV v.toNat
    let q : BitVec 7 := BitVec.ofNat 7 (2 * p.toNat)
    let y := s.me.getV q.toNat
    let z := s.me.getV (q.toNat + 1)
    let Readable (bin : Nat → Nat) : Prop := ∀ b, (b = h.ovf ∨ b < h.nbins ∧ ∃ l : Nat, l < 32 ∧ bit s.iss.set l = true ∧ b = bin l) →
      ∃ es pe, s.fetchBin s.iss.k s.iss.c (binEntryAt table b) 32 false = .inl (.bytes es pe)
    let Issues (j : Instr) (gather : Bool) (lane : Nat → BinLane) (keep : Nat → Bool) : Prop :=
      ∃ (u : State) (op : BinOp), exec j s = .next u ∧ u.core.bins = s.core.bins ++ [op] ∧ op.k = s.iss.k ∧ op.c = s.iss.c ∧ op.tok = k ∧
        op.gather = gather ∧ op.table = table ∧ op.todo = ((lanesOf s.iss.set).filter keep).map lane ∧
        (u.me.token k.toNat).st = .pending ∧ u.me.copies = s.me.copies + 1 ∧ LanesPast s u ∧ u.me.v = s.me.v ∧ SameMemory s u ∧
        (gather = false → ∀ l : Nat, l < 32 → bit s.iss.set l = true → keep l = false → (l, 0xFFFFFFFE#32) ∈ op.codes)
    (isPort v = true → (Instr.binsc v t r k).wf = false) ∧
    (table.toNat % 64 = 0 → s.fetchBin s.iss.k s.iss.c table 64 false = .inl (.bytes bs pa) → binHeader bs = some h →
    ((∀ l : Nat, l < 32 → bit s.iss.set l = true → off l + h.rowb ≤ s.mine.hdr.scratch) → s.me.copies < 255 →
      (s.me.token k.toNat).st = .free →
      (s.overCount (.binsc v t r k) = none → isPort v = false → (x.tag = 4 ∨ x.tag = 5) → Readable (fun l => (x.at l).toNat) →
        Issues (.binsc v t r k) false (fun l => { lane := l, bin := (x.at l).toNat, row := 0, off := off l, ovr := false })
          (fun l => decide ((x.at l).toNat < h.nbins))) ∧
      (s.overCount (.binga p t r k) = none → 2 * p.toNat + 1 < 112 → (y.tag = 4 ∨ y.tag = 5) → (z.tag = 5 ∨ z.tag = 0) →
        s.mine.tracks.length < 8 → Readable (fun l => (y.at l).toNat) →
        Issues (.binga p t r k) true
          (fun l => { lane := l, bin := (y.at l).toNat, row := (z.at l).toNat, off := off l, ovr := false }) (fun _ => true))) ∧
    (∀ pc : Nat → Nat, s.overCount (.binrst t r) = none →
      let first := base.toNat % 2 ^ 32
      let n := base.toNat / 2 ^ 32
      (h.nbins < first + n → exec (.binrst t r) s = .next (s.fail .badHandle r.toNat)) ∧
      (first + n ≤ h.nbins → Memory.wf s.ms.mem →
        (∀ b secs, first ≤ b → b < first + n → secs.length ≤ n →
          ∃ es, s.fetchBinAfter s.iss.k s.iss.c (binCountAt table b) 4 true secs = .inl (.bytes es (pc b))) →
        (n = h.nbins → ∀ secs, secs.length ≤ n →
          ∃ es, s.fetchBinAfter s.iss.k s.iss.c (binFlagsAt table) 4 true secs = .inl (.bytes es (pc h.nbins))) →
        let ws := (List.range n).map (fun i => pc (first + i)) ++ (if n = h.nbins then [pc h.nbins] else [])
        let waits := s.homeWaits s.iss.k s.iss.c s.nextId (s.epochOf s.iss.k s.iss.c) ws true
        (s.ms.stores = [] → s.ms.atoms = [] → waits = false) ∧ (waits = true → exec (.binrst t r) s = .next (s.stallFor .other)) ∧
        (waits = false → ∃ u : State, exec (.binrst t r) s = .next u ∧ LanesPast s u ∧ u.me.v = s.me.v ∧
          (∀ b i, first ≤ b → b < first + n ∨ (n = h.nbins ∧ b = h.nbins) → i < 4 → memGet u.ms.mem (pc b + i) = 0) ∧
          (∀ a : Nat, (∀ b, first ≤ b → b < first + n ∨ (n = h.nbins ∧ b = h.nbins) → a < pc b ∨ pc b + 4 ≤ a) →
            memGet u.ms.mem a = memGet s.ms.mem a)))) ∧
    (s.overCount (.binqry v t r) = none →
      (h.nbins ≤ base.toNat → exec (.binqry v t r) s = .next (s.fail .badHandle r.toNat)) ∧
      ∀ cs pc, base.toNat < h.nbins → s.fetchBin s.iss.k s.iss.c (binCountAt table base.toNat) 4 false = .inl (.bytes cs pc) →
        s.vecRead [] (some v) false [] true noCheck = .ok (s1, tg, []) →
        Yields s s1 (.binqry v t r) v 5 (fun _ w => w = BitVec.ofNat 32 (leNat cs))))

/-- R292, R295, R307, R308. The steps of a bin operation: a scatter whose lanes name one bin bumps its count at home once and numbers
its lanes; a lane past its bin's capacity bumps the overflow bin and sets OVFLAG; a lane within it writes its row, and no other
byte, and has its position as its code; past the overflow bin's it is dropped. A gather reads its row or skips. A row that reaches the
host region is denied, and a row of the scratchpad that holds poison fails, with the first such address. An overflow whose bump takes the last record that
OVFLAG's write would need fails with RECORD_FULL, and writes nothing (R390; that its bump is not made either, and that all bumps of a
scatter come in one event, is the model's choice, log entry 72). A step that must wait for what
the course issued before is not taken yet (R377, R384, log entry 69). With no lane left
the codes are written and the token completes. -/
def Obligations.BinEventResults : Prop :=
  ∀ (s : State) (op : BinOp), s.core.bins.find? (fun o => o.id == op.id) = some op → op.waiting = false →
    let ev : Instr := if op.gather then .binGatherComplete op.id else .binScatterComplete op.id
    let now (t : State) : Option BinOp := t.core.bins.find? (fun o => o.id == op.id)
    let at_ (b r : Nat) : DWord := (op.entry b).base + BitVec.ofNat 64 (r * op.rowb)
    let First (pas : List Nat) (i : Nat) : Prop := (pas[i]?.map isHost) = some true ∧ ∀ j, j < i → (pas[j]?.map isHost) = some false
    let Denied (wr : Bool) (va : DWord) : Prop := ∃ t : State, exec ev s = .next t ∧ t.ms = s.ms ∧
      now t = some { op with error := some (.xlateDenied, wr, va.setWidth 56) }
    (op.todo = [] ∨ op.error.isSome = true → (s.consorts.find? (·.id == op.k)).isSome = true →
      ((s.cons op.k).courses.find? (·.idx == op.c)).isSome = true →
      ∃ t : State, exec ev s = .next t ∧ (∀ o ∈ t.core.bins, o.id ≠ op.id) ∧ (t.crs op.k op.c).copies = (s.crs op.k op.c).copies - 1 ∧
        (op.error = none → ((t.crs op.k op.c).token op.tok.toNat).st = .free) ∧
        (∀ cause d va, op.error = some (cause, d, va) → ((t.crs op.k op.c).token op.tok.toNat).st = .error cause) ∧
        (op.gather = true → (t.crs op.k op.c).v = (s.crs op.k op.c).v) ∧
        (op.gather = false → op.v.toNat < 112 → ((t.crs op.k op.c).getV op.v.toNat).tag = 5 ∧
          ∀ l w, l < 32 → bit op.lanes l = true → op.codes.find? (·.1 == l) = some (l, w) →
            ((t.crs op.k op.c).getV op.v.toNat).at l = w) ∧ t.ms = s.ms) ∧
    (∀ (x : BinLane) (xs : List BinLane), op.todo = x :: xs → op.error = none →
      (s.binWaits op x = true → exec ev s = .refused .notEnabled) ∧ (s.ms.stores = [] → s.ms.atoms = [] → s.binWaits op x = false)) ∧
    ∀ (x : BinLane) (xs : List BinLane), op.todo = x :: xs → op.error = none → s.binWaits op x = false → Memory.wf s.ms.mem →
      (∀ bs pa, op.gather = false → op.bumped = false → (∀ y ∈ op.todo, y.bin = x.bin) →
        s.fetchBin op.k op.c (binCountAt op.table x.bin) 4 true = .inl (.bytes bs pa) →
        let base := s.peek pa 4
        ∃ t : State, exec ev s = .next t ∧ leNat (memRead t.ms.mem pa 4) = min (base + op.todo.length) (2 ^ 32 - 1) ∧
          (∀ a : Nat, a < pa ∨ pa + 4 ≤ a → memGet t.ms.mem a = memGet s.ms.mem a) ∧
          now t = some { op with bumped := true, todo := op.todo.map (fun y =>
            { y with row := base + (op.todo.filter (fun z => z.lane < y.lane)).length }) }) ∧
      (∀ bs pa fs pf, op.gather = false → op.bumped = true → x.ovr = false → (op.entry x.bin).cap ≤ x.row →
        s.fetchBin op.k op.c (binCountAt op.table op.ovf) 4 true = .inl (.bytes bs pa) →
        let s1 := s.binWrite op.k op.c op.id op.region (binCountAt op.table op.ovf) pa (min (s.peek pa 4 + 1) (2 ^ 32 - 1))
        s1.fetchBin op.k op.c (binFlagsAt op.table) 4 true = .inl (.bytes fs pf) → (pa + 4 ≤ pf ∨ pf + 4 ≤ pa) →
        ∃ t : State, exec ev s = .next t ∧ leNat (memRead t.ms.mem pa 4) = min (s.peek pa 4 + 1) (2 ^ 32 - 1) ∧
          leNat (memRead t.ms.mem pf 4) = 1 ∧ now t = some { op with todo := { x with row := s.peek pa 4, ovr := true } :: xs }) ∧
      (∀ bs pa va, op.gather = false → op.bumped = true → x.ovr = false → (op.entry x.bin).cap ≤ x.row →
        s.fetchBin op.k op.c (binCountAt op.table op.ovf) 4 true = .inl (.bytes bs pa) →
        let s1 := s.binWrite op.k op.c op.id op.region (binCountAt op.table op.ovf) pa (min (s.peek pa 4 + 1) (2 ^ 32 - 1))
        s1.fetchBin op.k op.c (binFlagsAt op.table) 4 true = .inr (.recordFull, va) →
        ∃ t : State, exec ev s = .next t ∧ t.ms.mem = s.ms.mem ∧ now t = some { op with error := some (.recordFull, true, va.setWidth 56) }) ∧
      (let b := if x.ovr then op.ovf else x.bin
       let row := (s.cons op.k).spRead x.off op.rowb
       op.gather = false → op.bumped = true →
        (∀ pas i, x.row < (op.entry b).cap → s.engineAccess op.k op.c (at_ b x.row) true op.rowb = .ok pas → First pas i →
          Denied true (at_ b x.row + BitVec.ofNat 64 i)) ∧
        (∀ pas i, x.row < (op.entry b).cap → s.engineAccess op.k op.c (at_ b x.row) true op.rowb = .ok pas → pas.any isHost = false →
          i < op.rowb → (s.cons op.k).spPoisoned (x.off + i) 1 = true → (∀ j, j < i → (s.cons op.k).spPoisoned (x.off + j) 1 = false) →
          ∃ t : State, exec ev s = .next t ∧ t.ms = s.ms ∧
            now t = some { op with error := some (.poison, false, (BitVec.ofNat 64 (x.off + i)).setWidth 56) }) ∧
        (∀ pas, x.row < (op.entry b).cap → s.engineAccess op.k op.c (at_ b x.row) true op.rowb = .ok pas → pas.any isHost = false →
          pas.Nodup → (s.cons op.k).spPoisoned x.off op.rowb = false → (s.cons op.k).sstale = [] → x.row < 2 ^ 31 →
          ∃ t : State, exec ev s = .next t ∧ (∀ (i a : Nat), pas[i]? = some a → some (memGet t.ms.mem a) = row[i]?) ∧
            (∀ a : Nat, a ∉ pas → memGet t.ms.mem a = memGet s.ms.mem a) ∧
            now t = some { op with todo := xs, codes := op.codes ++
              [(x.lane, BitVec.ofNat 32 (x.row + if x.ovr then 2 ^ 31 else 0))] }) ∧
        ((op.entry b).cap ≤ x.row → x.ovr = true → ∃ t : State, exec ev s = .next t ∧ t.ms = s.ms ∧
          now t = some { op with todo := xs, codes := op.codes ++ [(x.lane, 0xFFFFFFFF#32)] })) ∧
      (let b := if 2 ^ 31 ≤ x.row then op.ovf else x.bin
       let r := if 2 ^ 31 ≤ x.row then x.row - 2 ^ 31 else x.row
       op.gather = true →
        (op.nbins ≤ x.bin ∨ 0xFFFFFFFE ≤ x.row ∨ (op.entry b).cap ≤ r →
          ∃ t : State, exec ev s = .next t ∧ now t = some { op with todo := xs } ∧ t.ms = s.ms ∧ t.consorts = s.consorts) ∧
        ∀ pas, x.bin < op.nbins → x.row < 0xFFFFFFFE → r < (op.entry b).cap →
          s.engineAccess op.k op.c (at_ b r) false op.rowb = .ok pas →
          (∀ i, First pas i → Denied false (at_ b r + BitVec.ofNat 64 i)) ∧
          (pas.any isHost = false → (s.consorts.find? (·.id == op.k)).isSome = true → Memory.wf (s.cons op.k).scratch →
          ∃ t : State, exec ev s = .next t ∧ now t = some { op with todo := xs } ∧ t.ms = s.ms ∧
            (∀ (i a : Nat), pas[i]? = some a → memGet (t.cons op.k).scratch (x.off + i) = s.viewByte 3 op.k op.c a) ∧
            ∀ y : Nat, y < x.off ∨ x.off + pas.length ≤ y → memGet (t.cons op.k).scratch y = memGet (s.cons op.k).scratch y))

/-! ### Matrix, code table, accumulate network, selection -/

namespace Sys2Proof.Statements

/-- R323. Scalar register a holds the address word of a row of a slot of the store, with every other bit zero. -/
def Addressed (s : State) (a : BitVec 6) (align slot row : Nat) (expv : BitVec 4) : Prop :=
  slot < 64 ∧ slot < s.mine.hdr.accslots ∧ row < 16 ∧ row % align = 0 ∧
    (s.getS a.toNat).toNat = expv.toNat * 2 ^ 16 + 16 * (slot % 8) * 2 ^ 8 + (16 * (slot / 8) + row)

/-- R323, R331. It holds no such word. -/
def Unaddressed (s : State) (a : BitVec 6) (align : Nat) : Prop := ∀ slot row expv, ¬ Addressed s a align slot row expv

/-- R210, R324. From u the instruction enters an operation in the matrix queue, where that and the tiles counter have room, and else
stalls. -/
def Enters (s u : State) (j : Instr) (op : MqOp) (slots : List Nat) (expv : BitVec 4) : Prop :=
  (s.mqLevel < 32 → s.me.tiles < 255 →
    ∃ (t : State) (e : MqEntry), exec j s = .next t ∧ t.core.mq = u.core.mq ++ [e] ∧ e.k = s.iss.k ∧ e.c = s.iss.c ∧ e.op = op ∧ e.slots = slots ∧
      e.expv = expv ∧ e.ref = s.iss.own ∧ e.since = s.clock ∧ e.admitted = false ∧ t.me.tiles = s.me.tiles + 1 ∧
      LanesPast s t ∧ t.me.v = s.me.v ∧ SameMemory s t ∧ t.mine.slots = s.mine.slots ∧ t.mine.tiles = s.mine.tiles) ∧
  (32 ≤ s.mqLevel ∨ 255 ≤ s.me.tiles → exec j s = .next (s.stallFor .other))

/-- R343. A scalar register holds a chain word: receiver and chain number, every other bit zero. -/
def ChainWord (s : State) (a : BitVec 6) (rcv chn : Nat) : Prop :=
  (s.getS a.toNat).toNat = rcv + 2 ^ 8 * chn ∧ rcv < 64 ∧ chn < 4

/-- R348. From s, the issuing consort is bound, unsent and owned by the issuing course, to epoch h of chain chn of consort rcv, and
the instruction has issued. -/
def JoinsEpoch (s t : State) (rcv chn : Nat) (h : Chain) : Prop :=
  (∃ y : Binding, t.mine.bindings = s.mine.bindings ++ [y] ∧ y.rcv.toNat = rcv ∧ y.chn.toNat = chn ∧ y.epoch = h.epoch ∧ y.four = h.four ∧
    y.exact = h.exact ∧ y.i40 = h.i40 ∧ y.sent = false ∧ y.owner = s.iss.c) ∧
  LanesPast s t ∧ t.me.v = s.me.v ∧ t.me.hold = s.me.hold ∧ SameMemory s t

/-- R350, R354. From s, the result of chain chn of the issuing consort is applied: versions advance, locks clear, v has the
status, and the instruction has issued. -/
def AppliesEpoch (s t : State) (v : BitVec 7) (chn : Nat) : Prop :=
  let h := s.mine.chain chn
  (t.mine.chain chn).st = .waited ∧
    (∀ i : Nat, i < 64 → i ∈ h.slots →
      (t.mine.slot i).ver = (s.mine.slot i).ver + 1 ∧ (t.mine.slot i).lock = false ∧ (t.mine.slot i).i40 = (s.mine.slot i).i40 ∧
      (h.n = 0 → (t.mine.slot i).entries = (s.mine.slot i).entries)) ∧
    (∀ i : Nat, i ∉ h.slots → t.mine.slot i = s.mine.slot i) ∧ Receives s t s.iss.k s.iss.c v 5 s.iss.set (fun _ => h.status) ∧
    t.me.hold = s.me.hold ∧ LanesPast s t ∧ SameMemory s t

/-- R324. Two entries of the matrix queue name one slot of one consort. -/
def SameSlot (x y : MqEntry) : Prop := x.k = y.k ∧ ∃ n, n ∈ x.slots ∧ n ∈ y.slots

/-- R324, R446. Among admitted entries, in admission order, one that its own slots keep waiting: a loop or a drain goes before it on
a slot, at once or through others that it keeps waiting in the same way. -/
def KeptBack (es : List MqEntry) (o : MqEntry) : Prop :=
  ∃ ch : List MqEntry, ch.Sublist es ∧ ch.getLast? = some o ∧ (∃ f, ch.head? = some f ∧ (f.isLoop = true ∨ f.isDrain = true)) ∧
    ∀ (i : Nat) (x y : MqEntry), ch[i]? = some x → ch[i + 1]? = some y → SameSlot x y

/-- The consort and course exist. -/
def Stands (s : State) (k c : Nat) : Prop :=
  (s.consorts.find? (·.id == k)).isSome = true ∧ ((s.cons k).courses.find? (·.idx == c)).isSome = true

end Sys2Proof.Statements

/-- R314, R319, R324 to R334. Where their checks at issue pass: TFET makes the other copy of its register the latest, FILLING, with a
fetch of the view's rows in flight; MMA binds the latest copies of its tiles; MLOOP keeps its descriptor; the ACC members take
their place in the queue; ACCVER reports a slot's state; CTSET writes the buffer that is not active and makes it active; CTGET
reads the active one. A check that fails raises its cause. The model's choices: REG 0 where a consort has no code table (log entry
31; R404 gives REG 0 where no operand is at fault) and the register named for a pair that R321 does not list (log entry 68). -/
def Obligations.MatrixInstructionResults : Prop :=
  ∀ (s s1 : State) (v : BitVec 7) (a c : BitVec 6) (ta tb fmt : BitVec 3) (l : BitVec 6) (q e : BitVec 4) (b0 b1 b2 b3 : BitVec 1)
    (tg : BitVec 4) (x : VReg) (slot row : Nat) (f2 : BitVec 2), s.issuing = true →
    let w (i : Nat) : Nat := (s.getS (a.toNat + i)).toNat
    let own := s.mine
    let A := (own.tile ta.toNat).now
    let B := (own.tile tb.toNat).now
    let cw := s.getS c.toNat
    (let copy := !(own.tile ta.toNat).latest
     let j : Instr := .tfet ta a fmt b0
     s.overCount j = none →
      (∀ r, viewFault a.toNat fmt.toNat (b0 == 1) (w 0) (w 1) (w 2) = some r → exec j s = .next (s.fail .badHandle r)) ∧
      (viewFault a.toNat fmt.toNat (b0 == 1) (w 0) (w 1) (w 2) = none → fmt = 5 → own.hdr.ctabbed = false →
        exec j s = .next (s.fail .badHandle 0)) ∧
      (viewFault a.toNat fmt.toNat (b0 == 1) (w 0) (w 1) (w 2) = none → (fmt ≠ 5 ∨ own.hdr.ctabbed = true) →
        (s.owned s.iss.k ta.toNat = true ∨ s.boundCopy s.iss.k ta.toNat copy = true ∨ 255 ≤ s.me.tiles →
          exec j s = .next (s.stallFor .other)) ∧
        (s.owned s.iss.k ta.toNat = false → s.boundCopy s.iss.k ta.toNat copy = false → s.me.tiles < 255 →
          ∃ (t : State) (f : TileFill) (y : TileCopy), exec j s = .next t ∧ f ∈ t.core.tfills ∧ f.k = s.iss.k ∧ f.c = s.iss.c ∧ f.t = ta.toNat ∧ f.copy = copy ∧
            f.base.toNat = w 0 % 2 ^ 56 ∧ f.stride = w 1 % 2 ^ 24 ∧ f.rowBytes = (if b0 = 1 then 16 else 64) ∧
            (t.mine.tile ta.toNat).latest = copy ∧ (t.mine.tile ta.toNat).copy copy = y ∧ y.st = .filling ∧
            y.tag = fmtTag fmt.toNat ∧ y.rows = field (w 1) 28 24 ∧ y.klen = field (w 1) 39 32 ∧ y.data = [] ∧
            (t.mine.tile ta.toNat).copy (!copy) = (own.tile ta.toNat).copy (!copy) ∧
            (∀ n : Nat, n ≠ ta.toNat → t.mine.tile n = own.tile n) ∧
            ((∀ g ∈ s.core.tfills, ¬ (g.k = s.iss.k ∧ g.t = ta.toNat ∧ g.copy = copy)) →
              t.core.tfills = s.core.tfills ++ [f] ∧ t.me.tiles = s.me.tiles + 1) ∧
            LanesPast s t ∧ t.me.v = s.me.v ∧ SameMemory s t))) ∧
    (let j : Instr := .mma ta tb l e b0 b1 b2 b3
     s.overCount j = none →
      (own.hdr.accslots ≤ l.toNat → exec j s = .next (s.fail .badHandle 0)) ∧
      (l.toNat < own.hdr.accslots →
        let fp16 := A.tag = 3 ∨ B.tag = 3 → s.hub.fp16 = true
        (¬ fp16 → exec j s = .next s.noProfile) ∧
        (fp16 → A.st = .empty → exec j s = .next (s.fail .format ta.toNat)) ∧
        (fp16 → A.st ≠ .empty → B.st = .empty → exec j s = .next (s.fail .format tb.toNat)) ∧
        (fp16 → A.st ≠ .empty → B.st ≠ .empty → pairOf A.tag A.narrow B.tag B.narrow = none →
          exec j s = .next (s.fail .format ta.toNat)) ∧
        (∀ p, fp16 → A.st ≠ .empty → B.st ≠ .empty → pairOf A.tag A.narrow B.tag B.narrow = some p →
          (A.tag = 10 ∨ B.tag = 10) → own.hdr.ctabbed = false → exec j s = .next (s.fail .badHandle 0)) ∧
        (∀ p, fp16 → A.st ≠ .empty → B.st ≠ .empty → pairOf A.tag A.narrow B.tag B.narrow = some p →
          (A.tag ≠ 10 ∧ B.tag ≠ 10 ∨ own.hdr.ctabbed = true) →
          Enters s s j (.mma ta.toNat (own.tile ta.toNat).latest tb.toNat (own.tile tb.toNat).latest (b0 == 1) (b1 == 1) (b2 == 1)
            (b3 == 1) s.core.ctgen) [l.toNat] e))) ∧
    (let d := (List.range 6).map (fun i => s.getS (a.toNat + i))
     let y := LoopDesc.of d
     let ss := if b0 = 1 then [l.toNat, l.toNat + 1, l.toNat + 8, l.toNat + 9] else [l.toNat]
     let j : Instr := .mloop l e a b0 b1
     s.overCount j = none →
      (∀ r, loopFault (b0 == 1) d = some r → exec j s = .next (s.fail .badHandle (a.toNat + r))) ∧
      (loopFault (b0 == 1) d = none →
        let good : Prop := (y.a.fmt ≠ 5 ∧ y.b.fmt ≠ 5 ∨ own.hdr.ctabbed = true) ∧ (∀ n ∈ ss, n < own.hdr.accslots) ∧
          (b0 = 1 → l.toNat % 8 ≠ 7 ∧ l.toNat / 8 ≠ 7)
        let fp16 : Prop := y.a.fmt = 1 ∨ y.b.fmt = 1 → s.hub.fp16 = true
        (¬ good → exec j s = .next (s.fail .badHandle 0)) ∧
        (good → ¬ fp16 → exec j s = .next s.noProfile) ∧
        (good → fp16 → pairOf (fmtTag y.a.fmt) y.a.narrow (fmtTag y.b.fmt) y.b.narrow = none →
          exec j s = .next (s.fail .format (a.toNat + 2))) ∧
        ∀ p, good → fp16 → pairOf (fmtTag y.a.fmt) y.a.narrow (fmtTag y.b.fmt) y.b.narrow = some p →
        Enters s s j (.mloop (b0 == 1) (b1 == 1) d s.core.ctgen 0) ss e)) ∧
    (Unaddressed s a 16 → (s.overCount (.accz a c) = none → exec (.accz a c) s = .next (s.fail .badHandle a.toNat)) ∧
      (s.overCount (.accwv a c) = none → exec (.accwv a c) s = .next (s.fail .badHandle a.toNat))) ∧
    (s.overCount (.accz a c) = none → Addressed s a 16 slot row e →
      (2 ≤ cw.toNat → exec (.accz a c) s = .next (s.fail .badHandle c.toNat)) ∧
      (cw.toNat < 2 → Enters s s (.accz a c) (.accz (cw.getLsbD 0)) [slot] e)) ∧
    (s.overCount (.accwv a c) = none → Addressed s a 16 slot row e →
      (2 ^ 16 ≤ cw.toNat → exec (.accwv a c) s = .next (s.fail .badHandle c.toNat)) ∧
      (cw.toNat < 2 ^ 16 → Enters s s (.accwv a c) (.accwv (cw.setWidth 16)) [slot] e)) ∧
    (s.overCount (.accrd v a c) = none → s.vecRead [] (some v) false [] true noCheck = .ok (s1, tg, []) →
      (Unaddressed s a (if cw = 1 then 4 else 2) → exec (.accrd v a c) s = .next (s.fail .badHandle a.toNat)) ∧
      (3 ≤ cw.toNat → Addressed s a 2 slot row e → exec (.accrd v a c) s = .next (s.fail .badHandle c.toNat)) ∧
      (cw.toNat = f2.toNat → f2.toNat < 3 → Addressed s a (if f2 = 1 then 4 else 2) slot row e →
        Enters s s (.accrd v a c) (.accrd v f2 row 0 s.iss.set) [slot] e)) ∧
    (s.overCount (.accwr v a) = none → isPort v = false → s.me.getV v.toNat = x → (x.tag = 1 ∨ x.tag = 4) → Addressed s a 2 slot row e →
      Enters s s (.accwr v a) (.accwr x row 0 s.iss.set) [slot] e) ∧
    (s.overCount (.accwr v a) = none → isPort v = true →
      (∀ u, s.readSrcs [v] none 1 = .error u → exec (.accwr v a) s = .next u) ∧
      ∀ y : VReg, s.readSrcs [v] none 1 = .ok (s1, [y]) →
        (y.tag ≠ 1 → y.tag ≠ 4 → exec (.accwr v a) s = .next (s.fail .format v.toNat)) ∧
        (y.tag = 1 ∨ y.tag = 4 → Unaddressed s a 2 → exec (.accwr v a) s = .next (s.fail .badHandle a.toNat)) ∧
        (y.tag = 1 ∨ y.tag = 4 → Addressed s a 2 slot row e → Enters s s1 (.accwr v a) (.accwr y row 0 s.iss.set) [slot] e)) ∧
    (let p := s.me.port q.toNat
     s.overCount (.accdr q a c) = none →
      (¬ (p.bound = true ∧ p.kind = 1) → exec (.accdr q a c) s = .next (s.fail .badHandle (112 + q.toNat))) ∧
      (p.bound = true → p.kind = 1 → Unaddressed s a 16 → exec (.accdr q a c) s = .next (s.fail .badHandle a.toNat)) ∧
      (p.bound = true → p.kind = 1 → Addressed s a 16 slot row e → 3 ≤ cw.toNat →
        exec (.accdr q a c) s = .next (s.fail .badHandle c.toNat)) ∧
      (p.bound = true → p.kind = 1 → cw.toNat = f2.toNat → f2.toNat < 3 → Addressed s a 16 slot row e →
        Enters s s (.accdr q a c) (.accdr q f2 0) [slot] e)) ∧
    (s.overCount (.accver v a) = none → Addressed s a 1 slot row 0 → s.vecRead [] (some v) false [] true noCheck = .ok (s1, tg, []) →
      Yields s s1 (.accver v a) v 5 (fun _ r =>
        let here := s.core.mq.filter (fun y => y.k == s.iss.k && y.slots.contains slot)
        r = BitVec.ofNat 32 ((here.filter (fun y => !y.admitted)).length * 2 ^ 20 + (own.slot slot).lock.toNat * 2 ^ 19 +
          (here.any (fun y => y.admitted)).toNat * 2 ^ 18 + (own.slot slot).i40.toNat * 2 ^ 16 + (own.slot slot).ver.toNat))) ∧
    (∀ y : VReg, s.overCount (.ctset v) = none →
      (isPort v = false → y = s.me.getV v.toNat ∧ y.tag.toNat < 12 ∧ s1 = s) → (isPort v = true → s.readSrcs [v] none 1 = .ok (s1, [y])) →
      (y.tag ≠ 2 → exec (.ctset v) s = .next (s.fail .format v.toNat)) ∧
      (y.tag = 2 →
        (own.hdr.ctabbed = false ∨ (∃ i : Nat, i < 8 ∧ bit s.iss.set i = false) → exec (.ctset v) s = .next (s.fail .badHandle 0)) ∧
        (own.hdr.ctabbed = true → (∀ i : Nat, i < 8 → bit s.iss.set i = true) →
          (s.genHeld (s.core.ctgen - 1) = true → exec (.ctset v) s = .next (s.stallFor .ctset)) ∧
          (s.genHeld (s.core.ctgen - 1) = false →
            ∃ t : State, exec (.ctset v) s = .next t ∧ t.core.ctgen = s.core.ctgen + 1 ∧
              (∀ i : Nat, i < 16 → vget t.core.ctab 0 (16 * (t.core.ctgen.toNat % 2) + i) =
                (if i % 2 = 0 then (y.at (i / 2)).setWidth 16
                 else (y.at (i / 2) >>> 16).setWidth 16)) ∧
              (∀ i : Nat, i < 16 → vget t.core.ctab 0 (16 * (s.core.ctgen.toNat % 2) + i) =
                vget s.core.ctab 0 (16 * (s.core.ctgen.toNat % 2) + i)) ∧
              LanesPast s t ∧ t.me.v = s.me.v ∧ t.me.ports = s1.me.ports ∧ SameMemory s t)))) ∧
    (∀ u, s.overCount (.ctset v) = none → isPort v = true → s.readSrcs [v] none 1 = .error u → exec (.ctset v) s = .next u) ∧
    (s.overCount (.ctget v) = none → s.vecRead [] (some v) false [] true noCheck = .ok (s1, tg, []) →
      (own.hdr.ctabbed = false → exec (.ctget v) s = .next (s.fail .badHandle 0)) ∧
      (own.hdr.ctabbed = true → Yields s s1 (.ctget v) v 2 (fun i r =>
        let at_ (n : Nat) : Nat := (vget s.core.ctab 0 (16 * (s.core.ctgen.toNat % 2) + n)).toNat
        r.toNat = at_ (2 * (i % 8)) + 2 ^ 16 * at_ (2 * (i % 8) + 1))))

/-- R319, R320, R324, R325, R327, R330, R332, R335, R336, R99, R247, R347. The events of the matrix engine: a tile fill takes rows
and factors and ends FULL, or EMPTY with a matrix error; a fill without a pin goes on unpinned after 256 clocks; admission
advances versions and checks tags; a K step of a loop waits for pins up to 256 clocks; a performing entry has the effect of its member; an entry that waits too long leaves with
VERSION_WAIT, and a course that stalls too long takes its cause; the oldest matrix error is delivered to the issue set. An admitted
entry performs where no entry admitted before it goes first: on a slot of its consort always; an MMA before every MMA and every K step
of the core, whatever their courses and slots, unless its own slot keeps it waiting for a loop or a drain; a loop before another loop
(R324, R330, R446). The model's choices: which entries give way to others on the engine (log entry 30); a fill event reads
one row, and MATRIX_PERFORM runs one K step (log entry 30); the moment, REG and numbering of the 2^20-clock limits (log entry 43). -/
def Obligations.MatrixEventResults : Prop :=
  (∀ (s : State) (f : TileFill) (cp : TileCopy), s.core.tfills.find? (fun g => g.id == f.id) = some f → f.waiting = false →
    ((s.cons f.k).tile f.t).copy f.copy = cp → f.t < 8 → Stands s f.k f.c →
    let now (t : State) : TileCopy := ((t.cons f.k).tile f.t).copy f.copy
    (s.pinless f = true → f.since + 256 ≤ s.clock →
      ∃ t : State, exec (.tilePinTimeout f.id) s = .next t ∧ t.core.tfills.find? (fun g => g.id == f.id) = some { f with unpinned := true } ∧
        t.consorts = s.consorts ∧ t.ms = s.ms) ∧
    (s.pinless f = false →
      (cp.data.length < cp.rows → s.engineWaits f.k f.c f.id 0 (f.base + BitVec.ofNat 64 (cp.data.length * f.stride)) f.rowBytes false = true →
        exec (.tfetFillComplete f.id) s = .refused .notEnabled) ∧
      (∀ bs, cp.data.length < cp.rows →
        s.engineWaits f.k f.c f.id 0 (f.base + BitVec.ofNat 64 (cp.data.length * f.stride)) f.rowBytes false = false → s.tileRow f.k f.c f.base f.stride f.rowBytes cp.data.length = .ok bs →
        ∃ t : State, exec (.tfetFillComplete f.id) s = .next t ∧ (now t).data = cp.data ++ [bs] ∧ (now t).st = cp.st ∧ t.ms = s.ms) ∧
      (∀ ds, cp.rows ≤ cp.data.length → isCodebook cp.tag = true → cp.factors.length < cp.rows →
        s.tileFactors f.k f.c f.scales cp.k0 (rowCapacity cp.tag cp.narrow) cp.factors.length = .ok ds →
        ∃ t : State, exec (.tfetFillComplete f.id) s = .next t ∧ (now t).factors = cp.factors ++ [ds] ∧ t.ms = s.ms) ∧
      (cp.rows ≤ cp.data.length → (isCodebook cp.tag = false ∨ cp.rows ≤ cp.factors.length) →
        ∃ t : State, exec (.tfetFillComplete f.id) s = .next t ∧ now t = { cp with st := .full } ∧ (∀ g ∈ t.core.tfills, g.id ≠ f.id) ∧
          (t.crs f.k f.c).tiles = (s.crs f.k f.c).tiles - 1 ∧ t.ms = s.ms) ∧
      (∀ cause va, cp.data.length < cp.rows →
        s.engineWaits f.k f.c f.id 0 (f.base + BitVec.ofNat 64 (cp.data.length * f.stride)) f.rowBytes false = false →
        s.tileRow f.k f.c f.base f.stride f.rowBytes cp.data.length = .error (.fault cause va) →
        ∃ t : State, exec (.tfetFillComplete f.id) s = .next t ∧ (now t).st = .empty ∧ (∀ g ∈ t.core.tfills, g.id ≠ f.id) ∧
          (∃ m ∈ (t.crs f.k f.c).merrs, m.cause = cause ∧ m.opk = 0 ∧ m.ref = f.ref) ∧ t.ms = s.ms))) ∧
  (∀ (s : State) (e : MqEntry) (before after : List MqEntry), s.core.mq = before ++ e :: after → (∀ o ∈ before, o.id ≠ e.id) →
    (before.map (·.id)).Nodup →
    (s.mqReady e = true ↔ e.admitted = true ∧ e.waiting = false ∧ (s.cons e.k).onCore = true ∧
      (e.isLoop = true → e.inStep = false → (s.cons e.k).place = .resident) ∧
      let first := before.filter (fun o => o.admitted && (s.cons o.k).onCore)
      ∀ o ∈ first,
        ¬ SameSlot o e ∧ (o.isMma = true → e.isMma = true ∨ e.isLoop = true → KeptBack first o) ∧
        (o.isLoop = true → e.isLoop = false))) ∧
  (∀ (s : State) (e : MqEntry) (n st : Nat) (sat : Bool) (d : List DWord) (g : BitVec 32) (p : Pair), e.slots = [n, n + 1, n + 8, n + 9] →
    n + 9 < 64 → Stands s e.k e.c → s.core.mq.find? (fun o => o.id == e.id) = some e → s.mqReady e = true → e.op = .mloop true sat d g st →
    let y := LoopDesc.of d
    pairOf (fmtTag y.a.fmt) y.a.narrow (fmtTag y.b.fmt) y.b.narrow = some p →
    (s.loopHeld e true d st = true → exec (.matrixPerform e.id) s = .refused .notEnabled) ∧
    (y.ktot ≤ st * p.k → ∃ t : State, exec (.matrixPerform e.id) s = .next t ∧ (∀ o ∈ t.core.mq, o.id ≠ e.id) ∧
      (t.cons e.k).slots = (s.cons e.k).slots) ∧
    ∀ u w : Nat → TileCopy, st * p.k < y.ktot → s.loopHeld e true d st = false →
      (∀ i, i < 2 → s.tileLoad e.k e.c (y.a.view i st p.k y.k0 y.ktot) = .ok (u i)) →
      (∀ i, i < 2 → s.tileLoad e.k e.c (y.b.view i st p.k y.k0 y.ktot) = .ok (w i)) →
      ∃ t : State, exec (.matrixPerform e.id) s = .next t ∧
        (∀ a b : Nat, a < 2 → b < 2 →
          let m := n + 8 * a + b
          let x := (s.cons e.k).slot m
          (m ∈ e.skip → (t.cons e.k).slot m = x) ∧
          (m ∉ e.skip → (t.cons e.k).slot m =
            stepSlot { pair := p, kview := true, sat := sat, nega := false, negb := false } (s.qpVal g) (u a) (w b) x)) ∧
        (∀ m : Nat, m ∉ e.slots → (t.cons e.k).slot m = (s.cons e.k).slot m) ∧
        t.core.mq.find? (fun o => o.id == e.id) = some { e with op := .mloop true sat d g (st + 1), inStep := false, since := s.clock }) ∧
  (∀ (s : State) (e : MqEntry) (n : Nat), e.slots = [n] → n < 64 → Stands s e.k e.c →
    let x := (s.cons e.k).slot n
    let now (t : State) : Slot := (t.cons e.k).slot n
    (s.nextAdmission = some e → s.discarded e = none →
      (∀ ta ca tb cb na nb sat kv g, e.op = .mma ta ca tb cb na nb sat kv g →
        let a := ((s.cons e.k).tile ta).copy ca
        let b := ((s.cons e.k).tile tb).copy cb
        ∀ p, pairOf a.tag a.narrow b.tag b.narrow = some p →
        ∃ t : State, exec (.matrixAdmit e.id) s = .next t ∧ now t = { x with ver := x.ver + 1 } ∧
          (p.float = !x.i40 → { e with admitted := true, since := s.clock } ∈ t.core.mq) ∧
          (p.float = x.i40 → (∀ o ∈ t.core.mq, o.id ≠ e.id) ∧
            ∃ m ∈ (t.crs e.k e.c).merrs, m.cause = .format ∧ m.opk = 1 ∧ m.slot = .ofNat 6 n ∧ m.expv = e.expv)) ∧
      (∀ i40, e.op = .accz i40 → ∃ t : State, exec (.matrixAdmit e.id) s = .next t ∧ now t = { x with ver := x.ver + 1, i40 := i40 } ∧
        { e with admitted := true, since := s.clock } ∈ t.core.mq) ∧
      (∀ w, e.op = .accwv w → ∃ t : State, exec (.matrixAdmit e.id) s = .next t ∧ now t = { x with ver := w } ∧
        { e with admitted := true, since := s.clock } ∈ t.core.mq) ∧
      (∀ r c ep i40 ex four, e.op = .asend r c ep i40 ex four → x.i40 = i40 →
        ∃ t : State, exec (.matrixAdmit e.id) s = .next t ∧ now t = { x with ver := x.ver + 1 } ∧ { e with admitted := true, since := s.clock } ∈ t.core.mq)) ∧
    (s.core.mq.find? (fun o => o.id == e.id) = some e → s.mqReady e = true →
      (∀ ta ca tb cb na nb sat kv g, e.op = .mma ta ca tb cb na nb sat kv g →
        let a := ((s.cons e.k).tile ta).copy ca
        let b := ((s.cons e.k).tile tb).copy cb
        ∀ p, pairOf a.tag a.narrow b.tag b.narrow = some p →
        let live := if kv then min p.k (min a.klen b.klen) else p.k
        ∃ t : State, exec (.matrixPerform e.id) s = .next t ∧ (∀ o ∈ t.core.mq, o.id ≠ e.id) ∧
          (∀ m : Nat, m ≠ n → (t.cons e.k).slot m = (s.cons e.k).slot m) ∧ t.ms = s.ms ∧
          ∀ i j : Nat, i < 16 → j < 16 →
            (a.rows ≤ i ∨ b.rows ≤ j → (now t).entry i j = x.entry i j) ∧
            (i < a.rows → j < b.rows →
              (p.float = true → (now t).entry i j = stepEntry { pair := p, kview := kv, sat := sat, nega := na, negb := nb }
                (s.qpVal g) a b live i j (x.entry i j)) ∧
              (p.float = false → sat = false → (now t).entry i j = BitVec.ofInt 40 ((x.entry i j).toInt +
                ((List.range live).map (fun k => a.int na i k * b.int nb j k)).sum)) ∧
              (p.float = false → sat = true → ∃ acc : Nat → Int, acc 0 = (x.entry i j).toInt ∧
                (now t).entry i j = BitVec.ofInt 40 (acc ((live + 15) / 16)) ∧
                ∀ h, acc (h + 1) = max (-2 ^ 39) (min (2 ^ 39 - 1) (acc h +
                  ((List.range 16).map (fun k => if 16 * h + k < live then a.int na i (16 * h + k) * b.int nb j (16 * h + k) else 0)).sum))))) ∧
      (∀ i40, e.op = .accz i40 → ∃ t : State, exec (.matrixPerform e.id) s = .next t ∧ (∀ o ∈ t.core.mq, o.id ≠ e.id) ∧
        ∀ i j : Nat, i < 16 → j < 16 → (now t).entry i j = 0) ∧
      (∀ w, e.op = .accwv w → ∃ t : State, exec (.matrixPerform e.id) s = .next t ∧ (∀ o ∈ t.core.mq, o.id ≠ e.id) ∧ now t = x) ∧
      (∀ vals row col set, e.op = .accwr vals row col set → row < 15 → ∃ t : State, exec (.matrixPerform e.id) s = .next t ∧
        (∀ o ∈ t.core.mq, o.id ≠ e.id) ∧
        (∀ l : Nat, l < 32 → bit set l = true → (now t).entry (row + l / 16) (l % 16) = directEntry vals.tag (vals.at l)) ∧
        (∀ l : Nat, l < 32 → bit set l = false → (now t).entry (row + l / 16) (l % 16) = x.entry (row + l / 16) (l % 16)) ∧
        ∀ i j, j < 16 → i < 16 → i < row ∨ row + 2 ≤ i → (now t).entry i j = x.entry i j) ∧
      (∀ v fmt row col set, e.op = .accrd v fmt row col set → ∃ t : State, exec (.matrixPerform e.id) s = .next t ∧
        (∀ o ∈ t.core.mq, o.id ≠ e.id) ∧ now t = x ∧
        Receives s t e.k e.c v (if fmt = 0 then 1 else if fmt = 1 then 2 else 4) set
          (fun l => x.readout fmt (row + l / 16) (l % 16) (row + 2 + l / 16) (l % 16))) ∧
      (∀ r c ep i40 four q, e.op = .asend r c ep i40 false four → s.receiver e.k r.toNat c.toNat ep = some q →
        ∃ t : State, exec (.matrixPerform e.id) s = .next t ∧ (∀ o ∈ t.core.mq, o.id ≠ e.id) ∧ now t = x ∧
          ((s.cons e.k).num, [x.entries.toList]) ∈ ((t.cons q.id).chain c.toNat).contribs) ∧
      (∀ r c ep i40 four q, e.op = .asend r c ep i40 true four → s.receiver e.k r.toNat c.toNat ep = some q →
        ∃ t : State, exec (.matrixPerform e.id) s = .next t ∧ now t = x ∧ t.core.packets = s.core.packets ++
          [{ rcv := q.id, chn := c, epoch := ep, member := (s.cons e.k).num, data := [x.entries.toList] }]) ∧
      (∀ sat d g st, e.op = .mloop false sat d g st →
        let y := LoopDesc.of d
        ∀ p, pairOf (fmtTag y.a.fmt) y.a.narrow (fmtTag y.b.fmt) y.b.narrow = some p →
        (s.loopHeld e false d st = true → exec (.matrixPerform e.id) s = .refused .notEnabled) ∧
        (y.ktot ≤ st * p.k → ∃ t : State, exec (.matrixPerform e.id) s = .next t ∧ (∀ o ∈ t.core.mq, o.id ≠ e.id) ∧ now t = x) ∧
        (∀ u w, st * p.k < y.ktot → s.loopHeld e false d st = false → e.skip = [] → s.tileLoad e.k e.c (y.a.view 0 st p.k y.k0 y.ktot) = .ok u →
          s.tileLoad e.k e.c (y.b.view 0 st p.k y.k0 y.ktot) = .ok w →
          ∃ t : State, exec (.matrixPerform e.id) s = .next t ∧
            now t = stepSlot { pair := p, kview := true, sat := sat, nega := false, negb := false } (s.qpVal g) u w x ∧
            t.core.mq.find? (fun o => o.id == e.id) = some { e with op := .mloop false sat d g (st + 1), inStep := false, since := s.clock })) ∧
      (∀ q fmt done, e.op = .accdr q fmt done →
        let all := if fmt = 1 then 128 else 256
        let m := min (all - done) (64 - ((s.crs e.k e.c).port q.toNat).elems.length)
        0 < m → ∃ (t : State) (es : List Elem), exec (.accdrPush e.id) s = .next t ∧ es.length = m ∧
          ((t.crs e.k e.c).port q.toNat).elems = ((s.crs e.k e.c).port q.toNat).elems ++ es ∧ now t = x ∧
          (done + m = all → ∀ o ∈ t.core.mq, o.id ≠ e.id))) ∧
    (s.core.mq.find? (fun o => o.id == e.id) = some e → e.admitted = false → (s.cons e.k).place = .resident →
      e.since + 2 ^ 20 ≤ s.clock → s.qualifies (s.core.mq.filter (fun o => o.id < e.id)) e = false →
      ∃ t : State, exec (.versionWait (2 * e.id)) s = .next t ∧ (∀ o ∈ t.core.mq, o.id ≠ e.id) ∧
        (t.crs e.k e.c).tiles = (s.crs e.k e.c).tiles - 1 ∧ (∃ m ∈ (t.crs e.k e.c).merrs, m.cause = .versionWait) ∧ now t = x)) ∧
  ∀ (s : State) (k c : Nat) (set laps : BitVec 32), (s.crs k c).issueSet = some (set, laps) → (s.cons k).place = .resident →
    let x := s.crs k c
    (∀ st, x.stalled = some st → st.since + 2 ^ 20 ≤ s.clock → x.hold = .none → x.merrs = [] →
      let Takes (ev : Instr) (cause : Cause) (reg : Nat) : Prop :=
        ∃ u : State, exec ev s = .next (u.trapWhole cause (info79 st.iss.enc 0 reg)) ∧ u.iss = { st.iss with set := set } ∧
          u.ms = s.ms ∧ u.core = s.core ∧ (u.crs k c).v = x.v
      (st.why = .ctset → Takes (.codeTableBusy k c) .codeTableBusy 0) ∧
      (st.why = .port → Takes (.queueStall k c) .queueStall st.reg) ∧ (st.why = .launch → Takes (.queueStall k c) .queueStall 0) ∧
      (st.why = .achopen → c < 16 → Takes (.versionWait (2 * (16 * k + c) + 1)) .versionWait 0)) ∧
    (∀ m rest, x.merrs = m :: rest → x.heldFirm = false → x.hmask = 0 →
      ∃ u : State, exec (.matrixErrorDelivery k c) s = .next (u.deliver k c (x.lpcAt (lowest set)) x.lpcAt
          [{ cause := m.cause, lanes := set, info := BitVec.ofNat 64 (m.opk.toNat * 2 ^ 61 + m.slot.toNat * 2 ^ 55 +
              m.expv.toNat * 2 ^ 51 + m.tile.toNat * 2 ^ 48 + m.ref.toNat) }]) ∧
        (u.crs k c).merrs = rest ∧ (u.crs k c).v = x.v ∧ (u.crs k c).lpc = x.lpc ∧ u.ms = s.ms ∧ u.core = s.core)

/-- R343 to R354. The accumulate network: ACHOPEN opens a closed chain over quiet slots and locks them; ACHJOIN binds to the
oldest open epoch that lists its consort, or waits; ASEND enters its slots in the matrix queue; packets land, and an ORDERED packet
moves on where its next member has reserved its buffers; ACHWAIT applies the result of a complete epoch and reports it, or waits;
ACHCLOSE closes the chain. An ACHJOIN or ACHWAIT that waits goes on with ACHJOIN_BIND or ACHWAIT_COMPLETE. Malformed chain words
raise BAD_HANDLE, a receiver that is not resident ACN_NORECV, want of landing buffers ACN_RESERVE. The model's choices (log entry
31): REG of ACN_BADCHAIN and of ACN_RESERVE, and ACN_BADCHAIN of an ACHWAIT whose chain is closed while it waits. -/
def Obligations.AccumulateNetworkResults : Prop :=
  ∀ (s : State) (a b : BitVec 6) (v : BitVec 7), s.issuing = true →
    let q := s.mine
    let cw := (s.getS a.toNat).toNat
    let rcv := cw % 64
    let chn := cw / 2 ^ 8 % 4
    let word : Prop := cw < 2 ^ 10 ∧ cw / 2 ^ 6 % 4 = 0
    (¬ word → (s.overCount (.achjoin a) = none → exec (.achjoin a) s = .next (s.fail .badHandle a.toNat)) ∧
      (s.overCount (.asend a b) = none → exec (.asend a b) s = .next (s.fail .badHandle a.toNat)) ∧
      (s.overCount (.achclose a) = none → exec (.achclose a) s = .next (s.fail .badHandle a.toNat))) ∧
    (let w := (s.getS a.toNat).toNat
     let l := s.getS (a.toNat + 1)
     let slot := field w 5 0
     let four := field w 8 8 = 1
     let exact := field w 9 9 = 1
     let c := field w 11 10
     let n := field w 22 16
     let ts := if field w 8 8 = 1 then [slot, slot + 1, slot + 8, slot + 9] else [slot]
     let named : Prop := field w 63 33 = 0 ∧ field w 23 23 = 0 ∧ field w 7 6 = 0 ∧ (¬ exact → field w 32 24 = 0) ∧
       (four → slot % 8 ≠ 7 ∧ slot / 8 ≠ 7) ∧ (∀ i ∈ ts, i < q.hdr.accslots)
     let chain : Prop := n ≤ 63 ∧ n ≤ q.cpg ∧ (q.chain c).st = .closed
     let listed : Prop := (memberList l).length = n ∧ (∀ i ∈ memberList l, i < q.cpg) ∧ (¬ exact → l.getLsbD q.num = false)
     s.overCount (.achopen a) = none →
      (¬ named → exec (.achopen a) s = .next (s.fail .badHandle a.toNat)) ∧
      (named → ¬ chain → exec (.achopen a) s = .next (s.fail .acnBadchain a.toNat)) ∧
      (named → chain → ¬ listed → exec (.achopen a) s = .next (s.fail .acnBadchain (a.toNat + 1))) ∧
      (named → chain → listed →
      let held : Nat := match s.me.stall with
        | some st => if st.why = .achopen ∧ st.iss.at_ = s.iss.at_ then st.buffers else 0
        | none => 0
      (n ≠ 0 → s.freeBuffers + held < ts.length → exec (.achopen a) s = .next (s.fail .acnReserve 0)) ∧
      ((n = 0 ∨ ts.length ≤ s.freeBuffers + held) → (∃ i ∈ ts, s.slotQuiet q.id i (.ofNat 4 (field w 15 12)) = false) →
        ∃ t : State, exec (.achopen a) s = .next t ∧ (t.me.stall.map (·.why)) = some .achopen ∧ t.me.lpc = s.me.lpc ∧ t.mine.chains = q.chains) ∧
      ((n = 0 ∨ ts.length ≤ s.freeBuffers + held) → (∀ i ∈ ts, s.slotQuiet q.id i (.ofNat 4 (field w 15 12)) = true) → (∃ i ∈ ts, (q.slot i).i40 ≠ (q.slot slot).i40) →
        exec (.achopen a) s = .next (s.fail .format a.toNat)) ∧
      ((n = 0 ∨ ts.length ≤ s.freeBuffers + held) → (∀ i ∈ ts, s.slotQuiet q.id i (.ofNat 4 (field w 15 12)) = true) → (∀ i ∈ ts, (q.slot i).i40 = (q.slot slot).i40) →
        ∃ t : State, exec (.achopen a) s = .next t ∧ (t.mine.chain c).st = .opened ∧ (t.mine.chain c).members = l ∧ (t.mine.chain c).n = n ∧
          ((t.mine.chain c).exact = true ↔ exact) ∧ (t.mine.chain c).i40 = (q.slot slot).i40 ∧ (t.mine.chain c).got = 0 ∧
          (∀ m : Nat, m ≠ c → t.mine.chain m = q.chain m) ∧
          (∀ i : Nat, i < 64 → i ∈ ts → t.mine.slot i = { q.slot i with lock := true }) ∧ (∀ i : Nat, i ∉ ts → t.mine.slot i = q.slot i) ∧
          LanesPast s t ∧ t.me.v = s.me.v ∧ SameMemory s t))) ∧
    (word →
      (s.overCount (.achjoin a) = none →
        (q.cpg ≤ rcv → exec (.achjoin a) s = .next (s.fail .acnBadchain a.toNat)) ∧
        (rcv < q.cpg → s.residentMate q rcv = none → exec (.achjoin a) s = .next (s.fail .acnNorecv a.toNat)) ∧
        (∀ r : Consort, rcv < q.cpg → s.residentMate q rcv = some r → r.joinable chn q = none →
          ∃ t : State, exec (.achjoin a) s = .next t ∧ t.me.hold = .achjoin a s.iss ∧ t.me.lpc = s.me.lpc ∧ t.me.v = s.me.v ∧ SameMemory s t) ∧
        (∀ (r : Consort) (h : Chain), rcv < q.cpg → s.residentMate q rcv = some r → r.joinable chn q = some h →
          (h.exact = false → s.freeBuffers < h.slots.length → exec (.achjoin a) s = .next (s.fail .acnReserve 0)) ∧
          (h.exact = true ∨ h.slots.length ≤ s.freeBuffers → ∃ t : State, exec (.achjoin a) s = .next t ∧ JoinsEpoch s t rcv chn h))) ∧
      (∀ slot e, s.overCount (.asend a b) = none → Addressed s b 16 slot 0 e → q.bindings.find? (fun y => !y.sent && y.rcv.toNat == rcv && y.chn.toNat == chn) = none →
        (q.cpg ≤ rcv → exec (.asend a b) s = .next (s.fail .acnBadchain a.toNat)) ∧
        (rcv < q.cpg → s.residentMate q rcv = none → exec (.asend a b) s = .next (s.fail .acnNorecv a.toNat)) ∧
        (rcv < q.cpg → (s.residentMate q rcv).isSome = true → exec (.asend a b) s = .next (s.fail .acnBadchain a.toNat))) ∧
      (∀ d slot e, s.overCount (.asend a b) = none → rcv < q.cpg → (s.residentMate q rcv).isSome = true →
        q.bindings.find? (fun y => !y.sent && y.rcv.toNat == rcv && y.chn.toNat == chn) = some d →
        q.bindings.find? (fun y => y.epoch == d.epoch && !y.sent) = some d → Addressed s b 16 slot 0 e →
        let ts := if d.four then [slot, slot + 1, slot + 8, slot + 9] else [slot]
        (d.four = true → slot % 8 ≠ 7 ∧ slot / 8 ≠ 7) → (∀ i ∈ ts, i < q.hdr.accslots ∧ (q.slot i).lock = false) →
        s.mqLevel < 32 → s.me.tiles < 255 →
        ∃ (t : State) (y : MqEntry), exec (.asend a b) s = .next t ∧ t.core.mq = s.core.mq ++ [y] ∧ y.k = s.iss.k ∧ y.c = s.iss.c ∧ y.slots = ts ∧
          y.expv = e ∧ y.op = .asend d.rcv d.chn d.epoch d.i40 d.exact d.four ∧ t.me.tiles = s.me.tiles + 1 ∧
          { d with sent := true } ∈ t.mine.bindings ∧ LanesPast s t ∧ t.me.v = s.me.v ∧ SameMemory s t) ∧
      (∀ s1 tg, s.overCount (.achwait v a) = none → s.vecRead [] (some v) false [] true noCheck = .ok (s1, tg, []) →
        (rcv ≠ q.num ∨ (q.chain chn).st ≠ .opened → exec (.achwait v a) s = .next (s.fail .acnBadchain a.toNat)) ∧
        (rcv = q.num → (q.chain chn).st = .opened → (q.chain chn).complete = false →
          ∃ t : State, exec (.achwait v a) s = .next t ∧ t.me.hold = .achwait v a s.iss ∧ t.me.lpc = s.me.lpc ∧ t.me.v = s.me.v ∧
            SameMemory s t) ∧
        (rcv = q.num → (q.chain chn).st = .opened → (q.chain chn).complete = true → (q.chain chn).slots.Nodup →
          ∃ t : State, exec (.achwait v a) s = .next t ∧ AppliesEpoch s t v chn)) ∧
      (s.overCount (.achclose a) = none →
        (rcv ≠ q.num → exec (.achclose a) s = .next (s.fail .acnBadchain a.toNat)) ∧
        (rcv = q.num → ∃ t : State, exec (.achclose a) s = .next t ∧ (t.mine.chain chn).st = .closed ∧ LanesPast s t ∧ t.me.v = s.me.v ∧
          ((q.chain chn).st ≠ .opened → t.mine.slots = q.slots) ∧
          (∀ i : Nat, (t.mine.slot i).entries = (q.slot i).entries) ∧ SameMemory s t))) ∧
    (∀ (k c rcv chn : Nat) (iss : Issue), iss.k = k → iss.c = c → (s.cons k).place = .resident →
      let u : State := { (s.modCrs k c (fun x => { x with hold := .none, age := s.clock })) with iss := iss }
      ChainWord u a rcv chn →
      ((s.crs k c).hold = .achjoin a iss → rcv < u.mine.cpg →
        (u.liveMate u.mine rcv = none → exec (.achjoinBind k c) s = .next (u.fail .acnNorecv a.toNat)) ∧
        ∀ (r : Consort) (h : Chain), u.residentMate u.mine rcv = some r → r.joinable chn u.mine = some h →
          (h.exact = false → u.freeBuffers < h.slots.length → exec (.achjoinBind k c) s = .next (u.fail .acnReserve 0)) ∧
          (h.exact = true ∨ h.slots.length ≤ u.freeBuffers → ∃ t : State, exec (.achjoinBind k c) s = .next t ∧ JoinsEpoch u t rcv chn h)) ∧
      (∀ s1 tg, (s.crs k c).hold = .achwait v a iss → u.vecRead [] (some v) false [] true noCheck = .ok (s1, tg, []) →
        ((u.mine.chain chn).st ≠ .opened → exec (.achwaitComplete k c) s = .next (u.fail .acnBadchain a.toNat)) ∧
        (rcv = u.mine.num → (u.mine.chain chn).st = .opened → (u.mine.chain chn).complete = true → (u.mine.chain chn).slots.Nodup →
          ∃ t : State, exec (.achwaitComplete k c) s = .next t ∧ AppliesEpoch u t v chn))) ∧
    (∀ (n : Nat) (p : Packet), s.core.packets[n]? = some p →
      ∃ t : State, exec (.acnFlitLanding n) s = .next t ∧ t.core.packets = s.core.packets.eraseIdx n ∧
        (let h := (s.cons p.rcv).chain p.chn.toNat
         (s.consorts.find? (·.id == p.rcv)).isSome = true → (s.cons p.rcv).place ≠ .retired → h.st = .opened → h.epoch = p.epoch →
          ((t.cons p.rcv).chain p.chn.toNat).got = h.got ||| (1#64 <<< p.member)) ∧ SameMemory s t) ∧
    ∀ (k m : Nat) (c : BitVec 2) (later : List Nat), (s.consorts.find? (·.id == k)).isSome = true → (s.cons k).onCore = true →
      let r := s.cons k
      let h := r.chain c.toNat
      let ms := memberList h.members
      let next := later.find? (fun i => !h.broken.getLsbD i)
      let now (t : State) : Chain := (t.cons k).chain c.toNat
      let Moves (packet : List (List (BitVec 40))) : Prop :=
        ∃ t : State, exec (.acnOrderedForward k c) s = .next t ∧ (now t).packet = some packet ∧
          (∀ i, next = some i → ms[(now t).passed]? = some i) ∧ (next = none → (now t).passed = ms.length) ∧
          ∀ q ∈ t.consorts, q.launch = r.launch → q.gang = r.gang → q.num = m → ∀ b ∈ q.bindings, b.epoch ≠ h.epoch
      h.st = .opened → h.exact = false → ms.drop h.passed = m :: later →
      (h.broken.getLsbD m = true → h.packet = none →
        ∃ t : State, exec (.acnOrderedForward k c) s = .next t ∧ now t = { h with passed := h.passed + 1 }) ∧
      ((∀ i, next = some i → s.reserved r h.epoch i = true) → s.reserved r h.epoch m = true →
        (∀ x, h.broken.getLsbD m = true → h.packet = some x → Moves x) ∧
        ∀ data, h.broken.getLsbD m = false → h.contribs.find? (·.1 == m) = some (m, data) →
          Moves (match h.packet with
            | none => data
            | some x => (x.zip data).map (fun y => (y.1.zip y.2).map (fun z => addEntry h.i40 z.1 z.2))))

namespace Sys2Proof.Statements

/-- R366. SOFTMX and SAMPLE read NaN as −∞. -/
def numberOf (x : Word) : Word := if F32.val x.toNat = .nan then 0xFF800000#32 else x

/-- R368. Element x, a word with its index, ranks above element y. -/
def Above (x y : Word × Nat) : Prop :=
  let a := F32.val x.1.toNat
  let b := F32.val y.1.toNat
  (a ≠ .nan ∧ b = .nan) ∨ a.cmp b = .gt ∨ (x.1 = 0 ∧ y.1 = 0x80000000#32) ∨ ((x.1 = y.1 ∨ a = .nan ∧ b = .nan) ∧ x.2 < y.2)

/-- R366. Every NaN among them is the canonical one. -/
def Canonical (xs : List Word) : Prop := ∀ x ∈ xs, F32.val x.toNat = .nan → x = 0x7FC00000#32

/-- R369. m is the greatest of the elements, NaN read as −∞ and +0 above −0. -/
def MaxOf (xs : List Word) (m : Word) : Prop := m ∈ xs.map numberOf ∧ ∀ x ∈ xs.map numberOf, Above (m, 0) (x, 1)

/-- R369. The weight e of element x for the maximum m and temperature t: 1.0 where they are equal, else EXP2(rn(rn(x − m) · c)), where
c = rn(0x3FB8AA3B · rn(1 / t)). -/
def weightOf (m t x : Word) : Word :=
  let q : Word := BitVec.ofNat 32 (F32.round 0 ((F32.val 0x3F800000).div (F32.val t.toNat)))
  if (F32.val (numberOf x).toNat).cmp (F32.val m.toNat) = .eq then 0x3F800000#32
  else BitVec.ofNat 32 (elemSpec .exp2 0 false F32 (mulF32 (addF32 (numberOf x) (negF32 m)) (mulF32 0x3FB8AA3B#32 q)).toNat)

/-- R242. T n j is the tree over the 2^n positions from j on of what f has there; an absent one is passed over. -/
def TreeSums (f : Nat → Option Word) (T : Nat → Nat → Option Word) : Prop :=
  (∀ j, T 0 j = f j) ∧ ∀ n j : Nat, T (n + 1) j = match T n j, T n (j + 2 ^ n) with
    | none, y => y
    | y, none => y
    | some y, some z => some (addF32 y z)

/-- R369. S: the serial sum of the sums of blocks of 64 weights. -/
def SumOf (es : List Word) (S : Word) : Prop :=
  ∃ T, TreeSums (fun i => es[i]?) T ∧ serialSum ((List.range ((es.length + 63) / 64)).filterMap (fun j => T 6 (64 * j))) = some S

/-- R371. The running sum that starts at r and adds the weights of is in turn. -/
def runSum (e : Nat → Word) (r : Word) (is : List Nat) : Word := is.foldl (fun q i => addF32 q (e i)) r

/-- R371. n is the number of the first of count running sums to reach h, or of the last. Sums and targets are not negative, so that their
words compare as their values. -/
def FirstTo (sum : Nat → Word) (h : Word) (count n : Nat) : Prop :=
  1 ≤ n ∧ n ≤ count ∧ (∀ i, 1 ≤ i → i < n → (sum i).toNat < h.toNat) ∧ (n = count ∨ h.toNat ≤ (sum n).toNat)

/-- R371. SAMPLE's choice is index i: xs is what its first pass read, ys what its second read. -/
def Chosen (k : Nat) (pen : Bool) (p t : Word) (u : DWord) (xs ys : List Word) (i : Nat) : Prop :=
  ∃ (m : Word) (T : Nat → Nat → Option Word) (C : List Nat), MaxOf xs m ∧
    let e (i : Nat) : Word := weightOf m t (ys.getD i 0)
    let C0 := if k = 0 then List.range xs.length else ((ranked (xs.map numberOf)).take k).map (·.2)
    (pen = false → C = C0) ∧
    (pen = true → ∃ W n, serialSum (C0.map e) = some W ∧ FirstTo (fun n => runSum e 0 (C0.take n)) (mulF32 p W) C0.length n ∧ C = C0.take n) ∧
    let survivors := (List.range xs.length).filter (fun i => decide (i ∈ C ∧ e i ≠ 0))
    TreeSums (fun i => if i ∈ survivors then some (e i) else none) T ∧
    let blocks := (List.range ((xs.length + 63) / 64)).filter (fun j => (T 6 (64 * j)).isSome)
    let prefix_ (n : Nat) : Word := (serialSum ((blocks.take n).filterMap (fun j => T 6 (64 * j)))).getD 0
    let target := BitVec.ofNat 32 (F32.round 0 ((Num.num false (field u.toNat 31 8) (-24)).mul (F32.val (prefix_ blocks.length).toNat)))
    ∃ n j l, FirstTo prefix_ target blocks.length n ∧ blocks[n - 1]? = some j ∧
      let here := survivors.filter (fun i => i / 64 == j)
      FirstTo (fun l => runSum e (prefix_ (n - 1)) (here.take l)) target here.length l ∧ here[l - 1]? = some i

/-- R372. What the engine's operation op waits for or stops with where an access to side dst ends so. -/
def SelStops (s : State) (op : SelOp) (ev : Instr) (dst : Bool) (cause : Cause) (va : DWord) (t : State) : Prop :=
  exec ev s = .next t ∧ (∀ o ∈ t.core.selq, o.id ≠ op.id) ∧ ((t.crs op.k op.c).token op.tok.toNat).st = .error cause ∧
    ((t.crs op.k op.c).token op.tok.toNat).dst = dst ∧ ((t.crs op.k op.c).token op.tok.toNat).addr = va.setWidth 56 ∧
    t.core.selbufs = s.core.selbufs

end Sys2Proof.Statements

/-- R361 to R374. Selection: TOPK, SOFTMX and SAMPLE with a group that passes its checks, a port bound with KIND 0, room in the queue
and a free token enter the queue; a failed check raises its cause at the operand at fault
(R364; the words of P in (0, 1] are 1 to 0x3F800000, and those of a positive normal finite F32 0x00800000 to 0x7F7FFFFF). The oldest operation is served when a
buffer is free; it reads its passes element by element, up to 64 elements an event (the model's grain, log entry 32), and waits where its
course's earlier accesses must perform first (R377, R384); a whole TOPK or SAMPLE, or SOFTMX after its last pass, stands in its
buffer with its token FREE; buffers are delivered to their port in order, as it has room. TOPK's results are the K highest in rank;
SAMPLE's index is the one R371 chooses (a free value where a source rewritten between the passes leaves no survivor, log entry 32);
SOFTMX's third pass writes e[i] / S at its destination and no other byte, and its group holds m and S. -/
def Obligations.SelectionResults : Prop :=
  (∀ (s : State) (q : BitVec 4) (a u : BitVec 6) (k : BitVec 3) (kind : Nat) (j : Instr), s.issuing = true →
    (kind = 0 ∧ j = .topk q a k ∨ kind = 1 ∧ j = .softmx q a k ∨ kind = 2 ∧ j = .sample q a u k) → s.overCount j = none →
    let w (i : Nat) : Nat := (s.getS (a.toNat + i)).toNat
    let p := s.me.port q.toNat
    let len := field (w 1) 22 0
    let n := if field (w 1) 23 23 = 1 then 2 else 4
    let d := if field (w 1) 24 24 = 1 then 2 else 4
    let pen : Prop := field (w 1) 25 25 = 1
    let rank := field (w 1) 42 32
    let offSrc : Prop := w 0 % n ≠ 0
    let offDst : Prop := kind = 1 ∧ w 3 % d ≠ 0
    let badCtl : Prop := field (w 1) 63 43 ≠ 0 ∨ field (w 1) 31 26 ≠ 0 ∨ len = 0 ∨ 2 ^ 22 < len ∨ (kind = 0 ∧ (rank = 0 ∨ 1024 < rank)) ∨
      (kind = 1 ∧ rank ≠ 0) ∨ (kind = 2 ∧ 1024 < rank) ∨ (pen ∧ (kind ≠ 2 ∨ rank = 0)) ∨ (d = 2 ∧ kind ≠ 1)
    let badPar : Prop := (pen ∧ ¬ (1 ≤ w 2 / 2 ^ 32 ∧ w 2 / 2 ^ 32 ≤ 0x3F800000)) ∨
      (kind ≠ 0 ∧ ¬ (0x00800000 ≤ w 2 % 2 ^ 32 ∧ w 2 % 2 ^ 32 < 0x7F800000))
    let badDst : Prop := kind = 1 ∧ (w 3 < w 0 + len * n ∧ w 0 < w 3 + len * d) ∧ ¬ (w 3 = w 0 ∧ d = n)
    (offSrc → exec j s = .next (s.fail .misalign a.toNat)) ∧
    (¬ offSrc → offDst → exec j s = .next (s.fail .misalign (a.toNat + 3))) ∧
    (¬ offSrc → ¬ offDst → badCtl → exec j s = .next (s.fail .badHandle (a.toNat + 1))) ∧
    (¬ offSrc → ¬ offDst → ¬ badCtl → badPar → exec j s = .next (s.fail .badHandle (a.toNat + 2))) ∧
    (¬ offSrc → ¬ offDst → ¬ badCtl → ¬ badPar → badDst → exec j s = .next (s.fail .badHandle (a.toNat + 3))) ∧
    (¬ offSrc → ¬ offDst → ¬ badCtl → ¬ badPar → ¬ badDst →
      (¬ (p.bound = true ∧ p.kind = 0) → exec j s = .next (s.fail .badHandle (112 + q.toNat))) ∧
      (p.bound = true → p.kind = 0 → 4 ≤ (s.core.selq.filter (fun o => !o.served)).length → exec j s = .next (s.stallFor .other)) ∧
      (p.bound = true → p.kind = 0 → (s.core.selq.filter (fun o => !o.served)).length < 4 → (s.me.token k.toNat).st = .pending →
        exec j s = .next (s.stallFor .other)) ∧
      (p.bound = true → p.kind = 0 → (s.core.selq.filter (fun o => !o.served)).length < 4 → (s.me.token k.toNat).st = .free →
        ∃ (t : State) (op : SelOp), exec j s = .next t ∧ t.core.selq = s.core.selq ++ [op] ∧ op.k = s.iss.k ∧ op.c = s.iss.c ∧ op.kind = kind ∧
          op.port = q ∧ op.tok = k ∧ op.src = s.getS a.toNat ∧ op.ctl = s.getS (a.toNat + 1) ∧ op.par = s.getS (a.toNat + 2) ∧
          op.dst = s.getS (a.toNat + 3) ∧ (kind = 2 → op.u = s.getS u.toNat) ∧ op.served = false ∧ op.reads = [] ∧
          (t.me.token k.toNat).st = .pending ∧ LanesPast s t ∧ t.me.v = s.me.v ∧ SameMemory s t))) ∧
  (∀ xs : List Word, Canonical xs → (ranked xs).Pairwise Above ∧ (ranked xs).Perm (xs.zip (List.range xs.length))) ∧
  (∀ (k : Nat) (pen : Bool) (p t : Word) (u : DWord) (xs : List Word), Canonical xs → xs ≠ [] → (pen = true → k ≠ 0) →
    ∃ i, Chosen k pen p t u xs xs i) ∧
  (∀ (s : State) (op : SelOp) (va : DWord) (wr : Bool) (n : Nat) (pas : List Nat), s.engineAccess op.k op.c va wr n = .ok pas →
    ((∀ a ∈ pas, isHost a = false) → s.selAccess op va wr n = .ok pas) ∧
    ∀ (i a : Nat), pas[i]? = some a → isHost a = true → (∀ b ∈ pas.take i, isHost b = false) →
      s.selAccess op va wr n = .fault .xlateDenied (va + BitVec.ofNat 64 i)) ∧
  (∀ (s : State) (op : SelOp), s.core.selq.find? (fun o => o.id == op.id) = some op →
    let c := SelCtl.of op.ctl
    let width (bf : Bool) : Nat := if bf then 2 else 4
    let fmt (bf : Bool) : Fmt := if bf then BF16 else F32
    let now (t : State) : Option SelOp := t.core.selq.find? (fun o => o.id == op.id)
    let Whole (ev : Instr) (es : List Elem) : Prop :=
      ∃ t : State, exec ev s = .next t ∧ (∀ o ∈ t.core.selq, o.id ≠ op.id) ∧ t.core.selbufs = s.core.selbufs ++
          [{ id := op.id, k := op.k, c := op.c, port := op.port, elems := es }] ∧
        ((t.crs op.k op.c).token op.tok.toNat).st = .free ∧ t.ms = s.ms
    (s.core.selq.find? (fun o => !o.served) = some op → (∀ o ∈ s.core.selq, o.served = false) → s.core.selbufs.length < 2 →
      ∃ t : State, exec (.selServe op.id) s = .next t ∧ now t = some { op with served := true } ∧ t.consorts = s.consorts ∧ t.ms = s.ms) ∧
    (∀ ws, s.selBlock op = .ok ws → ws.length = min 64 (c.len - op.pass.length) ∧ ∀ (i : Nat) (x : Word), ws[i]? = some x →
      ∃ pas, s.selAccess op (op.src + BitVec.ofNat 64 ((op.pass.length + i) * width c.bf16)) false (width c.bf16) = .ok pas ∧
        let y := leNat (pas.map (fun a => s.viewByte 5 op.k op.c a)) * (if c.bf16 then 2 ^ 16 else 1)
        x = if F32.val y = .nan then 0x7FC00000#32 else BitVec.ofNat 32 y) ∧
    (op.served = true → op.waiting = false → Stands s op.k op.c →
      let ev : Instr := if op.kind = 1 then .softmxComplete op.id else .selResultReady op.id
      let passes : Nat := if op.kind = 0 then 1 else if op.kind = 1 then 3 else 2
      (s.selWaits op = true → exec ev s = .refused .notEnabled) ∧
      (s.ms.stores = [] → s.ms.atoms = [] → s.selWaits op = false) ∧
      (s.selWaits op = false →
      (op.kind ≤ 2 → op.reads.length < passes → op.reads = [] ∨ op.pass.length = c.len →
        ∃ t : State, exec ev s = .next t ∧ now t = some { op with reads := op.reads ++ [[]] } ∧ t.ms = s.ms) ∧
      (∀ ws, op.reads ≠ [] → op.reads.length < 3 → op.pass.length < c.len → s.selBlock op = .ok ws →
        ∃ t : State, exec ev s = .next t ∧ now t = some { op with reads := op.reads.dropLast ++ [op.pass ++ ws] } ∧ t.ms = s.ms) ∧
      (∀ cause va, op.reads ≠ [] → op.pass.length < c.len → s.selBlock op = .error (.fault cause va) →
        ∃ t : State, SelStops s op ev false cause va t ∧ t.ms = s.ms) ∧
      (∀ va, op.reads ≠ [] → op.pass.length < c.len → s.selBlock op = .error (.absent va) →
        ∃ (t : State) (r : FaultRecord), exec ev s = .next t ∧ now t = some { op with waiting := true } ∧
          t.hub.faults = s.hub.faults ++ [r] ∧ r.kind = 2 ∧ r.cause = 6 ∧ r.access = 128 ∧ r.addr = va ∧ r.cref = op.ref ∧ t.ms = s.ms) ∧
      (∀ xs, op.kind = 0 → op.reads = [xs] → xs.length = c.len →
        Whole ev ((List.range ((c.k + 31) / 32)).flatMap (fun g =>
          let at_ (i : Nat) : Option (Word × Nat) := if 32 * g + i < c.k then (ranked xs)[32 * g + i]? else none
          (List.range 32).map (fun i => { val := ((at_ i).map (·.1)).getD 0x7FC00000#32, tag := 1 : Elem }) ++
            (List.range 32).map (fun i =>
              { val := ((at_ i).map (fun x => BitVec.ofNat 32 x.2)).getD 0xFFFFFFFF#32, tag := 5 : Elem })))) ∧
      (∀ xs ys, op.kind = 2 → op.reads = [xs, ys] → xs.length = c.len → ys.length = c.len → Canonical xs → Canonical ys →
        let Choice := Chosen c.k c.pen (BitVec.ofNat 32 (op.par.toNat / 2 ^ 32)) (op.par.setWidth 32) op.u xs ys
        ∃ i : Nat, Whole ev (List.replicate 32 { val := .ofNat 32 i, tag := 5 }) ∧ ((∃ n, Choice n) → Choice i)) ∧
      ∀ xs ys zs, op.kind = 1 → op.reads = [xs, ys, zs] → xs ≠ [] → ys ≠ [] → Canonical xs → Canonical ys →
        ∃ m S : Word, MaxOf xs m ∧ SumOf (ys.map (weightOf m (op.par.setWidth 32))) S ∧
        (zs.length = c.len → Whole ev ({ val := m, tag := 1 } :: { val := S, tag := 1 } :: List.replicate 30 { val := 0, tag := 1 })) ∧
        ∀ ws, zs.length < c.len → Canonical ws → s.selBlock op = .ok ws →
          let at_ (i : Nat) : DWord := op.dst + BitVec.ofNat 64 ((zs.length + i) * width c.dfmt)
          ∃ bs : List (List Byte), bs.length = ws.length ∧
            (∀ (i : Nat) (x : Word) (b : List Byte), ws[i]? = some x → bs[i]? = some b → b.length = width c.dfmt ∧
              let q := (fmt c.dfmt).round 0 ((F32.val (weightOf m (op.par.setWidth 32) x).toNat).div (F32.val S.toNat))
              (fmt c.dfmt).val (leNat b) ≠ .nan ∧ ((fmt c.dfmt).val q ≠ .nan → leNat b = q)) ∧
            ∀ (u : Nat → State) (pas : Nat → List Nat) (n : Nat), n ≤ bs.length → u 0 = s →
              (∀ (i : Nat) (b : List Byte), i < n → bs[i]? = some b →
                (u i).selAccess op (at_ i) true (width c.dfmt) = .ok (pas i) ∧
                u (i + 1) = (u i).engineWrite 5 op.k op.c op.id op.region (at_ i) (pas i) b) →
              let Written (t : State) : Prop := Memory.wf s.ms.mem → ((List.range n).flatMap pas).Nodup →
                (∀ (i j a : Nat) (b : List Byte), i < n → bs[i]? = some b → (pas i)[j]? = some a → some (memGet t.ms.mem a) = b[j]?) ∧
                ∀ a : Nat, (∀ i < n, a ∉ pas i) → memGet t.ms.mem a = memGet s.ms.mem a
              (n = bs.length → ∃ t : State, exec ev s = .next t ∧ now t = some { op with reads := [xs, ys, zs ++ ws] } ∧ Written t) ∧
              ∀ cause va, n < bs.length → (u n).selAccess op (at_ n) true (width c.dfmt) = .fault cause va →
                ∃ t : State, SelStops s op ev true cause va t ∧ Written t))) ∧
  ∀ (s : State) (b : SelBuf), s.core.selbufs.find? (fun o => o.id == b.id) = some b → Stands s b.k b.c →
    (s.core.selbufs.find? (fun o => o.k == b.k && o.c == b.c && o.port == b.port)).map (·.id) = some b.id →
    let have_ := ((s.crs b.k b.c).port b.port.toNat).elems
    have_.length < 64 →
    ∃ t : State, exec (.selDeliver b.id) s = .next t ∧
      ((t.crs b.k b.c).port b.port.toNat).elems = have_ ++ b.elems.take (64 - have_.length) ∧
      (b.elems.length ≤ 64 - have_.length → ∀ o ∈ t.core.selbufs, o.id ≠ b.id) ∧
      (64 - have_.length < b.elems.length → t.core.selbufs.find? (fun o => o.id == b.id) =
        some { b with elems := b.elems.drop (64 - have_.length) }) ∧ t.ms = s.ms

/-! ### Launches, queues and ports -/

namespace Sys2Proof.Statements

/-- The bytes at these addresses are bs, and every other byte of home memory but those of the n bytes at b is as before. -/
def Lands (s t : State) (pas : List Nat) (bs : List Byte) (b n : Nat) : Prop :=
  (∀ (i a : Nat), pas[i]? = some a → some (memGet t.ms.mem a) = bs[i]?) ∧
    ∀ a : Nat, a ∉ pas → (a < b ∨ b + n ≤ a) → memGet t.ms.mem a = memGet s.ms.mem a

/-- R260. The issue set takes a cause at address va, with the layout of an access. -/
def Takes260 (s : State) (j : Instr) (cause : Cause) (va : DWord) (wr : Bool) : Prop :=
  exec j s = .next (s.trapWhole cause (BitVec.ofNat 64 (lowest s.iss.set * 2 ^ 59 + wr.toNat * 2 ^ 58 + va.toNat % 2 ^ 56)))

/-- Distinct bytes of a ring, none of them of the WRIDX of queue q. -/
def Apart (s : State) (pas : List Nat) (q : Nat) : Prop :=
  pas.Nodup ∧ ∀ a ∈ pas, a < s.qdPa q + 0x14 ∨ s.qdPa q + 0x18 ≤ a

/-- R117. The descriptor of an enabled queue of a defined kind is malformed. -/
def Malformed (d : QDesc) : Prop :=
  d.enabled = true ∧ d.kind ≤ 2 ∧ ((∀ i : Nat, 6 ≤ i → i ≤ 30 → d.size ≠ 2 ^ i) ∨ d.base.toNat % 256 ≠ 0 ∨ 4 ≤ d.flags ∨ d.reserved = true)

/-- R17, R136. Records of an address space may be launched into queue q. -/
def MayLaunch (s : State) (q : DWord) (aspace : BitVec 16) : Prop :=
  let d := s.qdesc q.toNat
  q.toNat < 4096 ∧ s.qdMine q.toNat = true ∧ d.kind = 0 ∧ d.enabled = true ∧ ¬ Malformed d ∧ d.aspace = aspace

/-- R17, R127, R137. The bytes of a node descriptor take records from a course of an address space. -/
def NodeTakes (s : State) (bs : List Byte) (aspace : BitVec 16) : Prop :=
  let f (a n : Nat) : Nat := leNat ((bs.drop a).take n)
  let d := s.qdesc (f 8 4)
  f 12 2 = 1 ∧ f 14 2 = 0 ∧ f 0x1C 36 = 0 ∧ f 0 2 % 16 = 0 ∧ 16 ≤ f 0 2 ∧ f 0 2 ≤ 256 ∧ 1 ≤ f 2 2 ∧ f 2 2 ≤ 512 ∧ f 8 4 < 4096 ∧
    s.qdMine (f 8 4) = true ∧ d.enabled = true ∧ ¬ Malformed d ∧ d.kind = 2 ∧ f 2 2 * f 0 2 ≤ d.size ∧ d.aspace = aspace

/-- R249. A binding word: KIND 0 to 5, a channel number for KIND 2 and 3, and every other bit zero. -/
def BindWord (w : DWord) : Prop :=
  w.toNat % 8 < 6 ∧ w.toNat = w.toNat % 8 + (if w.toNat % 8 = 2 ∨ w.toNat % 8 = 3 then 2 ^ 8 * (w.toNat / 2 ^ 8 % 8) else 0)

/-- R31, R110, R111, R114. A record passes with its header, from an origin, with n bytes of inline data or graph records. That a
handler's CPG and NGANG are not tested is the model's choice (log entry 51). -/
def RecordGood (rb hb : List Byte) (o : Origin) (n : Nat) : Prop :=
  let f (a k : Nat) : Nat := leNat ((rb.drop a).take k)
  let h (a k : Nat) : Nat := leNat ((hb.drop a).take k)
  let khw := h 0 4
  let courses := h 24 1
  let cpg := f 0x26 1
  let w (i : Nat) : Nat := f (0x20 + i) 1
  let low := w 0 + w 1 + w 2
  let width := low + w 3 + w 4 + w 5
  (f 0 1 = 1 ∧ f 1 1 ≤ 2 ∧ (o ≠ .hostRing → f 1 1 = 0)) ∧
  (f 2 2 ≤ 1 ∧ f 0x27 1 = 0 ∧ f 0x38 8 = 0 ∧ h 0x1A 1 ≤ 7 ∧ h 0x1B 1 ≤ 3 ∧ h 0x1C 36 = 0) ∧
  ((field khw 31 28 = 3 ∧ field khw 27 22 = 0 ∨ field khw 31 28 = 2 ∧ field khw 21 21 = 1 ∧ field khw 27 22 ≤ 3) ∧
    1 ≤ field khw 19 13 ∧ field khw 19 13 ≤ 112 ∧ field khw 3 0 ≤ 8) ∧
  (1 ≤ courses ∧ courses ≤ 16 ∧ field khw 7 4 < courses) ∧
  (h 12 4 % 128 = 0 ∧ h 12 4 ≤ 262144 ∧ h 25 1 ≤ 64) ∧
  (w 0 = 5 ∧ w 1 ≤ 4 ∧ courses ≤ 2 ^ w 1 ∧ cpg ≤ 2 ^ w 2 ∧ width ≤ 64 ∧ f 0x18 8 % 2 ^ low = 0 ∧
    (o ≠ .batch → f 0x18 8 + f 0x28 4 * 2 ^ low ≤ 2 ^ width)) ∧
  (1 ≤ cpg ∧ cpg ≤ 64 ∧ f 0x28 4 ≠ 0) ∧
  h 16 8 % 128 = 0 ∧ n ≤ h 12 4 ∧ (o = .handler → 64 ≤ h 12 4) ∧ (o = .batch → cpg = 1 ∧ f 0x28 4 = 1)

end Sys2Proof.Statements

/-- R126, R127, R130, R134 to R139, R247 to R249. LNCH keeps its record for its queue; EMIT puts its record into its node's ring; JCNEW and
JCDEC change their counter and no other byte; JCWAIT returns the counter's upper bits where COUNT is zero and else waits; MBOX
registers the lowest free mailbox or releases one; QBIND, QFREE and QSTAT bind, free and report a port. A check that fails
raises its cause, and what must wait stalls. The model's choices (log entry 37): LNCH waits for no store; EMIT and QBIND read a node
through the course's own stores; a misaligned JCNEW or JCDEC has WR 1; bits 127 to 64 of a join counter are left alone; that EMIT and
LNCH halt no queue whose descriptor is malformed, and that a join counter in the host region is acted on as one in device memory
(log entry 51); and the TRAPINFO of EMIT's POISON, the scratchpad offset with the layout of an access (log entry 72). -/
def Obligations.LaunchInstructionResults : Prop :=
  ∀ (s : State) (a b : BitVec 6) (v : BitVec 7) (p4 : BitVec 4), s.issuing = true →
    let k := s.iss.k
    let c := s.iss.c
    let A := s.getS a.toNat
    let B := s.getS b.toNat
    (s.overCount (.lnch a b) = none → A.toNat % 64 ≠ 0 → Takes260 s (.lnch a b) .misalign A false) ∧
    (s.overCount (.emit a b) = none → A.toNat % 64 ≠ 0 → exec (.emit a b) s = .next (s.fail .badHandle a.toNat)) ∧
    (s.overCount (.lnch a b) = none → A.toNat % 64 = 0 →
      (¬ MayLaunch s B s.mine.aspace → exec (.lnch a b) s = .next (s.fail .badHandle b.toNat)) ∧
      (MayLaunch s B s.mine.aspace → 4 ≤ s.me.pending.length → exec (.lnch a b) s = .next (s.stallFor .launch)) ∧
      (∀ pa ch, MayLaunch s B s.mine.aspace → s.me.pending.length < 4 → s.recordFate A = .ok pa ch →
        s.atomPending k c [pa] 64 = false →
        ∃ (t : State) (p : Pending), exec (.lnch a b) s = .next t ∧ p.upTo = s.nextId ∧ p.region = s.me.region ∧ t.me.pending = s.me.pending ++ [p] ∧ p.bytes = s.readBytes 0 pa 64 ∧
          p.queue = B.toNat ∧ p.waiting = false ∧ t.me.region = s.me.region + 1 ∧ LanesPast s t ∧ t.me.v = s.me.v ∧
          SameMemory s t)) ∧
    (∀ (bs : List Byte) (pa : Nat) (pas : List Nat), s.overCount (.emit a b) = none → A.toNat % 64 = 0 →
      s.fetchVa s.mine.aspace A 64 = .bytes bs pa →
      let n := Node.ofBytes (s.readBytes 0 pa 64)
      let takes : Prop := NodeTakes s (s.readBytes 0 pa 64) s.mine.aspace
      let d := s.qdesc n.qid
      (¬ takes → exec (.emit a b) s = .next (s.fail .badHandle a.toNat)) ∧
      (takes → B.toNat % 16 ≠ 0 ∨ s.mine.spOff B.toNat n.recsz = true →
        exec (.emit a b) s = .next (s.switchOff s.iss.set)) ∧
      (takes → B.toNat % 16 = 0 → s.mine.spOff B.toNat n.recsz = false →
        s.mine.spPoisoned B.toNat n.recsz = true → Takes260 s (.emit a b) .poison (.ofNat 64 B.toNat) false) ∧
      (takes → B.toNat % 16 = 0 → s.mine.spOff B.toNat n.recsz = false →
        s.mine.spPoisoned B.toNat n.recsz = false →
        (s.releaseReady k c 3 = false → exec (.emit a b) s = .next (s.stallFor .other)) ∧
        (s.releaseReady k c 3 = true → d.room n.recsz = false → exec (.emit a b) s = .next (s.stallFor .launch)) ∧
        (∀ cause va, s.releaseReady k c 3 = true → d.room n.recsz = true → s.ringPas d d.wr n.recsz = .bad cause va →
          Takes260 s (.emit a b) cause va true) ∧
        (s.releaseReady k c 3 = true → d.room n.recsz = true → s.ringPas d d.wr n.recsz = .pas pas → Apart s pas n.qid →
          Memory.wf s.ms.mem → s.mine.sstale = [] →
          ∃ t : State, exec (.emit a b) s = .next t ∧ Lands s t pas (memRead s.mine.scratch B.toNat n.recsz) (s.qdPa n.qid + 0x14) 4 ∧
            t.peek (s.qdPa n.qid + 0x14) 4 = (d.wr + n.recsz) % 2 ^ 32 ∧
            (∃ y ∈ (t.qrun n.qid).opened ++ (t.qrun n.qid).closed, y.node = pa ∧ d.wr ∈ y.idxs) ∧
            t.me.region = s.me.region + 1 ∧ LanesPast s t ∧ t.me.v = s.me.v ∧ ∀ m : Nat, (t.cons m).scratch = (s.cons m).scratch))) ∧
    (∀ (dec : Bool) (pa : Nat) (ch : Bool),
      let j : Instr := if dec then .jcdec a b else .jcnew a b
      (s.overCount j = none → A.toNat % 16 ≠ 0 → Takes260 s j .misalign A true) ∧
      (s.overCount j = none → A.toNat % 16 = 0 → B.toNat < 2 ^ 32 →
        (s.xlate s.mine.aspace s.mine.hdr.checked A true true = .denied → Takes260 s j .xlateDenied A true) ∧
        (s.xlate s.mine.aspace s.mine.hdr.checked A true true = .ok pa ch → s.poisoned pa = true → Takes260 s j .poison A true)) ∧
      (s.overCount j = none → A.toNat % 16 = 0 →
      (2 ^ 32 ≤ B.toNat → exec j s = .next (s.fail .badHandle b.toNat)) ∧
      (B.toNat < 2 ^ 32 → s.xlate s.mine.aspace s.mine.hdr.checked A true true = .ok pa ch → s.poisoned pa = false →
        (s.releaseReady k c 3 = false → exec j s = .next (s.stallFor .other)) ∧
        (s.releaseReady k c 3 = true → Memory.wf s.ms.mem →
          ∃ t : State, exec j s = .next t ∧
            (dec = false → t.peek pa 4 = B.toNat ∧ t.peek (pa + 4) 4 = 0) ∧
            (dec = true → t.peek pa 4 = s.peek pa 4 - B.toNat ∧ t.peek (pa + 4) 4 =
              (if s.peek pa 4 < B.toNat ∧ s.peek (pa + 4) 4 / 2 % 2 = 0 then s.peek (pa + 4) 4 + 2 else s.peek (pa + 4) 4)) ∧
            (∀ x : Nat, x < pa ∨ pa + 8 ≤ x → memGet t.ms.mem x = memGet s.ms.mem x) ∧
            t.me.region = s.me.region + 1 ∧ LanesPast s t ∧ t.me.v = s.me.v)))) ∧
    (∀ (s1 : State) (tg : BitVec 4), s.overCount (.jcwait v a) = none → s.vecRead [] (some v) false [] true noCheck = .ok (s1, tg, []) →
      (A.toNat % 16 ≠ 0 → Takes260 s (.jcwait v a) .misalign A false) ∧
      (A.toNat % 16 = 0 → s.xlate s.mine.aspace s.mine.hdr.checked A true false = .denied → Takes260 s (.jcwait v a) .xlateDenied A false)) ∧
    (∀ (s1 : State) (tg : BitVec 4), s.overCount (.mbox v a b) = none → s.vecRead [] (some v) false [] true noCheck = .ok (s1, tg, []) →
      (A.toNat % 64 ≠ 0 → Takes260 s (.mbox v a b) .misalign A false) ∧
      (A.toNat % 64 = 0 → B.toNat % 64 ≠ 0 → Takes260 s (.mbox v a b) .misalign B false)) ∧
    (∀ (pa : Nat) (ch : Bool) (s1 : State) (tg : BitVec 4), s.overCount (.jcwait v a) = none →
      s.vecRead [] (some v) false [] true noCheck = .ok (s1, tg, []) → A.toNat % 16 = 0 →
      s.xlate s.mine.aspace s.mine.hdr.checked A true false = .ok pa ch → s.poisoned pa = false →
      let own : Prop := ∃ st ∈ s.ms.stores, st.k = k ∧ st.c = c ∧ ∃ x ∈ st.cells, pa ≤ x.1 ∧ x.1 < pa + 8
      (s.loadsDone k c = false ∨ own → exec (.jcwait v a) s = .next (s.stallFor .other)) ∧
      (s.loadsDone k c = true → ¬ own → s.peek pa 4 = 0 →
        ∃ t : State, exec (.jcwait v a) s = .next t ∧ Receives s t k c v 5 s.iss.set (fun _ => BitVec.ofNat 32 (s.peek (pa + 4) 4)) ∧
          t.me.region = s.me.region + 1 ∧ LanesPast s t ∧ SameMemory s t) ∧
      (s.loadsDone k c = true → ¬ own → s.peek pa 4 ≠ 0 →
        ∃ t : State, exec (.jcwait v a) s = .next t ∧ t.me.hold = .jcwait pa v none s.iss ∧ t.me.lpc = s.me.lpc ∧ t.me.v = s.me.v ∧
          SameMemory s t)) ∧
    (∀ s1 tg, s.overCount (.mbox v a b) = none → s.vecRead [] (some v) false [] true noCheck = .ok (s1, tg, []) → A.toNat % 64 = 0 → B.toNat % 64 = 0 →
      let old := s.work.mailboxes.find? (fun m => m.doorbell == A && m.aspace == s.mine.aspace)
      let free (n : Nat) : Prop := n < 1024 ∧ ∀ m ∈ s.work.mailboxes, m.num ≠ n
      ∃ t : State, exec (.mbox v a b) s = .next t ∧ LanesPast s t ∧ t.ms = s.ms ∧
        (let res (w : Word) : Prop := Receives s t k c v 5 s.iss.set (fun _ => w)
         (B = 0 → old = none → res 0xFFFFFFFF ∧ t.work = s.work) ∧
         (∀ m, B = 0 → old = some m → res (BitVec.ofNat 32 m.num) ∧ ∀ x, x ∈ t.work.mailboxes ↔ x ∈ s.work.mailboxes ∧ x.num ≠ m.num) ∧
         (B ≠ 0 → old.isSome = true ∨ (∀ n : Nat, ¬ free n) → res 0xFFFFFFFF ∧ t.work = s.work) ∧
         (∀ n, B ≠ 0 → old = none → free n → (∀ m : Nat, m < n → ¬ free m) → res (BitVec.ofNat 32 n) ∧
           t.work.mailboxes = s.work.mailboxes ++
             [{ num := n, uid := s.nextId, doorbell := A, handler := B, aspace := s.mine.aspace, running := false, count := 0 }]))) ∧
    (let q := p4.toNat
     let j : Instr := .qbind p4 a b
     s.overCount j = none →
      ((s.me.port q).bound = true → exec j s = .next (s.fail .badHandle (112 + q))) ∧
      ((s.me.port q).bound = false → ¬ BindWord A → exec j s = .next (s.fail .badHandle a.toNat)) ∧
      ((s.me.port q).bound = false → BindWord A → A.toNat % 8 < 4 → B ≠ 0 → exec j s = .next (s.fail .badHandle b.toNat)) ∧
      ((s.me.port q).bound = false → BindWord A →
        (A.toNat % 8 = 4 → (∀ m ∈ s.work.mailboxes, ¬ (m.num = B.toNat ∧ m.aspace = s.mine.aspace)) → exec j s = .next (s.fail .badHandle b.toNat)) ∧
        (A.toNat % 8 = 5 → B.toNat % 64 ≠ 0 → exec j s = .next (s.fail .badHandle b.toNat)) ∧
        ∀ bs pa, A.toNat % 8 = 5 → B.toNat % 64 = 0 → s.fetchVa s.mine.aspace B 64 = .bytes bs pa →
          (Node.ofBytes (s.readBytes 0 pa 64)).valid = false → exec j s = .next (s.fail .badHandle b.toNat)) ∧
      (∀ bs pa, (s.me.port q).bound = false → BindWord A → (A.toNat % 8 < 4 → B = 0) →
        (A.toNat % 8 = 4 → ∃ m ∈ s.work.mailboxes, m.num = B.toNat ∧ m.aspace = s.mine.aspace) →
        (A.toNat % 8 = 5 → B.toNat % 64 = 0 ∧ s.fetchVa s.mine.aspace B 64 = .bytes bs pa ∧
          (Node.ofBytes (s.readBytes 0 pa 64)).valid = true) →
        ∃ t : State, exec j s = .next t ∧ (t.me.port q).bound = true ∧ (t.me.port q).kind.toNat = A.toNat % 8 ∧
          (t.me.port q).chan.toNat = A.toNat / 2 ^ 8 % 8 ∧ (t.me.port q).arg = B ∧ (t.me.port q).elems = [] ∧ (t.me.port q).dropped = 0 ∧
          (∀ n : Nat, n ≠ q → t.me.port n = s.me.port n) ∧ LanesPast s t ∧ t.me.v = s.me.v ∧ SameMemory s t)) ∧
    (s.portBusy k c p4.toNat = true → exec (.qfree p4) s = .next (s.stallFor .other)) ∧
    (s.portBusy k c p4.toNat = false → ∃ t : State, exec (.qfree p4) s = .next t ∧ (t.me.port p4.toNat).bound = false ∧
      (t.me.port p4.toNat).elems = [] ∧ (t.me.port p4.toNat).dropped = (s.me.port p4.toNat).dropped ∧ (∀ n : Nat, n ≠ p4.toNat → t.me.port n = s.me.port n) ∧ LanesPast s t ∧ t.me.v = s.me.v ∧
      t.mine.channels = s.mine.channels ∧ SameMemory s t) ∧
    (s.overCount (.qstat v a) = none →
      (16 ≤ A.toNat → exec (.qstat v a) s = .next (s.fail .badHandle a.toNat)) ∧
      (A.toNat < 16 → Yields s s (.qstat v a) v 5 (fun _ r =>
        let p := s.me.port A.toNat
        r = BitVec.ofNat 32 (p.bound.toNat * 2 ^ 31 + p.kind.toNat * 2 ^ 28 + min 255 p.dropped * 2 ^ 16 +
          (if p.isSource then min 64 (s.portElems k c A.toNat).length
           else if p.isSink then s.portRoom k c A.toNat else 0)))))

/-- R112 to R118, R126, R128, R131, R133, R138, R142, R248. The events of queues: a head record is accepted or refused; a gang is
released whole, each consort with its images' registers; a pending launch, a graph record and a handler record enter their rings;
an open batch closes when its time is out; an arrival starts its mailbox's handler or is counted; the device decrements a
join counter; a course that a zero has woken completes its JCWAIT. A pending launch whose ring storage is absent waits, and one whose
storage is denied or holds uncorrected data is dropped, as is one whose target is no longer enabled or is malformed; a dropped one
takes one from its join counter with ERR, and the first test of a malformed queue halts it. The model's choices: an append leaves no
copy of what the stores before the LNCH replaced, and a join counter's bits 127 to 64 are left alone (log entry 37); ACCESS 1 in the
fault record of an append that waits (log entry 49); a join counter in the host region is acted on as one in device memory (log
entry 51); and a gang takes the first free context areas of the pool (log entry 72). -/
def Obligations.LaunchEventResults : Prop :=
  ∀ s : State,
    (∀ (k c pa : Nat) (v : BitVec 7) (w : Word) (iss : Issue), (s.crs k c).hold = .jcwait pa v (some w) iss → iss.k = k → iss.c = c →
      ((s.cons k).place = .resident → s.linesReady k c = true → (isPort v = true → popcount iss.set ≤ s.portRoom k c (portOf v)) →
        ∃ t : State, exec (.jcwaitWake k c) s = .next t ∧ (t.crs k c).hold = .none ∧ Receives s t k c v 5 iss.set (fun _ => w) ∧
        (∀ l : Nat, l < 32 → (t.crs k c).lpcAt l = if bit iss.set l then refAdd iss.at_ iss.len else (s.crs k c).lpcAt l) ∧
        (t.crs k c).region = (s.crs k c).region + 1 ∧ t.ms.mem = s.ms.mem) ∧
      (∀ n, (s.cons k).place = .saved n → (s.cons k).readyAt = none →
        ∃ t : State, exec (.jcwaitWake k c) s = .next t ∧ (t.cons k).readyAt = some s.clock)) ∧
    (∀ (k c : Nat) (p : Pending) (ps : List Pending), (s.crs k c).pending = p :: ps → p.waiting = false →
      s.storesBefore k c p.upTo = true →
      let d := s.qdesc p.queue
      let Drops (also : State → Prop) : Prop := ∃ t : State, exec (.pendingLaunchAppend k c) s = .next t ∧ (t.crs k c).pending = ps ∧ also t ∧
        (∃ r ∈ t.hub.faults, r.kind = 4 ∧ r.cause = 0x14 ∧ r.course = c ∧ r.addr = BitVec.ofNat 64 p.queue) ∧
        ((LRecord.ofBytes p.bytes).jc = true → ∃ y ∈ t.work.jcwork, y.addr = (LRecord.ofBytes p.bytes).jcaddr ∧
          y.aspace = (s.cons k).aspace ∧ y.err = true)
      (∀ pas, s.qdMine p.queue = true → d.enabled = true → d.halted = false → d.malformed = false → d.kind = 0 → d.room 64 = true →
        s.ringPas d d.wr 64 = .pas pas → Apart s pas p.queue → p.bytes.length = 64 → Memory.wf s.ms.mem →
        ∃ t : State, exec (.pendingLaunchAppend k c) s = .next t ∧ Lands s t pas p.bytes (s.qdPa p.queue + 0x14) 4 ∧
          t.peek (s.qdPa p.queue + 0x14) 4 = (d.wr + 64) % 2 ^ 32 ∧ (t.crs k c).pending = ps ∧
          ∀ b ∈ t.ms.stale, ∀ w ∈ b.writers, w.2.1 = k → w.2.2.1 = c → w.2.2.2 < p.upTo → w.2.2.2 ∈ p.but) ∧
      (s.qdMine p.queue = true → d.enabled = true → d.halted = false → d.malformed = false → d.kind = 0 → d.room 64 = true →
        (∀ va, s.ringPas d d.wr 64 = .absent va →
          ∃ t : State, exec (.pendingLaunchAppend k c) s = .next t ∧ (t.crs k c).pending = { p with waiting := true } :: ps ∧ t.ms = s.ms ∧
            ∃ r ∈ t.hub.faults, r.kind = 2 ∧ r.cause = 6 ∧ r.access = 1 ∧ r.course = c ∧ r.addr = va) ∧
        ∀ cause va, s.ringPas d d.wr 64 = .bad cause va →
          Drops (fun t => t.ms.mem = s.ms.mem)) ∧
      (s.qdMine p.queue = false ∨ ¬ Malformed d ∧ (d.enabled = false ∨ d.halted = true ∨ d.kind ≠ 0) →
        Drops (fun t => t.ms.mem = s.ms.mem)) ∧
      (s.qdMine p.queue = true → Malformed d → Memory.wf s.ms.mem →
        (d.halted = true → Drops (fun t => t.ms.mem = s.ms.mem)) ∧
        (d.halted = false → s.hub.evEn = false → Drops (fun t => t.peek (s.qdPa p.queue + 0x0D) 1 = d.flags ||| 2 ∧ t.peek (s.qdPa p.queue + 0x1C) 4 = 0x15 ∧
          ∃ f ∈ t.hub.faults, f.kind = 4 ∧ f.cause = 0x15 ∧ f.addr = BitVec.ofNat 64 p.queue)))) ∧
    (∀ (k c q : Nat) (bs : List Byte) (pa : Nat) (pas : List Nat), q < 16 → Stands s k c → (s.cons k).onCore = true →
      s.portWhole k c q = true →
      let p := (s.crs k c).port q
      p.waiting = false → s.portNode k c q = .bytes bs pa →
      let n := Node.ofBytes bs
      let d := s.qdesc n.qid
      NodeTakes s bs (s.cons k).aspace → s.storesDone k c 3 = true → d.room n.recsz = true → s.ringPas d d.wr n.recsz = .pas pas →
      Apart s pas n.qid → Memory.wf s.ms.mem →
      ∃ t : State, exec (.graphRecordAccept k c q) s = .next t ∧
        Lands s t pas ((p.part.take (n.recsz / 4)).flatMap (fun w => leBytes 4 w.toNat)) (s.qdPa n.qid + 0x14) 4 ∧
        t.peek (s.qdPa n.qid + 0x14) 4 = (d.wr + n.recsz) % 2 ^ 32 ∧ ((t.crs k c).port q).part = p.part.drop (n.recsz / 4)) ∧
    (∀ (q : Nat) (b : Batch), (s.qrun q).opened.find? (fun b => b.until_.any (fun t => decide (t ≤ s.clock))) = some b →
      ∃ t : State, exec (.graphBatchTimeout q) s = .next t ∧ (t.qrun q).closed = (s.qrun q).closed ++ [b] ∧
        (∀ y ∈ (t.qrun q).opened, y.node ≠ b.node) ∧ t.ms = s.ms ∧ t.consorts = s.consorts) ∧
    (∀ (m : Nat) (rest : List Nat) (b : Mailbox), s.work.arrivals = m :: rest → s.work.mailboxes.find? (fun b => b.num == m) = some b →
      ∃ t : State, exec .mailboxArrival s = .next t ∧ t.work.arrivals = rest ∧
        (b.running = false → t.work.mailboxes.find? (fun b => b.num == m) = some { b with running := true, count := 1 } ∧
          t.work.appends = s.work.appends ++
            [{ mbox := m, doorbell := b.doorbell, handler := b.handler, aspace := b.aspace, waiting := false }]) ∧
        (b.running = true → t.work.mailboxes.find? (fun b => b.num == m) =
          some { b with count := min (2 ^ 32 - 1) (b.count + 1) } ∧ t.work.appends = s.work.appends)) ∧
    (∀ (m : Nat) (a : Append) (bs : List Byte) (pa : Nat) (pas : List Nat),
      s.work.appends.find? (fun a => a.mbox == m && !a.waiting) = some a → s.fetchVa a.aspace a.handler 64 = .bytes bs pa →
      let q := leNat ((bs.drop 0x2C).take 4)
      let d := s.qdesc q
      (4096 ≤ q → ∃ t : State, exec (.handlerAppend m) s = .next t ∧ (∀ x ∈ t.work.appends, x.mbox ≠ m) ∧
        ∃ r ∈ t.hub.faults, r.kind = 9 ∧ r.cause = 0x14 ∧ r.course = 0xFF ∧ r.addr = a.doorbell) ∧
      (q < 4096 → s.qdMine q = true → d.enabled = true → d.malformed = false → d.kind = 0 → d.aspace = a.aspace → d.room 64 = true →
        s.ringPas d d.wr 64 = .pas pas → Apart s pas q → Memory.wf s.ms.mem →
        ∃ t : State, exec (.handlerAppend m) s = .next t ∧ Lands s t pas bs (s.qdPa q + 0x14) 4 ∧
          t.peek (s.qdPa q + 0x14) 4 = (d.wr + 64) % 2 ^ 32 ∧ (∀ x ∈ t.work.appends, x.mbox ≠ m) ∧
          { queue := q, idx := d.wr, mbox := some m, doorbell := a.doorbell : Handler } ∈ t.work.handlers)) ∧
    (∀ (n : Nat) (j : JcWork), s.work.jcwork[n]? = some j → j.waiting = false →
      (j.addr.toNat % 16 ≠ 0 → ∃ t : State, exec (.jcRetireDecrement n) s = .next t ∧ t.work.jcwork = s.work.jcwork.eraseIdx n ∧
        t.ms.mem = s.ms.mem ∧ ∃ r ∈ t.hub.faults, r.kind = 10 ∧ r.addr = j.addr) ∧
      (∀ pa ch, j.addr.toNat % 16 = 0 → s.xlate j.aspace false j.addr true true = .ok pa ch → s.poisoned pa = false →
        Memory.wf s.ms.mem →
        ∃ t : State, exec (.jcRetireDecrement n) s = .next t ∧ t.work.jcwork = s.work.jcwork.eraseIdx n ∧ t.peek pa 4 = s.peek pa 4 - 1 ∧
          (j.err = true → t.peek (pa + 4) 4 % 2 = 1) ∧ (j.err = false → t.peek (pa + 4) 4 % 2 = s.peek (pa + 4) 4 % 2) ∧
          (s.peek pa 4 = 0 → t.peek (pa + 4) 4 / 2 % 2 = 1) ∧ ∀ x : Nat, x < pa ∨ pa + 8 ≤ x → memGet t.ms.mem x = memGet s.ms.mem x)) ∧
    (∀ (q : Nat) (r : HeadRecord) (hb : List Byte) (pa : Nat) (o : Origin),
      let d := s.qdesc q
      s.consumable q = true → d.enabled = true → d.halted = false → d.malformed = false → d.kind ≤ 2 → s.headLaunch q = none →
      s.lookHead q = .record r → (lhAddr r.bytes).toNat % 64 = 0 → s.fetchVa d.aspace (lhAddr r.bytes) 64 = .bytes hb pa →
      o = (if r.batch.isSome then .batch
        else if s.work.handlers.any (fun h => h.queue == q && h.idx == d.rd) then .handler
        else if d.kind = 1 then .hostRing else .device) →
      (RecordGood r.bytes hb o r.inline.length → gangFits (Header.ofBytes hb) (LRecord.ofBytes r.bytes).cpg = true →
        ∃ (t : State) (l : Launch), exec (.launchRecordConsume q) s = .next t ∧ t.work.launches = s.work.launches ++ [l] ∧ (t.qrun q).head = some l.id ∧
          l.queue = q ∧ l.aspace = d.aspace ∧ l.hdr = Header.ofBytes hb ∧ l.inline = r.inline ∧ l.s0 = r.count ∧ l.released = 0 ∧
          (r.batch = none → l.lr = LRecord.ofBytes r.bytes) ∧ t.ms.mem = s.ms.mem ∧ t.consorts = s.consorts) ∧
      (¬ RecordGood r.bytes hb o r.inline.length → Memory.wf s.ms.mem →
        ∃ t : State, exec (.launchRecordConsume q) s = .next t ∧ t.work.launches = s.work.launches ∧
          t.peek (s.qdPa q + 0x10) 4 = (d.rd + r.length) % 2 ^ 32 ∧ t.peek (s.qdPa q + 0x1C) 4 = 0x14 ∧
          (∃ f ∈ t.hub.faults, f.kind = 4 ∧ f.cause = 0x14 ∧ f.addr = BitVec.ofNat 64 q) ∧
          ((LRecord.ofBytes r.bytes).jc = true → ∃ j ∈ t.work.jcwork, j.addr = (LRecord.ofBytes r.bytes).jcaddr ∧ j.err = true))) ∧
    ∀ (q : Nat) (l : Launch) (ranges : List Nat) (snap : List Byte), s.distributing = true → s.offer q = some l →
      s.launchFit l = .fits ranges → l.lr.cpg ≤ s.freeAreas.length → s.servedNext q l = true → s.snapshot l = .ok snap →
      let areas := (s.work.pool.filter (fun a => s.spanOk a 0xA0000 && s.spanOk (s.peek (a + 0x99000) 8) 0x80000)).take l.lr.cpg
      ∃ t : State, exec (.gangRelease q) s = .next t ∧ t.work.pool = s.work.pool.filter (fun a => !areas.contains a) ∧
        ∀ n : Nat, n < l.lr.cpg → ∃ g ∈ t.consorts, g.launch = l.id ∧ g.num = n ∧ g.gang = l.released ∧ g.place = .resident ∧
          g.aspace = l.aspace ∧ some g.ctx = areas[n]? ∧ some g.spBase = ranges[n]? ∧ g.courses.length = l.hdr.courses ∧
          ∀ x ∈ g.courses, (∀ i : Nat, i < 32 → x.lpcAt i = l.lr.cref ∧ x.laneAt i = .running) ∧ vget x.s 0 1 = l.lr.frame ∧
            (l.mbox = none → vget x.s 0 0 = BitVec.ofNat 64 l.s0)

/-! ### Courses, consorts and overlays under the device's own events and firmware's commands -/

namespace Sys2Proof.Statements

/-- R425, R426. The two words w record for course x this class, cause, lanes and code reference, with its auxiliary word. -/
def Records (x : Course) (w : DWord × DWord) (cls cause : Nat) (lanes ref : BitVec 32) : Prop :=
  field w.1.toNat 63 48 = ref.toNat / 2 ^ 16 ∧ field w.1.toNat 47 16 = lanes.toNat ∧ field w.1.toNat 15 8 = cls ∧
    field w.1.toNat 7 0 = cause ∧ field w.2.toNat 31 0 = ref.toNat % 2 ^ 16 ∧
    (∀ n : Nat, n < 8 → (w.2.getLsbD (32 + n) = true ↔ ∃ e, (x.token n).st = .error e)) ∧
    field w.2.toNat 47 40 = (match x.merrs with
      | [] => 0
      | e :: _ => e.cause.code.toNat) ∧
    field w.2.toNat 55 48 = min 255 x.ntraps.toNat ∧ field w.2.toNat 63 56 = 0

/-- R425. Two words that are the status record of an ended course: class 1 or 2 where it was terminated, 3 where lanes are off, else 0. -/
def StatusOf (x : Course) (w : DWord × DWord) : Prop :=
  (∀ u, x.term = some u → Records x w u.cls.toNat u.cause.code.toNat u.lanes u.ref) ∧
    (x.term = none → (∀ l : Nat, l < 32 → x.laneAt l ≠ .off) → Records x w 0 0 x.exitMask x.exitRef) ∧
    (x.term = none → (∃ l : Nat, l < 32 ∧ x.laneAt l = .off) → Records x w 3 0x1B x.fmask x.exitRef)

/-- R418. The bytes of the barriers in the context area of a consort that stands off the core: address and number. -/
def savedBars (s : State) (k : Nat) : Nat × Nat :=
  match (s.cons k).place with
  | .saved _ => ((s.cons k).ctx + 0x99140, 0x180)
  | _ => (0, 0)

/-- No other byte of home memory has changed. -/
def BarsOnly (s t : State) (k : Nat) : Prop :=
  ∀ a : Nat, a < (savedBars s k).1 ∨ (savedBars s k).1 + (savedBars s k).2 ≤ a → memGet t.ms.mem a = memGet s.ms.mem a

/-- One thing of a list that waits waits no longer; the others are as they were. -/
def Freed {α : Type} (p w : α → Bool) (xs ys : List α) : Prop :=
  ∃ (n : Nat) (x y : α), xs[n]? = some x ∧ p x = true ∧ w x = true ∧ ys[n]? = some y ∧ p y = true ∧ w y = false ∧ ∀ m : Nat, m ≠ n → ys[m]? = xs[m]?

/-- R413. CTXCMD after a write, with ERR as the command and the bit's own clearing leave it, and nothing of memory changed. -/
def Command (s t : State) (cmd : DWord) (err : Bool) : Prop :=
  t.hub.ctxcmd.getLsbD 17 = (err || (s.hub.ctxcmd.getLsbD 17 && !cmd.getLsbD 17)) ∧
    field t.hub.ctxcmd.toNat 63 20 = field cmd.toNat 63 20 ∧ field t.hub.ctxcmd.toNat 3 0 = field cmd.toNat 3 0 ∧
    field t.hub.ctxcmd.toNat 16 4 = 0

/-- Consort numbers are distinct, and so are the course indices of consort k. -/
def Distinct (s : State) (k : Nat) : Prop := (s.consorts.map (·.id)).Nodup ∧ ((s.cons k).courses.map (·.idx)).Nodup

/-- R17, R150, R418. A context area of 640 KiB and the auxiliary area of 512 KiB that it names lie in memory of the partition. -/
abbrev InPart (s : State) (ctx : Nat) : Prop := s.spanOk ctx 0xA0000 = true ∧ s.spanOk (s.peek (ctx + 0x99000) 8) 0x80000 = true

/-- r belongs to the gang of q. -/
abbrev Mate (q r : Consort) : Prop := r.launch = q.launch ∧ r.gang = q.gang

end Sys2Proof.Statements

/-- R156 to R158, R216, R217, R424 to R427, R437. A nap ends; a register line is filled from its image, the victim of a full cache going first, and is
written back to it; a course that is done retires with the status record of R425, and the last one of a consort writes its exit
record as its ring allows; the oldest held fault record is written at WR as there is room. No image, and no exit record, is reached
outside the partition (R17). The model's choices: images are read and written at the physical address of the context area (log entry
62, and 19 for what a line holds), the core serves exit ring 0 (log entry 28), and which of several victims R157 allows it is (log entry
72). -/
def Obligations.CourseEventResults : Prop :=
  ∀ s : State,
    (∀ (k c n : Nat), (s.crs k c).hold = .nap n → n ≤ s.clock →
      ∃ t : State, exec (.napExpiry k c) s = .next t ∧ (t.crs k c).hold = .none ∧ (t.crs k c).lpc = (s.crs k c).lpc ∧
        (t.crs k c).v = (s.crs k c).v ∧ t.ms = s.ms) ∧
    (∀ (k c r : Nat), Stands s k c → c < 16 → r < 128 → (s.cons k).onCore = true → r ∈ s.missingLines k c →
      let there (t : State) : Prop := (∃ y ∈ (t.crs k c).lines, y.reg = r) ∧
        (∀ n l, r = 16 + n → l < 32 →
          ((t.crs k c).getV n).at l = BitVec.ofNat 32 (t.peek ((s.cons k).lineAt c r + 4 * l) 4)) ∧
        ∀ n, r ≠ 16 + n → (t.crs k c).getV n = (s.crs k c).getV n
      (¬ InPart s (s.cons k).ctx → exec (.registerFill k c r) s = .fault (.noSuchAddress (s.cons k).ctx)) ∧
      (InPart s (s.cons k).ctx → s.linesUsed < 4096 → ∃ t : State, exec (.registerFill k c r) s = .next t ∧ there t ∧ t.ms = s.ms) ∧
      (∀ (i : Instr) (len : Nat) (x : LineOf), InPart s (s.cons k).ctx →
        (x.line.dirty = true → InPart s (s.cons x.k).ctx ∧ x.c < 16 ∧ x.line.reg < 128) → 4096 ≤ s.linesUsed → s.fetch k c = .instr i len →
        s.victimLine k c (Instr.lines i) = some x →
        ∃ t : State, exec (.registerFill k c r) s = .next t ∧ there t ∧
          (∀ y ∈ (t.crs x.k x.c).lines, y.reg = x.line.reg → x.k = k ∧ x.c = c ∧ y.reg = r) ∧
          (x.line.dirty = false → t.ms = s.ms) ∧
          (x.line.dirty = true → Memory.wf s.ms.mem →
            Lands s t ((List.range 128).map ((s.cons x.k).lineAt x.c x.line.reg + ·)) ((s.crs x.k x.c).line x.line.reg) 0 0))) ∧
    (∀ (k c r : Nat), (s.cons k).onCore = false → (∃ y ∈ (s.crs k c).lines, y.reg = r ∧ y.dirty = true) → ¬ InPart s (s.cons k).ctx →
      exec (.lineWriteback k c r) s = .fault (.noSuchAddress (s.cons k).ctx)) ∧
    (∀ (k c r : Nat), (s.cons k).onCore = false → (∃ y ∈ (s.crs k c).lines, y.reg = r ∧ y.dirty = true) → InPart s (s.cons k).ctx →
      c < 16 → r < 128 → Memory.wf s.ms.mem →
      ∃ t : State, exec (.lineWriteback k c r) s = .next t ∧
        Lands s t ((List.range 128).map ((s.cons k).lineAt c r + ·)) ((s.crs k c).line r) 0 0 ∧
        (∀ y ∈ (t.crs k c).lines, y.reg = r → y.dirty = false) ∧ (t.crs k c).v = (s.crs k c).v ∧
        (t.crs k c).lpc = (s.crs k c).lpc) ∧
    (∀ (k c : Nat), s.retirable k c = true → (∃ z ∈ (s.cons k).courses, z.idx ≠ c ∧ z.retired = false) →
      ∃ t : State, exec (.courseRetire k c) s = .next t ∧ (t.crs k c).retired = true ∧ StatusOf (s.crs k c) (t.crs k c).status ∧
        (∀ n, ((t.crs k c).port n).bound = false) ∧ BarsOnly s t k ∧ t.hub.exits = s.hub.exits) ∧
    (∀ (k c : Nat), s.retirable k c = true → Distinct s k → (∀ z ∈ (s.cons k).courses, z.idx ≠ c → z.retired = true) →
      let q := s.cons k
      let g := vget s.hub.exits ExitRing.reset 0
      let bad : Prop := ∃ z ∈ q.courses, z.cls ≠ 0
      let sized : Prop := ∃ e, 12 ≤ e ∧ e ≤ 30 ∧ g.size.toNat = 2 ^ e ∧ (g.wr - g.rd).toNat + 512 ≤ 2 ^ e
      let pa := g.base.toNat + g.wr.toNat % g.size.toNat
      let gone (t : State) : Prop := (∀ r ∈ t.consorts, r.id = k → r.place = .retired) ∧ t.work.pool = s.work.pool ++ [q.ctx]
      let ring (t : State) : ExitRing := vget t.hub.exits ExitRing.reset 0
      (g.mode = 2 ∨ (g.mode ≠ 0 ∧ ¬ bad) →
        ∃ t : State, exec (.courseRetire k c) s = .next t ∧ gone t ∧ ring t = g ∧ BarsOnly s t k) ∧
      (g.mode = 0 ∨ (g.mode ≠ 2 ∧ bad) → ¬ sized →
        ∃ t : State, exec (.courseRetire k c) s = .next t ∧ gone t ∧ BarsOnly s t k ∧ (ring t).wr = g.wr ∧
          (ring t).lost.toNat = min 0xFFFF (g.lost.toNat + 1)) ∧
      (g.mode = 0 ∨ (g.mode ≠ 2 ∧ bad) → sized → pageOk s.hub.pmode pa = false →
        exec (.courseRetire k c) s = .fault (.noSuchAddress pa)) ∧
      (g.mode = 0 ∨ (g.mode ≠ 2 ∧ bad) → sized → pageOk s.hub.pmode pa = true → Memory.wf s.ms.mem →
        ∃ (t : State) (bs : List Byte) (w : DWord × DWord), exec (.courseRetire k c) s = .next t ∧ gone t ∧ (ring t).wr = g.wr + 512 ∧ (ring t).lost = g.lost ∧ bs.length = 512 ∧
          (let at_ := savedBars s k
           Lands s t ((List.range 512).map (pa + ·)) bs at_.1 at_.2) ∧ StatusOf (s.crs k c) w ∧
          numAt bs 0 8 = (q.wid 0 0).toNat ∧ numAt bs 8 8 = (s.clock - q.placedAt) % 2 ^ 64 ∧ numAt bs 0x14 2 = q.aspace.toNat ∧
          numAt bs 0x16 1 = q.hdr.courses % 256 ∧ (numAt bs 0x17 1 % 2 = 1 ↔ bad) ∧
          (numAt bs 0x17 1 / 2 = if q.resumed then 1 else 0) ∧ numAt bs 0x18 4 = q.queue % 2 ^ 32 ∧ numAt bs 0x1C 4 = 0 ∧
          (∀ l : Nat, l < 32 → ((BitVec.ofNat 32 (numAt bs 0x10 4)).getLsbD l = true ↔ ∃ z ∈ q.courses, bit z.fmask l = true)) ∧
          (∀ j z, j < 16 → q.courses[j]? = some z →
            numAt bs (0x20 + 16 * j) 8 = (if z.idx = c then w.1 else z.status.1).toNat ∧
              numAt bs (0x28 + 16 * j) 8 = (if z.idx = c then w.2 else z.status.2).toNat) ∧
          (∀ j, q.courses.length ≤ j → j < 16 → numAt bs (0x20 + 16 * j) 8 = 0 ∧ numAt bs (0x28 + 16 * j) 8 = 0) ∧
          ∀ i, 0x120 ≤ i → i < 0x200 → bs.getD i 1 = 0)) ∧
    ∀ (r : FaultRecord) (rest : List FaultRecord) (e : Nat), s.hub.faults = r :: rest → 12 ≤ e → e ≤ 24 → s.hub.frsize.toNat = 2 ^ e →
      (s.hub.frwr - s.hub.frrd).toNat + 32 ≤ 2 ^ e →
      let pa := s.hub.frbase.toNat + s.hub.frwr.toNat % 2 ^ e
      paExists pa = true → Memory.wf s.ms.mem →
      ∃ (t : State) (bs : List Byte), exec .faultRingFlush s = .next t ∧ Lands s t ((List.range 32).map (pa + ·)) bs 0 0 ∧ bs.length = 32 ∧
        numAt bs 0 1 = r.kind % 256 ∧ numAt bs 1 1 = r.cause % 256 ∧ numAt bs 2 1 = r.access % 256 ∧ numAt bs 3 1 = r.course % 256 ∧
        numAt bs 4 2 = r.aspace.toNat ∧ numAt bs 8 4 = r.lanes.toNat ∧ numAt bs 0xC 4 = r.cref.toNat ∧
        numAt bs 0x10 8 = r.ctx % 2 ^ 64 ∧ numAt bs 0x18 8 = r.addr.toNat ∧
        t.hub.faults = rest ∧ t.hub.frwr = s.hub.frwr + 32 ∧
        t.outbox = s.outbox ++ (if s.hub.frien then [.firmwareInterrupt] else [])

/-- R138, R141, R142, R196, R207, R414 to R420. A consort whose courses are all idle leaves the core by swap-out; a drained one is saved, SAVEKIND and
scratchpad in its context area; the gang that comes next is restored from there, whole; a port that fails stops issue, retires a half, and parks the running lanes, those of a trap entry whose
transfer failed where they took it (which fails is open: log entry 23). An instruction that waits for its check is discarded,
and what it would have popped stands at its ports' heads (R247). A JCWAIT that the zero has woken keeps its wait off the core, in a swap-out every JCWAIT does, and
the other waits but BAR's end (R138, R140). The model's choices: a save and a resume are at the physical address of the context area (log
entry 62), the consorts that re-enter together (log entry 21), and which waits end at a save (log entry 22). -/
def Obligations.ConsortEventResults : Prop :=
  ∀ s : State,
    (∀ k : Nat, (s.cons k).place = .resident → (∃ z ∈ (s.cons k).courses, z.retired = false) →
      (∀ z ∈ (s.cons k).courses, z.retired = false → z.idle = true) →
      ∃ t : State, exec (.swapOut k) s = .next t ∧ (t.cons k).place = .draining 2 ∧ (t.cons k).courses = (s.cons k).courses ∧ t.ms = s.ms) ∧
    (∀ (k n : Nat), let q := s.cons k
      q.place = .draining n → s.drained k = true →
      (n = 1 → ∀ r ∈ s.consorts, Mate q r → r.place = .draining 1 → s.drained r.id = true) →
      InPart s q.ctx →
      ∃ t : State, exec (.contextSave k) s = .next t ∧ (t.cons k).place = .saved n ∧
        (q.killPending = false → n = 1 → (t.cons k).readyAt.isSome = true) ∧
        (let aux := s.peek (q.ctx + 0x99000) 8
         (q.ctx + 0x9A000 ≤ aux ∨ aux + 0x80000 ≤ q.ctx ∧ q.buffers ≤ 16 ∧ (q.excess ++ s.undelivered k).length ≤ 32768) →
          (∀ z ∈ q.courses, z.idx < 16) → q.hdr.scratch ≤ 0x40000 → q.hdr.accslots ≤ 64 → Memory.wf s.ms.mem →
          t.peek (q.ctx + 0x99008) 4 = n % 2 ^ 32 ∧
          memRead t.ms.mem (q.ctx + 0x40000) q.hdr.scratch = memRead q.scratch 0 q.hdr.scratch ∧
          (∀ c, (s.crs k c).hold ≠ .none → (∀ b g, (s.crs k c).hold ≠ .bar b g) → (∀ pa v w iss, (s.crs k c).hold ≠ .jcwait pa v w iss) →
            (t.crs k c).hold = .none) ∧
          (∀ c pa v iss, (s.crs k c).hold = .jcwait pa v none iss → n = 1 → (t.crs k c).hold = .none) ∧
          ∀ c pa v w iss, q.killPending = false → (s.crs k c).hold = .jcwait pa v w iss →
            (w.isSome = true → (t.crs k c).hold = .jcwait pa v w iss) ∧ (n = 2 → ∃ x, (t.crs k c).hold = .jcwait pa v x iss))) ∧
    (∀ (k since : Nat) (ranges : List Nat), let g := s.reentering k
      let s1 := forAll g s (fun s r => forAll r.live s (fun s x => s.refresh r.id x.idx))
      s.distributing = true → (g.head?.map (·.id)) = some k → s.gangDraining k = false →
      s.qdMine (s.cons k).queue = true → (∀ r ∈ g, r.entryWait = false ∧ InPart s r.ctx) →
      s1.gangFit k = .fits ranges → s.leads k = some since →
      s.comesNext k (s.cons k).hdr.prio since = true → Distinct s k →
      ∃ t : State, exec (.consortResume k) s = .next t ∧
        ∀ r ∈ g, (t.cons r.id).place = .resident ∧ (t.cons r.id).resumed = true ∧ (t.cons r.id).ctx = r.ctx ∧
          (∀ a : Nat, a < r.hdr.scratch → memGet (t.cons r.id).scratch a = memGet s.ms.mem (r.ctx + 0x40000 + a)) ∧
          ∀ n e, n < r.hdr.accslots → n < 64 → e < 256 → vget (vget (t.cons r.id).slots Slot.blank n).entries 0 e =
            BitVec.ofNat 40 (s.peek (r.ctx + 0x80000 + 1280 * n + 5 * e) 5)) ∧
    ∃ t : State, exec .portCheckFail s = .next t ∧ t.core.portFailed = true ∧ t.hub.replace = true ∧
      (s.core.halves = 0 → t.core.halves = 1 ∨ t.core.halves = 2) ∧ (s.core.halves = 1 ∨ s.core.halves = 2 → t.core.halves = 3) ∧
      (∃ r ∈ t.hub.faults, r.kind = 3 ∧ r.cause = 0x19) ∧
      ∀ (k c : Nat), Distinct s k → Stands s k c → (s.cons k).onCore = true → (s.crs k c).retired = false →
        let x := s.crs k c
        let y := t.crs k c
        ((∀ e, x.entered = some e → ∀ l : Nat, l < 32 → bit e.lanes l = true → x.laneAt l = .running) →
          ∀ l : Nat, l < 32 → y.laneAt l = (if x.laneAt l = .running then .parked else x.laneAt l)) ∧
        (y.unchecked = none ∧ y.ports = x.ports ∧ (t.cons k).channels = (s.cons k).channels) ∧
        (x.entered = none → y.lpc = x.lpc ∧ y.hmask = x.hmask) ∧
        ∀ e, x.entered = some e → y.lpc = x.lpc ∧ y.hmask = x.hmask ∧ y.ntraps = x.ntraps ∨
          (∀ l : Nat, l < 32 → y.lpcAt l = if bit e.lanes l then vget e.lpc 0 l else x.lpcAt l) ∧ y.hmask = e.hmask ∧ y.ntraps = e.ntraps ∧
            y.trapcause = e.trapcause ∧ y.trapinfo = e.trapinfo

/-- R150, R152, R153, R160, R207, R411, R413 to R415. A CTXCMD write whose operation the device cannot carry out sets ERR and changes nothing else; PREEMPT
starts every resident consort of the gang on its way off, KILL ends every course, UNPARK and REFUSE set named parked lanes
running, REFUSE with a cause for the instruction each stands at; firmware's other acts on a core do what they say and no more.
R121, R150, R153, R160, R207. Firmware adds a context area, chooses the resident queues, opens a failed core at half width, closes an empty core,
and empties a drained core's caches and code store. The model's choices: a context area outside the partition is no address (log entries
28 and 54); a command has been carried out when its write is answered, so that BUSY reads 0 after it, and REFUSE's cause is taken when the
lanes next issue (log entry 27); the lanes that KILL names (log entry 25). -/
def Obligations.FirmwareCommandResults : Prop :=
  (
  ∀ (s : State) (cmd : BitVec 64),
    let op := cmd.toNat % 16
    let c := field cmd.toNat 23 20
    let lanes := BitVec.ofNat 32 (cmd.toNat / 2 ^ 32)
    let cause := BitVec.ofNat 8 (field cmd.toNat 31 24)
    let j : Instr := if op = 1 then .preempt cmd else if op = 2 then .kill cmd else if op = 3 then .unpark cmd
      else if op = 4 then .refuse cmd else .ctxcmdUndefinedOp cmd
    let refused : Prop := ∃ t : State, exec j s = .next t ∧ Command s t cmd true ∧ t.consorts = s.consorts ∧ t.ms = s.ms ∧ t.core = s.core
    (5 ≤ op → refused) ∧ (1 ≤ op → op ≤ 4 → s.named = none → refused) ∧
    ∀ q, s.named = some q → s.cons q.id = q →
      let off (r : Consort) : Bool := match r.place with
        | .saved _ => true
        | _ => false
      let leaves : Prop := (∃ r ∈ s.consorts, Mate q r ∧ r.place = .resident) ∧ ∀ r ∈ s.consorts, Mate q r → r.place ≠ .draining 1
      (op = 1 → leaves → ∃ t : State, exec j s = .next t ∧ Command s t cmd false ∧ t.ms = s.ms ∧
        ∀ (n : Nat) (r : Consort), s.consorts[n]? = some r → ∃ y : Consort, t.consorts[n]? = some y ∧ y.id = r.id ∧ y.courses = r.courses ∧
          (Mate q r ∧ r.place = .resident → y.place = .draining 1) ∧ (¬ (Mate q r ∧ r.place = .resident) → y = r)) ∧
      (op = 1 → ¬ leaves → refused) ∧
      (op = 2 → ∃ t : State, exec j s = .next t ∧ Command s t cmd false ∧ t.ms = s.ms ∧
        (q.place = .resident → ∀ n x, q.courses.find? (·.idx == n) = some x → x.retired = false → x.ended = false → x.term = none →
          (∀ l : Nat, l < 32 → (t.crs q.id n).laneAt l = .exited) ∧
          ∃ u, (t.crs q.id n).term = some u ∧ u.cls = 2 ∧ u.cause = .killed ∧
            (∀ l : Nat, l < 32 → (bit u.lanes l = true ↔ x.laneAt l ≠ .exited))) ∧
        ((∃ n, q.place = .draining n) → (t.cons q.id).killPending = true ∧ (t.cons q.id).courses = q.courses) ∧
        ((∃ n, q.place = .saved n) → (t.cons q.id).place = q.place ∧ (t.cons q.id).readyAt = none ∧
          ∀ z ∈ (t.cons q.id).courses, z.retired = false → (q.courses.map (·.idx)).Nodup → z.ended = true)) ∧
      (op = 3 → lanes = 0 → ∃ t : State, exec j s = .next t ∧ Command s t cmd false ∧
        (off q = false → t.consorts = s.consorts) ∧
        (off q = true → (t.cons q.id).courses.any Course.couldIssue = true → (t.cons q.id).readyAt.isSome = true)) ∧
      let may : Prop := ∃ x, Cause.ofCode cause = some x ∧
        ((x = .overlayMiss ∧ q.hdr.ovmgr = 0xFFFFFFFF) ∨ (x ≠ .overlayMiss ∧ x.trapClass = true))
      (op = 4 → ¬ may → refused) ∧
      (op = 3 ∧ lanes ≠ 0 ∨ op = 4 ∧ may →
        ((∀ x ∈ q.courses, x.idx = c → x.retired = true) → lanes ≠ 0 → refused) ∧
        ((∃ x ∈ q.courses, x.idx = c) → (q.crs c).retired = false →
          let x := (if off q then s.refresh q.id c else s).crs q.id c
          ∃ t : State, exec j s = .next t ∧ Command s t cmd (decide (lanes &&& ~~~x.parkedLanes ≠ 0)) ∧
            (lanes &&& x.parkedLanes ≠ 0 → (t.crs q.id c).lpc = x.lpc ∧ ∀ l : Nat, l < 32 →
              (bit lanes l = true → x.laneAt l = .parked → (t.crs q.id c).laneAt l = .running ∧
                bit (t.crs q.id c).lapped l = false ∧
                (op = 4 → { cause := cause, lane := l, ref := x.lpcAt l : RefusedLane } ∈ (t.crs q.id c).refused)) ∧
              ((bit lanes l = false ∨ x.laneAt l ≠ .parked) → (t.crs q.id c).laneAt l = x.laneAt l))))
  ) ∧ (
  ∀ s : State,
    (∀ ctx aux : Nat, s.spanOk ctx 0xA0000 = false → exec (.contextPoolRefill ctx aux) s = .fault (.noSuchAddress ctx)) ∧
    (∀ ctx aux : Nat, s.spanOk ctx 0xA0000 = true → Memory.wf s.ms.mem →
      ∃ t : State, exec (.contextPoolRefill ctx aux) s = .next t ∧ t.work.pool = s.work.pool ++ [ctx] ∧
        (∀ r ∈ t.work.qrun, r.starved = false) ∧ t.peek (ctx + 0x99000) 8 = aux % 2 ^ 64) ∧
    (∀ qs : List Nat, qs.length ≤ 64 → (∀ q ∈ qs, q < 4096) →
      ∃ t : State, exec (.residentSetChange qs) s = .next t ∧ (∀ n, (t.qrun n).resident = true ↔ n ∈ qs) ∧ t.ms = s.ms ∧
        t.consorts = s.consorts) ∧
    (s.core.portFailed = true → s.core.halves ≠ 3 → ∃ t : State, exec .halfWidthEnable s = .next t ∧ t.core.halfWidth = true ∧ t.core.portFailed = false ∧
      t.consorts = s.consorts ∧ t.ms = s.ms) ∧
    ((∀ q ∈ s.consorts, q.onCore = false) → ∃ t : State, exec .coreDisable s = .next t ∧ t.core.openToWork = false ∧
      t.consorts = s.consorts ∧ t.ms = s.ms) ∧
    ((∀ q ∈ s.consorts, q.onCore = false) → s.hub.stop = true → s.ms.atoms = [] →
      ∃ t : State, exec .writeBackAndInvalidate s = .next t ∧ t.ms.stores = [] ∧ t.ms.tlb = [] ∧ t.ms.stale = [] ∧ t.core.insts = [] ∧
        t.ms.mem = s.ms.stores.foldl (fun m x => memCells m x.cells) s.ms.mem)
  )

/-- R28, R29, R164 to R168, R183, R184, R412, R470. A load that lands makes its instance RESIDENT with the bytes read, verified where a SHAREABLE one's digest
agrees, and completes its tokens; one that cannot be read waits or fails; frames are taken from free ones and then from victims;
an absent fetch starts a load with no token, or where its entry fails gives each waiting lane the cause at its instruction (which lanes take
it is log entry 60); which instances give up their frames, the shortest run of the order of last fetches with one never fetched at its
creation clock, is the model's choice (log entry 67); what waits for firmware's service goes on after it (the codes 0 to 12 of FAULT_SERVICE and their ids are the model's,
log entry 4). -/
def Obligations.OverlayEventResults : Prop :=
  ∀ s : State,
    (∀ (id : Nat) (i : Inst), s.core.insts.find? (fun i => i.uid == id && i.st == .loading && i.framed && !i.waiting) = some i →
      (s.core.insts.map (·.uid)).Nodup → (∀ x ∈ s.core.insts, x.uid < s.nextId) → i.fetched = false →
      let toks (t : State) (e : TokState) : Prop := i.joiners = [] → ∀ x ∈ i.waiters, Stands s x.1 x.2.1 → x.2.2 < 8 →
        ((t.crs x.1 x.2.1).token x.2.2).st = e
      let gone (t : State) (e : Cause) : Prop := (∀ y ∈ t.core.insts, y.uid ≠ id) ∧ toks t (.error e)
      (∀ bs pa, s.fetchVa i.owner i.entry.base i.entry.len = .bytes bs pa →
        ∃ (t : State) (y : Inst), exec (.overlayLoadComplete id) s = .next t ∧ y ∈ t.core.insts ∧ y.uid = id ∧ y.st = .resident ∧ y.bytes = bs ∧
          (y.verified = true ↔ i.entry.shareable = true ∧ sha256 bs = i.entry.digest) ∧ y.residentAt = s.clock ∧ toks t .free ∧
          (i.entry.shareable = true → sha256 bs ≠ i.entry.digest → ∃ r ∈ t.hub.faults, r.kind = 5)) ∧
      (∀ e va, s.fetchVa i.owner i.entry.base i.entry.len = .absent e va →
        ∃ (t : State) (y : Inst), exec (.overlayLoadComplete id) s = .next t ∧ y ∈ t.core.insts ∧ y = { i with waiting := true } ∧
          ∃ r ∈ t.hub.faults, r.kind = 2 ∧ r.cause = 6 ∧ r.addr = va) ∧
      (∀ va, s.fetchVa i.owner i.entry.base i.entry.len = .denied va →
        ∃ t : State, exec (.overlayLoadComplete id) s = .next t ∧ gone t .xlateDenied) ∧
      (∀ va, s.fetchVa i.owner i.entry.base i.entry.len = .poison va →
        ∃ t : State, exec (.overlayLoadComplete id) s = .next t ∧ gone t .poison)) ∧
    (∀ (id : Nat) (i : Inst) (vs : List Inst), s.core.insts.find? (fun i => i.uid == id && !i.framed) = some i → i.st = .loading →
      (s.core.insts.map (·.uid)).Nodup → takeVictims (i.entry.frames - (128 - s.framesUsed)) s.victims = some vs →
      ∃ t : State, exec (.overlayFrameRetry id) s = .next t ∧ { i with framed := true } ∈ t.core.insts ∧ (∀ v ∈ vs, v ∉ t.core.insts) ∧
        ∀ y ∈ s.core.insts, y ≠ i → y ∉ vs → y ∈ t.core.insts) ∧
    (∀ id : Nat, (∃ i ∈ s.core.insts, i.uid = id ∧ i.st = .resident ∧ i.fetched = false ∧ i.residentAt + 65536 ≤ s.clock) →
      ∃ t : State, exec (.frameProtectionExpiry id) s = .next t ∧ t.ms = s.ms ∧
        ((∀ y ∈ s.core.insts, y.framed = true) → t = s) ∧
        ∀ (i : Inst) (vs : List Inst), s.core.insts.find? (fun i => !i.framed) = some i → i.st = .loading →
          (s.core.insts.map (·.uid)).Nodup → takeVictims (i.entry.frames - (128 - s.framesUsed)) s.victims = some vs →
          { i with framed := true } ∈ t.core.insts ∧ ∀ v ∈ vs, v ∉ t.core.insts) ∧
    (∀ (k c : Nat) (ov : BitVec 16), Stands s k c → s.absentFetch k c = some ov → (∀ x ∈ s.core.insts, x.uid < s.nextId) →
      let q := s.cons k
      (∀ e va set laps, s.readEntry q ov = .bad e va → (s.crs k c).issueSet = some (set, laps) →
        ∃ t : State, exec (.fetchAbsentLoad k c) s = .next t ∧ t.core = s.core ∧
          (t.crs k c).fetchFault = (s.crs k c).fetchFault ++ (lanesOf set).map (fun l =>
            { cause := e, va := va.setWidth 56, lane := l, ref := (s.crs k c).lpcAt l, once := false })) ∧
      (∀ va, s.readEntry q ov = .absent va → ∃ t : State, exec (.fetchAbsentLoad k c) s = .next t ∧ (t.crs k c).fetchWait = true ∧
        t.core = s.core ∧ ∃ r ∈ t.hub.faults, r.kind = 2 ∧ r.cause = 6 ∧ r.course = c ∧ r.addr = va) ∧
      (∀ e, s.readEntry q ov = .entry e → e.shareable = false → ∃ (t : State) (y : Inst), exec (.fetchAbsentLoad k c) s = .next t ∧ y ∈ t.core.insts ∧
        y.st = .loading ∧ y.entry = e ∧ y.owner = q.aspace ∧ y.sharers = [{ aspace := q.aspace, ot := q.hdr.otaddr, ov := ov }] ∧
        y.waiters = [] ∧ t.consorts = s.consorts)) ∧
    ∀ id : Nat,
      let does (n : Nat) (P : State → Prop) : Prop := ∃ t : State, exec (.faultService n id) s = .next t ∧ t.ms = s.ms ∧ P t
      let k := id / 16
      let c := id % 16
      ((∃ x ∈ s.core.insts, x.uid = id ∧ x.waiting = true) →
        does 0 (fun t => Freed (fun x => x.uid == id) (·.waiting) s.core.insts t.core.insts)) ∧
      ((∃ x ∈ s.core.copies, x.id = id ∧ x.waiting = true) →
        does 1 (fun t => Freed (fun x => x.id == id) (·.waiting) s.core.copies t.core.copies)) ∧
      ((∃ x ∈ s.core.bins, x.id = id ∧ x.waiting = true) →
        does 2 (fun t => Freed (fun x => x.id == id) (·.waiting) s.core.bins t.core.bins)) ∧
      ((∃ x ∈ s.core.tfills, x.id = id ∧ x.waiting = true) →
        does 3 (fun t => Freed (fun x => x.id == id) (·.waiting) s.core.tfills t.core.tfills)) ∧
      ((∃ x ∈ s.core.selq, x.id = id ∧ x.waiting = true) →
        does 4 (fun t => Freed (fun x => x.id == id) (·.waiting) s.core.selq t.core.selq)) ∧
      ((∃ p ∈ (s.crs k c).pending, p.waiting = true) →
        does 5 (fun t => (t.crs k c).pending = (s.crs k c).pending.map (fun p => { p with waiting := false }))) ∧
      ((∃ x, s.work.jcwork[id]? = some x ∧ x.waiting = true) →
        does 6 (fun t => Freed (fun _ => true) (·.waiting) s.work.jcwork t.work.jcwork)) ∧
      ((∃ x ∈ s.work.appends, x.mbox = id ∧ x.waiting = true) →
        does 7 (fun t => Freed (fun x => x.mbox == id) (·.waiting) s.work.appends t.work.appends)) ∧
      ((∃ x ∈ s.work.qrun, x.q = id ∧ x.faulted = true) →
        does 8 (fun t => Freed (fun x => x.q == id) (·.faulted) s.work.qrun t.work.qrun)) ∧
      ((s.crs k c).fetchWait = true → does 9 (fun t => (t.crs k c).fetchWait = false)) ∧
      ((∃ x ∈ s.core.mq, x.id = id ∧ x.waiting = true) →
        does 10 (fun t => Freed (fun x => x.id == id) (·.waiting) s.core.mq t.core.mq)) ∧
      (((s.crs (id / 256) (id / 16 % 16)).port c).waiting = true →
        does 11 (fun t => ((t.crs (id / 256) (id / 16 % 16)).port c).waiting = false)) ∧
      ((s.cons id).entryWait = true → does 12 (fun t => (t.cons id).entryWait = false))

/-! ### The host, the links and the hub -/

namespace Sys2Proof.Statements

/-- R432, R433. A response leaves, with its status, its length, the request's TAG and these data; the doorbell reads 0 and memory is as before. -/
def Answers (s t : State) (req : List Byte) (status : Nat) (data : List Byte) : Prop :=
  ∃ r, t.outbox = s.outbox ++ [.response r] ∧ numAt r 0 4 = status ∧ numAt r 4 4 = data.length ∧ (r.drop 8).take 8 = (req.drop 8).take 8 ∧
    r.drop 64 = data ∧ (t.hub.bar4Resp.take r.length = r) ∧ t.hub.bar4Bell = 0

/-- R430. A host event of a kind: an entry at WR with its phase, and the interrupt unless one is pending; or a count in LOST. Outputs
`extra` follow. -/
def Raised (s t : State) (kind : Nat) (extra : List Output) : Prop :=
  let h := s.hub
  let size := h.evSize.toNat
  let room : Prop := h.evEn = true ∧ (∃ e : Nat, 4 ≤ e ∧ e ≤ 15 ∧ size = 2 ^ e) ∧ (h.evWr - h.evRd).toNat ≠ size
  (room → Memory.wf s.ms.mem →
    t.peek (hostPa (h.evBase.toNat / 16 * 16 + 16 * (h.evWr.toNat % size))) 4 =
        kind + (if h.evWr.toNat / size % 2 = 0 then 2 ^ 31 else 0) ∧
      t.hub.evWr = h.evWr + 1 ∧ t.hub.evLost = h.evLost ∧ t.hub.msix = true ∧
      t.outbox = s.outbox ++ (if h.msix then [] else [.interrupt]) ++ extra) ∧
  (¬ room → t.hub.evLost.toNat = min 0xFFFF (h.evLost.toNat + 1) ∧ t.hub.evWr = h.evWr ∧ t.ms = s.ms ∧ t.hub.msix = h.msix ∧
    t.outbox = s.outbox ++ extra)

/-- R428, R438. n bytes of BAR2 at off lie in memory that exists and in open window j, the lowest that covers them. -/
def Opened (s : State) (off n j : Nat) : Prop :=
  (∀ i : Nat, i < n → paExists (off + i) = true ∧ isHost (off + i) = false) ∧
    let covers (j : Nat) : Prop := j < 256 ∧ (let w := vget s.hub.windows (0, 0) j
      w.1.getLsbD 0 = true ∧ field w.1.toNat 47 16 * 65536 ≤ off ∧
        off + n ≤ field w.1.toNat 47 16 * 65536 + field w.2.toNat 47 16 * 65536)
    covers j ∧ ∀ i : Nat, i < j → ¬ covers i

end Sys2Proof.Statements

/-- R117, R123, R125, R131, R139, R428, R429, R432, R433, R438, R440, R441. What a kick, an access to BAR2, MBOXHOST, each command of BAR4, a put
received and a put sent do. A kick that is malformed or misaligned halts its queue with the newer index in WRIDX. The layout of a send
descriptor is in no file of the spec; its fields, and so the header that leaves and where the data stand, are open values of its bytes
here (log entry 35). The model's choices: that a misaligned kick moves WRIDX, and that a queue already halted is not halted again (log
entry 33); the status of a request whose rule gives it none, that a quote names its leaf before it advances, and that QUEUE_DEFINE
leaves QFLAGS, RDIDX and WRIDX 0 (log entry 34); that a put which does not follow its
source's last one waits, and that send data which cannot be read send nothing (log entry 35); and that a quote beyond the 2^30 leaves of
the two levels ends with STATUS 4 (log entry 53). -/
def Obligations.HostResults : Prop :=
  ∀ s : State,
    (∀ (q : Nat) (w : BitVec 32), q < 4096 → exec (.hostKick q true w) s = .next s ∧
      (paExists (s.qdPa q) = true → Memory.wf s.ms.mem →
        let d := s.qdesc q
        let newer : Bool := decide (0 < (2 ^ 32 + w.toNat - d.wr) % 2 ^ 32 ∧ (2 ^ 32 + w.toNat - d.wr) % 2 ^ 32 < 2 ^ 31)
        (d.enabled = false ∨ d.kind ≠ 1 → ∃ t : State, exec (.hostKick q false w) s = .next t ∧ t.hub.kerr = true ∧ t.ms = s.ms ∧
          t.consorts = s.consorts) ∧
        (d.enabled = true → d.kind = 1 → d.malformed = false → w.toNat % 64 = 0 ∨ d.halted = true →
          ∃ t : State, exec (.hostKick q false w) s = .next t ∧ t.peek (s.qdPa q + 0x14) 4 = (if newer then w.toNat else d.wr) ∧
            (∀ a : Nat, a < s.qdPa q + 0x14 ∨ s.qdPa q + 0x18 ≤ a → memGet t.ms.mem a = memGet s.ms.mem a) ∧ t.hub.pstate ≠ 2) ∧
        (d.enabled = true → d.kind = 1 → d.halted = false → d.malformed = true ∨ w.toNat % 64 ≠ 0 → s.hub.evEn = false →
          ∃ t : State, exec (.hostKick q false w) s = .next t ∧ (t.qdesc q).halted = true ∧ t.peek (s.qdPa q + 0x1C) 4 = 0x15 ∧
            t.peek (s.qdPa q + 0x14) 4 = (if newer then w.toNat else d.wr) ∧
            ∃ r ∈ t.hub.faults, r.kind = 4 ∧ r.cause = 0x15 ∧ r.addr = BitVec.ofNat 64 q))) ∧
    (∀ (off : Nat) (data : List Byte),
      ((∀ j : Nat, ¬ Opened s off data.length j) → ∃ t : State, exec (.hostBar2Write off data) s = .next t ∧ t.hub.werr = true ∧ t.ms = s.ms ∧
        t.work = s.work) ∧
      (∀ j : Nat, Opened s off data.length j → Memory.wf s.ms.mem → let pas := (List.range data.length).map (off + ·)
        ∃ t : State, exec (.hostBar2Write off data) s = .next t ∧ Lands s t pas data 0 0 ∧ (∀ x ∈ t.ms.stale, x.pa ∉ pas) ∧
          let rings := s.rung ((vget s.hub.windows (0, 0) j).2.setWidth 16) pas
          (t.work.arrivals = s.work.arrivals ++ rings) ∧ (rings = [] ∨ s.hub.pstate ≠ 2 → t.hub = s.hub) ∧
            (rings ≠ [] → t.hub.pstate ≠ 2))) ∧
    (∀ off n : Nat,
      ((∀ j : Nat, ¬ Opened s off n j) → ∃ t : State, exec (.hostBar2Read off n) s = .next t ∧ t.hub.werr = true ∧ t.ms = s.ms ∧
        t.outbox = s.outbox ++ [.readReply (List.replicate n 0xFF)]) ∧
      ((∃ j, Opened s off n j) → ∃ t : State, exec (.hostBar2Read off n) s = .next t ∧ t.ms = s.ms ∧ t.hub = s.hub ∧
        t.outbox = s.outbox ++ [.readReply (memRead s.ms.mem off n)])) ∧
    (∀ (mgmt : Bool), let b (u : State) : MboxHost := if mgmt then u.hub.mboxMgmt else u.hub.mboxBar0
      let old := s.work.mailboxes.find? (fun m => m.doorbell == (b s).doorbell && m.aspace == (b s).aspace)
      let free (n : Nat) : Prop := n < 1024 ∧ ∀ m ∈ s.work.mailboxes, m.num ≠ n
      (b s).doorbell.toNat % 64 = 0 → (b s).handler.toNat % 64 = 0 →
      ∃ t : State, exec (.mboxhost mgmt) s = .next t ∧ t.ms = s.ms ∧ (b t).doorbell = (b s).doorbell ∧ (b t).handler = (b s).handler ∧
        (∀ n : Nat, (b s).handler ≠ 0 → old = none → free n → (∀ m : Nat, m < n → ¬ free m) → (b t).result.toNat = n ∧
          t.work.mailboxes = s.work.mailboxes ++ [{ num := n, uid := s.nextId, doorbell := (b s).doorbell, handler := (b s).handler
                                                    aspace := (b s).aspace, running := false, count := 0 }]) ∧
        ((b s).handler ≠ 0 → old.isSome = true ∨ (∀ n : Nat, ¬ free n) → (b t).result = 0xFFFFFFFF ∧ t.work = s.work) ∧
        ((b s).handler = 0 → old = none → (b t).result = 0xFFFFFFFF ∧ t.work = s.work) ∧
        ∀ m : Mailbox, (b s).handler = 0 → old = some m → (b t).result = BitVec.ofNat 32 m.num ∧
          ∀ x : Mailbox, x ∈ t.work.mailboxes ↔ x ∈ s.work.mailboxes ∧ x.num ≠ m.num) ∧
    (∀ (req : List Byte), req.length = 4096 →
      let cmd := numAt req 0 4
      let len := numAt req 4 4
      let at40 := numAt req 0x40 4
      let op := numAt req 0x44 4
      let off := numAt req 0x40 8
      let n := numAt req 0x48 4
      let j : Instr := if cmd = 1 then .attestationQuote req else if cmd = 2 then
          (if op = 1 then .queueEnable req else if op = 2 then .queueDisable req else .queueDefine req)
        else if cmd = 3 then .setPowerCap req else if cmd = 4 then .readErrorCounters req else if cmd = 5 then .writeFlash req
        else .unknownCommand req
      let tells (status : Nat) (data : List Byte) (P : State → Prop) : Prop := ∃ t : State, exec j s = .next t ∧ Answers s t req status data ∧ P t
      let only (status : Nat) : Prop := tells status [] (fun t => t.ms = s.ms ∧ t.work = s.work ∧ t.hub.leaf = s.hub.leaf)
      (cmd ≠ 5 → s.hub.bootok = false → only 3) ∧
      (s.hub.bootok = true → cmd = 0 ∨ 5 < cmd → only 1) ∧
      (cmd = 1 → s.hub.bootok = true → 32 ≤ len → len ≤ 4032 → 2 ^ 30 ≤ s.hub.leaf.toNat → only 4) ∧
      (cmd = 1 → s.hub.bootok = true → 32 ≤ len → len ≤ 4032 → s.hub.leaf.toNat < 2 ^ 30 → ∃ data : List Byte, tells 0 data (fun t => t.hub.leaf = s.hub.leaf + 1 ∧ t.ms = s.ms) ∧
        data.take 32 = (req.drop 0x40).take 32 ∧ numAt data 0x20 4 = s.hub.devid.toNat ∧ numAt data 0x24 4 = s.hub.leaf.toNat ∧
        (s.hub.fwDigest.length = 32 → s.hub.cfgDigest.length = 32 →
          (data.drop 0x28).take 32 = s.hub.fwDigest ∧ (data.drop 0x48).take 32 = s.hub.cfgDigest)) ∧
      (cmd = 2 → s.hub.bootok = true → 72 ≤ len → len ≤ 4032 → 4096 ≤ at40 → only 2) ∧
      (cmd = 2 → s.hub.bootok = true → 72 ≤ len → len ≤ 4032 → at40 < 4096 → paExists (s.qdPa at40) = true → Memory.wf s.ms.mem →
        let pa := s.qdPa at40
        let ok : Prop := (∃ e : Nat, 6 ≤ e ∧ e ≤ 30 ∧ numAt req 0x50 4 = 2 ^ e) ∧ numAt req 0x48 8 % 256 = 0 ∧ numAt req 0x54 1 ≤ 2 ∧
          ∀ i : Nat, i < 32 → req.getD (0x68 + i) 0 = 0
        (op = 0 → ok → tells 0 [] (fun t => t.peek pa 8 = numAt req 0x48 8 ∧ t.peek (pa + 8) 4 = numAt req 0x50 4 ∧
          t.peek (pa + 12) 1 = numAt req 0x54 1 ∧ t.peek (pa + 13) 1 = 0 ∧ t.peek (pa + 14) 2 = numAt req 0x56 2 ∧
          t.peek (pa + 16) 8 = 0 ∧ ∀ a : Nat, a < pa ∨ pa + 64 ≤ a → memGet t.ms.mem a = memGet s.ms.mem a)) ∧
        (op = 0 → ¬ ok → only 2) ∧ (3 ≤ op → only 2) ∧
        (op = 1 ∨ op = 2 → tells 0 [] (fun t => (t.qdesc at40).enabled = (op == 1) ∧ (t.qdesc at40).halted = (s.qdesc at40).halted ∧
          ∀ a : Nat, a ≠ pa + 13 → memGet t.ms.mem a = memGet s.ms.mem a))) ∧
      (cmd = 3 → s.hub.bootok = true → 4 ≤ len → len ≤ 4032 →
        (1500 ≤ at40 ∧ at40 ≤ (if s.hub.fp16 then 5500 else 5300) → tells 0 ((req.drop 0x40).take 4) (fun t => t.hub.powerCap = at40)) ∧
        (¬ (1500 ≤ at40 ∧ at40 ≤ (if s.hub.fp16 then 5500 else 5300)) → only 2)) ∧
      (cmd = 4 → s.hub.bootok = true → 4 ≤ len → len ≤ 4032 →
        (5 ≤ at40 → only 2) ∧
        (∀ cs : List DWord, s.hub.counters[at40]? = some cs → at40 < 5 → cs.length ≤ 503 → ∃ data : List Byte, tells 0 data (fun t => t.ms = s.ms) ∧
          numAt data 0 4 = cs.length ∧ data.length = 8 + 8 * cs.length ∧
          ∀ (i : Nat) (x : DWord), cs[i]? = some x → numAt data (8 + 8 * i) 8 = x.toNat)) ∧
      (cmd = 5 → (1 ≤ n ∧ n ≤ 4016 ∧ 16 + n ≤ len ∧ len ≤ 4032 → Memory.wf s.hub.flash → tells 0 [] (fun t =>
          (∀ i : Nat, i < n → memGet t.hub.flash (off + i) = req.getD (0x50 + i) 0) ∧
          (∀ a : Nat, a < off ∨ off + n ≤ a → memGet t.hub.flash a = memGet s.hub.flash a) ∧ t.ms = s.ms)) ∧
        (n = 0 ∨ 4016 < n → tells 2 [] (fun t => t.hub.flash = s.hub.flash)))) ∧
    (∀ (port : Nat) (dst src : BitVec 20) (aspace : BitVec 16) (va : DWord) (seq : BitVec 32) (data : List Byte), port < 32 →
      data ≠ [] → data.length ≤ 8192 →
      let j : Instr := .putReceive port dst src aspace va seq data
      (dst ≠ s.hub.devid → ∃ t : State, exec j s = .next t ∧ t.hub.putDropped = s.hub.putDropped + 1 ∧ t.ms = s.ms ∧ t.outbox = s.outbox) ∧
      let last := (s.hub.seqs.find? (fun x => x.1 == src && x.2.1 == port)).map (·.2.2)
      let follows : Prop := ∀ p, last = some p → 0 < (seq - p).toNat ∧ (seq - p).toNat < 2 ^ 31
      (dst = s.hub.devid → ¬ follows → exec j s = .refused .notEnabled) ∧
      (dst = s.hub.devid → follows →
        (∀ e : Xlat × DWord, s.xlateRange aspace false va false true data.length = .error e →
          ∃ t : State, exec j s = .next t ∧ t.hub.putDropped = s.hub.putDropped + 1 ∧ t.ms = s.ms ∧ t.outbox = s.outbox ++ [.nack src seq]) ∧
        (∀ pas : List (Nat × Bool), s.xlateRange aspace false va false true data.length = .ok pas → (pas.map (·.1)).Nodup → Memory.wf s.ms.mem →
          ∃ t : State, exec j s = .next t ∧ Lands s t (pas.map (·.1)) data 0 0 ∧ (src, port, seq) ∈ t.hub.seqs ∧ (∀ x ∈ t.ms.stale, x.pa ∉ pas.map (·.1)) ∧
            t.hub.putDropped = s.hub.putDropped ∧
            t.outbox = s.outbox ∧ t.work.arrivals = s.work.arrivals ++ s.rung aspace (pas.map (·.1))))) ∧
    ∀ (ring : Nat) (r : SendRing) (ib d : List Byte) (p1 p2 : Nat), s.hub.sends[ring]? = some r → r.size ≠ 0 →
      s.fetchVa r.aspace r.windex 4 = .bytes ib p1 → leNat ib ≠ r.rd % 2 ^ 32 →
      s.fetchVa r.aspace (r.base + BitVec.ofNat 64 (64 * (r.rd % r.size))) 64 = .bytes d p2 →
      ∃ t : State, exec (.putSend ring) s = .next t ∧ t.hub.sends = s.hub.sends.set ring { r with rd := r.rd + 1 } ∧ t.ms = s.ms ∧
        let data := s.fetchVa r.aspace (BitVec.ofNat 64 (Config.sendField 6 d)) (Config.sendField 4 d % 8193)
        (∀ bs p3, data = .bytes bs p3 → bs ≠ [] →
          let f (i : Nat) : Nat := Config.sendField i d
          t.outbox = s.outbox ++ [.put (.ofNat 20 (f 0)) (.ofNat 20 (f 1)) (.ofNat 16 (f 2)) (.ofNat 64 (f 3)) (.ofNat 32 (f 5)) bs]) ∧
        ((∀ bs p3, data = .bytes bs p3 → bs = []) → t.outbox = s.outbox)

/-- R152, R153, R256, R390, R427 to R430, R434 to R443. What firmware's and the host's register writes do to the hub, what an invalidation drops, and
how reset, heat, power and lost resources change the module. The model's choices: memory, flash and the leaf index survive a module
reset, and the steps of heat and power (log entry 36); retired resources count in group 4 (log entry 63); a misaligned write to a BAR0
register does nothing (log entry 70; R435 gives that for the management window). -/
def Obligations.HubResults : Prop :=
  ∀ (s : State) (w : BitVec 64) (k : Nat),
    ((w.setWidth 2 = s.hub.pmode ∨ w.setWidth 2 = 3#2) → ∃ t : State, exec (.partmodeStop w) s = .next t ∧ t.hub.stop = w.getLsbD 16 ∧
      t.hub.pmode = s.hub.pmode ∧ t.hub.merr = (s.hub.merr && !w.getLsbD 9) ∧ t.ms = s.ms ∧ t.consorts = s.consorts) ∧
    (w.setWidth 2 ≠ 3#2 →
      (s.drainedAll = false → ∃ t : State, exec (.partmodeModeWrite w) s = .next t ∧ t.hub.merr = true ∧ t.hub.pmode = s.hub.pmode ∧
        t.hub.stop = s.hub.stop ∧ t.ms = s.ms) ∧
      (s.drainedAll = true → ∃ t : State, exec (.partmodeModeWrite w) s = .next t ∧ t.hub.pmode = w.setWidth 2 ∧
        t.hub.stop = w.getLsbD 16 ∧ t.ms = s.ms)) ∧
    (∃ t : State, exec .watchdogRestart s = .next t ∧ t.hub.watchdog = 50000 ∧ t.ms = s.ms ∧ t.consorts = s.consorts) ∧
    (s.hub.watchdog = 0 → s.hub.fwlost = false →
      ∃ t : State, exec .watchdogExpiry s = .next t ∧ t.hub.stop = true ∧ t.hub.fwlost = true ∧ t.consorts = s.consorts ∧
        Raised s t 4 [.firmwareReset]) ∧
    (let scope := w.toNat % 8
     let j : Instr := if scope = 0 then .invalPage w else if scope = 1 then .inval2mib w else if scope = 2 then .inval1gib w
       else if scope = 3 then .invalAspace w else .invalAll w
     scope ≤ 4 →
      (s.hub.invalBusy = true → exec j s = .next s) ∧
      (s.hub.invalBusy = false → ∃ t u : State, exec j s = .next t ∧ t.hub.invalBusy = true ∧ exec .invalComplete t = .next u ∧
        u.hub.invalBusy = false ∧ u.ms.mem = s.ms.mem ∧
        let size := if scope = 0 then 2 ^ 16 else if scope = 1 then 2 ^ 21 else 2 ^ 30
        let lo := field s.hub.invalva.toNat 55 16 * 65536 / size * size
        ∀ e, e ∈ u.ms.tlb ↔ e ∈ s.ms.tlb ∧ ¬ (scope = 4 ∨ (e.aspace.toNat = field w.toNat 63 48 ∧
          (scope = 3 ∨ (lo < (e.vpn + 1) * 2 ^ e.shift ∧ e.vpn * 2 ^ e.shift < lo + size)))))) ∧
    (s.hub.invalBusy = true → ∃ t : State, exec .invalComplete s = .next t ∧ t.hub.invalBusy = false ∧ t.ms.mem = s.ms.mem) ∧
    (∀ (aspace : BitVec 16) (va : BitVec 64), ∃ t : State, exec (.translationWalk aspace va) s = .next t ∧ t.ms.mem = s.ms.mem ∧
      (∀ e, s.walk aspace va = .leaf e → e ∈ t.ms.tlb) ∧ ∀ e, e ∈ t.ms.tlb → e ∈ s.ms.tlb ∨ s.walk aspace va = .leaf e) ∧
    (let sets (bar0 : Bool) (off : Nat) (P : Hub → Prop) : Prop := ∃ t : State, exec (.registerWrite bar0 off w) s = .next t ∧ P t.hub ∧
       t.ms = s.ms ∧ t.core = s.core ∧ t.consorts = s.consorts ∧ t.work = s.work
     let x := w.toNat
     let ring (h : Hub) (p : Nat) : ExitRing := vget h.exits ExitRing.reset p
     (∀ (bar0 : Bool) (off : Nat), off % 8 ≠ 0 → exec (.registerWrite bar0 off w) s = .next s) ∧
     sets false 0x10 (fun h => h.ctxaddr.toNat = field x 47 16 * 2 ^ 16) ∧ sets false 0x20 (fun h => h.qdtbase.toNat = field x 47 18 * 2 ^ 18) ∧
     sets false 0x28 (fun h => h.astbase.toNat = field x 47 19 * 2 ^ 19) ∧ sets false 0x30 (fun h => h.invalva.toNat = field x 55 16 * 2 ^ 16) ∧
     (∀ p : Nat, p < 8 → sets false (0x100 + 0x40 * p) (fun h => (ring h p).base.toNat = field x 47 8 * 2 ^ 8) ∧
       sets false (0x108 + 0x40 * p) (fun h => (ring h p).size.toNat = field x 31 0) ∧
       sets false (0x110 + 0x40 * p) (fun h => h = s.hub) ∧
       sets false (0x118 + 0x40 * p) (fun h => (ring h p).rd.toNat = field x 31 0 ∧ (ring h p).wr = (ring s.hub p).wr) ∧
       sets false (0x120 + 0x40 * p) (fun h => (ring h p).mode.toNat = field x 1 0 ∧
         (ring h p).lost = (ring s.hub p).lost &&& ~~~(BitVec.ofNat 16 (field x 31 16)))) ∧
     sets false 0x400 (fun h => h.frbase.toNat = field x 47 5 * 2 ^ 5) ∧ sets false 0x408 (fun h => h.frsize.toNat = field x 31 0) ∧
     sets false 0x410 (fun h => h = s.hub) ∧ sets false 0x418 (fun h => h.frrd.toNat = field x 31 0) ∧
     sets false 0x420 (fun h => h.frien = w.getLsbD 0) ∧
     (∀ m : Nat, m < 24 → sets false (0x1000 + 8 * m) (fun h => (vget h.recarea 0 m).getLsbD 0 = w.getLsbD 0 ∧
       field (vget h.recarea 0 m).toNat 35 31 = field x 35 31 ∧
       (vget h.recarea 0 m).getLsbD 2 = ((vget s.hub.recarea 0 m).getLsbD 2 && !w.getLsbD 2))) ∧
     (∀ n : Nat, n < 256 → sets false (0x2000 + 16 * n) (fun h => (vget h.windows (0, 0) n).1.toNat =
         field x 47 16 * 2 ^ 16 + field x 0 0) ∧
       sets false (0x2008 + 16 * n) (fun h => (vget h.windows (0, 0) n).2.toNat = field x 47 0)) ∧
     sets false 0x4000 (fun h => h.mboxMgmt.doorbell = w) ∧ sets false 0x4008 (fun h => h.mboxMgmt.handler = w) ∧
     sets false 0x4010 (fun h => h.mboxMgmt.aspace.toNat = field x 15 0) ∧
     sets true 0x8000 (fun h => h.mboxBar0.doorbell = w) ∧ sets true 0x8008 (fun h => h.mboxBar0.handler = w) ∧
     sets true 0x8010 (fun h => h.mboxBar0.aspace.toNat = field x 15 0) ∧
     sets true 0x9000 (fun h => h.therm = (s.hub.therm && !w.getLsbD 5) ∧ h.kerr = (s.hub.kerr && !w.getLsbD 4) ∧
       h.werr = (s.hub.werr && !w.getLsbD 3)) ∧
     sets true 0xA000 (fun h => h.evBase.toNat = field x 63 4 * 2 ^ 4) ∧
     sets true 0xA008 (fun h => h.evSize.toNat = field x 31 16 ∧ h.evRd.toNat = field x 15 0) ∧
     sets true 0xA010 (fun h => h = s.hub) ∧
     sets true 0xA018 (fun h => h.evEn = w.getLsbD 0 ∧ h.evLost = s.hub.evLost &&& ~~~(BitVec.ofNat 16 (field x 31 16)))) ∧
    (∃ t : State, exec .moduleReset s = .next t ∧ t.consorts = [] ∧ t.core = CoreSt.reset ∧ t.work = WorkSt.reset ∧ t.clock = 0 ∧
      t.hub.stop = false ∧ t.hub.fwlost = false ∧ t.hub.replace = false ∧ t.hub.tripped = false ∧ t.hub.flash = s.hub.flash ∧
      t.hub.leaf = s.hub.leaf ∧ (t.hub.stopped = !t.hub.bootok) ∧ t.ms.stores = [] ∧ t.ms.tlb = [] ∧
      t.ms.mem = s.ms.mem ∧ t.hub.powerCap = (if s.hub.fp16 then 5500 else 5300)) ∧
    (∃ t : State, exec .thermalThrottle s = .next t ∧ t.hub.cclk = 1200 ∧ t.hub.therm = true ∧ t.consorts.length = s.consorts.length) ∧
    (∃ t : State, exec .thermalTrip s = .next t ∧ t.hub.tripped = true ∧ t.hub.stopped = true ∧ t.coreRuns = false ∧ Raised s t 3 []) ∧
    (s.hub.stopped = false → s.hub.pstate.toNat < 2 →
      (1300 ≤ s.hub.cclk → s.hub.powerCap < s.hub.power → ∃ t : State, exec (.powerCapStep false) s = .next t ∧ t.hub.cclk = s.hub.cclk - 100 ∧ t.hub.pstate = 1 ∧ t.ms = s.ms) ∧
      (s.hub.cclk ≤ 2300 → s.hub.therm = false → s.hub.power ≤ s.hub.powerCap → ∃ t : State, exec (.powerCapStep true) s = .next t ∧ t.hub.cclk = s.hub.cclk + 100 ∧ t.ms = s.ms)) ∧
    (s.hub.stopped = false → s.hub.pstate.toNat < 2 → (∀ q ∈ s.consorts, q.onCore = false) → s.ms.stores = [] → s.ms.atoms = [] →
      s.work.arrivals = [] → ∃ t : State, exec .powerStateIdle s = .next t ∧ t.hub.pstate = 2 ∧ t.distributing = false ∧ t.ms = s.ms) ∧
    (∃ t : State, exec .pcieD3cold s = .next t ∧ t.hub.pstate = 3 ∧ t.ownEvents = [] ∧ t.ms = s.ms) ∧
    (let reads (i : Input) (bs : List Byte) : Prop := s.input i = .next { s with outbox := s.outbox ++ [.readReply bs] }
     (reads (.readBar0 0x9000 8) (leBytes 8 (s.hub.devid.toNat * 2 ^ 20 + s.hub.pstate.toNat * 2 ^ 16 + s.hub.fwlost.toNat * 64 +
        s.hub.therm.toNat * 32 + s.hub.kerr.toNat * 16 + s.hub.werr.toNat * 8 + s.hub.bootok.toNat * 2 + s.hub.replace.toNat))) ∧
     reads (.readMgmt 0x08 8) (leBytes 8 s.hub.watchdog.toNat) ∧
     (∀ off n : Nat, off % 8 ≠ 0 ∨ n ≠ 8 → reads (.readMgmt off n) (List.replicate n 0)) ∧
     reads (.readMgmt 0x420 8) (leBytes 8 (min 0xFFFF s.hub.faults.length * 2 ^ 16 + s.hub.frien.toNat)) ∧
     (∀ g u : Nat, g < 5 → u < 503 → ∃ t : State, s.input (.errorCounted g u) = .next t ∧
       (t.hub.counters.getD g []).getD u 0 = (s.hub.counters.getD g []).getD u 0 + 1 ∧ t.ms = s.ms ∧ t.consorts = s.consorts)) ∧
    ∃ t : State, exec (.resourceRetirement (BitVec.ofNat 32 k)) s = .next t ∧ t.hub.replace = true ∧ Raised s t 2 [] ∧
      (k < 503 → (t.hub.counters.getD 4 []).getD k 0 = (s.hub.counters.getD 4 []).getD k 0 + 1)

/-! ### What computing leaves alone -/

namespace Sys2Proof.Statements

/-- The rows that compute in registers: the integer, floating-point, special-function, conversion, cross-lane and scalar families with
their immediate, scalar-operand and 16-bit forms. -/
def computes (i : Instr) : Bool :=
  match i with
  | .iadd .. | .isub .. | .iand .. | .ior .. | .ixor .. | .andn .. | .shl .. | .shrl .. | .shra .. | .imin .. | .imax ..
  | .nmin .. | .nmax .. | .iabs .. | .ineg .. | .mov .. | .imul .. | .imulhi .. | .nmulhi .. | .imad .. | .popc ..
  | .clz .. | .brev .. | .iaddsat .. | .iaddi .. | .andi .. | .ori .. | .xori .. | .shli .. | .shrli .. | .shrai ..
  | .movi .. | .ialusIadd .. | .ialusIsub .. | .ialusAnd .. | .ialusOr .. | .ialusXor .. | .ialusAndn .. | .ialusShl ..
  | .ialusShrl .. | .ialusShra .. | .ialusImin .. | .ialusImax .. | .ialusNmin .. | .ialusNmax .. | .ialusIabs ..
  | .icmpEq .. | .icmpNe .. | .icmpLt .. | .icmpLe .. | .icmpGt .. | .icmpGe .. | .icmpNlt .. | .icmpNle .. | .icmpNgt ..
  | .icmpNge .. | .sel .. | .movShort .. | .iaddShort .. | .isubShort .. | .iandShort .. | .iorShort .. | .ixorShort ..
  | .shlShort .. | .shrlShort .. | .shraShort .. | .imulShort .. | .moviShort .. | .fadd .. | .fsub .. | .fmul ..
  | .fmin .. | .fmax .. | .fabs .. | .fneg .. | .fcopysign .. | .frint .. | .fma .. | .fms .. | .fnma .. | .fnms ..
  | .falusFadd .. | .falusFsub .. | .falusFmul .. | .falusFmin .. | .falusFmax .. | .fcmpEq .. | .fcmpNe .. | .fcmpLt ..
  | .fcmpLe .. | .fcmpGt .. | .fcmpGe .. | .fcmpUn .. | .fcmpOrd .. | .faddShort .. | .fsubShort .. | .fmulShort ..
  | .fminShort .. | .fmaxShort .. | .rcp .. | .rsq .. | .exp2 .. | .log2 .. | .sin .. | .cos .. | .sqrt .. | .div ..
  | .cvt .. | .cast .. | .pack .. | .unpacklo .. | .unpackhi .. | .qdec .. | .shfl .. | .shflup .. | .shfldn ..
  | .shflx .. | .ballot .. | .voteall .. | .voteany .. | .matchv .. | .redadd .. | .scanadd .. | .redmin .. | .redmax ..
  | .movs .. | .vtos .. | .laneid .. | .wid .. | .widf .. | .rng .. | .rng4 .. | .sadd .. | .ssub .. | .smul ..
  | .sand .. | .sor .. | .sxor .. | .sshl .. | .sshrl .. | .sshra .. | .smin .. | .smax .. | .snmin .. | .snmax ..
  | .scmpeq .. | .scmplt .. | .scmpnlt .. | .ssel .. | .saddi .. | .sandi .. | .sori .. | .sxori .. | .sshli ..
  | .sshrli .. | .scmpeqi .. | .smovi .. => true
  | _ => false

/-- A course's registers, lanes, masks, ports and what it has in flight are as before. -/
def SameCourse (x y : Course) : Prop :=
  y.lpc = x.lpc ∧ y.lane = x.lane ∧ y.lapped = x.lapped ∧ y.v = x.v ∧ y.s = x.s ∧ y.m = x.m ∧ y.fpmode = x.fpmode ∧ y.hmask = x.hmask ∧
    y.trapcause = x.trapcause ∧ y.trapinfo = x.trapinfo ∧ y.tokens = x.tokens ∧ y.ports = x.ports ∧ y.pending = x.pending ∧
    y.hold = x.hold ∧ y.region = x.region ∧ y.loads = x.loads ∧ y.stores = x.stores ∧ y.copies = x.copies ∧ y.tiles = x.tiles

end Sys2Proof.Statements

/-- R192, R195, R223, R247, R405. An instruction that computes in registers answers a next state, whatever becomes of it (its result, a stall
or a trap), in which memory, every scratchpad, tile, slot, token entry and barrier, the core's engines, the queues and the hub
are as before, and so is every other course; the issuing course keeps its counters, tokens, region, launches and the lanes and
references of lanes outside the issue set, unless the course ends by a trap inside its handler or without one, or lanes that REFUSE let go
take their causes with it (R413). -/
def Obligations.ComputingLeavesTheRest : Prop :=
  ∀ (s : State) (i : Instr), computes i = true → s.issuing = true →
    ∃ t : State, exec i s = .next t ∧ t.ms = s.ms ∧ t.core = s.core ∧ t.work = s.work ∧ t.hub = s.hub ∧ t.clock = s.clock ∧
      t.inputs = s.inputs ∧ t.outbox = s.outbox ∧
      (∀ k c : Nat, ¬ (k = s.iss.k ∧ c = s.iss.c) → SameCourse (s.crs k c) (t.crs k c)) ∧
      (∀ k : Nat, (t.cons k).scratch = (s.cons k).scratch ∧ (t.cons k).tiles = (s.cons k).tiles ∧ (t.cons k).slots = (s.cons k).slots ∧
        (t.cons k).rtokens = (s.cons k).rtokens ∧ (t.cons k).bars = (s.cons k).bars ∧ (t.cons k).place = (s.cons k).place ∧
        (k ≠ s.iss.k → (t.cons k).channels = (s.cons k).channels)) ∧
      t.me.loads = s.me.loads ∧ t.me.stores = s.me.stores ∧ t.me.copies = s.me.copies ∧ t.me.tiles = s.me.tiles ∧
      t.me.tokens = s.me.tokens ∧ t.me.region = s.me.region ∧ t.me.pending = s.me.pending ∧
      (s.iss.refused = 0 → s.me.term = none → t.me.term = none → ∀ l : Nat, l < 32 → bit s.iss.set l = false →
        t.me.lpcAt l = s.me.lpcAt l ∧ t.me.laneAt l = s.me.laneAt l ∧ ∀ n : Nat, (t.me.getV n).at l = (s.me.getV n).at l)
end

