-- ==== Sys2Proof/Laws/Arms.lean ====
section
/-!
SUPPORT. The arms of exec as equations, one per instruction: a proof about one instruction rewrites with its own arm.
-/

namespace Sys2Proof.Machine

open Sys2Proof

theorem exec_movShort (d : BitVec 6) (s : BitVec 5) (st : State) : exec (.movShort d s) st = execMovShort d s st := rfl
theorem exec_iaddShort (d : BitVec 6) (s : BitVec 5) (st : State) : exec (.iaddShort d s) st = execIaddShort d s st := rfl
theorem exec_isubShort (d : BitVec 6) (s : BitVec 5) (st : State) : exec (.isubShort d s) st = execIsubShort d s st := rfl
theorem exec_iandShort (d : BitVec 6) (s : BitVec 5) (st : State) : exec (.iandShort d s) st = execIandShort d s st := rfl
theorem exec_iorShort (d : BitVec 6) (s : BitVec 5) (st : State) : exec (.iorShort d s) st = execIorShort d s st := rfl
theorem exec_ixorShort (d : BitVec 6) (s : BitVec 5) (st : State) : exec (.ixorShort d s) st = execIxorShort d s st := rfl
theorem exec_shlShort (d : BitVec 6) (s : BitVec 5) (st : State) : exec (.shlShort d s) st = execShlShort d s st := rfl
theorem exec_shrlShort (d : BitVec 6) (s : BitVec 5) (st : State) : exec (.shrlShort d s) st = execShrlShort d s st := rfl
theorem exec_shraShort (d : BitVec 6) (s : BitVec 5) (st : State) : exec (.shraShort d s) st = execShraShort d s st := rfl
theorem exec_imulShort (d : BitVec 6) (s : BitVec 5) (st : State) : exec (.imulShort d s) st = execImulShort d s st := rfl
theorem exec_faddShort (d : BitVec 6) (s : BitVec 5) (st : State) : exec (.faddShort d s) st = execFaddShort d s st := rfl
theorem exec_fsubShort (d : BitVec 6) (s : BitVec 5) (st : State) : exec (.fsubShort d s) st = execFsubShort d s st := rfl
theorem exec_fmulShort (d : BitVec 6) (s : BitVec 5) (st : State) : exec (.fmulShort d s) st = execFmulShort d s st := rfl
theorem exec_fminShort (d : BitVec 6) (s : BitVec 5) (st : State) : exec (.fminShort d s) st = execFminShort d s st := rfl
theorem exec_fmaxShort (d : BitVec 6) (s : BitVec 5) (st : State) : exec (.fmaxShort d s) st = execFmaxShort d s st := rfl
theorem exec_moviShort (d : BitVec 6) (i : BitVec 5) (s : State) : exec (.moviShort d i) s = execMoviShort d i s := rfl
theorem exec_nop (s : State) : exec .nop s = execNop s := rfl
theorem exec_trap (c : BitVec 6) (s : State) : exec (.trap c) s = execTrap c s := rfl
theorem exec_brk (c : BitVec 6) (s : State) : exec (.brk c) s = execBrk c s := rfl
theorem exec_yield (s : State) : exec .yield s = execYield s := rfl
theorem exec_rdsr (d : BitVec 6) (n : BitVec 6) (s : State) : exec (.rdsr d n) s = execRdsr d n s := rfl
theorem exec_wrsr (a : BitVec 6) (n : BitVec 6) (s : State) : exec (.wrsr a n) s = execWrsr a n s := rfl
theorem exec_clock (d : BitVec 6) (s : State) : exec (.clock d) s = execClock d s := rfl
theorem exec_prbclr (s : State) : exec .prbclr s = execPrbclr s := rfl
theorem exec_limm (i : BitVec 25) (fw : BitVec 32) (s : State) : exec (.limm i fw) s = execLimm i fw s := rfl
theorem exec_brnz (c : BitVec 7) (o : BitVec 17) (px : Option (BitVec 25)) (s : State) :
    exec (.brnz c o px) s = execBrnz c o px s := rfl
theorem exec_brz (c : BitVec 7) (o : BitVec 17) (px : Option (BitVec 25)) (s : State) :
    exec (.brz c o px) s = execBrz c o px s := rfl
theorem exec_jmp (i : BitVec 21) (px : Option (BitVec 25)) (s : State) : exec (.jmp i px) s = execJmp i px s := rfl
theorem exec_call (i : BitVec 21) (px : Option (BitVec 25)) (s : State) : exec (.call i px) s = execCall i px s := rfl
theorem exec_ret (r : BitVec 7) (s : State) : exec (.ret r) s = execRet r s := rfl
theorem exec_callx (o : BitVec 16) (e : BitVec 5) (s : State) : exec (.callx o e) s = execCallx o e s := rfl
theorem exec_callxr (r : BitVec 7) (s : State) : exec (.callxr r) s = execCallxr r s := rfl
theorem exec_retx (r : BitVec 7) (s : State) : exec (.retx r) s = execRetx r s := rfl
theorem exec_exit (s : State) : exec .exit s = execExit s := rfl
theorem exec_nap (n : BitVec 21) (s : State) : exec (.nap n) s = execNap n s := rfl
theorem exec_join (m : BitVec 4) (s : State) : exec (.join m) s = execJoin m s := rfl
theorem exec_leave (m : BitVec 4) (s : State) : exec (.leave m) s = execLeave m s := rfl
theorem exec_waitm (m : BitVec 4) (s : State) : exec (.waitm m) s = execWaitm m s := rfl
theorem exec_mmov (m : BitVec 4) (s : BitVec 10) (px : Option (BitVec 25)) (st : State) :
    exec (.mmov m s px) st = execMmov m s px st := rfl
theorem exec_mread (m : BitVec 4) (v : BitVec 7) (s : State) : exec (.mread m v) s = execMread m v s := rfl
theorem exec_mwrite (m : BitVec 4) (v : BitVec 7) (s : State) : exec (.mwrite m v) s = execMwrite m v s := rfl
theorem exec_mcount (m : BitVec 4) (v : BitVec 7) (s : State) : exec (.mcount m v) s = execMcount m v s := rfl
theorem exec_waitc (l : BitVec 5) (s : BitVec 4) (c : BitVec 4) (t : BitVec 4) (k : BitVec 8) (st : State) :
    exec (.waitc l s c t k) st = execWaitc l s c t k st := rfl
theorem exec_sadd (d : BitVec 6) (a : BitVec 6) (b : BitVec 6) (s : State) : exec (.sadd d a b) s = execSadd d a b s := rfl
theorem exec_ssub (d : BitVec 6) (a : BitVec 6) (b : BitVec 6) (s : State) : exec (.ssub d a b) s = execSsub d a b s := rfl
theorem exec_smul (d : BitVec 6) (a : BitVec 6) (b : BitVec 6) (s : State) : exec (.smul d a b) s = execSmul d a b s := rfl
theorem exec_sand (d : BitVec 6) (a : BitVec 6) (b : BitVec 6) (s : State) : exec (.sand d a b) s = execSand d a b s := rfl
theorem exec_sor (d : BitVec 6) (a : BitVec 6) (b : BitVec 6) (s : State) : exec (.sor d a b) s = execSor d a b s := rfl
theorem exec_sxor (d : BitVec 6) (a : BitVec 6) (b : BitVec 6) (s : State) : exec (.sxor d a b) s = execSxor d a b s := rfl
theorem exec_sshl (d : BitVec 6) (a : BitVec 6) (b : BitVec 6) (s : State) : exec (.sshl d a b) s = execSshl d a b s := rfl
theorem exec_sshrl (d : BitVec 6) (a : BitVec 6) (b : BitVec 6) (s : State) :
    exec (.sshrl d a b) s = execSshrl d a b s := rfl
theorem exec_sshra (d : BitVec 6) (a : BitVec 6) (b : BitVec 6) (s : State) :
    exec (.sshra d a b) s = execSshra d a b s := rfl
theorem exec_smin (d : BitVec 6) (a : BitVec 6) (b : BitVec 6) (s : State) : exec (.smin d a b) s = execSmin d a b s := rfl
theorem exec_smax (d : BitVec 6) (a : BitVec 6) (b : BitVec 6) (s : State) : exec (.smax d a b) s = execSmax d a b s := rfl
theorem exec_snmin (d : BitVec 6) (a : BitVec 6) (b : BitVec 6) (s : State) :
    exec (.snmin d a b) s = execSnmin d a b s := rfl
theorem exec_snmax (d : BitVec 6) (a : BitVec 6) (b : BitVec 6) (s : State) :
    exec (.snmax d a b) s = execSnmax d a b s := rfl
theorem exec_scmpeq (d : BitVec 6) (a : BitVec 6) (b : BitVec 6) (s : State) :
    exec (.scmpeq d a b) s = execScmpeq d a b s := rfl
theorem exec_scmplt (d : BitVec 6) (a : BitVec 6) (b : BitVec 6) (s : State) :
    exec (.scmplt d a b) s = execScmplt d a b s := rfl
theorem exec_scmpnlt (d : BitVec 6) (a : BitVec 6) (b : BitVec 6) (s : State) :
    exec (.scmpnlt d a b) s = execScmpnlt d a b s := rfl
theorem exec_ssel (d : BitVec 6) (a : BitVec 6) (b : BitVec 6) (s : State) : exec (.ssel d a b) s = execSsel d a b s := rfl
theorem exec_saddi (d : BitVec 6) (a : BitVec 6) (i : BitVec 10) (px : Option (BitVec 25)) (s : State) :
    exec (.saddi d a i px) s = execSaddi d a i px s := rfl
theorem exec_sandi (d : BitVec 6) (a : BitVec 6) (i : BitVec 10) (px : Option (BitVec 25)) (s : State) :
    exec (.sandi d a i px) s = execSandi d a i px s := rfl
theorem exec_sori (d : BitVec 6) (a : BitVec 6) (i : BitVec 10) (px : Option (BitVec 25)) (s : State) :
    exec (.sori d a i px) s = execSori d a i px s := rfl
theorem exec_sxori (d : BitVec 6) (a : BitVec 6) (i : BitVec 10) (px : Option (BitVec 25)) (s : State) :
    exec (.sxori d a i px) s = execSxori d a i px s := rfl
theorem exec_sshli (d : BitVec 6) (a : BitVec 6) (i : BitVec 10) (px : Option (BitVec 25)) (s : State) :
    exec (.sshli d a i px) s = execSshli d a i px s := rfl
theorem exec_sshrli (d : BitVec 6) (a : BitVec 6) (i : BitVec 10) (px : Option (BitVec 25)) (s : State) :
    exec (.sshrli d a i px) s = execSshrli d a i px s := rfl
theorem exec_smovi (d : BitVec 6) (i : BitVec 10) (px : Option (BitVec 25)) (s : State) :
    exec (.smovi d i px) s = execSmovi d i px s := rfl
theorem exec_scmpeqi (d : BitVec 6) (a : BitVec 6) (i : BitVec 10) (px : Option (BitVec 25)) (s : State) :
    exec (.scmpeqi d a i px) s = execScmpeqi d a i px s := rfl
theorem exec_sld (d : BitVec 6) (a : BitVec 6) (i : BitVec 10) (px : Option (BitVec 25)) (s : State) :
    exec (.sld d a i px) s = execSld d a i px s := rfl
theorem exec_sst (d : BitVec 6) (a : BitVec 6) (i : BitVec 10) (px : Option (BitVec 25)) (s : State) :
    exec (.sst d a i px) s = execSst d a i px s := rfl
theorem exec_sldw (d : BitVec 6) (a : BitVec 6) (i : BitVec 10) (px : Option (BitVec 25)) (s : State) :
    exec (.sldw d a i px) s = execSldw d a i px s := rfl
theorem exec_sstw (d : BitVec 6) (a : BitVec 6) (i : BitVec 10) (px : Option (BitVec 25)) (s : State) :
    exec (.sstw d a i px) s = execSstw d a i px s := rfl
theorem exec_iadd (d : BitVec 7) (a : BitVec 7) (b : BitVec 7) (s : State) : exec (.iadd d a b) s = execIadd d a b s := rfl
theorem exec_isub (d : BitVec 7) (a : BitVec 7) (b : BitVec 7) (s : State) : exec (.isub d a b) s = execIsub d a b s := rfl
theorem exec_iand (d : BitVec 7) (a : BitVec 7) (b : BitVec 7) (s : State) : exec (.iand d a b) s = execIand d a b s := rfl
theorem exec_ior (d : BitVec 7) (a : BitVec 7) (b : BitVec 7) (s : State) : exec (.ior d a b) s = execIor d a b s := rfl
theorem exec_ixor (d : BitVec 7) (a : BitVec 7) (b : BitVec 7) (s : State) : exec (.ixor d a b) s = execIxor d a b s := rfl
theorem exec_andn (d : BitVec 7) (a : BitVec 7) (b : BitVec 7) (s : State) : exec (.andn d a b) s = execAndn d a b s := rfl
theorem exec_shl (d : BitVec 7) (a : BitVec 7) (b : BitVec 7) (s : State) : exec (.shl d a b) s = execShl d a b s := rfl
theorem exec_shrl (d : BitVec 7) (a : BitVec 7) (b : BitVec 7) (s : State) : exec (.shrl d a b) s = execShrl d a b s := rfl
theorem exec_shra (d : BitVec 7) (a : BitVec 7) (b : BitVec 7) (s : State) : exec (.shra d a b) s = execShra d a b s := rfl
theorem exec_imin (d : BitVec 7) (a : BitVec 7) (b : BitVec 7) (s : State) : exec (.imin d a b) s = execImin d a b s := rfl
theorem exec_imax (d : BitVec 7) (a : BitVec 7) (b : BitVec 7) (s : State) : exec (.imax d a b) s = execImax d a b s := rfl
theorem exec_nmin (d : BitVec 7) (a : BitVec 7) (b : BitVec 7) (s : State) : exec (.nmin d a b) s = execNmin d a b s := rfl
theorem exec_nmax (d : BitVec 7) (a : BitVec 7) (b : BitVec 7) (s : State) : exec (.nmax d a b) s = execNmax d a b s := rfl
theorem exec_iabs (d : BitVec 7) (a : BitVec 7) (s : State) : exec (.iabs d a) s = execIabs d a s := rfl
theorem exec_ineg (d : BitVec 7) (a : BitVec 7) (s : State) : exec (.ineg d a) s = execIneg d a s := rfl
theorem exec_mov (d : BitVec 7) (a : BitVec 7) (s : State) : exec (.mov d a) s = execMov d a s := rfl
theorem exec_imul (d : BitVec 7) (a : BitVec 7) (b : BitVec 7) (s : State) : exec (.imul d a b) s = execImul d a b s := rfl
theorem exec_imulhi (d : BitVec 7) (a : BitVec 7) (b : BitVec 7) (s : State) :
    exec (.imulhi d a b) s = execImulhi d a b s := rfl
theorem exec_nmulhi (d : BitVec 7) (a : BitVec 7) (b : BitVec 7) (s : State) :
    exec (.nmulhi d a b) s = execNmulhi d a b s := rfl
theorem exec_imad (d : BitVec 7) (a : BitVec 7) (b : BitVec 7) (s : State) : exec (.imad d a b) s = execImad d a b s := rfl
theorem exec_popc (d : BitVec 7) (a : BitVec 7) (s : State) : exec (.popc d a) s = execPopc d a s := rfl
theorem exec_clz (d : BitVec 7) (a : BitVec 7) (s : State) : exec (.clz d a) s = execClz d a s := rfl
theorem exec_brev (d : BitVec 7) (a : BitVec 7) (s : State) : exec (.brev d a) s = execBrev d a s := rfl
theorem exec_iaddsat (d : BitVec 7) (a : BitVec 7) (b : BitVec 7) (s : State) :
    exec (.iaddsat d a b) s = execIaddsat d a b s := rfl
theorem exec_iaddi (d : BitVec 7) (a : BitVec 7) (i : BitVec 8) (px : Option (BitVec 25)) (s : State) :
    exec (.iaddi d a i px) s = execIaddi d a i px s := rfl
theorem exec_andi (d : BitVec 7) (a : BitVec 7) (i : BitVec 8) (px : Option (BitVec 25)) (s : State) :
    exec (.andi d a i px) s = execAndi d a i px s := rfl
theorem exec_ori (d : BitVec 7) (a : BitVec 7) (i : BitVec 8) (px : Option (BitVec 25)) (s : State) :
    exec (.ori d a i px) s = execOri d a i px s := rfl
theorem exec_xori (d : BitVec 7) (a : BitVec 7) (i : BitVec 8) (px : Option (BitVec 25)) (s : State) :
    exec (.xori d a i px) s = execXori d a i px s := rfl
theorem exec_shli (d : BitVec 7) (a : BitVec 7) (i : BitVec 8) (px : Option (BitVec 25)) (s : State) :
    exec (.shli d a i px) s = execShli d a i px s := rfl
theorem exec_shrli (d : BitVec 7) (a : BitVec 7) (i : BitVec 8) (px : Option (BitVec 25)) (s : State) :
    exec (.shrli d a i px) s = execShrli d a i px s := rfl
theorem exec_shrai (d : BitVec 7) (a : BitVec 7) (i : BitVec 8) (px : Option (BitVec 25)) (s : State) :
    exec (.shrai d a i px) s = execShrai d a i px s := rfl
theorem exec_movi (d : BitVec 7) (t : BitVec 4) (i : BitVec 8) (px : Option (BitVec 25)) (s : State) :
    exec (.movi d t i px) s = execMovi d t i px s := rfl
theorem exec_ialusIadd (d : BitVec 7) (a : BitVec 7) (s : BitVec 6) (st : State) :
    exec (.ialusIadd d a s) st = execIalusIadd d a s st := rfl
theorem exec_ialusIsub (d : BitVec 7) (a : BitVec 7) (s : BitVec 6) (st : State) :
    exec (.ialusIsub d a s) st = execIalusIsub d a s st := rfl
theorem exec_ialusAnd (d : BitVec 7) (a : BitVec 7) (s : BitVec 6) (st : State) :
    exec (.ialusAnd d a s) st = execIalusAnd d a s st := rfl
theorem exec_ialusOr (d : BitVec 7) (a : BitVec 7) (s : BitVec 6) (st : State) :
    exec (.ialusOr d a s) st = execIalusOr d a s st := rfl
theorem exec_ialusXor (d : BitVec 7) (a : BitVec 7) (s : BitVec 6) (st : State) :
    exec (.ialusXor d a s) st = execIalusXor d a s st := rfl
theorem exec_ialusAndn (d : BitVec 7) (a : BitVec 7) (s : BitVec 6) (st : State) :
    exec (.ialusAndn d a s) st = execIalusAndn d a s st := rfl
theorem exec_ialusShl (d : BitVec 7) (a : BitVec 7) (s : BitVec 6) (st : State) :
    exec (.ialusShl d a s) st = execIalusShl d a s st := rfl
theorem exec_ialusShrl (d : BitVec 7) (a : BitVec 7) (s : BitVec 6) (st : State) :
    exec (.ialusShrl d a s) st = execIalusShrl d a s st := rfl
theorem exec_ialusShra (d : BitVec 7) (a : BitVec 7) (s : BitVec 6) (st : State) :
    exec (.ialusShra d a s) st = execIalusShra d a s st := rfl
theorem exec_ialusImin (d : BitVec 7) (a : BitVec 7) (s : BitVec 6) (st : State) :
    exec (.ialusImin d a s) st = execIalusImin d a s st := rfl
theorem exec_ialusImax (d : BitVec 7) (a : BitVec 7) (s : BitVec 6) (st : State) :
    exec (.ialusImax d a s) st = execIalusImax d a s st := rfl
theorem exec_ialusNmin (d : BitVec 7) (a : BitVec 7) (s : BitVec 6) (st : State) :
    exec (.ialusNmin d a s) st = execIalusNmin d a s st := rfl
theorem exec_ialusNmax (d : BitVec 7) (a : BitVec 7) (s : BitVec 6) (st : State) :
    exec (.ialusNmax d a s) st = execIalusNmax d a s st := rfl
theorem exec_ialusIabs (d : BitVec 7) (a : BitVec 7) (s : State) : exec (.ialusIabs d a) s = execIalusIabs d a s := rfl
theorem exec_icmpEq (d : BitVec 7) (a : BitVec 7) (b : BitVec 7) (s : State) :
    exec (.icmpEq d a b) s = execIcmpEq d a b s := rfl
theorem exec_icmpNe (d : BitVec 7) (a : BitVec 7) (b : BitVec 7) (s : State) :
    exec (.icmpNe d a b) s = execIcmpNe d a b s := rfl
theorem exec_icmpLt (d : BitVec 7) (a : BitVec 7) (b : BitVec 7) (s : State) :
    exec (.icmpLt d a b) s = execIcmpLt d a b s := rfl
theorem exec_icmpLe (d : BitVec 7) (a : BitVec 7) (b : BitVec 7) (s : State) :
    exec (.icmpLe d a b) s = execIcmpLe d a b s := rfl
theorem exec_icmpGt (d : BitVec 7) (a : BitVec 7) (b : BitVec 7) (s : State) :
    exec (.icmpGt d a b) s = execIcmpGt d a b s := rfl
theorem exec_icmpGe (d : BitVec 7) (a : BitVec 7) (b : BitVec 7) (s : State) :
    exec (.icmpGe d a b) s = execIcmpGe d a b s := rfl
theorem exec_icmpNlt (d : BitVec 7) (a : BitVec 7) (b : BitVec 7) (s : State) :
    exec (.icmpNlt d a b) s = execIcmpNlt d a b s := rfl
theorem exec_icmpNle (d : BitVec 7) (a : BitVec 7) (b : BitVec 7) (s : State) :
    exec (.icmpNle d a b) s = execIcmpNle d a b s := rfl
theorem exec_icmpNgt (d : BitVec 7) (a : BitVec 7) (b : BitVec 7) (s : State) :
    exec (.icmpNgt d a b) s = execIcmpNgt d a b s := rfl
theorem exec_icmpNge (d : BitVec 7) (a : BitVec 7) (b : BitVec 7) (s : State) :
    exec (.icmpNge d a b) s = execIcmpNge d a b s := rfl
theorem exec_sel (d : BitVec 7) (a : BitVec 7) (b : BitVec 7) (s : State) : exec (.sel d a b) s = execSel d a b s := rfl
theorem exec_fadd (d : BitVec 7) (a : BitVec 7) (b : BitVec 7) (s : State) : exec (.fadd d a b) s = execFadd d a b s := rfl
theorem exec_fsub (d : BitVec 7) (a : BitVec 7) (b : BitVec 7) (s : State) : exec (.fsub d a b) s = execFsub d a b s := rfl
theorem exec_fmul (d : BitVec 7) (a : BitVec 7) (b : BitVec 7) (s : State) : exec (.fmul d a b) s = execFmul d a b s := rfl
theorem exec_fmin (d : BitVec 7) (a : BitVec 7) (b : BitVec 7) (s : State) : exec (.fmin d a b) s = execFmin d a b s := rfl
theorem exec_fmax (d : BitVec 7) (a : BitVec 7) (b : BitVec 7) (s : State) : exec (.fmax d a b) s = execFmax d a b s := rfl
theorem exec_fabs (d : BitVec 7) (a : BitVec 7) (s : State) : exec (.fabs d a) s = execFabs d a s := rfl
theorem exec_fneg (d : BitVec 7) (a : BitVec 7) (s : State) : exec (.fneg d a) s = execFneg d a s := rfl
theorem exec_fcopysign (d : BitVec 7) (a : BitVec 7) (b : BitVec 7) (s : State) :
    exec (.fcopysign d a b) s = execFcopysign d a b s := rfl
theorem exec_frint (d : BitVec 7) (a : BitVec 7) (s : State) : exec (.frint d a) s = execFrint d a s := rfl
theorem exec_falusFadd (d : BitVec 7) (a : BitVec 7) (s : BitVec 6) (st : State) :
    exec (.falusFadd d a s) st = execFalusFadd d a s st := rfl
theorem exec_falusFsub (d : BitVec 7) (a : BitVec 7) (s : BitVec 6) (st : State) :
    exec (.falusFsub d a s) st = execFalusFsub d a s st := rfl
theorem exec_falusFmul (d : BitVec 7) (a : BitVec 7) (s : BitVec 6) (st : State) :
    exec (.falusFmul d a s) st = execFalusFmul d a s st := rfl
theorem exec_falusFmin (d : BitVec 7) (a : BitVec 7) (s : BitVec 6) (st : State) :
    exec (.falusFmin d a s) st = execFalusFmin d a s st := rfl
theorem exec_falusFmax (d : BitVec 7) (a : BitVec 7) (s : BitVec 6) (st : State) :
    exec (.falusFmax d a s) st = execFalusFmax d a s st := rfl
theorem exec_fma (d : BitVec 7) (a : BitVec 7) (b : BitVec 7) (s : State) : exec (.fma d a b) s = execFma d a b s := rfl
theorem exec_fms (d : BitVec 7) (a : BitVec 7) (b : BitVec 7) (s : State) : exec (.fms d a b) s = execFms d a b s := rfl
theorem exec_fnma (d : BitVec 7) (a : BitVec 7) (b : BitVec 7) (s : State) : exec (.fnma d a b) s = execFnma d a b s := rfl
theorem exec_fnms (d : BitVec 7) (a : BitVec 7) (b : BitVec 7) (s : State) : exec (.fnms d a b) s = execFnms d a b s := rfl
theorem exec_fcmpEq (d : BitVec 7) (a : BitVec 7) (b : BitVec 7) (s : State) :
    exec (.fcmpEq d a b) s = execFcmpEq d a b s := rfl
theorem exec_fcmpNe (d : BitVec 7) (a : BitVec 7) (b : BitVec 7) (s : State) :
    exec (.fcmpNe d a b) s = execFcmpNe d a b s := rfl
theorem exec_fcmpLt (d : BitVec 7) (a : BitVec 7) (b : BitVec 7) (s : State) :
    exec (.fcmpLt d a b) s = execFcmpLt d a b s := rfl
theorem exec_fcmpLe (d : BitVec 7) (a : BitVec 7) (b : BitVec 7) (s : State) :
    exec (.fcmpLe d a b) s = execFcmpLe d a b s := rfl
theorem exec_fcmpGt (d : BitVec 7) (a : BitVec 7) (b : BitVec 7) (s : State) :
    exec (.fcmpGt d a b) s = execFcmpGt d a b s := rfl
theorem exec_fcmpGe (d : BitVec 7) (a : BitVec 7) (b : BitVec 7) (s : State) :
    exec (.fcmpGe d a b) s = execFcmpGe d a b s := rfl
theorem exec_fcmpUn (d : BitVec 7) (a : BitVec 7) (b : BitVec 7) (s : State) :
    exec (.fcmpUn d a b) s = execFcmpUn d a b s := rfl
theorem exec_fcmpOrd (d : BitVec 7) (a : BitVec 7) (b : BitVec 7) (s : State) :
    exec (.fcmpOrd d a b) s = execFcmpOrd d a b s := rfl
theorem exec_rcp (d : BitVec 7) (a : BitVec 7) (s : State) : exec (.rcp d a) s = execRcp d a s := rfl
theorem exec_rsq (d : BitVec 7) (a : BitVec 7) (s : State) : exec (.rsq d a) s = execRsq d a s := rfl
theorem exec_sqrt (d : BitVec 7) (a : BitVec 7) (s : State) : exec (.sqrt d a) s = execSqrt d a s := rfl
theorem exec_div (d : BitVec 7) (a : BitVec 7) (b : BitVec 7) (s : State) : exec (.div d a b) s = execDiv d a b s := rfl
theorem exec_exp2 (d : BitVec 7) (a : BitVec 7) (s : State) : exec (.exp2 d a) s = execExp2 d a s := rfl
theorem exec_log2 (d : BitVec 7) (a : BitVec 7) (s : State) : exec (.log2 d a) s = execLog2 d a s := rfl
theorem exec_sin (d : BitVec 7) (a : BitVec 7) (s : State) : exec (.sin d a) s = execSin d a s := rfl
theorem exec_cos (d : BitVec 7) (a : BitVec 7) (s : State) : exec (.cos d a) s = execCos d a s := rfl
theorem exec_cvt (d : BitVec 7) (a : BitVec 7) (t : BitVec 4) (m : BitVec 2) (s : State) :
    exec (.cvt d a t m) s = execCvt d a t m s := rfl
theorem exec_cast (d : BitVec 7) (a : BitVec 7) (t : BitVec 4) (s : State) : exec (.cast d a t) s = execCast d a t s := rfl
theorem exec_pack (d : BitVec 7) (a : BitVec 7) (b : BitVec 7) (s : State) : exec (.pack d a b) s = execPack d a b s := rfl
theorem exec_unpacklo (d : BitVec 7) (a : BitVec 7) (s : State) : exec (.unpacklo d a) s = execUnpacklo d a s := rfl
theorem exec_unpackhi (d : BitVec 7) (a : BitVec 7) (s : State) : exec (.unpackhi d a) s = execUnpackhi d a s := rfl
theorem exec_qdec (d : BitVec 5) (a : BitVec 7) (b : BitVec 7) (s : State) : exec (.qdec d a b) s = execQdec d a b s := rfl
theorem exec_shfl (d : BitVec 7) (a : BitVec 7) (b : BitVec 7) (s : State) : exec (.shfl d a b) s = execShfl d a b s := rfl
theorem exec_shflup (d : BitVec 7) (a : BitVec 7) (b : BitVec 7) (s : State) :
    exec (.shflup d a b) s = execShflup d a b s := rfl
theorem exec_shfldn (d : BitVec 7) (a : BitVec 7) (b : BitVec 7) (s : State) :
    exec (.shfldn d a b) s = execShfldn d a b s := rfl
theorem exec_shflx (d : BitVec 7) (a : BitVec 7) (b : BitVec 7) (s : State) :
    exec (.shflx d a b) s = execShflx d a b s := rfl
theorem exec_ballot (d : BitVec 7) (a : BitVec 7) (s : State) : exec (.ballot d a) s = execBallot d a s := rfl
theorem exec_voteall (d : BitVec 7) (a : BitVec 7) (s : State) : exec (.voteall d a) s = execVoteall d a s := rfl
theorem exec_voteany (d : BitVec 7) (a : BitVec 7) (s : State) : exec (.voteany d a) s = execVoteany d a s := rfl
theorem exec_redadd (d : BitVec 7) (a : BitVec 7) (s : State) : exec (.redadd d a) s = execRedadd d a s := rfl
theorem exec_redmin (d : BitVec 7) (a : BitVec 7) (s : State) : exec (.redmin d a) s = execRedmin d a s := rfl
theorem exec_redmax (d : BitVec 7) (a : BitVec 7) (s : State) : exec (.redmax d a) s = execRedmax d a s := rfl
theorem exec_scanadd (d : BitVec 7) (a : BitVec 7) (s : State) : exec (.scanadd d a) s = execScanadd d a s := rfl
theorem exec_matchv (d : BitVec 7) (a : BitVec 7) (s : State) : exec (.matchv d a) s = execMatchv d a s := rfl
theorem exec_movs (d : BitVec 7) (t : BitVec 4) (h : BitVec 1) (s : BitVec 6) (st : State) :
    exec (.movs d t h s) st = execMovs d t h s st := rfl
theorem exec_vtos (d : BitVec 6) (a : BitVec 7) (h : BitVec 1) (s : State) : exec (.vtos d a h) s = execVtos d a h s := rfl
theorem exec_laneid (d : BitVec 7) (s : State) : exec (.laneid d) s = execLaneid d s := rfl
theorem exec_wid (d : BitVec 7) (h : BitVec 1) (s : State) : exec (.wid d h) s = execWid d h s := rfl
theorem exec_widf (d : BitVec 7) (n : BitVec 3) (s : State) : exec (.widf d n) s = execWidf d n s := rfl
theorem exec_rng (d : BitVec 7) (a : BitVec 7) (k : BitVec 6) (s : State) : exec (.rng d a k) s = execRng d a k s := rfl
theorem exec_rng4 (d : BitVec 5) (a : BitVec 7) (k : BitVec 6) (s : State) : exec (.rng4 d a k) s = execRng4 d a k s := rfl
theorem exec_ld (d : BitVec 7) (a : BitVec 7) (s : BitVec 6) (k : BitVec 5) (px : Option (BitVec 25)) (st : State) :
    exec (.ld d a s k px) st = execLd d a s k px st := rfl
theorem exec_st (d : BitVec 7) (a : BitVec 7) (s : BitVec 6) (k : BitVec 5) (px : Option (BitVec 25)) (st : State) :
    exec (.st d a s k px) st = execSt d a s k px st := rfl
theorem exec_lds (d : BitVec 7) (a : BitVec 7) (s : BitVec 6) (k : BitVec 5) (px : Option (BitVec 25)) (st : State) :
    exec (.lds d a s k px) st = execLds d a s k px st := rfl
theorem exec_sts (d : BitVec 7) (a : BitVec 7) (s : BitVec 6) (k : BitVec 5) (px : Option (BitVec 25)) (st : State) :
    exec (.sts d a s k px) st = execSts d a s k px st := rfl
theorem exec_atom (d : BitVec 7) (a : BitVec 7) (s : BitVec 6) (o : BitVec 4) (px : Option (BitVec 25)) (st : State) :
    exec (.atom d a s o px) st = execAtom d a s o px st := rfl
theorem exec_red (d : BitVec 7) (a : BitVec 7) (s : BitVec 6) (o : BitVec 4) (px : Option (BitVec 25)) (st : State) :
    exec (.red d a s o px) st = execRed d a s o px st := rfl
theorem exec_atoms (d : BitVec 7) (a : BitVec 7) (s : BitVec 6) (o : BitVec 4) (px : Option (BitVec 25)) (st : State) :
    exec (.atoms d a s o px) st = execAtoms d a s o px st := rfl
theorem exec_reds (d : BitVec 7) (a : BitVec 7) (s : BitVec 6) (o : BitVec 4) (px : Option (BitVec 25)) (st : State) :
    exec (.reds d a s o px) st = execReds d a s o px st := rfl
theorem exec_fence (o : BitVec 2) (p : BitVec 3) (s : State) : exec (.fence o p) s = execFence o p s := rfl
theorem exec_xfence (p : BitVec 3) (a : BitVec 6) (b : BitVec 6) (s : State) :
    exec (.xfence p a b) s = execXfence p a b s := rfl
theorem exec_bar (b : BitVec 10) (px : Option (BitVec 25)) (s : State) : exec (.bar b px) s = execBar b px s := rfl
theorem exec_bararr (b : BitVec 10) (px : Option (BitVec 25)) (s : State) : exec (.bararr b px) s = execBararr b px s := rfl
theorem exec_armw (v : BitVec 7) (o : BitVec 10) (px : Option (BitVec 25)) (s : State) :
    exec (.armw v o px) s = execArmw v o px s := rfl
theorem exec_arwait (v : BitVec 7) (o : BitVec 10) (px : Option (BitVec 25)) (s : State) :
    exec (.arwait v o px) s = execArwait v o px s := rfl
theorem exec_aradd (v : BitVec 7) (o : BitVec 10) (px : Option (BitVec 25)) (s : State) :
    exec (.aradd v o px) s = execAradd v o px s := rfl
theorem exec_cpy (a : BitVec 6) (c : BitVec 6) (k : BitVec 3) (s : State) : exec (.cpy a c k) s = execCpy a c k s := rfl
theorem exec_cpy2 (a : BitVec 6) (c : BitVec 6) (k : BitVec 3) (s : State) : exec (.cpy2 a c k) s = execCpy2 a c k s := rfl
theorem exec_cpym (a : BitVec 6) (c : BitVec 6) (k : BitVec 3) (s : State) : exec (.cpym a c k) s = execCpym a c k s := rfl
theorem exec_binsc (v : BitVec 7) (t : BitVec 6) (r : BitVec 6) (k : BitVec 3) (s : State) :
    exec (.binsc v t r k) s = execBinsc v t r k s := rfl
theorem exec_binga (v : BitVec 6) (t : BitVec 6) (r : BitVec 6) (k : BitVec 3) (s : State) :
    exec (.binga v t r k) s = execBinga v t r k s := rfl
theorem exec_binrst (t : BitVec 6) (f : BitVec 6) (s : State) : exec (.binrst t f) s = execBinrst t f s := rfl
theorem exec_binqry (v : BitVec 7) (t : BitVec 6) (b : BitVec 6) (s : State) :
    exec (.binqry v t b) s = execBinqry v t b s := rfl
theorem exec_tfet (t : BitVec 3) (s : BitVec 6) (f : BitVec 3) (n : BitVec 1) (st : State) :
    exec (.tfet t s f n) st = execTfet t s f n st := rfl
theorem exec_mma (a : BitVec 3) (b : BitVec 3) (l : BitVec 6) (e : BitVec 4) (m : BitVec 1) (n : BitVec 1) (s : BitVec 1) (k : BitVec 1) (st : State) :
    exec (.mma a b l e m n s k) st = execMma a b l e m n s k st := rfl
theorem exec_mloop (l : BitVec 6) (e : BitVec 4) (n : BitVec 6) (r : BitVec 1) (s : BitVec 1) (st : State) :
    exec (.mloop l e n r s) st = execMloop l e n r s st := rfl
theorem exec_accz (a : BitVec 6) (c : BitVec 6) (s : State) : exec (.accz a c) s = execAccz a c s := rfl
theorem exec_accrd (v : BitVec 7) (a : BitVec 6) (c : BitVec 6) (s : State) :
    exec (.accrd v a c) s = execAccrd v a c s := rfl
theorem exec_accwr (v : BitVec 7) (a : BitVec 6) (s : State) : exec (.accwr v a) s = execAccwr v a s := rfl
theorem exec_accdr (q : BitVec 4) (a : BitVec 6) (c : BitVec 6) (s : State) :
    exec (.accdr q a c) s = execAccdr q a c s := rfl
theorem exec_accver (v : BitVec 7) (a : BitVec 6) (s : State) : exec (.accver v a) s = execAccver v a s := rfl
theorem exec_accwv (a : BitVec 6) (c : BitVec 6) (s : State) : exec (.accwv a c) s = execAccwv a c s := rfl
theorem exec_ctset (v : BitVec 7) (s : State) : exec (.ctset v) s = execCtset v s := rfl
theorem exec_ctget (v : BitVec 7) (s : State) : exec (.ctget v) s = execCtget v s := rfl
theorem exec_achopen (a : BitVec 6) (s : State) : exec (.achopen a) s = execAchopen a s := rfl
theorem exec_achjoin (c : BitVec 6) (s : State) : exec (.achjoin c) s = execAchjoin c s := rfl
theorem exec_asend (c : BitVec 6) (q : BitVec 6) (s : State) : exec (.asend c q) s = execAsend c q s := rfl
theorem exec_achwait (v : BitVec 7) (c : BitVec 6) (s : State) : exec (.achwait v c) s = execAchwait v c s := rfl
theorem exec_achclose (c : BitVec 6) (s : State) : exec (.achclose c) s = execAchclose c s := rfl
theorem exec_topk (q : BitVec 4) (a : BitVec 6) (k : BitVec 3) (s : State) : exec (.topk q a k) s = execTopk q a k s := rfl
theorem exec_softmx (q : BitVec 4) (a : BitVec 6) (k : BitVec 3) (s : State) :
    exec (.softmx q a k) s = execSoftmx q a k s := rfl
theorem exec_sample (q : BitVec 4) (a : BitVec 6) (u : BitVec 6) (k : BitVec 3) (s : State) :
    exec (.sample q a u k) s = execSample q a u k s := rfl
theorem exec_lnch (a : BitVec 6) (q : BitVec 6) (s : State) : exec (.lnch a q) s = execLnch a q s := rfl
theorem exec_emit (a : BitVec 6) (o : BitVec 6) (s : State) : exec (.emit a o) s = execEmit a o s := rfl
theorem exec_jcnew (a : BitVec 6) (n : BitVec 6) (s : State) : exec (.jcnew a n) s = execJcnew a n s := rfl
theorem exec_jcdec (a : BitVec 6) (n : BitVec 6) (s : State) : exec (.jcdec a n) s = execJcdec a n s := rfl
theorem exec_jcwait (v : BitVec 7) (a : BitVec 6) (s : State) : exec (.jcwait v a) s = execJcwait v a s := rfl
theorem exec_mbox (v : BitVec 7) (a : BitVec 6) (h : BitVec 6) (s : State) : exec (.mbox v a h) s = execMbox v a h s := rfl
theorem exec_ovld (i : BitVec 6) (k : BitVec 3) (s : State) : exec (.ovld i k) s = execOvld i k s := rfl
theorem exec_ovpin (v : BitVec 7) (i : BitVec 6) (s : State) : exec (.ovpin v i) s = execOvpin v i s := rfl
theorem exec_ovunpin (i : BitVec 6) (s : State) : exec (.ovunpin i) s = execOvunpin i s := rfl
theorem exec_ovevict (v : BitVec 7) (i : BitVec 6) (s : State) : exec (.ovevict v i) s = execOvevict v i s := rfl
theorem exec_ovqry (v : BitVec 7) (i : BitVec 6) (s : State) : exec (.ovqry v i) s = execOvqry v i s := rfl
theorem exec_qbind (p : BitVec 4) (a : BitVec 6) (b : BitVec 6) (s : State) :
    exec (.qbind p a b) s = execQbind p a b s := rfl
theorem exec_qfree (p : BitVec 4) (s : State) : exec (.qfree p) s = execQfree p s := rfl
theorem exec_qstat (v : BitVec 7) (a : BitVec 6) (s : State) : exec (.qstat v a) s = execQstat v a s := rfl
theorem exec_hostKick (q : Nat) (hi : Bool) (w : BitVec 32) (s : State) :
    exec (.hostKick q hi w) s = execHostKick q hi w s := rfl
theorem exec_hostBar2Write (off : Nat) (data : List (BitVec 8)) (s : State) :
    exec (.hostBar2Write off data) s = execHostBar2Write off data s := rfl
theorem exec_hostBar2Read (off : Nat) (n : Nat) (s : State) : exec (.hostBar2Read off n) s = execHostBar2Read off n s := rfl
theorem exec_mboxhost (mgmt : Bool) (s : State) : exec (.mboxhost mgmt) s = execMboxhost mgmt s := rfl
theorem exec_attestationQuote (req : List (BitVec 8)) (s : State) :
    exec (.attestationQuote req) s = execAttestationQuote req s := rfl
theorem exec_queueDefine (req : List (BitVec 8)) (s : State) : exec (.queueDefine req) s = execQueueDefine req s := rfl
theorem exec_queueEnable (req : List (BitVec 8)) (s : State) : exec (.queueEnable req) s = execQueueEnable req s := rfl
theorem exec_queueDisable (req : List (BitVec 8)) (s : State) : exec (.queueDisable req) s = execQueueDisable req s := rfl
theorem exec_setPowerCap (req : List (BitVec 8)) (s : State) : exec (.setPowerCap req) s = execSetPowerCap req s := rfl
theorem exec_readErrorCounters (req : List (BitVec 8)) (s : State) :
    exec (.readErrorCounters req) s = execReadErrorCounters req s := rfl
theorem exec_writeFlash (req : List (BitVec 8)) (s : State) : exec (.writeFlash req) s = execWriteFlash req s := rfl
theorem exec_unknownCommand (req : List (BitVec 8)) (s : State) :
    exec (.unknownCommand req) s = execUnknownCommand req s := rfl
theorem exec_partmodeStop (w : BitVec 64) (s : State) : exec (.partmodeStop w) s = execPartmodeStop w s := rfl
theorem exec_partmodeModeWrite (w : BitVec 64) (s : State) : exec (.partmodeModeWrite w) s = execPartmodeModeWrite w s := rfl
theorem exec_watchdogRestart (s : State) : exec .watchdogRestart s = execWatchdogRestart s := rfl
theorem exec_watchdogExpiry (s : State) : exec .watchdogExpiry s = execWatchdogExpiry s := rfl
theorem exec_preempt (cmd : BitVec 64) (s : State) : exec (.preempt cmd) s = execPreempt cmd s := rfl
theorem exec_kill (cmd : BitVec 64) (s : State) : exec (.kill cmd) s = execKill cmd s := rfl
theorem exec_unpark (cmd : BitVec 64) (s : State) : exec (.unpark cmd) s = execUnpark cmd s := rfl
theorem exec_refuse (cmd : BitVec 64) (s : State) : exec (.refuse cmd) s = execRefuse cmd s := rfl
theorem exec_ctxcmdUndefinedOp (cmd : BitVec 64) (s : State) :
    exec (.ctxcmdUndefinedOp cmd) s = execCtxcmdUndefinedOp cmd s := rfl
theorem exec_invalPage (cmd : BitVec 64) (s : State) : exec (.invalPage cmd) s = execInvalPage cmd s := rfl
theorem exec_inval2mib (cmd : BitVec 64) (s : State) : exec (.inval2mib cmd) s = execInval2mib cmd s := rfl
theorem exec_inval1gib (cmd : BitVec 64) (s : State) : exec (.inval1gib cmd) s = execInval1gib cmd s := rfl
theorem exec_invalAspace (cmd : BitVec 64) (s : State) : exec (.invalAspace cmd) s = execInvalAspace cmd s := rfl
theorem exec_invalAll (cmd : BitVec 64) (s : State) : exec (.invalAll cmd) s = execInvalAll cmd s := rfl
theorem exec_invalComplete (s : State) : exec .invalComplete s = execInvalComplete s := rfl
theorem exec_registerWrite (bar0 : Bool) (off : Nat) (w : BitVec 64) (s : State) :
    exec (.registerWrite bar0 off w) s = execRegisterWrite bar0 off w s := rfl
theorem exec_moduleReset (s : State) : exec .moduleReset s = execModuleReset s := rfl
theorem exec_thermalThrottle (s : State) : exec .thermalThrottle s = execThermalThrottle s := rfl
theorem exec_thermalTrip (s : State) : exec .thermalTrip s = execThermalTrip s := rfl
theorem exec_powerCapStep (up : Bool) (s : State) : exec (.powerCapStep up) s = execPowerCapStep up s := rfl
theorem exec_putReceive (port : Nat) (dstdev : BitVec 20) (srcdev : BitVec 20) (aspace : BitVec 16) (va : BitVec 64) (seq : BitVec 32) (data : List (BitVec 8)) (s : State) :
    exec (.putReceive port dstdev srcdev aspace va seq data) s = execPutReceive port dstdev srcdev aspace va seq data s := rfl
theorem exec_putSend (ring : Nat) (s : State) : exec (.putSend ring) s = execPutSend ring s := rfl
theorem exec_launchRecordConsume (q : Nat) (s : State) : exec (.launchRecordConsume q) s = execLaunchRecordConsume q s := rfl
theorem exec_gangRelease (q : Nat) (s : State) : exec (.gangRelease q) s = execGangRelease q s := rfl
theorem exec_pendingLaunchAppend (k : Nat) (c : Nat) (s : State) :
    exec (.pendingLaunchAppend k c) s = execPendingLaunchAppend k c s := rfl
theorem exec_graphRecordAccept (k : Nat) (c : Nat) (q : Nat) (s : State) :
    exec (.graphRecordAccept k c q) s = execGraphRecordAccept k c q s := rfl
theorem exec_graphBatchTimeout (q : Nat) (s : State) : exec (.graphBatchTimeout q) s = execGraphBatchTimeout q s := rfl
theorem exec_mailboxArrival (s : State) : exec .mailboxArrival s = execMailboxArrival s := rfl
theorem exec_handlerAppend (m : Nat) (s : State) : exec (.handlerAppend m) s = execHandlerAppend m s := rfl
theorem exec_jcRetireDecrement (n : Nat) (s : State) : exec (.jcRetireDecrement n) s = execJcRetireDecrement n s := rfl
theorem exec_courseRetire (k : Nat) (c : Nat) (s : State) : exec (.courseRetire k c) s = execCourseRetire k c s := rfl
theorem exec_jcwaitWake (k : Nat) (c : Nat) (s : State) : exec (.jcwaitWake k c) s = execJcwaitWake k c s := rfl
theorem exec_swapOut (k : Nat) (s : State) : exec (.swapOut k) s = execSwapOut k s := rfl
theorem exec_contextSave (k : Nat) (s : State) : exec (.contextSave k) s = execContextSave k s := rfl
theorem exec_consortResume (k : Nat) (s : State) : exec (.consortResume k) s = execConsortResume k s := rfl
theorem exec_napExpiry (k : Nat) (c : Nat) (s : State) : exec (.napExpiry k c) s = execNapExpiry k c s := rfl
theorem exec_portCheckFail (s : State) : exec .portCheckFail s = execPortCheckFail s := rfl
theorem exec_translationWalk (aspace : BitVec 16) (va : BitVec 64) (s : State) :
    exec (.translationWalk aspace va) s = execTranslationWalk aspace va s := rfl
theorem exec_faultRingFlush (s : State) : exec .faultRingFlush s = execFaultRingFlush s := rfl
theorem exec_registerFill (k : Nat) (c : Nat) (r : Nat) (s : State) :
    exec (.registerFill k c r) s = execRegisterFill k c r s := rfl
theorem exec_lineWriteback (k : Nat) (c : Nat) (r : Nat) (s : State) :
    exec (.lineWriteback k c r) s = execLineWriteback k c r s := rfl
theorem exec_loadReturn (id : Nat) (s : State) : exec (.loadReturn id) s = execLoadReturn id s := rfl
theorem exec_storePerform (id : Nat) (s : State) : exec (.storePerform id) s = execStorePerform id s := rfl
theorem exec_combineClose (id : Nat) (s : State) : exec (.combineClose id) s = execCombineClose id s := rfl
theorem exec_atomPerform (id : Nat) (s : State) : exec (.atomPerform id) s = execAtomPerform id s := rfl
theorem exec_releaseClosure (k : Nat) (c : Nat) (s : State) : exec (.releaseClosure k c) s = execReleaseClosure k c s := rfl
theorem exec_overlayLoadComplete (id : Nat) (s : State) :
    exec (.overlayLoadComplete id) s = execOverlayLoadComplete id s := rfl
theorem exec_overlayFrameRetry (id : Nat) (s : State) : exec (.overlayFrameRetry id) s = execOverlayFrameRetry id s := rfl
theorem exec_frameProtectionExpiry (id : Nat) (s : State) :
    exec (.frameProtectionExpiry id) s = execFrameProtectionExpiry id s := rfl
theorem exec_fetchAbsentLoad (k : Nat) (c : Nat) (s : State) :
    exec (.fetchAbsentLoad k c) s = execFetchAbsentLoad k c s := rfl
theorem exec_copyChunk (id : Nat) (n : Nat) (s : State) : exec (.copyChunk id n) s = execCopyChunk id n s := rfl
theorem exec_copyComplete (id : Nat) (s : State) : exec (.copyComplete id) s = execCopyComplete id s := rfl
theorem exec_binScatterComplete (id : Nat) (s : State) : exec (.binScatterComplete id) s = execBinScatterComplete id s := rfl
theorem exec_binGatherComplete (id : Nat) (s : State) : exec (.binGatherComplete id) s = execBinGatherComplete id s := rfl
theorem exec_arwaitWake (k : Nat) (c : Nat) (s : State) : exec (.arwaitWake k c) s = execArwaitWake k c s := rfl
theorem exec_tfetFillComplete (id : Nat) (s : State) : exec (.tfetFillComplete id) s = execTfetFillComplete id s := rfl
theorem exec_tilePinTimeout (id : Nat) (s : State) : exec (.tilePinTimeout id) s = execTilePinTimeout id s := rfl
theorem exec_matrixAdmit (id : Nat) (s : State) : exec (.matrixAdmit id) s = execMatrixAdmit id s := rfl
theorem exec_matrixPerform (id : Nat) (s : State) : exec (.matrixPerform id) s = execMatrixPerform id s := rfl
theorem exec_versionWait (id : Nat) (s : State) : exec (.versionWait id) s = execVersionWait id s := rfl
theorem exec_matrixErrorDelivery (k : Nat) (c : Nat) (s : State) :
    exec (.matrixErrorDelivery k c) s = execMatrixErrorDelivery k c s := rfl
theorem exec_accdrPush (id : Nat) (s : State) : exec (.accdrPush id) s = execAccdrPush id s := rfl
theorem exec_codeTableBusy (k : Nat) (c : Nat) (s : State) : exec (.codeTableBusy k c) s = execCodeTableBusy k c s := rfl
theorem exec_queueStall (k : Nat) (c : Nat) (s : State) : exec (.queueStall k c) s = execQueueStall k c s := rfl
theorem exec_achjoinBind (k : Nat) (c : Nat) (s : State) : exec (.achjoinBind k c) s = execAchjoinBind k c s := rfl
theorem exec_acnFlitLanding (n : Nat) (s : State) : exec (.acnFlitLanding n) s = execAcnFlitLanding n s := rfl
theorem exec_acnOrderedForward (k : Nat) (chn : BitVec 2) (s : State) :
    exec (.acnOrderedForward k chn) s = execAcnOrderedForward k chn s := rfl
theorem exec_achwaitComplete (k : Nat) (c : Nat) (s : State) :
    exec (.achwaitComplete k c) s = execAchwaitComplete k c s := rfl
theorem exec_selServe (id : Nat) (s : State) : exec (.selServe id) s = execSelServe id s := rfl
theorem exec_selResultReady (id : Nat) (s : State) : exec (.selResultReady id) s = execSelResultReady id s := rfl
theorem exec_selDeliver (id : Nat) (s : State) : exec (.selDeliver id) s = execSelDeliver id s := rfl
theorem exec_softmxComplete (id : Nat) (s : State) : exec (.softmxComplete id) s = execSoftmxComplete id s := rfl
theorem exec_undefinedEncoding (enc : BitVec 32) (s : State) :
    exec (.undefinedEncoding enc) s = execUndefinedEncoding enc s := rfl
theorem exec_fetchBeyondOverlay (s : State) : exec .fetchBeyondOverlay s = execFetchBeyondOverlay s := rfl
theorem exec_faultService (what : Nat) (id : Nat) (s : State) :
    exec (.faultService what id) s = execFaultService what id s := rfl
theorem exec_residentSetChange (qs : List Nat) (s : State) :
    exec (.residentSetChange qs) s = execResidentSetChange qs s := rfl
theorem exec_halfWidthEnable (s : State) : exec .halfWidthEnable s = execHalfWidthEnable s := rfl
theorem exec_coreDisable (s : State) : exec .coreDisable s = execCoreDisable s := rfl
theorem exec_writeBackAndInvalidate (s : State) : exec .writeBackAndInvalidate s = execWriteBackAndInvalidate s := rfl
theorem exec_contextPoolRefill (ctx : Nat) (aux : Nat) (s : State) :
    exec (.contextPoolRefill ctx aux) s = execContextPoolRefill ctx aux s := rfl
theorem exec_resourceRetirement (detail : BitVec 32) (s : State) :
    exec (.resourceRetirement detail) s = execResourceRetirement detail s := rfl
theorem exec_powerStateIdle (s : State) : exec .powerStateIdle s = execPowerStateIdle s := rfl
theorem exec_pcieD3cold (s : State) : exec .pcieD3cold s = execPcieD3cold s := rfl

end Sys2Proof.Machine
end

