-- ==== Sys2Proof/Laws/State.lean ====
section
/-!
SUPPORT. One lemma per field per update of the state, and per register file per update of a course, each true by definition.
-/

namespace Sys2Proof.Machine


/-! ### modMs -/

@[simp] theorem State.modMs_clock (s : State) (f : MemSys → MemSys) : (s.modMs f).clock = s.clock := rfl
@[simp] theorem State.modMs_tick (s : State) (f : MemSys → MemSys) : (s.modMs f).tick = s.tick := rfl
@[simp] theorem State.modMs_nextId (s : State) (f : MemSys → MemSys) : (s.modMs f).nextId = s.nextId := rfl
@[simp] theorem State.modMs_iss (s : State) (f : MemSys → MemSys) : (s.modMs f).iss = s.iss := rfl
@[simp] theorem State.modMs_consorts (s : State) (f : MemSys → MemSys) : (s.modMs f).consorts = s.consorts := rfl
@[simp] theorem State.modMs_core (s : State) (f : MemSys → MemSys) : (s.modMs f).core = s.core := rfl
@[simp] theorem State.modMs_ms (s : State) (f : MemSys → MemSys) : (s.modMs f).ms = f s.ms := rfl
@[simp] theorem State.modMs_work (s : State) (f : MemSys → MemSys) : (s.modMs f).work = s.work := rfl
@[simp] theorem State.modMs_hub (s : State) (f : MemSys → MemSys) : (s.modMs f).hub = s.hub := rfl
@[simp] theorem State.modMs_inputs (s : State) (f : MemSys → MemSys) : (s.modMs f).inputs = s.inputs := rfl
@[simp] theorem State.modMs_outbox (s : State) (f : MemSys → MemSys) : (s.modMs f).outbox = s.outbox := rfl

/-! ### modCore -/

@[simp] theorem State.modCore_clock (s : State) (f : CoreSt → CoreSt) : (s.modCore f).clock = s.clock := rfl
@[simp] theorem State.modCore_tick (s : State) (f : CoreSt → CoreSt) : (s.modCore f).tick = s.tick := rfl
@[simp] theorem State.modCore_nextId (s : State) (f : CoreSt → CoreSt) : (s.modCore f).nextId = s.nextId := rfl
@[simp] theorem State.modCore_iss (s : State) (f : CoreSt → CoreSt) : (s.modCore f).iss = s.iss := rfl
@[simp] theorem State.modCore_consorts (s : State) (f : CoreSt → CoreSt) : (s.modCore f).consorts = s.consorts := rfl
@[simp] theorem State.modCore_core (s : State) (f : CoreSt → CoreSt) : (s.modCore f).core = f s.core := rfl
@[simp] theorem State.modCore_ms (s : State) (f : CoreSt → CoreSt) : (s.modCore f).ms = s.ms := rfl
@[simp] theorem State.modCore_work (s : State) (f : CoreSt → CoreSt) : (s.modCore f).work = s.work := rfl
@[simp] theorem State.modCore_hub (s : State) (f : CoreSt → CoreSt) : (s.modCore f).hub = s.hub := rfl
@[simp] theorem State.modCore_inputs (s : State) (f : CoreSt → CoreSt) : (s.modCore f).inputs = s.inputs := rfl
@[simp] theorem State.modCore_outbox (s : State) (f : CoreSt → CoreSt) : (s.modCore f).outbox = s.outbox := rfl

/-! ### modHub -/

@[simp] theorem State.modHub_clock (s : State) (f : Hub → Hub) : (s.modHub f).clock = s.clock := rfl
@[simp] theorem State.modHub_tick (s : State) (f : Hub → Hub) : (s.modHub f).tick = s.tick := rfl
@[simp] theorem State.modHub_nextId (s : State) (f : Hub → Hub) : (s.modHub f).nextId = s.nextId := rfl
@[simp] theorem State.modHub_iss (s : State) (f : Hub → Hub) : (s.modHub f).iss = s.iss := rfl
@[simp] theorem State.modHub_consorts (s : State) (f : Hub → Hub) : (s.modHub f).consorts = s.consorts := rfl
@[simp] theorem State.modHub_core (s : State) (f : Hub → Hub) : (s.modHub f).core = s.core := rfl
@[simp] theorem State.modHub_ms (s : State) (f : Hub → Hub) : (s.modHub f).ms = s.ms := rfl
@[simp] theorem State.modHub_work (s : State) (f : Hub → Hub) : (s.modHub f).work = s.work := rfl
@[simp] theorem State.modHub_hub (s : State) (f : Hub → Hub) : (s.modHub f).hub = f s.hub := rfl
@[simp] theorem State.modHub_inputs (s : State) (f : Hub → Hub) : (s.modHub f).inputs = s.inputs := rfl
@[simp] theorem State.modHub_outbox (s : State) (f : Hub → Hub) : (s.modHub f).outbox = s.outbox := rfl

/-! ### modWork -/

@[simp] theorem State.modWork_clock (s : State) (f : WorkSt → WorkSt) : (s.modWork f).clock = s.clock := rfl
@[simp] theorem State.modWork_tick (s : State) (f : WorkSt → WorkSt) : (s.modWork f).tick = s.tick := rfl
@[simp] theorem State.modWork_nextId (s : State) (f : WorkSt → WorkSt) : (s.modWork f).nextId = s.nextId := rfl
@[simp] theorem State.modWork_iss (s : State) (f : WorkSt → WorkSt) : (s.modWork f).iss = s.iss := rfl
@[simp] theorem State.modWork_consorts (s : State) (f : WorkSt → WorkSt) : (s.modWork f).consorts = s.consorts := rfl
@[simp] theorem State.modWork_core (s : State) (f : WorkSt → WorkSt) : (s.modWork f).core = s.core := rfl
@[simp] theorem State.modWork_ms (s : State) (f : WorkSt → WorkSt) : (s.modWork f).ms = s.ms := rfl
@[simp] theorem State.modWork_work (s : State) (f : WorkSt → WorkSt) : (s.modWork f).work = f s.work := rfl
@[simp] theorem State.modWork_hub (s : State) (f : WorkSt → WorkSt) : (s.modWork f).hub = s.hub := rfl
@[simp] theorem State.modWork_inputs (s : State) (f : WorkSt → WorkSt) : (s.modWork f).inputs = s.inputs := rfl
@[simp] theorem State.modWork_outbox (s : State) (f : WorkSt → WorkSt) : (s.modWork f).outbox = s.outbox := rfl

/-! ### modCons and what goes through it -/

@[simp] theorem State.modCons_clock (s : State) (k : Nat) (f : Consort → Consort) : (s.modCons k f).clock = s.clock := rfl
@[simp] theorem State.modCons_tick (s : State) (k : Nat) (f : Consort → Consort) : (s.modCons k f).tick = s.tick := rfl
@[simp] theorem State.modCons_nextId (s : State) (k : Nat) (f : Consort → Consort) : (s.modCons k f).nextId = s.nextId := rfl
@[simp] theorem State.modCons_iss (s : State) (k : Nat) (f : Consort → Consort) : (s.modCons k f).iss = s.iss := rfl
@[simp] theorem State.modCons_consorts (s : State) (k : Nat) (f : Consort → Consort) :
    (s.modCons k f).consorts = modFirst (·.id == k) f s.consorts := rfl
@[simp] theorem State.modCons_core (s : State) (k : Nat) (f : Consort → Consort) : (s.modCons k f).core = s.core := rfl
@[simp] theorem State.modCons_ms (s : State) (k : Nat) (f : Consort → Consort) : (s.modCons k f).ms = s.ms := rfl
@[simp] theorem State.modCons_work (s : State) (k : Nat) (f : Consort → Consort) : (s.modCons k f).work = s.work := rfl
@[simp] theorem State.modCons_hub (s : State) (k : Nat) (f : Consort → Consort) : (s.modCons k f).hub = s.hub := rfl
@[simp] theorem State.modCons_inputs (s : State) (k : Nat) (f : Consort → Consort) : (s.modCons k f).inputs = s.inputs := rfl
@[simp] theorem State.modCons_outbox (s : State) (k : Nat) (f : Consort → Consort) : (s.modCons k f).outbox = s.outbox := rfl
@[simp] theorem State.modCrs_clock (s : State) (k c : Nat) (f : Course → Course) : (s.modCrs k c f).clock = s.clock := rfl
@[simp] theorem State.modCrs_tick (s : State) (k c : Nat) (f : Course → Course) : (s.modCrs k c f).tick = s.tick := rfl
@[simp] theorem State.modCrs_nextId (s : State) (k c : Nat) (f : Course → Course) : (s.modCrs k c f).nextId = s.nextId := rfl
@[simp] theorem State.modCrs_iss (s : State) (k c : Nat) (f : Course → Course) : (s.modCrs k c f).iss = s.iss := rfl
@[simp] theorem State.modCrs_core (s : State) (k c : Nat) (f : Course → Course) : (s.modCrs k c f).core = s.core := rfl
@[simp] theorem State.modCrs_ms (s : State) (k c : Nat) (f : Course → Course) : (s.modCrs k c f).ms = s.ms := rfl
@[simp] theorem State.modCrs_work (s : State) (k c : Nat) (f : Course → Course) : (s.modCrs k c f).work = s.work := rfl
@[simp] theorem State.modCrs_hub (s : State) (k c : Nat) (f : Course → Course) : (s.modCrs k c f).hub = s.hub := rfl
@[simp] theorem State.modCrs_inputs (s : State) (k c : Nat) (f : Course → Course) : (s.modCrs k c f).inputs = s.inputs := rfl
@[simp] theorem State.modCrs_outbox (s : State) (k c : Nat) (f : Course → Course) : (s.modCrs k c f).outbox = s.outbox := rfl
@[simp] theorem State.modMe_clock (s : State) (f : Course → Course) : (s.modMe f).clock = s.clock := rfl
@[simp] theorem State.modMe_tick (s : State) (f : Course → Course) : (s.modMe f).tick = s.tick := rfl
@[simp] theorem State.modMe_nextId (s : State) (f : Course → Course) : (s.modMe f).nextId = s.nextId := rfl
@[simp] theorem State.modMe_iss (s : State) (f : Course → Course) : (s.modMe f).iss = s.iss := rfl
@[simp] theorem State.modMe_core (s : State) (f : Course → Course) : (s.modMe f).core = s.core := rfl
@[simp] theorem State.modMe_ms (s : State) (f : Course → Course) : (s.modMe f).ms = s.ms := rfl
@[simp] theorem State.modMe_work (s : State) (f : Course → Course) : (s.modMe f).work = s.work := rfl
@[simp] theorem State.modMe_hub (s : State) (f : Course → Course) : (s.modMe f).hub = s.hub := rfl
@[simp] theorem State.modMe_inputs (s : State) (f : Course → Course) : (s.modMe f).inputs = s.inputs := rfl
@[simp] theorem State.modMe_outbox (s : State) (f : Course → Course) : (s.modMe f).outbox = s.outbox := rfl
@[simp] theorem State.modMine_clock (s : State) (f : Consort → Consort) : (s.modMine f).clock = s.clock := rfl
@[simp] theorem State.modMine_tick (s : State) (f : Consort → Consort) : (s.modMine f).tick = s.tick := rfl
@[simp] theorem State.modMine_nextId (s : State) (f : Consort → Consort) : (s.modMine f).nextId = s.nextId := rfl
@[simp] theorem State.modMine_iss (s : State) (f : Consort → Consort) : (s.modMine f).iss = s.iss := rfl
@[simp] theorem State.modMine_core (s : State) (f : Consort → Consort) : (s.modMine f).core = s.core := rfl
@[simp] theorem State.modMine_ms (s : State) (f : Consort → Consort) : (s.modMine f).ms = s.ms := rfl
@[simp] theorem State.modMine_work (s : State) (f : Consort → Consort) : (s.modMine f).work = s.work := rfl
@[simp] theorem State.modMine_hub (s : State) (f : Consort → Consort) : (s.modMine f).hub = s.hub := rfl
@[simp] theorem State.modMine_inputs (s : State) (f : Consort → Consort) : (s.modMine f).inputs = s.inputs := rfl
@[simp] theorem State.modMine_outbox (s : State) (f : Consort → Consort) : (s.modMine f).outbox = s.outbox := rfl
@[simp] theorem State.setS_clock (s : State) (n : Nat) (x : DWord) : (s.setS n x).clock = s.clock := rfl
@[simp] theorem State.setS_tick (s : State) (n : Nat) (x : DWord) : (s.setS n x).tick = s.tick := rfl
@[simp] theorem State.setS_nextId (s : State) (n : Nat) (x : DWord) : (s.setS n x).nextId = s.nextId := rfl
@[simp] theorem State.setS_iss (s : State) (n : Nat) (x : DWord) : (s.setS n x).iss = s.iss := rfl
@[simp] theorem State.setS_core (s : State) (n : Nat) (x : DWord) : (s.setS n x).core = s.core := rfl
@[simp] theorem State.setS_ms (s : State) (n : Nat) (x : DWord) : (s.setS n x).ms = s.ms := rfl
@[simp] theorem State.setS_work (s : State) (n : Nat) (x : DWord) : (s.setS n x).work = s.work := rfl
@[simp] theorem State.setS_hub (s : State) (n : Nat) (x : DWord) : (s.setS n x).hub = s.hub := rfl
@[simp] theorem State.setS_inputs (s : State) (n : Nat) (x : DWord) : (s.setS n x).inputs = s.inputs := rfl
@[simp] theorem State.setS_outbox (s : State) (n : Nat) (x : DWord) : (s.setS n x).outbox = s.outbox := rfl
@[simp] theorem State.advance_clock (s : State) (m : BitVec 32) : (s.advance m).clock = s.clock := rfl
@[simp] theorem State.advance_tick (s : State) (m : BitVec 32) : (s.advance m).tick = s.tick := rfl
@[simp] theorem State.advance_nextId (s : State) (m : BitVec 32) : (s.advance m).nextId = s.nextId := rfl
@[simp] theorem State.advance_iss (s : State) (m : BitVec 32) : (s.advance m).iss = s.iss := rfl
@[simp] theorem State.advance_core (s : State) (m : BitVec 32) : (s.advance m).core = s.core := rfl
@[simp] theorem State.advance_ms (s : State) (m : BitVec 32) : (s.advance m).ms = s.ms := rfl
@[simp] theorem State.advance_work (s : State) (m : BitVec 32) : (s.advance m).work = s.work := rfl
@[simp] theorem State.advance_hub (s : State) (m : BitVec 32) : (s.advance m).hub = s.hub := rfl
@[simp] theorem State.advance_inputs (s : State) (m : BitVec 32) : (s.advance m).inputs = s.inputs := rfl
@[simp] theorem State.advance_outbox (s : State) (m : BitVec 32) : (s.advance m).outbox = s.outbox := rfl
@[simp] theorem State.done_clock (s : State) : s.done.clock = s.clock := rfl
@[simp] theorem State.done_tick (s : State) : s.done.tick = s.tick := rfl
@[simp] theorem State.done_nextId (s : State) : s.done.nextId = s.nextId := rfl
@[simp] theorem State.done_iss (s : State) : s.done.iss = s.iss := rfl
@[simp] theorem State.done_core (s : State) : s.done.core = s.core := rfl
@[simp] theorem State.done_ms (s : State) : s.done.ms = s.ms := rfl
@[simp] theorem State.done_work (s : State) : s.done.work = s.work := rfl
@[simp] theorem State.done_hub (s : State) : s.done.hub = s.hub := rfl
@[simp] theorem State.done_inputs (s : State) : s.done.inputs = s.inputs := rfl
@[simp] theorem State.done_outbox (s : State) : s.done.outbox = s.outbox := rfl
@[simp] theorem State.stallAt_clock (s : State) (w : StallWhy) (r : Nat) : (s.stallAt w r).clock = s.clock := rfl
@[simp] theorem State.stallAt_tick (s : State) (w : StallWhy) (r : Nat) : (s.stallAt w r).tick = s.tick := rfl
@[simp] theorem State.stallAt_nextId (s : State) (w : StallWhy) (r : Nat) : (s.stallAt w r).nextId = s.nextId := rfl
@[simp] theorem State.stallAt_iss (s : State) (w : StallWhy) (r : Nat) : (s.stallAt w r).iss = s.iss := rfl
@[simp] theorem State.stallAt_core (s : State) (w : StallWhy) (r : Nat) : (s.stallAt w r).core = s.core := rfl
@[simp] theorem State.stallAt_ms (s : State) (w : StallWhy) (r : Nat) : (s.stallAt w r).ms = s.ms := rfl
@[simp] theorem State.stallAt_work (s : State) (w : StallWhy) (r : Nat) : (s.stallAt w r).work = s.work := rfl
@[simp] theorem State.stallAt_hub (s : State) (w : StallWhy) (r : Nat) : (s.stallAt w r).hub = s.hub := rfl
@[simp] theorem State.stallAt_inputs (s : State) (w : StallWhy) (r : Nat) : (s.stallAt w r).inputs = s.inputs := rfl
@[simp] theorem State.stallAt_outbox (s : State) (w : StallWhy) (r : Nat) : (s.stallAt w r).outbox = s.outbox := rfl
@[simp] theorem State.stallFor_clock (s : State) (w : StallWhy) : (s.stallFor w).clock = s.clock := rfl
@[simp] theorem State.stallFor_tick (s : State) (w : StallWhy) : (s.stallFor w).tick = s.tick := rfl
@[simp] theorem State.stallFor_nextId (s : State) (w : StallWhy) : (s.stallFor w).nextId = s.nextId := rfl
@[simp] theorem State.stallFor_iss (s : State) (w : StallWhy) : (s.stallFor w).iss = s.iss := rfl
@[simp] theorem State.stallFor_core (s : State) (w : StallWhy) : (s.stallFor w).core = s.core := rfl
@[simp] theorem State.stallFor_ms (s : State) (w : StallWhy) : (s.stallFor w).ms = s.ms := rfl
@[simp] theorem State.stallFor_work (s : State) (w : StallWhy) : (s.stallFor w).work = s.work := rfl
@[simp] theorem State.stallFor_hub (s : State) (w : StallWhy) : (s.stallFor w).hub = s.hub := rfl
@[simp] theorem State.stallFor_inputs (s : State) (w : StallWhy) : (s.stallFor w).inputs = s.inputs := rfl
@[simp] theorem State.stallFor_outbox (s : State) (w : StallWhy) : (s.stallFor w).outbox = s.outbox := rfl

/-! ### Courses -/

@[simp] theorem Course.putV_idx (c : Course) (n : Nat) (t : BitVec 4) (m : BitVec 32) (f : Nat → Word) : (c.putV n t m f).idx = c.idx := rfl
@[simp] theorem Course.putV_lpc (c : Course) (n : Nat) (t : BitVec 4) (m : BitVec 32) (f : Nat → Word) : (c.putV n t m f).lpc = c.lpc := rfl
@[simp] theorem Course.putV_lane (c : Course) (n : Nat) (t : BitVec 4) (m : BitVec 32) (f : Nat → Word) : (c.putV n t m f).lane = c.lane := rfl
@[simp] theorem Course.putV_lapped (c : Course) (n : Nat) (t : BitVec 4) (m : BitVec 32) (f : Nat → Word) : (c.putV n t m f).lapped = c.lapped := rfl
@[simp] theorem Course.putV_s (c : Course) (n : Nat) (t : BitVec 4) (m : BitVec 32) (f : Nat → Word) : (c.putV n t m f).s = c.s := rfl
@[simp] theorem Course.putV_m (c : Course) (n : Nat) (t : BitVec 4) (m : BitVec 32) (f : Nat → Word) : (c.putV n t m f).m = c.m := rfl
@[simp] theorem Course.putV_fpmode (c : Course) (n : Nat) (t : BitVec 4) (m : BitVec 32) (f : Nat → Word) : (c.putV n t m f).fpmode = c.fpmode := rfl
@[simp] theorem Course.putV_probef (c : Course) (n : Nat) (t : BitVec 4) (m : BitVec 32) (f : Nat → Word) : (c.putV n t m f).probef = c.probef := rfl
@[simp] theorem Course.putV_fmask (c : Course) (n : Nat) (t : BitVec 4) (m : BitVec 32) (f : Nat → Word) : (c.putV n t m f).fmask = c.fmask := rfl
@[simp] theorem Course.putV_missref (c : Course) (n : Nat) (t : BitVec 4) (m : BitVec 32) (f : Nat → Word) : (c.putV n t m f).missref = c.missref := rfl
@[simp] theorem Course.putV_trapcause (c : Course) (n : Nat) (t : BitVec 4) (m : BitVec 32) (f : Nat → Word) : (c.putV n t m f).trapcause = c.trapcause := rfl
@[simp] theorem Course.putV_trapinfo (c : Course) (n : Nat) (t : BitVec 4) (m : BitVec 32) (f : Nat → Word) : (c.putV n t m f).trapinfo = c.trapinfo := rfl
@[simp] theorem Course.putV_hmask (c : Course) (n : Nat) (t : BitVec 4) (m : BitVec 32) (f : Nat → Word) : (c.putV n t m f).hmask = c.hmask := rfl
@[simp] theorem Course.putV_lastref (c : Course) (n : Nat) (t : BitVec 4) (m : BitVec 32) (f : Nat → Word) : (c.putV n t m f).lastref = c.lastref := rfl
@[simp] theorem Course.putV_ntraps (c : Course) (n : Nat) (t : BitVec 4) (m : BitVec 32) (f : Nat → Word) : (c.putV n t m f).ntraps = c.ntraps := rfl
@[simp] theorem Course.putV_tokens (c : Course) (n : Nat) (t : BitVec 4) (m : BitVec 32) (f : Nat → Word) : (c.putV n t m f).tokens = c.tokens := rfl
@[simp] theorem Course.putV_loads (c : Course) (n : Nat) (t : BitVec 4) (m : BitVec 32) (f : Nat → Word) : (c.putV n t m f).loads = c.loads := rfl
@[simp] theorem Course.putV_stores (c : Course) (n : Nat) (t : BitVec 4) (m : BitVec 32) (f : Nat → Word) : (c.putV n t m f).stores = c.stores := rfl
@[simp] theorem Course.putV_copies (c : Course) (n : Nat) (t : BitVec 4) (m : BitVec 32) (f : Nat → Word) : (c.putV n t m f).copies = c.copies := rfl
@[simp] theorem Course.putV_tiles (c : Course) (n : Nat) (t : BitVec 4) (m : BitVec 32) (f : Nat → Word) : (c.putV n t m f).tiles = c.tiles := rfl
@[simp] theorem Course.putV_region (c : Course) (n : Nat) (t : BitVec 4) (m : BitVec 32) (f : Nat → Word) : (c.putV n t m f).region = c.region := rfl
@[simp] theorem Course.putV_ports (c : Course) (n : Nat) (t : BitVec 4) (m : BitVec 32) (f : Nat → Word) : (c.putV n t m f).ports = c.ports := rfl
@[simp] theorem Course.putV_pending (c : Course) (n : Nat) (t : BitVec 4) (m : BitVec 32) (f : Nat → Word) : (c.putV n t m f).pending = c.pending := rfl
@[simp] theorem Course.putV_merrs (c : Course) (n : Nat) (t : BitVec 4) (m : BitVec 32) (f : Nat → Word) : (c.putV n t m f).merrs = c.merrs := rfl
@[simp] theorem Course.putV_hold (c : Course) (n : Nat) (t : BitVec 4) (m : BitVec 32) (f : Nat → Word) : (c.putV n t m f).hold = c.hold := rfl
@[simp] theorem Course.putV_stall (c : Course) (n : Nat) (t : BitVec 4) (m : BitVec 32) (f : Nat → Word) : (c.putV n t m f).stall = c.stall := rfl
@[simp] theorem Course.putV_age (c : Course) (n : Nat) (t : BitVec 4) (m : BitVec 32) (f : Nat → Word) : (c.putV n t m f).age = c.age := rfl
@[simp] theorem Course.putV_lines (c : Course) (n : Nat) (t : BitVec 4) (m : BitVec 32) (f : Nat → Word) : (c.putV n t m f).lines = c.lines := rfl
@[simp] theorem Course.putV_refused (c : Course) (n : Nat) (t : BitVec 4) (m : BitVec 32) (f : Nat → Word) : (c.putV n t m f).refused = c.refused := rfl
@[simp] theorem Course.putV_term (c : Course) (n : Nat) (t : BitVec 4) (m : BitVec 32) (f : Nat → Word) : (c.putV n t m f).term = c.term := rfl
@[simp] theorem Course.putV_exitRef (c : Course) (n : Nat) (t : BitVec 4) (m : BitVec 32) (f : Nat → Word) : (c.putV n t m f).exitRef = c.exitRef := rfl
@[simp] theorem Course.putV_exitMask (c : Course) (n : Nat) (t : BitVec 4) (m : BitVec 32) (f : Nat → Word) : (c.putV n t m f).exitMask = c.exitMask := rfl
@[simp] theorem Course.putV_retired (c : Course) (n : Nat) (t : BitVec 4) (m : BitVec 32) (f : Nat → Word) : (c.putV n t m f).retired = c.retired := rfl
@[simp] theorem Course.putV_status (c : Course) (n : Nat) (t : BitVec 4) (m : BitVec 32) (f : Nat → Word) : (c.putV n t m f).status = c.status := rfl
@[simp] theorem Course.putV_fetchFault (c : Course) (n : Nat) (t : BitVec 4) (m : BitVec 32) (f : Nat → Word) : (c.putV n t m f).fetchFault = c.fetchFault := rfl
@[simp] theorem Course.putV_fetchWait (c : Course) (n : Nat) (t : BitVec 4) (m : BitVec 32) (f : Nat → Word) : (c.putV n t m f).fetchWait = c.fetchWait := rfl
@[simp] theorem Course.setS_idx (c : Course) (n : Nat) (x : DWord) : (c.setS n x).idx = c.idx := rfl
@[simp] theorem Course.setS_lpc (c : Course) (n : Nat) (x : DWord) : (c.setS n x).lpc = c.lpc := rfl
@[simp] theorem Course.setS_lane (c : Course) (n : Nat) (x : DWord) : (c.setS n x).lane = c.lane := rfl
@[simp] theorem Course.setS_lapped (c : Course) (n : Nat) (x : DWord) : (c.setS n x).lapped = c.lapped := rfl
@[simp] theorem Course.setS_v (c : Course) (n : Nat) (x : DWord) : (c.setS n x).v = c.v := rfl
@[simp] theorem Course.setS_m (c : Course) (n : Nat) (x : DWord) : (c.setS n x).m = c.m := rfl
@[simp] theorem Course.setS_fpmode (c : Course) (n : Nat) (x : DWord) : (c.setS n x).fpmode = c.fpmode := rfl
@[simp] theorem Course.setS_probef (c : Course) (n : Nat) (x : DWord) : (c.setS n x).probef = c.probef := rfl
@[simp] theorem Course.setS_fmask (c : Course) (n : Nat) (x : DWord) : (c.setS n x).fmask = c.fmask := rfl
@[simp] theorem Course.setS_missref (c : Course) (n : Nat) (x : DWord) : (c.setS n x).missref = c.missref := rfl
@[simp] theorem Course.setS_trapcause (c : Course) (n : Nat) (x : DWord) : (c.setS n x).trapcause = c.trapcause := rfl
@[simp] theorem Course.setS_trapinfo (c : Course) (n : Nat) (x : DWord) : (c.setS n x).trapinfo = c.trapinfo := rfl
@[simp] theorem Course.setS_hmask (c : Course) (n : Nat) (x : DWord) : (c.setS n x).hmask = c.hmask := rfl
@[simp] theorem Course.setS_lastref (c : Course) (n : Nat) (x : DWord) : (c.setS n x).lastref = c.lastref := rfl
@[simp] theorem Course.setS_ntraps (c : Course) (n : Nat) (x : DWord) : (c.setS n x).ntraps = c.ntraps := rfl
@[simp] theorem Course.setS_tokens (c : Course) (n : Nat) (x : DWord) : (c.setS n x).tokens = c.tokens := rfl
@[simp] theorem Course.setS_loads (c : Course) (n : Nat) (x : DWord) : (c.setS n x).loads = c.loads := rfl
@[simp] theorem Course.setS_stores (c : Course) (n : Nat) (x : DWord) : (c.setS n x).stores = c.stores := rfl
@[simp] theorem Course.setS_copies (c : Course) (n : Nat) (x : DWord) : (c.setS n x).copies = c.copies := rfl
@[simp] theorem Course.setS_tiles (c : Course) (n : Nat) (x : DWord) : (c.setS n x).tiles = c.tiles := rfl
@[simp] theorem Course.setS_region (c : Course) (n : Nat) (x : DWord) : (c.setS n x).region = c.region := rfl
@[simp] theorem Course.setS_ports (c : Course) (n : Nat) (x : DWord) : (c.setS n x).ports = c.ports := rfl
@[simp] theorem Course.setS_pending (c : Course) (n : Nat) (x : DWord) : (c.setS n x).pending = c.pending := rfl
@[simp] theorem Course.setS_merrs (c : Course) (n : Nat) (x : DWord) : (c.setS n x).merrs = c.merrs := rfl
@[simp] theorem Course.setS_hold (c : Course) (n : Nat) (x : DWord) : (c.setS n x).hold = c.hold := rfl
@[simp] theorem Course.setS_stall (c : Course) (n : Nat) (x : DWord) : (c.setS n x).stall = c.stall := rfl
@[simp] theorem Course.setS_age (c : Course) (n : Nat) (x : DWord) : (c.setS n x).age = c.age := rfl
@[simp] theorem Course.setS_lines (c : Course) (n : Nat) (x : DWord) : (c.setS n x).lines = c.lines := rfl
@[simp] theorem Course.setS_refused (c : Course) (n : Nat) (x : DWord) : (c.setS n x).refused = c.refused := rfl
@[simp] theorem Course.setS_term (c : Course) (n : Nat) (x : DWord) : (c.setS n x).term = c.term := rfl
@[simp] theorem Course.setS_exitRef (c : Course) (n : Nat) (x : DWord) : (c.setS n x).exitRef = c.exitRef := rfl
@[simp] theorem Course.setS_exitMask (c : Course) (n : Nat) (x : DWord) : (c.setS n x).exitMask = c.exitMask := rfl
@[simp] theorem Course.setS_retired (c : Course) (n : Nat) (x : DWord) : (c.setS n x).retired = c.retired := rfl
@[simp] theorem Course.setS_status (c : Course) (n : Nat) (x : DWord) : (c.setS n x).status = c.status := rfl
@[simp] theorem Course.setS_fetchFault (c : Course) (n : Nat) (x : DWord) : (c.setS n x).fetchFault = c.fetchFault := rfl
@[simp] theorem Course.setS_fetchWait (c : Course) (n : Nat) (x : DWord) : (c.setS n x).fetchWait = c.fetchWait := rfl
@[simp] theorem Course.setLpc_idx (c : Course) (m : BitVec 32) (f : Nat → BitVec 32) : (c.setLpc m f).idx = c.idx := rfl
@[simp] theorem Course.setLpc_lane (c : Course) (m : BitVec 32) (f : Nat → BitVec 32) : (c.setLpc m f).lane = c.lane := rfl
@[simp] theorem Course.setLpc_lapped (c : Course) (m : BitVec 32) (f : Nat → BitVec 32) : (c.setLpc m f).lapped = c.lapped := rfl
@[simp] theorem Course.setLpc_v (c : Course) (m : BitVec 32) (f : Nat → BitVec 32) : (c.setLpc m f).v = c.v := rfl
@[simp] theorem Course.setLpc_s (c : Course) (m : BitVec 32) (f : Nat → BitVec 32) : (c.setLpc m f).s = c.s := rfl
@[simp] theorem Course.setLpc_m (c : Course) (m : BitVec 32) (f : Nat → BitVec 32) : (c.setLpc m f).m = c.m := rfl
@[simp] theorem Course.setLpc_fpmode (c : Course) (m : BitVec 32) (f : Nat → BitVec 32) : (c.setLpc m f).fpmode = c.fpmode := rfl
@[simp] theorem Course.setLpc_probef (c : Course) (m : BitVec 32) (f : Nat → BitVec 32) : (c.setLpc m f).probef = c.probef := rfl
@[simp] theorem Course.setLpc_fmask (c : Course) (m : BitVec 32) (f : Nat → BitVec 32) : (c.setLpc m f).fmask = c.fmask := rfl
@[simp] theorem Course.setLpc_missref (c : Course) (m : BitVec 32) (f : Nat → BitVec 32) : (c.setLpc m f).missref = c.missref := rfl
@[simp] theorem Course.setLpc_trapcause (c : Course) (m : BitVec 32) (f : Nat → BitVec 32) : (c.setLpc m f).trapcause = c.trapcause := rfl
@[simp] theorem Course.setLpc_trapinfo (c : Course) (m : BitVec 32) (f : Nat → BitVec 32) : (c.setLpc m f).trapinfo = c.trapinfo := rfl
@[simp] theorem Course.setLpc_hmask (c : Course) (m : BitVec 32) (f : Nat → BitVec 32) : (c.setLpc m f).hmask = c.hmask := rfl
@[simp] theorem Course.setLpc_lastref (c : Course) (m : BitVec 32) (f : Nat → BitVec 32) : (c.setLpc m f).lastref = c.lastref := rfl
@[simp] theorem Course.setLpc_ntraps (c : Course) (m : BitVec 32) (f : Nat → BitVec 32) : (c.setLpc m f).ntraps = c.ntraps := rfl
@[simp] theorem Course.setLpc_tokens (c : Course) (m : BitVec 32) (f : Nat → BitVec 32) : (c.setLpc m f).tokens = c.tokens := rfl
@[simp] theorem Course.setLpc_loads (c : Course) (m : BitVec 32) (f : Nat → BitVec 32) : (c.setLpc m f).loads = c.loads := rfl
@[simp] theorem Course.setLpc_stores (c : Course) (m : BitVec 32) (f : Nat → BitVec 32) : (c.setLpc m f).stores = c.stores := rfl
@[simp] theorem Course.setLpc_copies (c : Course) (m : BitVec 32) (f : Nat → BitVec 32) : (c.setLpc m f).copies = c.copies := rfl
@[simp] theorem Course.setLpc_tiles (c : Course) (m : BitVec 32) (f : Nat → BitVec 32) : (c.setLpc m f).tiles = c.tiles := rfl
@[simp] theorem Course.setLpc_region (c : Course) (m : BitVec 32) (f : Nat → BitVec 32) : (c.setLpc m f).region = c.region := rfl
@[simp] theorem Course.setLpc_ports (c : Course) (m : BitVec 32) (f : Nat → BitVec 32) : (c.setLpc m f).ports = c.ports := rfl
@[simp] theorem Course.setLpc_pending (c : Course) (m : BitVec 32) (f : Nat → BitVec 32) : (c.setLpc m f).pending = c.pending := rfl
@[simp] theorem Course.setLpc_merrs (c : Course) (m : BitVec 32) (f : Nat → BitVec 32) : (c.setLpc m f).merrs = c.merrs := rfl
@[simp] theorem Course.setLpc_hold (c : Course) (m : BitVec 32) (f : Nat → BitVec 32) : (c.setLpc m f).hold = c.hold := rfl
@[simp] theorem Course.setLpc_stall (c : Course) (m : BitVec 32) (f : Nat → BitVec 32) : (c.setLpc m f).stall = c.stall := rfl
@[simp] theorem Course.setLpc_age (c : Course) (m : BitVec 32) (f : Nat → BitVec 32) : (c.setLpc m f).age = c.age := rfl
@[simp] theorem Course.setLpc_lines (c : Course) (m : BitVec 32) (f : Nat → BitVec 32) : (c.setLpc m f).lines = c.lines := rfl
@[simp] theorem Course.setLpc_refused (c : Course) (m : BitVec 32) (f : Nat → BitVec 32) : (c.setLpc m f).refused = c.refused := rfl
@[simp] theorem Course.setLpc_term (c : Course) (m : BitVec 32) (f : Nat → BitVec 32) : (c.setLpc m f).term = c.term := rfl
@[simp] theorem Course.setLpc_exitRef (c : Course) (m : BitVec 32) (f : Nat → BitVec 32) : (c.setLpc m f).exitRef = c.exitRef := rfl
@[simp] theorem Course.setLpc_exitMask (c : Course) (m : BitVec 32) (f : Nat → BitVec 32) : (c.setLpc m f).exitMask = c.exitMask := rfl
@[simp] theorem Course.setLpc_retired (c : Course) (m : BitVec 32) (f : Nat → BitVec 32) : (c.setLpc m f).retired = c.retired := rfl
@[simp] theorem Course.setLpc_status (c : Course) (m : BitVec 32) (f : Nat → BitVec 32) : (c.setLpc m f).status = c.status := rfl
@[simp] theorem Course.setLpc_fetchFault (c : Course) (m : BitVec 32) (f : Nat → BitVec 32) : (c.setLpc m f).fetchFault = c.fetchFault := rfl
@[simp] theorem Course.setLpc_fetchWait (c : Course) (m : BitVec 32) (f : Nat → BitVec 32) : (c.setLpc m f).fetchWait = c.fetchWait := rfl
@[simp] theorem Course.setLane_idx (c : Course) (m : BitVec 32) (x : LaneState) : (c.setLane m x).idx = c.idx := rfl
@[simp] theorem Course.setLane_lpc (c : Course) (m : BitVec 32) (x : LaneState) : (c.setLane m x).lpc = c.lpc := rfl
@[simp] theorem Course.setLane_lapped (c : Course) (m : BitVec 32) (x : LaneState) : (c.setLane m x).lapped = c.lapped := rfl
@[simp] theorem Course.setLane_v (c : Course) (m : BitVec 32) (x : LaneState) : (c.setLane m x).v = c.v := rfl
@[simp] theorem Course.setLane_s (c : Course) (m : BitVec 32) (x : LaneState) : (c.setLane m x).s = c.s := rfl
@[simp] theorem Course.setLane_m (c : Course) (m : BitVec 32) (x : LaneState) : (c.setLane m x).m = c.m := rfl
@[simp] theorem Course.setLane_fpmode (c : Course) (m : BitVec 32) (x : LaneState) : (c.setLane m x).fpmode = c.fpmode := rfl
@[simp] theorem Course.setLane_probef (c : Course) (m : BitVec 32) (x : LaneState) : (c.setLane m x).probef = c.probef := rfl
@[simp] theorem Course.setLane_fmask (c : Course) (m : BitVec 32) (x : LaneState) : (c.setLane m x).fmask = c.fmask := rfl
@[simp] theorem Course.setLane_missref (c : Course) (m : BitVec 32) (x : LaneState) : (c.setLane m x).missref = c.missref := rfl
@[simp] theorem Course.setLane_trapcause (c : Course) (m : BitVec 32) (x : LaneState) : (c.setLane m x).trapcause = c.trapcause := rfl
@[simp] theorem Course.setLane_trapinfo (c : Course) (m : BitVec 32) (x : LaneState) : (c.setLane m x).trapinfo = c.trapinfo := rfl
@[simp] theorem Course.setLane_hmask (c : Course) (m : BitVec 32) (x : LaneState) : (c.setLane m x).hmask = c.hmask := rfl
@[simp] theorem Course.setLane_lastref (c : Course) (m : BitVec 32) (x : LaneState) : (c.setLane m x).lastref = c.lastref := rfl
@[simp] theorem Course.setLane_ntraps (c : Course) (m : BitVec 32) (x : LaneState) : (c.setLane m x).ntraps = c.ntraps := rfl
@[simp] theorem Course.setLane_tokens (c : Course) (m : BitVec 32) (x : LaneState) : (c.setLane m x).tokens = c.tokens := rfl
@[simp] theorem Course.setLane_loads (c : Course) (m : BitVec 32) (x : LaneState) : (c.setLane m x).loads = c.loads := rfl
@[simp] theorem Course.setLane_stores (c : Course) (m : BitVec 32) (x : LaneState) : (c.setLane m x).stores = c.stores := rfl
@[simp] theorem Course.setLane_copies (c : Course) (m : BitVec 32) (x : LaneState) : (c.setLane m x).copies = c.copies := rfl
@[simp] theorem Course.setLane_tiles (c : Course) (m : BitVec 32) (x : LaneState) : (c.setLane m x).tiles = c.tiles := rfl
@[simp] theorem Course.setLane_region (c : Course) (m : BitVec 32) (x : LaneState) : (c.setLane m x).region = c.region := rfl
@[simp] theorem Course.setLane_ports (c : Course) (m : BitVec 32) (x : LaneState) : (c.setLane m x).ports = c.ports := rfl
@[simp] theorem Course.setLane_pending (c : Course) (m : BitVec 32) (x : LaneState) : (c.setLane m x).pending = c.pending := rfl
@[simp] theorem Course.setLane_merrs (c : Course) (m : BitVec 32) (x : LaneState) : (c.setLane m x).merrs = c.merrs := rfl
@[simp] theorem Course.setLane_hold (c : Course) (m : BitVec 32) (x : LaneState) : (c.setLane m x).hold = c.hold := rfl
@[simp] theorem Course.setLane_stall (c : Course) (m : BitVec 32) (x : LaneState) : (c.setLane m x).stall = c.stall := rfl
@[simp] theorem Course.setLane_age (c : Course) (m : BitVec 32) (x : LaneState) : (c.setLane m x).age = c.age := rfl
@[simp] theorem Course.setLane_lines (c : Course) (m : BitVec 32) (x : LaneState) : (c.setLane m x).lines = c.lines := rfl
@[simp] theorem Course.setLane_refused (c : Course) (m : BitVec 32) (x : LaneState) : (c.setLane m x).refused = c.refused := rfl
@[simp] theorem Course.setLane_term (c : Course) (m : BitVec 32) (x : LaneState) : (c.setLane m x).term = c.term := rfl
@[simp] theorem Course.setLane_exitRef (c : Course) (m : BitVec 32) (x : LaneState) : (c.setLane m x).exitRef = c.exitRef := rfl
@[simp] theorem Course.setLane_exitMask (c : Course) (m : BitVec 32) (x : LaneState) : (c.setLane m x).exitMask = c.exitMask := rfl
@[simp] theorem Course.setLane_retired (c : Course) (m : BitVec 32) (x : LaneState) : (c.setLane m x).retired = c.retired := rfl
@[simp] theorem Course.setLane_status (c : Course) (m : BitVec 32) (x : LaneState) : (c.setLane m x).status = c.status := rfl
@[simp] theorem Course.setLane_fetchFault (c : Course) (m : BitVec 32) (x : LaneState) : (c.setLane m x).fetchFault = c.fetchFault := rfl
@[simp] theorem Course.setLane_fetchWait (c : Course) (m : BitVec 32) (x : LaneState) : (c.setLane m x).fetchWait = c.fetchWait := rfl
@[simp] theorem Course.setM_idx (c : Course) (n : Nat) (x : BitVec 32) : (c.setM n x).idx = c.idx := rfl
@[simp] theorem Course.setM_lpc (c : Course) (n : Nat) (x : BitVec 32) : (c.setM n x).lpc = c.lpc := rfl
@[simp] theorem Course.setM_lane (c : Course) (n : Nat) (x : BitVec 32) : (c.setM n x).lane = c.lane := rfl
@[simp] theorem Course.setM_lapped (c : Course) (n : Nat) (x : BitVec 32) : (c.setM n x).lapped = c.lapped := rfl
@[simp] theorem Course.setM_v (c : Course) (n : Nat) (x : BitVec 32) : (c.setM n x).v = c.v := rfl
@[simp] theorem Course.setM_s (c : Course) (n : Nat) (x : BitVec 32) : (c.setM n x).s = c.s := rfl
@[simp] theorem Course.setM_fpmode (c : Course) (n : Nat) (x : BitVec 32) : (c.setM n x).fpmode = c.fpmode := rfl
@[simp] theorem Course.setM_probef (c : Course) (n : Nat) (x : BitVec 32) : (c.setM n x).probef = c.probef := rfl
@[simp] theorem Course.setM_fmask (c : Course) (n : Nat) (x : BitVec 32) : (c.setM n x).fmask = c.fmask := rfl
@[simp] theorem Course.setM_missref (c : Course) (n : Nat) (x : BitVec 32) : (c.setM n x).missref = c.missref := rfl
@[simp] theorem Course.setM_trapcause (c : Course) (n : Nat) (x : BitVec 32) : (c.setM n x).trapcause = c.trapcause := rfl
@[simp] theorem Course.setM_trapinfo (c : Course) (n : Nat) (x : BitVec 32) : (c.setM n x).trapinfo = c.trapinfo := rfl
@[simp] theorem Course.setM_hmask (c : Course) (n : Nat) (x : BitVec 32) : (c.setM n x).hmask = c.hmask := rfl
@[simp] theorem Course.setM_lastref (c : Course) (n : Nat) (x : BitVec 32) : (c.setM n x).lastref = c.lastref := rfl
@[simp] theorem Course.setM_ntraps (c : Course) (n : Nat) (x : BitVec 32) : (c.setM n x).ntraps = c.ntraps := rfl
@[simp] theorem Course.setM_tokens (c : Course) (n : Nat) (x : BitVec 32) : (c.setM n x).tokens = c.tokens := rfl
@[simp] theorem Course.setM_loads (c : Course) (n : Nat) (x : BitVec 32) : (c.setM n x).loads = c.loads := rfl
@[simp] theorem Course.setM_stores (c : Course) (n : Nat) (x : BitVec 32) : (c.setM n x).stores = c.stores := rfl
@[simp] theorem Course.setM_copies (c : Course) (n : Nat) (x : BitVec 32) : (c.setM n x).copies = c.copies := rfl
@[simp] theorem Course.setM_tiles (c : Course) (n : Nat) (x : BitVec 32) : (c.setM n x).tiles = c.tiles := rfl
@[simp] theorem Course.setM_region (c : Course) (n : Nat) (x : BitVec 32) : (c.setM n x).region = c.region := rfl
@[simp] theorem Course.setM_ports (c : Course) (n : Nat) (x : BitVec 32) : (c.setM n x).ports = c.ports := rfl
@[simp] theorem Course.setM_pending (c : Course) (n : Nat) (x : BitVec 32) : (c.setM n x).pending = c.pending := rfl
@[simp] theorem Course.setM_merrs (c : Course) (n : Nat) (x : BitVec 32) : (c.setM n x).merrs = c.merrs := rfl
@[simp] theorem Course.setM_hold (c : Course) (n : Nat) (x : BitVec 32) : (c.setM n x).hold = c.hold := rfl
@[simp] theorem Course.setM_stall (c : Course) (n : Nat) (x : BitVec 32) : (c.setM n x).stall = c.stall := rfl
@[simp] theorem Course.setM_age (c : Course) (n : Nat) (x : BitVec 32) : (c.setM n x).age = c.age := rfl
@[simp] theorem Course.setM_lines (c : Course) (n : Nat) (x : BitVec 32) : (c.setM n x).lines = c.lines := rfl
@[simp] theorem Course.setM_refused (c : Course) (n : Nat) (x : BitVec 32) : (c.setM n x).refused = c.refused := rfl
@[simp] theorem Course.setM_term (c : Course) (n : Nat) (x : BitVec 32) : (c.setM n x).term = c.term := rfl
@[simp] theorem Course.setM_exitRef (c : Course) (n : Nat) (x : BitVec 32) : (c.setM n x).exitRef = c.exitRef := rfl
@[simp] theorem Course.setM_exitMask (c : Course) (n : Nat) (x : BitVec 32) : (c.setM n x).exitMask = c.exitMask := rfl
@[simp] theorem Course.setM_retired (c : Course) (n : Nat) (x : BitVec 32) : (c.setM n x).retired = c.retired := rfl
@[simp] theorem Course.setM_status (c : Course) (n : Nat) (x : BitVec 32) : (c.setM n x).status = c.status := rfl
@[simp] theorem Course.setM_fetchFault (c : Course) (n : Nat) (x : BitVec 32) : (c.setM n x).fetchFault = c.fetchFault := rfl
@[simp] theorem Course.setM_fetchWait (c : Course) (n : Nat) (x : BitVec 32) : (c.setM n x).fetchWait = c.fetchWait := rfl
@[simp] theorem Course.setPort_idx (c : Course) (n : Nat) (p : Port) : (c.setPort n p).idx = c.idx := rfl
@[simp] theorem Course.setPort_lpc (c : Course) (n : Nat) (p : Port) : (c.setPort n p).lpc = c.lpc := rfl
@[simp] theorem Course.setPort_lane (c : Course) (n : Nat) (p : Port) : (c.setPort n p).lane = c.lane := rfl
@[simp] theorem Course.setPort_lapped (c : Course) (n : Nat) (p : Port) : (c.setPort n p).lapped = c.lapped := rfl
@[simp] theorem Course.setPort_v (c : Course) (n : Nat) (p : Port) : (c.setPort n p).v = c.v := rfl
@[simp] theorem Course.setPort_s (c : Course) (n : Nat) (p : Port) : (c.setPort n p).s = c.s := rfl
@[simp] theorem Course.setPort_m (c : Course) (n : Nat) (p : Port) : (c.setPort n p).m = c.m := rfl
@[simp] theorem Course.setPort_fpmode (c : Course) (n : Nat) (p : Port) : (c.setPort n p).fpmode = c.fpmode := rfl
@[simp] theorem Course.setPort_probef (c : Course) (n : Nat) (p : Port) : (c.setPort n p).probef = c.probef := rfl
@[simp] theorem Course.setPort_fmask (c : Course) (n : Nat) (p : Port) : (c.setPort n p).fmask = c.fmask := rfl
@[simp] theorem Course.setPort_missref (c : Course) (n : Nat) (p : Port) : (c.setPort n p).missref = c.missref := rfl
@[simp] theorem Course.setPort_trapcause (c : Course) (n : Nat) (p : Port) : (c.setPort n p).trapcause = c.trapcause := rfl
@[simp] theorem Course.setPort_trapinfo (c : Course) (n : Nat) (p : Port) : (c.setPort n p).trapinfo = c.trapinfo := rfl
@[simp] theorem Course.setPort_hmask (c : Course) (n : Nat) (p : Port) : (c.setPort n p).hmask = c.hmask := rfl
@[simp] theorem Course.setPort_lastref (c : Course) (n : Nat) (p : Port) : (c.setPort n p).lastref = c.lastref := rfl
@[simp] theorem Course.setPort_ntraps (c : Course) (n : Nat) (p : Port) : (c.setPort n p).ntraps = c.ntraps := rfl
@[simp] theorem Course.setPort_tokens (c : Course) (n : Nat) (p : Port) : (c.setPort n p).tokens = c.tokens := rfl
@[simp] theorem Course.setPort_loads (c : Course) (n : Nat) (p : Port) : (c.setPort n p).loads = c.loads := rfl
@[simp] theorem Course.setPort_stores (c : Course) (n : Nat) (p : Port) : (c.setPort n p).stores = c.stores := rfl
@[simp] theorem Course.setPort_copies (c : Course) (n : Nat) (p : Port) : (c.setPort n p).copies = c.copies := rfl
@[simp] theorem Course.setPort_tiles (c : Course) (n : Nat) (p : Port) : (c.setPort n p).tiles = c.tiles := rfl
@[simp] theorem Course.setPort_region (c : Course) (n : Nat) (p : Port) : (c.setPort n p).region = c.region := rfl
@[simp] theorem Course.setPort_pending (c : Course) (n : Nat) (p : Port) : (c.setPort n p).pending = c.pending := rfl
@[simp] theorem Course.setPort_merrs (c : Course) (n : Nat) (p : Port) : (c.setPort n p).merrs = c.merrs := rfl
@[simp] theorem Course.setPort_hold (c : Course) (n : Nat) (p : Port) : (c.setPort n p).hold = c.hold := rfl
@[simp] theorem Course.setPort_stall (c : Course) (n : Nat) (p : Port) : (c.setPort n p).stall = c.stall := rfl
@[simp] theorem Course.setPort_age (c : Course) (n : Nat) (p : Port) : (c.setPort n p).age = c.age := rfl
@[simp] theorem Course.setPort_lines (c : Course) (n : Nat) (p : Port) : (c.setPort n p).lines = c.lines := rfl
@[simp] theorem Course.setPort_refused (c : Course) (n : Nat) (p : Port) : (c.setPort n p).refused = c.refused := rfl
@[simp] theorem Course.setPort_term (c : Course) (n : Nat) (p : Port) : (c.setPort n p).term = c.term := rfl
@[simp] theorem Course.setPort_exitRef (c : Course) (n : Nat) (p : Port) : (c.setPort n p).exitRef = c.exitRef := rfl
@[simp] theorem Course.setPort_exitMask (c : Course) (n : Nat) (p : Port) : (c.setPort n p).exitMask = c.exitMask := rfl
@[simp] theorem Course.setPort_retired (c : Course) (n : Nat) (p : Port) : (c.setPort n p).retired = c.retired := rfl
@[simp] theorem Course.setPort_status (c : Course) (n : Nat) (p : Port) : (c.setPort n p).status = c.status := rfl
@[simp] theorem Course.setPort_fetchFault (c : Course) (n : Nat) (p : Port) : (c.setPort n p).fetchFault = c.fetchFault := rfl
@[simp] theorem Course.setPort_fetchWait (c : Course) (n : Nat) (p : Port) : (c.setPort n p).fetchWait = c.fetchWait := rfl
@[simp] theorem Course.lapTo_idx (c : Course) (m own : BitVec 32) (i : Bool) : (c.lapTo m own i).idx = c.idx := rfl
@[simp] theorem Course.lapTo_lpc (c : Course) (m own : BitVec 32) (i : Bool) : (c.lapTo m own i).lpc = c.lpc := rfl
@[simp] theorem Course.lapTo_lane (c : Course) (m own : BitVec 32) (i : Bool) : (c.lapTo m own i).lane = c.lane := rfl
@[simp] theorem Course.lapTo_v (c : Course) (m own : BitVec 32) (i : Bool) : (c.lapTo m own i).v = c.v := rfl
@[simp] theorem Course.lapTo_s (c : Course) (m own : BitVec 32) (i : Bool) : (c.lapTo m own i).s = c.s := rfl
@[simp] theorem Course.lapTo_m (c : Course) (m own : BitVec 32) (i : Bool) : (c.lapTo m own i).m = c.m := rfl
@[simp] theorem Course.lapTo_fpmode (c : Course) (m own : BitVec 32) (i : Bool) : (c.lapTo m own i).fpmode = c.fpmode := rfl
@[simp] theorem Course.lapTo_probef (c : Course) (m own : BitVec 32) (i : Bool) : (c.lapTo m own i).probef = c.probef := rfl
@[simp] theorem Course.lapTo_fmask (c : Course) (m own : BitVec 32) (i : Bool) : (c.lapTo m own i).fmask = c.fmask := rfl
@[simp] theorem Course.lapTo_missref (c : Course) (m own : BitVec 32) (i : Bool) : (c.lapTo m own i).missref = c.missref := rfl
@[simp] theorem Course.lapTo_trapcause (c : Course) (m own : BitVec 32) (i : Bool) : (c.lapTo m own i).trapcause = c.trapcause := rfl
@[simp] theorem Course.lapTo_trapinfo (c : Course) (m own : BitVec 32) (i : Bool) : (c.lapTo m own i).trapinfo = c.trapinfo := rfl
@[simp] theorem Course.lapTo_hmask (c : Course) (m own : BitVec 32) (i : Bool) : (c.lapTo m own i).hmask = c.hmask := rfl
@[simp] theorem Course.lapTo_lastref (c : Course) (m own : BitVec 32) (i : Bool) : (c.lapTo m own i).lastref = c.lastref := rfl
@[simp] theorem Course.lapTo_ntraps (c : Course) (m own : BitVec 32) (i : Bool) : (c.lapTo m own i).ntraps = c.ntraps := rfl
@[simp] theorem Course.lapTo_tokens (c : Course) (m own : BitVec 32) (i : Bool) : (c.lapTo m own i).tokens = c.tokens := rfl
@[simp] theorem Course.lapTo_loads (c : Course) (m own : BitVec 32) (i : Bool) : (c.lapTo m own i).loads = c.loads := rfl
@[simp] theorem Course.lapTo_stores (c : Course) (m own : BitVec 32) (i : Bool) : (c.lapTo m own i).stores = c.stores := rfl
@[simp] theorem Course.lapTo_copies (c : Course) (m own : BitVec 32) (i : Bool) : (c.lapTo m own i).copies = c.copies := rfl
@[simp] theorem Course.lapTo_tiles (c : Course) (m own : BitVec 32) (i : Bool) : (c.lapTo m own i).tiles = c.tiles := rfl
@[simp] theorem Course.lapTo_region (c : Course) (m own : BitVec 32) (i : Bool) : (c.lapTo m own i).region = c.region := rfl
@[simp] theorem Course.lapTo_ports (c : Course) (m own : BitVec 32) (i : Bool) : (c.lapTo m own i).ports = c.ports := rfl
@[simp] theorem Course.lapTo_pending (c : Course) (m own : BitVec 32) (i : Bool) : (c.lapTo m own i).pending = c.pending := rfl
@[simp] theorem Course.lapTo_merrs (c : Course) (m own : BitVec 32) (i : Bool) : (c.lapTo m own i).merrs = c.merrs := rfl
@[simp] theorem Course.lapTo_hold (c : Course) (m own : BitVec 32) (i : Bool) : (c.lapTo m own i).hold = c.hold := rfl
@[simp] theorem Course.lapTo_stall (c : Course) (m own : BitVec 32) (i : Bool) : (c.lapTo m own i).stall = c.stall := rfl
@[simp] theorem Course.lapTo_age (c : Course) (m own : BitVec 32) (i : Bool) : (c.lapTo m own i).age = c.age := rfl
@[simp] theorem Course.lapTo_lines (c : Course) (m own : BitVec 32) (i : Bool) : (c.lapTo m own i).lines = c.lines := rfl
@[simp] theorem Course.lapTo_refused (c : Course) (m own : BitVec 32) (i : Bool) : (c.lapTo m own i).refused = c.refused := rfl
@[simp] theorem Course.lapTo_term (c : Course) (m own : BitVec 32) (i : Bool) : (c.lapTo m own i).term = c.term := rfl
@[simp] theorem Course.lapTo_exitRef (c : Course) (m own : BitVec 32) (i : Bool) : (c.lapTo m own i).exitRef = c.exitRef := rfl
@[simp] theorem Course.lapTo_exitMask (c : Course) (m own : BitVec 32) (i : Bool) : (c.lapTo m own i).exitMask = c.exitMask := rfl
@[simp] theorem Course.lapTo_retired (c : Course) (m own : BitVec 32) (i : Bool) : (c.lapTo m own i).retired = c.retired := rfl
@[simp] theorem Course.lapTo_status (c : Course) (m own : BitVec 32) (i : Bool) : (c.lapTo m own i).status = c.status := rfl
@[simp] theorem Course.lapTo_fetchFault (c : Course) (m own : BitVec 32) (i : Bool) : (c.lapTo m own i).fetchFault = c.fetchFault := rfl
@[simp] theorem Course.lapTo_fetchWait (c : Course) (m own : BitVec 32) (i : Bool) : (c.lapTo m own i).fetchWait = c.fetchWait := rfl

end Sys2Proof.Machine
end

