-- ==== Sys2Proof/Laws/Memory.lean ====
section
/-!
SUPPORT. The laws of memory: a byte read after a byte written, and the canonical form that every operation over memory keeps.
-/

namespace Sys2Proof.Machine

open Host (Cell)

theorem memSet_mem {m : List Cell} {a : Nat} {b : Byte} {x : Cell} (h : x ∈ memSet m a b) :
    x ∈ m ∨ (x = (a, b) ∧ b ≠ 0) := by
  induction m with
  | nil =>
    simp only [memSet] at h
    split at h <;> simp_all
  | cons y ys ih =>
    simp only [memSet] at h
    split at h
    · rcases List.mem_cons.1 h with rfl | h
      · exact .inl (List.mem_cons_self ..)
      · rcases ih h with h | h
        · exact .inl (List.mem_cons_of_mem _ h)
        · exact .inr h
    · split at h
      · split at h
        · exact .inl (List.mem_cons_of_mem _ h)
        · rcases List.mem_cons.1 h with rfl | h
          · exact .inr ⟨rfl, by assumption⟩
          · exact .inl (List.mem_cons_of_mem _ h)
      · split at h
        · exact .inl h
        · rcases List.mem_cons.1 h with rfl | h
          · exact .inr ⟨rfl, by assumption⟩
          · exact .inl h

theorem memSet_sorted {m : List Cell} (a : Nat) (b : Byte) (h : m.Pairwise (fun x y => x.1 < y.1)) :
    (memSet m a b).Pairwise (fun x y => x.1 < y.1) := by
  induction m with
  | nil =>
    simp only [memSet]
    split <;> simp
  | cons y ys ih =>
    obtain ⟨hy, hys⟩ := List.pairwise_cons.1 h
    simp only [memSet]
    split
    · rename_i lt
      refine List.pairwise_cons.2 ⟨fun z hz => ?_, ih hys⟩
      rcases memSet_mem hz with hz | ⟨rfl, -⟩
      · exact hy z hz
      · exact lt
    · rename_i nlt
      split
      · rename_i eq
        split
        · exact hys
        · exact List.pairwise_cons.2 ⟨fun z hz => by have := hy z hz; simp only; omega, hys⟩
      · rename_i ne
        split
        · exact h
        · refine List.pairwise_cons.2 ⟨fun z hz => ?_, h⟩
          simp only
          rcases List.mem_cons.1 hz with rfl | hz
          · omega
          · have := hy z hz
            omega

/-- Writing one byte keeps the canonical form. -/
theorem memSet_wf {m : List Cell} (h : Memory.wf m) (a : Nat) (b : Byte) : Memory.wf (memSet m a b) := by
  refine ⟨memSet_sorted a b h.1, fun x hx => ?_⟩
  rcases memSet_mem hx with hx | ⟨rfl, hb⟩
  · exact h.2 x hx
  · exact hb

/-- Writing bytes from an address up keeps the canonical form. -/
theorem memWrite_wf {m : List Cell} (h : Memory.wf m) (a : Nat) (bs : List Byte) : Memory.wf (memWrite m a bs) := by
  induction bs generalizing m a with
  | nil => exact h
  | cons b bs ih => exact ih (memSet_wf h a b) (a + 1)

/-- Writing single bytes keeps the canonical form. -/
theorem memCells_wf {m : List Cell} (h : Memory.wf m) (cs : List Cell) : Memory.wf (memCells m cs) := by
  induction cs generalizing m with
  | nil => exact h
  | cons c cs ih => exact ih (memSet_wf h c.1 c.2)

theorem nil_wf : Memory.wf [] := by simp [Memory.wf]

theorem poke_wf {s : State} (h : Memory.wf s.ms.mem) (a : Nat) (bs : List Byte) : Memory.wf (s.poke a bs).ms.mem :=
  memWrite_wf h a bs

@[simp] theorem jcScan_ms (s : State) : s.jcScan.ms = s.ms := rfl

@[simp] theorem homeWrite_mem (s : State) (cs : List Cell) : (s.homeWrite cs).ms.mem = memCells s.ms.mem cs := rfl

theorem homeWrite_wf {s : State} (h : Memory.wf s.ms.mem) (cs : List Cell) : Memory.wf (s.homeWrite cs).ms.mem :=
  memCells_wf h cs

theorem spWrite_wf {s : Consort} (h : Memory.wf s.scratch) (a : Nat) (bs : List Byte) :
    Memory.wf (memWrite s.scratch a bs) := memWrite_wf h a bs

/-! ### Reading after writing -/

@[simp] theorem memGet_nil (a : Nat) : memGet [] a = 0 := rfl

theorem memGet_cons (x : Cell) (m : List Cell) (a : Nat) : memGet (x :: m) a = if x.1 = a then x.2 else memGet m a := by
  by_cases h : x.1 = a
  · simp [memGet, h]
  · cases hb : x.1.beq a with
    | false => simp [memGet, hb, h]
    | true => exact absurd (Nat.eq_of_beq_eq_true hb) h

theorem memGet_above {m : List Cell} {a : Nat} (h : ∀ x ∈ m, a < x.1) : memGet m a = 0 := by
  induction m with
  | nil => rfl
  | cons y ys ih =>
    have := h y List.mem_cons_self
    rw [memGet_cons, if_neg (by omega)]
    exact ih (fun x hx => h x (List.mem_cons_of_mem _ hx))

/-- A byte reads as it was last written, and every other byte as before. -/
theorem memGet_after {m : List Cell} (h : m.Pairwise (fun x y => x.1 < y.1)) (a a' : Nat) (b : Byte) :
    memGet (memSet m a b) a' = if a' = a then b else memGet m a' := by
  induction m with
  | nil =>
    simp only [memSet]
    by_cases hb : b = 0
    · rw [if_pos hb, hb]
      simp
    · rw [if_neg hb, memGet_cons]
      by_cases ha : a' = a
      · rw [if_pos ha, if_pos ha.symm]
      · rw [if_neg ha, if_neg (fun e => ha e.symm)]
  | cons y ys ih =>
    obtain ⟨hy, hys⟩ := List.pairwise_cons.1 h
    have rest : ∀ {c}, c ≤ y.1 → memGet ys c = 0 := fun hc => memGet_above (fun x hx => by have := hy x hx; omega)
    have ih := ih hys
    simp only [memSet]
    split
    · rw [memGet_cons, memGet_cons, ih]
      split <;> split <;> first | rfl | omega
    · split
      · rename_i e
        by_cases ha : a' = a
        · subst ha
          by_cases hb : b = 0
          · rw [if_pos hb, if_pos rfl, rest (Nat.le_of_eq e.symm), hb]
          · rw [if_neg hb, if_pos rfl, memGet_cons, if_pos rfl]
        · by_cases hb : b = 0
          · rw [if_pos hb, if_neg ha, memGet_cons, if_neg (by omega)]
          · rw [if_neg hb, if_neg ha, memGet_cons, memGet_cons, if_neg (fun x => ha x.symm), if_neg (by omega)]
      · by_cases hb : b = 0
        · by_cases ha : a' = a
          · subst ha
            rw [if_pos hb, if_pos rfl, memGet_cons, if_neg (by omega), rest (by omega), hb]
          · rw [if_pos hb, if_neg ha]
        · rw [if_neg hb, memGet_cons]
          by_cases ha : a' = a
          · rw [if_pos ha, if_pos ha.symm]
          · rw [if_neg (fun e => ha e.symm), if_neg ha]

end Sys2Proof.Machine
end

