-- ==== Sys2Proof/Laws/Ops.lean ====
section
/-!
SUPPORT. What each shared operation over registers, ports and traps can do, said once: it changes consorts and nothing else, and reading
operands that are no ports changes nothing.
-/

namespace Sys2Proof.Machine

/-- t is s but for what its consorts hold. -/
def OnlyConsorts (s t : State) : Prop := t = { s with consorts := t.consorts }

theorem OnlyConsorts.refl (s : State) : OnlyConsorts s s := rfl

theorem OnlyConsorts.trans {s t u : State} (h : OnlyConsorts s t) (g : OnlyConsorts t u) : OnlyConsorts s u := by
  unfold OnlyConsorts at *
  rw [g, h]

theorem OnlyConsorts.ms {s t : State} (h : OnlyConsorts s t) : t.ms = s.ms := by rw [h]
theorem OnlyConsorts.core {s t : State} (h : OnlyConsorts s t) : t.core = s.core := by rw [h]
theorem OnlyConsorts.work {s t : State} (h : OnlyConsorts s t) : t.work = s.work := by rw [h]
theorem OnlyConsorts.hub {s t : State} (h : OnlyConsorts s t) : t.hub = s.hub := by rw [h]
theorem OnlyConsorts.clock {s t : State} (h : OnlyConsorts s t) : t.clock = s.clock := by rw [h]
theorem OnlyConsorts.iss {s t : State} (h : OnlyConsorts s t) : t.iss = s.iss := by rw [h]
theorem OnlyConsorts.nextId {s t : State} (h : OnlyConsorts s t) : t.nextId = s.nextId := by rw [h]
theorem OnlyConsorts.inputs {s t : State} (h : OnlyConsorts s t) : t.inputs = s.inputs := by rw [h]
theorem OnlyConsorts.outbox {s t : State} (h : OnlyConsorts s t) : t.outbox = s.outbox := by rw [h]

theorem modCons_only (s : State) (k : Nat) (f : Consort → Consort) : OnlyConsorts s (s.modCons k f) := rfl

theorem modCrs_only (s : State) (k c : Nat) (f : Course → Course) : OnlyConsorts s (s.modCrs k c f) := rfl

theorem modMe_only (s : State) (f : Course → Course) : OnlyConsorts s (s.modMe f) := rfl

theorem modMine_only (s : State) (f : Consort → Consort) : OnlyConsorts s (s.modMine f) := rfl

theorem setS_only (s : State) (n : Nat) (x : DWord) : OnlyConsorts s (s.setS n x) := rfl

theorem done_only (s : State) : OnlyConsorts s s.done := rfl

theorem stallAt_only (s : State) (why : StallWhy) (reg : Nat) : OnlyConsorts s (s.stallAt why reg) := rfl

theorem stallFor_only (s : State) (why : StallWhy) : OnlyConsorts s (s.stallFor why) := rfl

theorem forAll_only {α : Type} (xs : List α) (f : State → α → State) (h : ∀ s x, OnlyConsorts s (f s x)) (s : State) :
    OnlyConsorts s (forAll xs s f) := by
  unfold forAll
  induction xs generalizing s with
  | nil => exact .refl s
  | cons x xs ih => exact (h s x).trans (ih (f s x))

theorem breakBindings_only (s : State) (k c : Nat) : OnlyConsorts s (s.breakBindings k c) :=
  (modCons_only s k _).trans (forAll_only _ _ (fun _ _ => by unfold OnlyConsorts; rfl) _)

theorem terminate_only (s : State) (k c : Nat) (t : Termination) : OnlyConsorts s (s.terminate k c t) :=
  (modCrs_only s k c _).trans (breakBindings_only _ k c)

/-- R406, R410. Taking a trap changes the course, and what its end breaks in its gang. -/
theorem enterHandler_only (s : State) (k c : Nat) (ref : BitVec 32) (ret : Nat → BitVec 32) (g : TrapGroup) :
    OnlyConsorts s (s.enterHandler k c ref ret g) := by
  unfold State.enterHandler
  dsimp only
  repeat' split
  all_goals first | exact terminate_only s k c _ | exact modCrs_only s k c _

/-- R405, R407. Resolving the causes of one issue changes the course, and what its end breaks in its gang. -/
theorem resolve_only (s : State) (k c : Nat) (ref : BitVec 32) (ret : Nat → BitVec 32) (gs : List TrapGroup) :
    OnlyConsorts s (s.resolve k c ref ret gs) := by
  unfold State.resolve
  dsimp only
  repeat' split
  all_goals first
    | exact .refl s
    | exact terminate_only s k c _
    | exact ((modCrs_only s k c _).trans (modCrs_only _ k c _)).trans (enterHandler_only _ k c ref ret _)
    | exact (modCrs_only s k c _).trans (modCrs_only _ k c _)

theorem deliver_only (s : State) (k c : Nat) (ref : BitVec 32) (ret : Nat → BitVec 32) (gs : List TrapGroup) :
    OnlyConsorts s (s.deliver k c ref ret gs) := by
  unfold State.deliver
  split <;> exact resolve_only s k c ref _ _

theorem trapWhole_only (s : State) (cause : Cause) (info : DWord) : OnlyConsorts s (s.trapWhole cause info) :=
  deliver_only s _ _ _ _ _

theorem fail_only (s : State) (cause : Cause) (r : Nat) : OnlyConsorts s (s.fail cause r) := trapWhole_only s cause _

theorem failCount_only (s : State) (r : Nat) : OnlyConsorts s (s.failCount r) := trapWhole_only s .illegal _

theorem checkDeadlock_only (s : State) (k c : Nat) : OnlyConsorts s (s.checkDeadlock k c) := by
  unfold State.checkDeadlock
  dsimp only
  split
  · exact deliver_only s k c _ _ _
  · exact .refl s

theorem miss_only (s : State) (set : BitVec 32) (kind : Nat) (ov : BitVec 16) : OnlyConsorts s (s.miss set kind ov) := by
  unfold State.miss
  dsimp only
  split
  · exact (modMe_only s _).trans (deliver_only _ _ _ _ _ _)
  · exact (modMe_only s _).trans (modMe_only _ _)

theorem portDrop_only (s : State) (k c q n : Nat) : OnlyConsorts s (s.portDrop k c q n) := by
  unfold State.portDrop
  dsimp only
  split <;> rfl

theorem portPush_only (s : State) (k c q : Nat) (es : List Elem) : OnlyConsorts s (s.portPush k c q es) := by
  unfold State.portPush
  dsimp only
  split <;> rfl

theorem portFeed_only (s : State) (k c q : Nat) (es : List Elem) : OnlyConsorts s (s.portFeed k c q es) := rfl

theorem writeDst_only (s : State) (d : BitVec 7) (t : BitVec 4) (f : Nat → Word) : OnlyConsorts s (s.writeDst d t f) := by
  unfold State.writeDst
  split
  · exact portPush_only s _ _ _ _
  · rfl

theorem popAll_only {n : Nat} {vs : List (BitVec 7)} {s t : State} {es : List (List Elem)} (h : s.popAll n vs = some (t, es)) :
    OnlyConsorts s t := by
  induction vs generalizing s t es with
  | nil =>
    simp only [State.popAll, Option.some.injEq, Prod.mk.injEq] at h
    exact h.1 ▸ .refl s
  | cons v vs ih =>
    simp only [State.popAll] at h
    split at h
    · cases h
    · rename_i s1 e he
      split at h
      · cases h
      · rename_i s2 rest hr
        simp only [Option.some.injEq, Prod.mk.injEq] at h
        have g : OnlyConsorts s s1 := by
          simp only [State.popOne] at he
          split at he
          · split at he
            · cases he
            · simp only [Option.some.injEq, Prod.mk.injEq] at he
              exact he.1 ▸ portDrop_only s _ _ _ _
          · simp only [Option.some.injEq, Prod.mk.injEq] at he
            exact he.1 ▸ .refl s
        exact h.1 ▸ g.trans (ih hr)

theorem popAll_regs {n : Nat} {vs : List (BitVec 7)} (s : State) (h : ∀ v ∈ vs, isPort v = false) :
    s.popAll n vs = some (s, vs.map (fun _ => [])) := by
  induction vs with
  | nil => rfl
  | cons v vs ih =>
    have hv := h v (List.mem_cons_self ..)
    have hr := ih (fun x hx => h x (List.mem_cons_of_mem _ hx))
    simp [State.popAll, State.popOne, hv, hr]

/-- R247. Taking sources ends in a trap or a stall, or pops ports: in each case only consorts change. -/
theorem takeSrcs_only {s t : State} {srcs : List (BitVec 7)} {dst : Option (BitVec 7)} {n : Nat} :
    (s.takeSrcs srcs dst n = .error t → OnlyConsorts s t) ∧ (∀ xs, s.takeSrcs srcs dst n = .ok (t, xs) → OnlyConsorts s t) := by
  constructor
  · intro h
    simp only [State.takeSrcs] at h
    repeat' split at h
    all_goals first
      | (injection h with h; subst h; exact fail_only s _ _)
      | (injection h with h; subst h; exact stallAt_only s _ _)
      | cases h
  · intro xs h
    simp only [State.takeSrcs] at h
    split at h
    · cases h
    · split at h
      · cases h
      · rename_i hp
        have g := popAll_only hp
        repeat' split at h
        all_goals first
          | cases h; done
          | (injection h with h; injection h with h1 h2; subst h1; exact g)

/-- R247. Sources that are registers: nothing is popped. -/
theorem takeSrcs_regs {s t : State} {srcs : List (BitVec 7)} {dst : Option (BitVec 7)} {n : Nat} {xs : List (List Elem × VReg)}
    (hr : ∀ v ∈ srcs, isPort v = false) (h : s.takeSrcs srcs dst n = .ok (t, xs)) : t = s := by
  simp only [State.takeSrcs, popAll_regs s hr] at h
  repeat' split at h
  all_goals first
    | cases h; done
    | (injection h with h; injection h with h1 h2; exact h1.symm)

/-- R247. The same of the sources of an instruction that accepts every tag. -/
theorem readSrcs_only {s t : State} {srcs : List (BitVec 7)} {dst : Option (BitVec 7)} {n : Nat} :
    (s.readSrcs srcs dst n = .error t → OnlyConsorts s t) ∧ (∀ vs, s.readSrcs srcs dst n = .ok (t, vs) → OnlyConsorts s t) := by
  unfold State.readSrcs
  cases h : s.takeSrcs srcs dst n with
  | error u => exact ⟨fun e => by cases e; exact takeSrcs_only.1 h, fun _ e => (nomatch e)⟩
  | ok u =>
    dsimp only
    split
    · exact ⟨fun e => by cases e; exact fail_only s _ _, fun _ e => (nomatch e)⟩
    · exact ⟨fun e => (nomatch e), fun _ e => by cases e; exact takeSrcs_only.2 _ h⟩

/-- R52, R223. Reading an instruction's operands: in each case only consorts change, and with no port among the sources nothing does. -/
theorem vecRead_only {s t : State} {srcs : List Src} {d : Option (BitVec 7)} {fp : Bool} {accept : List (BitVec 4)} {rawOk : Bool}
    {check : List VReg → Option (Cause × Nat)} :
    (∀ ty vs, s.vecRead srcs d fp accept rawOk check = .ok (t, ty, vs) → OnlyConsorts s t) ∧
    (∀ ty vs, (∀ x ∈ srcs, isPort x.v = false) → s.vecRead srcs d fp accept rawOk check = .ok (t, ty, vs) → t = s) := by
  unfold State.vecRead
  split
  · exact ⟨fun _ _ e => (nomatch e), fun _ _ _ e => (nomatch e)⟩
  · cases h : s.takeSrcs (srcs.map (·.v)) d 1 with
    | error u => exact ⟨fun _ _ e => (nomatch e), fun _ _ _ e => (nomatch e)⟩
    | ok u =>
      dsimp only
      split
      · exact ⟨fun _ _ e => (nomatch e), fun _ _ _ e => (nomatch e)⟩
      · split
        · exact ⟨fun _ _ e => (nomatch e), fun _ _ _ e => (nomatch e)⟩
        · refine ⟨fun _ _ e => ?_, fun _ _ hr e => ?_⟩
          · cases e; exact takeSrcs_only.2 _ h
          · cases e; exact takeSrcs_regs (by simpa using hr) h

/-- R32. What counting the operands comes to. -/
theorem gate_none {s : State} {i : Instr} (f : State → State) (h : s.overCount i = none) : s.gate i f = .next (f s) := by
  simp [State.gate, h]

theorem gate_some {s : State} {i : Instr} {r : Nat} (f : State → State) (h : s.overCount i = some r) :
    s.gate i f = .next (s.failCount r) := by
  simp [State.gate, h]

end Sys2Proof.Machine
end

