-- ==== Sys2Proof/Laws/PerInstr.lean ====
section
/-!
SUPPORT. One lemma per instruction about its encoding: a 16-bit form fits a halfword with bit 0 clear (R53), and a 32-bit member
fits a word with bits [1:0] as R56 has them and a major other than the LIMM's (R75, R77).
-/

namespace Sys2Proof.Laws.EncodedForm

open Sys2Proof

/-- The word an instruction encodes to has the form its shape asks for. -/
def Statement (i : Instr) : Prop :=
  (i.shape = .short → encodeWord i < 65536 ∧ encodeWord i % 2 = 0) ∧
  (i.shape = .word → encodeWord i < 4294967296 ∧ encodeWord i % 2 = 1 ∧ encodeWord i / 2 % 64 ≠ 1)

theorem movShort (d : BitVec 6) (s : BitVec 5) : Statement (.movShort d s) := by
  refine ⟨fun _ => ?_, fun h => absurd h (by intro h; cases h)⟩
  have e : encodeWord (.movShort d s) = 0 + d.toNat * 32 + s.toNat * 2048 := rfl
  rw [e]
  omega
theorem iaddShort (d : BitVec 6) (s : BitVec 5) : Statement (.iaddShort d s) := by
  refine ⟨fun _ => ?_, fun h => absurd h (by intro h; cases h)⟩
  have e : encodeWord (.iaddShort d s) = 2 + d.toNat * 32 + s.toNat * 2048 := rfl
  rw [e]
  omega
theorem isubShort (d : BitVec 6) (s : BitVec 5) : Statement (.isubShort d s) := by
  refine ⟨fun _ => ?_, fun h => absurd h (by intro h; cases h)⟩
  have e : encodeWord (.isubShort d s) = 4 + d.toNat * 32 + s.toNat * 2048 := rfl
  rw [e]
  omega
theorem iandShort (d : BitVec 6) (s : BitVec 5) : Statement (.iandShort d s) := by
  refine ⟨fun _ => ?_, fun h => absurd h (by intro h; cases h)⟩
  have e : encodeWord (.iandShort d s) = 6 + d.toNat * 32 + s.toNat * 2048 := rfl
  rw [e]
  omega
theorem iorShort (d : BitVec 6) (s : BitVec 5) : Statement (.iorShort d s) := by
  refine ⟨fun _ => ?_, fun h => absurd h (by intro h; cases h)⟩
  have e : encodeWord (.iorShort d s) = 8 + d.toNat * 32 + s.toNat * 2048 := rfl
  rw [e]
  omega
theorem ixorShort (d : BitVec 6) (s : BitVec 5) : Statement (.ixorShort d s) := by
  refine ⟨fun _ => ?_, fun h => absurd h (by intro h; cases h)⟩
  have e : encodeWord (.ixorShort d s) = 10 + d.toNat * 32 + s.toNat * 2048 := rfl
  rw [e]
  omega
theorem shlShort (d : BitVec 6) (s : BitVec 5) : Statement (.shlShort d s) := by
  refine ⟨fun _ => ?_, fun h => absurd h (by intro h; cases h)⟩
  have e : encodeWord (.shlShort d s) = 12 + d.toNat * 32 + s.toNat * 2048 := rfl
  rw [e]
  omega
theorem shrlShort (d : BitVec 6) (s : BitVec 5) : Statement (.shrlShort d s) := by
  refine ⟨fun _ => ?_, fun h => absurd h (by intro h; cases h)⟩
  have e : encodeWord (.shrlShort d s) = 14 + d.toNat * 32 + s.toNat * 2048 := rfl
  rw [e]
  omega
theorem shraShort (d : BitVec 6) (s : BitVec 5) : Statement (.shraShort d s) := by
  refine ⟨fun _ => ?_, fun h => absurd h (by intro h; cases h)⟩
  have e : encodeWord (.shraShort d s) = 16 + d.toNat * 32 + s.toNat * 2048 := rfl
  rw [e]
  omega
theorem imulShort (d : BitVec 6) (s : BitVec 5) : Statement (.imulShort d s) := by
  refine ⟨fun _ => ?_, fun h => absurd h (by intro h; cases h)⟩
  have e : encodeWord (.imulShort d s) = 18 + d.toNat * 32 + s.toNat * 2048 := rfl
  rw [e]
  omega
theorem faddShort (d : BitVec 6) (s : BitVec 5) : Statement (.faddShort d s) := by
  refine ⟨fun _ => ?_, fun h => absurd h (by intro h; cases h)⟩
  have e : encodeWord (.faddShort d s) = 20 + d.toNat * 32 + s.toNat * 2048 := rfl
  rw [e]
  omega
theorem fsubShort (d : BitVec 6) (s : BitVec 5) : Statement (.fsubShort d s) := by
  refine ⟨fun _ => ?_, fun h => absurd h (by intro h; cases h)⟩
  have e : encodeWord (.fsubShort d s) = 22 + d.toNat * 32 + s.toNat * 2048 := rfl
  rw [e]
  omega
theorem fmulShort (d : BitVec 6) (s : BitVec 5) : Statement (.fmulShort d s) := by
  refine ⟨fun _ => ?_, fun h => absurd h (by intro h; cases h)⟩
  have e : encodeWord (.fmulShort d s) = 24 + d.toNat * 32 + s.toNat * 2048 := rfl
  rw [e]
  omega
theorem fminShort (d : BitVec 6) (s : BitVec 5) : Statement (.fminShort d s) := by
  refine ⟨fun _ => ?_, fun h => absurd h (by intro h; cases h)⟩
  have e : encodeWord (.fminShort d s) = 26 + d.toNat * 32 + s.toNat * 2048 := rfl
  rw [e]
  omega
theorem fmaxShort (d : BitVec 6) (s : BitVec 5) : Statement (.fmaxShort d s) := by
  refine ⟨fun _ => ?_, fun h => absurd h (by intro h; cases h)⟩
  have e : encodeWord (.fmaxShort d s) = 28 + d.toNat * 32 + s.toNat * 2048 := rfl
  rw [e]
  omega
theorem moviShort (d : BitVec 6) (i : BitVec 5) : Statement (.moviShort d i) := by
  refine ⟨fun _ => ?_, fun h => absurd h (by intro h; cases h)⟩
  have e : encodeWord (.moviShort d i) = 30 + d.toNat * 32 + i.toNat * 2048 := rfl
  rw [e]
  omega
theorem nop : Statement (.nop) := by
  refine ⟨fun h => absurd h (by intro h; cases h), fun _ => ?_⟩
  have e : encodeWord (.nop) = 1 := rfl
  rw [e]
  omega
theorem trap (c : BitVec 6) : Statement (.trap c) := by
  refine ⟨fun h => absurd h (by intro h; cases h), fun _ => ?_⟩
  have e : encodeWord (.trap c) = 33554433 + c.toNat * 524288 := rfl
  rw [e]
  omega
theorem brk (c : BitVec 6) : Statement (.brk c) := by
  refine ⟨fun h => absurd h (by intro h; cases h), fun _ => ?_⟩
  have e : encodeWord (.brk c) = 67108865 + c.toNat * 524288 := rfl
  rw [e]
  omega
theorem yield : Statement (.yield) := by
  refine ⟨fun h => absurd h (by intro h; cases h), fun _ => ?_⟩
  have e : encodeWord (.yield) = 100663297 := rfl
  rw [e]
  omega
theorem rdsr (d : BitVec 6) (n : BitVec 6) : Statement (.rdsr d n) := by
  refine ⟨fun h => absurd h (by intro h; cases h), fun _ => ?_⟩
  have e : encodeWord (.rdsr d n) = 134217729 + d.toNat * 128 + n.toNat * 524288 := rfl
  rw [e]
  omega
theorem wrsr (a : BitVec 6) (n : BitVec 6) : Statement (.wrsr a n) := by
  refine ⟨fun h => absurd h (by intro h; cases h), fun _ => ?_⟩
  have e : encodeWord (.wrsr a n) = 167772161 + a.toNat * 8192 + n.toNat * 524288 := rfl
  rw [e]
  omega
theorem clock (d : BitVec 6) : Statement (.clock d) := by
  refine ⟨fun h => absurd h (by intro h; cases h), fun _ => ?_⟩
  have e : encodeWord (.clock d) = 201326593 + d.toNat * 128 := rfl
  rw [e]
  omega
theorem prbclr : Statement (.prbclr) := by
  refine ⟨fun h => absurd h (by intro h; cases h), fun _ => ?_⟩
  have e : encodeWord (.prbclr) = 234881025 := rfl
  rw [e]
  omega
theorem limm (i : BitVec 25) (fw : BitVec 32) : Statement (.limm i fw) :=
  ⟨fun h => absurd h (by intro h; cases h), fun h => absurd h (by intro h; cases h)⟩
theorem brnz (c : BitVec 7) (o : BitVec 17) (px : Option (BitVec 25)) : Statement (.brnz c o px) := by
  refine ⟨fun h => absurd h (by intro h; cases h), fun _ => ?_⟩
  have e : encodeWord (.brnz c o px) = 5 + c.toNat * 128 + o.toNat * 32768 := rfl
  rw [e]
  omega
theorem brz (c : BitVec 7) (o : BitVec 17) (px : Option (BitVec 25)) : Statement (.brz c o px) := by
  refine ⟨fun h => absurd h (by intro h; cases h), fun _ => ?_⟩
  have e : encodeWord (.brz c o px) = 16389 + c.toNat * 128 + o.toNat * 32768 := rfl
  rw [e]
  omega
theorem jmp (i : BitVec 21) (px : Option (BitVec 25)) : Statement (.jmp i px) := by
  refine ⟨fun h => absurd h (by intro h; cases h), fun _ => ?_⟩
  have e : encodeWord (.jmp i px) = 7 + i.toNat * 2048 := rfl
  rw [e]
  omega
theorem call (i : BitVec 21) (px : Option (BitVec 25)) : Statement (.call i px) := by
  refine ⟨fun h => absurd h (by intro h; cases h), fun _ => ?_⟩
  have e : encodeWord (.call i px) = 135 + i.toNat * 2048 := rfl
  rw [e]
  omega
theorem ret (r : BitVec 7) : Statement (.ret r) := by
  refine ⟨fun h => absurd h (by intro h; cases h), fun _ => ?_⟩
  have e : encodeWord (.ret r) = 263 + r.toNat * 2048 := rfl
  rw [e]
  omega
theorem callx (o : BitVec 16) (e : BitVec 5) : Statement (.callx o e) := by
  refine ⟨fun h => absurd h (by intro h; cases h), fun _ => ?_⟩
  have e : encodeWord (.callx o e) = 391 + o.toNat * 2048 + e.toNat * 134217728 := rfl
  rw [e]
  omega
theorem callxr (r : BitVec 7) : Statement (.callxr r) := by
  refine ⟨fun h => absurd h (by intro h; cases h), fun _ => ?_⟩
  have e : encodeWord (.callxr r) = 519 + r.toNat * 2048 := rfl
  rw [e]
  omega
theorem retx (r : BitVec 7) : Statement (.retx r) := by
  refine ⟨fun h => absurd h (by intro h; cases h), fun _ => ?_⟩
  have e : encodeWord (.retx r) = 647 + r.toNat * 2048 := rfl
  rw [e]
  omega
theorem exit : Statement (.exit) := by
  refine ⟨fun h => absurd h (by intro h; cases h), fun _ => ?_⟩
  have e : encodeWord (.exit) = 775 := rfl
  rw [e]
  omega
theorem nap (n : BitVec 21) : Statement (.nap n) := by
  refine ⟨fun h => absurd h (by intro h; cases h), fun _ => ?_⟩
  have e : encodeWord (.nap n) = 903 + n.toNat * 2048 := rfl
  rw [e]
  omega
theorem join (m : BitVec 4) : Statement (.join m) := by
  refine ⟨fun h => absurd h (by intro h; cases h), fun _ => ?_⟩
  have e : encodeWord (.join m) = 9 + m.toNat * 2048 := rfl
  rw [e]
  omega
theorem leave (m : BitVec 4) : Statement (.leave m) := by
  refine ⟨fun h => absurd h (by intro h; cases h), fun _ => ?_⟩
  have e : encodeWord (.leave m) = 137 + m.toNat * 2048 := rfl
  rw [e]
  omega
theorem waitm (m : BitVec 4) : Statement (.waitm m) := by
  refine ⟨fun h => absurd h (by intro h; cases h), fun _ => ?_⟩
  have e : encodeWord (.waitm m) = 265 + m.toNat * 2048 := rfl
  rw [e]
  omega
theorem mmov (m : BitVec 4) (s : BitVec 10) (px : Option (BitVec 25)) : Statement (.mmov m s px) := by
  refine ⟨fun h => absurd h (by intro h; cases h), fun _ => ?_⟩
  have e : encodeWord (.mmov m s px) = 393 + m.toNat * 2048 + s.toNat * 4194304 := rfl
  rw [e]
  omega
theorem mread (m : BitVec 4) (v : BitVec 7) : Statement (.mread m v) := by
  refine ⟨fun h => absurd h (by intro h; cases h), fun _ => ?_⟩
  have e : encodeWord (.mread m v) = 521 + m.toNat * 2048 + v.toNat * 32768 := rfl
  rw [e]
  omega
theorem mwrite (m : BitVec 4) (v : BitVec 7) : Statement (.mwrite m v) := by
  refine ⟨fun h => absurd h (by intro h; cases h), fun _ => ?_⟩
  have e : encodeWord (.mwrite m v) = 649 + m.toNat * 2048 + v.toNat * 32768 := rfl
  rw [e]
  omega
theorem mcount (m : BitVec 4) (v : BitVec 7) : Statement (.mcount m v) := by
  refine ⟨fun h => absurd h (by intro h; cases h), fun _ => ?_⟩
  have e : encodeWord (.mcount m v) = 777 + m.toNat * 2048 + v.toNat * 32768 := rfl
  rw [e]
  omega
theorem waitc (l : BitVec 5) (s : BitVec 4) (c : BitVec 4) (t : BitVec 4) (k : BitVec 8) : Statement (.waitc l s c t k) := by
  refine ⟨fun h => absurd h (by intro h; cases h), fun _ => ?_⟩
  have e : encodeWord (.waitc l s c t k) = 11 + l.toNat * 128 + s.toNat * 4096 + c.toNat * 65536 + t.toNat * 1048576 + k.toNat * 16777216 := rfl
  rw [e]
  omega
theorem sadd (d : BitVec 6) (a : BitVec 6) (b : BitVec 6) : Statement (.sadd d a b) := by
  refine ⟨fun h => absurd h (by intro h; cases h), fun _ => ?_⟩
  have e : encodeWord (.sadd d a b) = 13 + d.toNat * 128 + a.toNat * 8192 + b.toNat * 524288 := rfl
  rw [e]
  omega
theorem ssub (d : BitVec 6) (a : BitVec 6) (b : BitVec 6) : Statement (.ssub d a b) := by
  refine ⟨fun h => absurd h (by intro h; cases h), fun _ => ?_⟩
  have e : encodeWord (.ssub d a b) = 33554445 + d.toNat * 128 + a.toNat * 8192 + b.toNat * 524288 := rfl
  rw [e]
  omega
theorem smul (d : BitVec 6) (a : BitVec 6) (b : BitVec 6) : Statement (.smul d a b) := by
  refine ⟨fun h => absurd h (by intro h; cases h), fun _ => ?_⟩
  have e : encodeWord (.smul d a b) = 67108877 + d.toNat * 128 + a.toNat * 8192 + b.toNat * 524288 := rfl
  rw [e]
  omega
theorem sand (d : BitVec 6) (a : BitVec 6) (b : BitVec 6) : Statement (.sand d a b) := by
  refine ⟨fun h => absurd h (by intro h; cases h), fun _ => ?_⟩
  have e : encodeWord (.sand d a b) = 100663309 + d.toNat * 128 + a.toNat * 8192 + b.toNat * 524288 := rfl
  rw [e]
  omega
theorem sor (d : BitVec 6) (a : BitVec 6) (b : BitVec 6) : Statement (.sor d a b) := by
  refine ⟨fun h => absurd h (by intro h; cases h), fun _ => ?_⟩
  have e : encodeWord (.sor d a b) = 134217741 + d.toNat * 128 + a.toNat * 8192 + b.toNat * 524288 := rfl
  rw [e]
  omega
theorem sxor (d : BitVec 6) (a : BitVec 6) (b : BitVec 6) : Statement (.sxor d a b) := by
  refine ⟨fun h => absurd h (by intro h; cases h), fun _ => ?_⟩
  have e : encodeWord (.sxor d a b) = 167772173 + d.toNat * 128 + a.toNat * 8192 + b.toNat * 524288 := rfl
  rw [e]
  omega
theorem sshl (d : BitVec 6) (a : BitVec 6) (b : BitVec 6) : Statement (.sshl d a b) := by
  refine ⟨fun h => absurd h (by intro h; cases h), fun _ => ?_⟩
  have e : encodeWord (.sshl d a b) = 201326605 + d.toNat * 128 + a.toNat * 8192 + b.toNat * 524288 := rfl
  rw [e]
  omega
theorem sshrl (d : BitVec 6) (a : BitVec 6) (b : BitVec 6) : Statement (.sshrl d a b) := by
  refine ⟨fun h => absurd h (by intro h; cases h), fun _ => ?_⟩
  have e : encodeWord (.sshrl d a b) = 234881037 + d.toNat * 128 + a.toNat * 8192 + b.toNat * 524288 := rfl
  rw [e]
  omega
theorem sshra (d : BitVec 6) (a : BitVec 6) (b : BitVec 6) : Statement (.sshra d a b) := by
  refine ⟨fun h => absurd h (by intro h; cases h), fun _ => ?_⟩
  have e : encodeWord (.sshra d a b) = 268435469 + d.toNat * 128 + a.toNat * 8192 + b.toNat * 524288 := rfl
  rw [e]
  omega
theorem smin (d : BitVec 6) (a : BitVec 6) (b : BitVec 6) : Statement (.smin d a b) := by
  refine ⟨fun h => absurd h (by intro h; cases h), fun _ => ?_⟩
  have e : encodeWord (.smin d a b) = 301989901 + d.toNat * 128 + a.toNat * 8192 + b.toNat * 524288 := rfl
  rw [e]
  omega
theorem smax (d : BitVec 6) (a : BitVec 6) (b : BitVec 6) : Statement (.smax d a b) := by
  refine ⟨fun h => absurd h (by intro h; cases h), fun _ => ?_⟩
  have e : encodeWord (.smax d a b) = 335544333 + d.toNat * 128 + a.toNat * 8192 + b.toNat * 524288 := rfl
  rw [e]
  omega
theorem snmin (d : BitVec 6) (a : BitVec 6) (b : BitVec 6) : Statement (.snmin d a b) := by
  refine ⟨fun h => absurd h (by intro h; cases h), fun _ => ?_⟩
  have e : encodeWord (.snmin d a b) = 369098765 + d.toNat * 128 + a.toNat * 8192 + b.toNat * 524288 := rfl
  rw [e]
  omega
theorem snmax (d : BitVec 6) (a : BitVec 6) (b : BitVec 6) : Statement (.snmax d a b) := by
  refine ⟨fun h => absurd h (by intro h; cases h), fun _ => ?_⟩
  have e : encodeWord (.snmax d a b) = 402653197 + d.toNat * 128 + a.toNat * 8192 + b.toNat * 524288 := rfl
  rw [e]
  omega
theorem scmpeq (d : BitVec 6) (a : BitVec 6) (b : BitVec 6) : Statement (.scmpeq d a b) := by
  refine ⟨fun h => absurd h (by intro h; cases h), fun _ => ?_⟩
  have e : encodeWord (.scmpeq d a b) = 436207629 + d.toNat * 128 + a.toNat * 8192 + b.toNat * 524288 := rfl
  rw [e]
  omega
theorem scmplt (d : BitVec 6) (a : BitVec 6) (b : BitVec 6) : Statement (.scmplt d a b) := by
  refine ⟨fun h => absurd h (by intro h; cases h), fun _ => ?_⟩
  have e : encodeWord (.scmplt d a b) = 469762061 + d.toNat * 128 + a.toNat * 8192 + b.toNat * 524288 := rfl
  rw [e]
  omega
theorem scmpnlt (d : BitVec 6) (a : BitVec 6) (b : BitVec 6) : Statement (.scmpnlt d a b) := by
  refine ⟨fun h => absurd h (by intro h; cases h), fun _ => ?_⟩
  have e : encodeWord (.scmpnlt d a b) = 503316493 + d.toNat * 128 + a.toNat * 8192 + b.toNat * 524288 := rfl
  rw [e]
  omega
theorem ssel (d : BitVec 6) (a : BitVec 6) (b : BitVec 6) : Statement (.ssel d a b) := by
  refine ⟨fun h => absurd h (by intro h; cases h), fun _ => ?_⟩
  have e : encodeWord (.ssel d a b) = 536870925 + d.toNat * 128 + a.toNat * 8192 + b.toNat * 524288 := rfl
  rw [e]
  omega
theorem saddi (d : BitVec 6) (a : BitVec 6) (i : BitVec 10) (px : Option (BitVec 25)) : Statement (.saddi d a i px) := by
  refine ⟨fun h => absurd h (by intro h; cases h), fun _ => ?_⟩
  have e : encodeWord (.saddi d a i px) = 15 + d.toNat * 128 + a.toNat * 8192 + i.toNat * 4194304 := rfl
  rw [e]
  omega
theorem sandi (d : BitVec 6) (a : BitVec 6) (i : BitVec 10) (px : Option (BitVec 25)) : Statement (.sandi d a i px) := by
  refine ⟨fun h => absurd h (by intro h; cases h), fun _ => ?_⟩
  have e : encodeWord (.sandi d a i px) = 524303 + d.toNat * 128 + a.toNat * 8192 + i.toNat * 4194304 := rfl
  rw [e]
  omega
theorem sori (d : BitVec 6) (a : BitVec 6) (i : BitVec 10) (px : Option (BitVec 25)) : Statement (.sori d a i px) := by
  refine ⟨fun h => absurd h (by intro h; cases h), fun _ => ?_⟩
  have e : encodeWord (.sori d a i px) = 1048591 + d.toNat * 128 + a.toNat * 8192 + i.toNat * 4194304 := rfl
  rw [e]
  omega
theorem sxori (d : BitVec 6) (a : BitVec 6) (i : BitVec 10) (px : Option (BitVec 25)) : Statement (.sxori d a i px) := by
  refine ⟨fun h => absurd h (by intro h; cases h), fun _ => ?_⟩
  have e : encodeWord (.sxori d a i px) = 1572879 + d.toNat * 128 + a.toNat * 8192 + i.toNat * 4194304 := rfl
  rw [e]
  omega
theorem sshli (d : BitVec 6) (a : BitVec 6) (i : BitVec 10) (px : Option (BitVec 25)) : Statement (.sshli d a i px) := by
  refine ⟨fun h => absurd h (by intro h; cases h), fun _ => ?_⟩
  have e : encodeWord (.sshli d a i px) = 2097167 + d.toNat * 128 + a.toNat * 8192 + i.toNat * 4194304 := rfl
  rw [e]
  omega
theorem sshrli (d : BitVec 6) (a : BitVec 6) (i : BitVec 10) (px : Option (BitVec 25)) : Statement (.sshrli d a i px) := by
  refine ⟨fun h => absurd h (by intro h; cases h), fun _ => ?_⟩
  have e : encodeWord (.sshrli d a i px) = 2621455 + d.toNat * 128 + a.toNat * 8192 + i.toNat * 4194304 := rfl
  rw [e]
  omega
theorem smovi (d : BitVec 6) (i : BitVec 10) (px : Option (BitVec 25)) : Statement (.smovi d i px) := by
  refine ⟨fun h => absurd h (by intro h; cases h), fun _ => ?_⟩
  have e : encodeWord (.smovi d i px) = 3145743 + d.toNat * 128 + i.toNat * 4194304 := rfl
  rw [e]
  omega
theorem scmpeqi (d : BitVec 6) (a : BitVec 6) (i : BitVec 10) (px : Option (BitVec 25)) : Statement (.scmpeqi d a i px) := by
  refine ⟨fun h => absurd h (by intro h; cases h), fun _ => ?_⟩
  have e : encodeWord (.scmpeqi d a i px) = 3670031 + d.toNat * 128 + a.toNat * 8192 + i.toNat * 4194304 := rfl
  rw [e]
  omega
theorem sld (d : BitVec 6) (a : BitVec 6) (i : BitVec 10) (px : Option (BitVec 25)) : Statement (.sld d a i px) := by
  refine ⟨fun h => absurd h (by intro h; cases h), fun _ => ?_⟩
  have e : encodeWord (.sld d a i px) = 17 + d.toNat * 128 + a.toNat * 8192 + i.toNat * 4194304 := rfl
  rw [e]
  omega
theorem sst (d : BitVec 6) (a : BitVec 6) (i : BitVec 10) (px : Option (BitVec 25)) : Statement (.sst d a i px) := by
  refine ⟨fun h => absurd h (by intro h; cases h), fun _ => ?_⟩
  have e : encodeWord (.sst d a i px) = 524305 + d.toNat * 128 + a.toNat * 8192 + i.toNat * 4194304 := rfl
  rw [e]
  omega
theorem sldw (d : BitVec 6) (a : BitVec 6) (i : BitVec 10) (px : Option (BitVec 25)) : Statement (.sldw d a i px) := by
  refine ⟨fun h => absurd h (by intro h; cases h), fun _ => ?_⟩
  have e : encodeWord (.sldw d a i px) = 1048593 + d.toNat * 128 + a.toNat * 8192 + i.toNat * 4194304 := rfl
  rw [e]
  omega
theorem sstw (d : BitVec 6) (a : BitVec 6) (i : BitVec 10) (px : Option (BitVec 25)) : Statement (.sstw d a i px) := by
  refine ⟨fun h => absurd h (by intro h; cases h), fun _ => ?_⟩
  have e : encodeWord (.sstw d a i px) = 1572881 + d.toNat * 128 + a.toNat * 8192 + i.toNat * 4194304 := rfl
  rw [e]
  omega
theorem iadd (d : BitVec 7) (a : BitVec 7) (b : BitVec 7) : Statement (.iadd d a b) := by
  refine ⟨fun h => absurd h (by intro h; cases h), fun _ => ?_⟩
  have e : encodeWord (.iadd d a b) = 19 + d.toNat * 128 + a.toNat * 16384 + b.toNat * 2097152 := rfl
  rw [e]
  omega
theorem isub (d : BitVec 7) (a : BitVec 7) (b : BitVec 7) : Statement (.isub d a b) := by
  refine ⟨fun h => absurd h (by intro h; cases h), fun _ => ?_⟩
  have e : encodeWord (.isub d a b) = 268435475 + d.toNat * 128 + a.toNat * 16384 + b.toNat * 2097152 := rfl
  rw [e]
  omega
theorem iand (d : BitVec 7) (a : BitVec 7) (b : BitVec 7) : Statement (.iand d a b) := by
  refine ⟨fun h => absurd h (by intro h; cases h), fun _ => ?_⟩
  have e : encodeWord (.iand d a b) = 536870931 + d.toNat * 128 + a.toNat * 16384 + b.toNat * 2097152 := rfl
  rw [e]
  omega
theorem ior (d : BitVec 7) (a : BitVec 7) (b : BitVec 7) : Statement (.ior d a b) := by
  refine ⟨fun h => absurd h (by intro h; cases h), fun _ => ?_⟩
  have e : encodeWord (.ior d a b) = 805306387 + d.toNat * 128 + a.toNat * 16384 + b.toNat * 2097152 := rfl
  rw [e]
  omega
theorem ixor (d : BitVec 7) (a : BitVec 7) (b : BitVec 7) : Statement (.ixor d a b) := by
  refine ⟨fun h => absurd h (by intro h; cases h), fun _ => ?_⟩
  have e : encodeWord (.ixor d a b) = 1073741843 + d.toNat * 128 + a.toNat * 16384 + b.toNat * 2097152 := rfl
  rw [e]
  omega
theorem andn (d : BitVec 7) (a : BitVec 7) (b : BitVec 7) : Statement (.andn d a b) := by
  refine ⟨fun h => absurd h (by intro h; cases h), fun _ => ?_⟩
  have e : encodeWord (.andn d a b) = 1342177299 + d.toNat * 128 + a.toNat * 16384 + b.toNat * 2097152 := rfl
  rw [e]
  omega
theorem shl (d : BitVec 7) (a : BitVec 7) (b : BitVec 7) : Statement (.shl d a b) := by
  refine ⟨fun h => absurd h (by intro h; cases h), fun _ => ?_⟩
  have e : encodeWord (.shl d a b) = 1610612755 + d.toNat * 128 + a.toNat * 16384 + b.toNat * 2097152 := rfl
  rw [e]
  omega
theorem shrl (d : BitVec 7) (a : BitVec 7) (b : BitVec 7) : Statement (.shrl d a b) := by
  refine ⟨fun h => absurd h (by intro h; cases h), fun _ => ?_⟩
  have e : encodeWord (.shrl d a b) = 1879048211 + d.toNat * 128 + a.toNat * 16384 + b.toNat * 2097152 := rfl
  rw [e]
  omega
theorem shra (d : BitVec 7) (a : BitVec 7) (b : BitVec 7) : Statement (.shra d a b) := by
  refine ⟨fun h => absurd h (by intro h; cases h), fun _ => ?_⟩
  have e : encodeWord (.shra d a b) = 2147483667 + d.toNat * 128 + a.toNat * 16384 + b.toNat * 2097152 := rfl
  rw [e]
  omega
theorem imin (d : BitVec 7) (a : BitVec 7) (b : BitVec 7) : Statement (.imin d a b) := by
  refine ⟨fun h => absurd h (by intro h; cases h), fun _ => ?_⟩
  have e : encodeWord (.imin d a b) = 2415919123 + d.toNat * 128 + a.toNat * 16384 + b.toNat * 2097152 := rfl
  rw [e]
  omega
theorem imax (d : BitVec 7) (a : BitVec 7) (b : BitVec 7) : Statement (.imax d a b) := by
  refine ⟨fun h => absurd h (by intro h; cases h), fun _ => ?_⟩
  have e : encodeWord (.imax d a b) = 2684354579 + d.toNat * 128 + a.toNat * 16384 + b.toNat * 2097152 := rfl
  rw [e]
  omega
theorem nmin (d : BitVec 7) (a : BitVec 7) (b : BitVec 7) : Statement (.nmin d a b) := by
  refine ⟨fun h => absurd h (by intro h; cases h), fun _ => ?_⟩
  have e : encodeWord (.nmin d a b) = 2952790035 + d.toNat * 128 + a.toNat * 16384 + b.toNat * 2097152 := rfl
  rw [e]
  omega
theorem nmax (d : BitVec 7) (a : BitVec 7) (b : BitVec 7) : Statement (.nmax d a b) := by
  refine ⟨fun h => absurd h (by intro h; cases h), fun _ => ?_⟩
  have e : encodeWord (.nmax d a b) = 3221225491 + d.toNat * 128 + a.toNat * 16384 + b.toNat * 2097152 := rfl
  rw [e]
  omega
theorem iabs (d : BitVec 7) (a : BitVec 7) : Statement (.iabs d a) := by
  refine ⟨fun h => absurd h (by intro h; cases h), fun _ => ?_⟩
  have e : encodeWord (.iabs d a) = 3489660947 + d.toNat * 128 + a.toNat * 16384 := rfl
  rw [e]
  omega
theorem ineg (d : BitVec 7) (a : BitVec 7) : Statement (.ineg d a) := by
  refine ⟨fun h => absurd h (by intro h; cases h), fun _ => ?_⟩
  have e : encodeWord (.ineg d a) = 3758096403 + d.toNat * 128 + a.toNat * 16384 := rfl
  rw [e]
  omega
theorem mov (d : BitVec 7) (a : BitVec 7) : Statement (.mov d a) := by
  refine ⟨fun h => absurd h (by intro h; cases h), fun _ => ?_⟩
  have e : encodeWord (.mov d a) = 4026531859 + d.toNat * 128 + a.toNat * 16384 := rfl
  rw [e]
  omega
theorem imul (d : BitVec 7) (a : BitVec 7) (b : BitVec 7) : Statement (.imul d a b) := by
  refine ⟨fun h => absurd h (by intro h; cases h), fun _ => ?_⟩
  have e : encodeWord (.imul d a b) = 21 + d.toNat * 128 + a.toNat * 16384 + b.toNat * 2097152 := rfl
  rw [e]
  omega
theorem imulhi (d : BitVec 7) (a : BitVec 7) (b : BitVec 7) : Statement (.imulhi d a b) := by
  refine ⟨fun h => absurd h (by intro h; cases h), fun _ => ?_⟩
  have e : encodeWord (.imulhi d a b) = 268435477 + d.toNat * 128 + a.toNat * 16384 + b.toNat * 2097152 := rfl
  rw [e]
  omega
theorem nmulhi (d : BitVec 7) (a : BitVec 7) (b : BitVec 7) : Statement (.nmulhi d a b) := by
  refine ⟨fun h => absurd h (by intro h; cases h), fun _ => ?_⟩
  have e : encodeWord (.nmulhi d a b) = 536870933 + d.toNat * 128 + a.toNat * 16384 + b.toNat * 2097152 := rfl
  rw [e]
  omega
theorem imad (d : BitVec 7) (a : BitVec 7) (b : BitVec 7) : Statement (.imad d a b) := by
  refine ⟨fun h => absurd h (by intro h; cases h), fun _ => ?_⟩
  have e : encodeWord (.imad d a b) = 805306389 + d.toNat * 128 + a.toNat * 16384 + b.toNat * 2097152 := rfl
  rw [e]
  omega
theorem popc (d : BitVec 7) (a : BitVec 7) : Statement (.popc d a) := by
  refine ⟨fun h => absurd h (by intro h; cases h), fun _ => ?_⟩
  have e : encodeWord (.popc d a) = 1073741845 + d.toNat * 128 + a.toNat * 16384 := rfl
  rw [e]
  omega
theorem clz (d : BitVec 7) (a : BitVec 7) : Statement (.clz d a) := by
  refine ⟨fun h => absurd h (by intro h; cases h), fun _ => ?_⟩
  have e : encodeWord (.clz d a) = 1342177301 + d.toNat * 128 + a.toNat * 16384 := rfl
  rw [e]
  omega
theorem brev (d : BitVec 7) (a : BitVec 7) : Statement (.brev d a) := by
  refine ⟨fun h => absurd h (by intro h; cases h), fun _ => ?_⟩
  have e : encodeWord (.brev d a) = 1610612757 + d.toNat * 128 + a.toNat * 16384 := rfl
  rw [e]
  omega
theorem iaddsat (d : BitVec 7) (a : BitVec 7) (b : BitVec 7) : Statement (.iaddsat d a b) := by
  refine ⟨fun h => absurd h (by intro h; cases h), fun _ => ?_⟩
  have e : encodeWord (.iaddsat d a b) = 1879048213 + d.toNat * 128 + a.toNat * 16384 + b.toNat * 2097152 := rfl
  rw [e]
  omega
theorem iaddi (d : BitVec 7) (a : BitVec 7) (i : BitVec 8) (px : Option (BitVec 25)) : Statement (.iaddi d a i px) := by
  refine ⟨fun h => absurd h (by intro h; cases h), fun _ => ?_⟩
  have e : encodeWord (.iaddi d a i px) = 23 + d.toNat * 128 + a.toNat * 16384 + i.toNat * 16777216 := rfl
  rw [e]
  omega
theorem andi (d : BitVec 7) (a : BitVec 7) (i : BitVec 8) (px : Option (BitVec 25)) : Statement (.andi d a i px) := by
  refine ⟨fun h => absurd h (by intro h; cases h), fun _ => ?_⟩
  have e : encodeWord (.andi d a i px) = 2097175 + d.toNat * 128 + a.toNat * 16384 + i.toNat * 16777216 := rfl
  rw [e]
  omega
theorem ori (d : BitVec 7) (a : BitVec 7) (i : BitVec 8) (px : Option (BitVec 25)) : Statement (.ori d a i px) := by
  refine ⟨fun h => absurd h (by intro h; cases h), fun _ => ?_⟩
  have e : encodeWord (.ori d a i px) = 4194327 + d.toNat * 128 + a.toNat * 16384 + i.toNat * 16777216 := rfl
  rw [e]
  omega
theorem xori (d : BitVec 7) (a : BitVec 7) (i : BitVec 8) (px : Option (BitVec 25)) : Statement (.xori d a i px) := by
  refine ⟨fun h => absurd h (by intro h; cases h), fun _ => ?_⟩
  have e : encodeWord (.xori d a i px) = 6291479 + d.toNat * 128 + a.toNat * 16384 + i.toNat * 16777216 := rfl
  rw [e]
  omega
theorem shli (d : BitVec 7) (a : BitVec 7) (i : BitVec 8) (px : Option (BitVec 25)) : Statement (.shli d a i px) := by
  refine ⟨fun h => absurd h (by intro h; cases h), fun _ => ?_⟩
  have e : encodeWord (.shli d a i px) = 8388631 + d.toNat * 128 + a.toNat * 16384 + i.toNat * 16777216 := rfl
  rw [e]
  omega
theorem shrli (d : BitVec 7) (a : BitVec 7) (i : BitVec 8) (px : Option (BitVec 25)) : Statement (.shrli d a i px) := by
  refine ⟨fun h => absurd h (by intro h; cases h), fun _ => ?_⟩
  have e : encodeWord (.shrli d a i px) = 10485783 + d.toNat * 128 + a.toNat * 16384 + i.toNat * 16777216 := rfl
  rw [e]
  omega
theorem shrai (d : BitVec 7) (a : BitVec 7) (i : BitVec 8) (px : Option (BitVec 25)) : Statement (.shrai d a i px) := by
  refine ⟨fun h => absurd h (by intro h; cases h), fun _ => ?_⟩
  have e : encodeWord (.shrai d a i px) = 12582935 + d.toNat * 128 + a.toNat * 16384 + i.toNat * 16777216 := rfl
  rw [e]
  omega
theorem movi (d : BitVec 7) (t : BitVec 4) (i : BitVec 8) (px : Option (BitVec 25)) : Statement (.movi d t i px) := by
  refine ⟨fun h => absurd h (by intro h; cases h), fun _ => ?_⟩
  have e : encodeWord (.movi d t i px) = 14680087 + d.toNat * 128 + t.toNat * 16384 + i.toNat * 16777216 := rfl
  rw [e]
  omega
theorem ialusIadd (d : BitVec 7) (a : BitVec 7) (s : BitVec 6) : Statement (.ialusIadd d a s) := by
  refine ⟨fun h => absurd h (by intro h; cases h), fun _ => ?_⟩
  have e : encodeWord (.ialusIadd d a s) = 25 + d.toNat * 128 + a.toNat * 16384 + s.toNat * 2097152 := rfl
  rw [e]
  omega
theorem ialusIsub (d : BitVec 7) (a : BitVec 7) (s : BitVec 6) : Statement (.ialusIsub d a s) := by
  refine ⟨fun h => absurd h (by intro h; cases h), fun _ => ?_⟩
  have e : encodeWord (.ialusIsub d a s) = 134217753 + d.toNat * 128 + a.toNat * 16384 + s.toNat * 2097152 := rfl
  rw [e]
  omega
theorem ialusAnd (d : BitVec 7) (a : BitVec 7) (s : BitVec 6) : Statement (.ialusAnd d a s) := by
  refine ⟨fun h => absurd h (by intro h; cases h), fun _ => ?_⟩
  have e : encodeWord (.ialusAnd d a s) = 268435481 + d.toNat * 128 + a.toNat * 16384 + s.toNat * 2097152 := rfl
  rw [e]
  omega
theorem ialusOr (d : BitVec 7) (a : BitVec 7) (s : BitVec 6) : Statement (.ialusOr d a s) := by
  refine ⟨fun h => absurd h (by intro h; cases h), fun _ => ?_⟩
  have e : encodeWord (.ialusOr d a s) = 402653209 + d.toNat * 128 + a.toNat * 16384 + s.toNat * 2097152 := rfl
  rw [e]
  omega
theorem ialusXor (d : BitVec 7) (a : BitVec 7) (s : BitVec 6) : Statement (.ialusXor d a s) := by
  refine ⟨fun h => absurd h (by intro h; cases h), fun _ => ?_⟩
  have e : encodeWord (.ialusXor d a s) = 536870937 + d.toNat * 128 + a.toNat * 16384 + s.toNat * 2097152 := rfl
  rw [e]
  omega
theorem ialusAndn (d : BitVec 7) (a : BitVec 7) (s : BitVec 6) : Statement (.ialusAndn d a s) := by
  refine ⟨fun h => absurd h (by intro h; cases h), fun _ => ?_⟩
  have e : encodeWord (.ialusAndn d a s) = 671088665 + d.toNat * 128 + a.toNat * 16384 + s.toNat * 2097152 := rfl
  rw [e]
  omega
theorem ialusShl (d : BitVec 7) (a : BitVec 7) (s : BitVec 6) : Statement (.ialusShl d a s) := by
  refine ⟨fun h => absurd h (by intro h; cases h), fun _ => ?_⟩
  have e : encodeWord (.ialusShl d a s) = 805306393 + d.toNat * 128 + a.toNat * 16384 + s.toNat * 2097152 := rfl
  rw [e]
  omega
theorem ialusShrl (d : BitVec 7) (a : BitVec 7) (s : BitVec 6) : Statement (.ialusShrl d a s) := by
  refine ⟨fun h => absurd h (by intro h; cases h), fun _ => ?_⟩
  have e : encodeWord (.ialusShrl d a s) = 939524121 + d.toNat * 128 + a.toNat * 16384 + s.toNat * 2097152 := rfl
  rw [e]
  omega
theorem ialusShra (d : BitVec 7) (a : BitVec 7) (s : BitVec 6) : Statement (.ialusShra d a s) := by
  refine ⟨fun h => absurd h (by intro h; cases h), fun _ => ?_⟩
  have e : encodeWord (.ialusShra d a s) = 1073741849 + d.toNat * 128 + a.toNat * 16384 + s.toNat * 2097152 := rfl
  rw [e]
  omega
theorem ialusImin (d : BitVec 7) (a : BitVec 7) (s : BitVec 6) : Statement (.ialusImin d a s) := by
  refine ⟨fun h => absurd h (by intro h; cases h), fun _ => ?_⟩
  have e : encodeWord (.ialusImin d a s) = 1207959577 + d.toNat * 128 + a.toNat * 16384 + s.toNat * 2097152 := rfl
  rw [e]
  omega
theorem ialusImax (d : BitVec 7) (a : BitVec 7) (s : BitVec 6) : Statement (.ialusImax d a s) := by
  refine ⟨fun h => absurd h (by intro h; cases h), fun _ => ?_⟩
  have e : encodeWord (.ialusImax d a s) = 1342177305 + d.toNat * 128 + a.toNat * 16384 + s.toNat * 2097152 := rfl
  rw [e]
  omega
theorem ialusNmin (d : BitVec 7) (a : BitVec 7) (s : BitVec 6) : Statement (.ialusNmin d a s) := by
  refine ⟨fun h => absurd h (by intro h; cases h), fun _ => ?_⟩
  have e : encodeWord (.ialusNmin d a s) = 1476395033 + d.toNat * 128 + a.toNat * 16384 + s.toNat * 2097152 := rfl
  rw [e]
  omega
theorem ialusNmax (d : BitVec 7) (a : BitVec 7) (s : BitVec 6) : Statement (.ialusNmax d a s) := by
  refine ⟨fun h => absurd h (by intro h; cases h), fun _ => ?_⟩
  have e : encodeWord (.ialusNmax d a s) = 1610612761 + d.toNat * 128 + a.toNat * 16384 + s.toNat * 2097152 := rfl
  rw [e]
  omega
theorem ialusIabs (d : BitVec 7) (a : BitVec 7) : Statement (.ialusIabs d a) := by
  refine ⟨fun h => absurd h (by intro h; cases h), fun _ => ?_⟩
  have e : encodeWord (.ialusIabs d a) = 1744830489 + d.toNat * 128 + a.toNat * 16384 := rfl
  rw [e]
  omega
theorem icmpEq (d : BitVec 7) (a : BitVec 7) (b : BitVec 7) : Statement (.icmpEq d a b) := by
  refine ⟨fun h => absurd h (by intro h; cases h), fun _ => ?_⟩
  have e : encodeWord (.icmpEq d a b) = 27 + d.toNat * 128 + a.toNat * 16384 + b.toNat * 2097152 := rfl
  rw [e]
  omega
theorem icmpNe (d : BitVec 7) (a : BitVec 7) (b : BitVec 7) : Statement (.icmpNe d a b) := by
  refine ⟨fun h => absurd h (by intro h; cases h), fun _ => ?_⟩
  have e : encodeWord (.icmpNe d a b) = 268435483 + d.toNat * 128 + a.toNat * 16384 + b.toNat * 2097152 := rfl
  rw [e]
  omega
theorem icmpLt (d : BitVec 7) (a : BitVec 7) (b : BitVec 7) : Statement (.icmpLt d a b) := by
  refine ⟨fun h => absurd h (by intro h; cases h), fun _ => ?_⟩
  have e : encodeWord (.icmpLt d a b) = 536870939 + d.toNat * 128 + a.toNat * 16384 + b.toNat * 2097152 := rfl
  rw [e]
  omega
theorem icmpLe (d : BitVec 7) (a : BitVec 7) (b : BitVec 7) : Statement (.icmpLe d a b) := by
  refine ⟨fun h => absurd h (by intro h; cases h), fun _ => ?_⟩
  have e : encodeWord (.icmpLe d a b) = 805306395 + d.toNat * 128 + a.toNat * 16384 + b.toNat * 2097152 := rfl
  rw [e]
  omega
theorem icmpGt (d : BitVec 7) (a : BitVec 7) (b : BitVec 7) : Statement (.icmpGt d a b) := by
  refine ⟨fun h => absurd h (by intro h; cases h), fun _ => ?_⟩
  have e : encodeWord (.icmpGt d a b) = 1073741851 + d.toNat * 128 + a.toNat * 16384 + b.toNat * 2097152 := rfl
  rw [e]
  omega
theorem icmpGe (d : BitVec 7) (a : BitVec 7) (b : BitVec 7) : Statement (.icmpGe d a b) := by
  refine ⟨fun h => absurd h (by intro h; cases h), fun _ => ?_⟩
  have e : encodeWord (.icmpGe d a b) = 1342177307 + d.toNat * 128 + a.toNat * 16384 + b.toNat * 2097152 := rfl
  rw [e]
  omega
theorem icmpNlt (d : BitVec 7) (a : BitVec 7) (b : BitVec 7) : Statement (.icmpNlt d a b) := by
  refine ⟨fun h => absurd h (by intro h; cases h), fun _ => ?_⟩
  have e : encodeWord (.icmpNlt d a b) = 1610612763 + d.toNat * 128 + a.toNat * 16384 + b.toNat * 2097152 := rfl
  rw [e]
  omega
theorem icmpNle (d : BitVec 7) (a : BitVec 7) (b : BitVec 7) : Statement (.icmpNle d a b) := by
  refine ⟨fun h => absurd h (by intro h; cases h), fun _ => ?_⟩
  have e : encodeWord (.icmpNle d a b) = 1879048219 + d.toNat * 128 + a.toNat * 16384 + b.toNat * 2097152 := rfl
  rw [e]
  omega
theorem icmpNgt (d : BitVec 7) (a : BitVec 7) (b : BitVec 7) : Statement (.icmpNgt d a b) := by
  refine ⟨fun h => absurd h (by intro h; cases h), fun _ => ?_⟩
  have e : encodeWord (.icmpNgt d a b) = 2147483675 + d.toNat * 128 + a.toNat * 16384 + b.toNat * 2097152 := rfl
  rw [e]
  omega
theorem icmpNge (d : BitVec 7) (a : BitVec 7) (b : BitVec 7) : Statement (.icmpNge d a b) := by
  refine ⟨fun h => absurd h (by intro h; cases h), fun _ => ?_⟩
  have e : encodeWord (.icmpNge d a b) = 2415919131 + d.toNat * 128 + a.toNat * 16384 + b.toNat * 2097152 := rfl
  rw [e]
  omega
theorem sel (d : BitVec 7) (a : BitVec 7) (b : BitVec 7) : Statement (.sel d a b) := by
  refine ⟨fun h => absurd h (by intro h; cases h), fun _ => ?_⟩
  have e : encodeWord (.sel d a b) = 2684354587 + d.toNat * 128 + a.toNat * 16384 + b.toNat * 2097152 := rfl
  rw [e]
  omega
theorem fadd (d : BitVec 7) (a : BitVec 7) (b : BitVec 7) : Statement (.fadd d a b) := by
  refine ⟨fun h => absurd h (by intro h; cases h), fun _ => ?_⟩
  have e : encodeWord (.fadd d a b) = 29 + d.toNat * 128 + a.toNat * 16384 + b.toNat * 2097152 := rfl
  rw [e]
  omega
theorem fsub (d : BitVec 7) (a : BitVec 7) (b : BitVec 7) : Statement (.fsub d a b) := by
  refine ⟨fun h => absurd h (by intro h; cases h), fun _ => ?_⟩
  have e : encodeWord (.fsub d a b) = 268435485 + d.toNat * 128 + a.toNat * 16384 + b.toNat * 2097152 := rfl
  rw [e]
  omega
theorem fmul (d : BitVec 7) (a : BitVec 7) (b : BitVec 7) : Statement (.fmul d a b) := by
  refine ⟨fun h => absurd h (by intro h; cases h), fun _ => ?_⟩
  have e : encodeWord (.fmul d a b) = 536870941 + d.toNat * 128 + a.toNat * 16384 + b.toNat * 2097152 := rfl
  rw [e]
  omega
theorem fmin (d : BitVec 7) (a : BitVec 7) (b : BitVec 7) : Statement (.fmin d a b) := by
  refine ⟨fun h => absurd h (by intro h; cases h), fun _ => ?_⟩
  have e : encodeWord (.fmin d a b) = 805306397 + d.toNat * 128 + a.toNat * 16384 + b.toNat * 2097152 := rfl
  rw [e]
  omega
theorem fmax (d : BitVec 7) (a : BitVec 7) (b : BitVec 7) : Statement (.fmax d a b) := by
  refine ⟨fun h => absurd h (by intro h; cases h), fun _ => ?_⟩
  have e : encodeWord (.fmax d a b) = 1073741853 + d.toNat * 128 + a.toNat * 16384 + b.toNat * 2097152 := rfl
  rw [e]
  omega
theorem fabs (d : BitVec 7) (a : BitVec 7) : Statement (.fabs d a) := by
  refine ⟨fun h => absurd h (by intro h; cases h), fun _ => ?_⟩
  have e : encodeWord (.fabs d a) = 1342177309 + d.toNat * 128 + a.toNat * 16384 := rfl
  rw [e]
  omega
theorem fneg (d : BitVec 7) (a : BitVec 7) : Statement (.fneg d a) := by
  refine ⟨fun h => absurd h (by intro h; cases h), fun _ => ?_⟩
  have e : encodeWord (.fneg d a) = 1610612765 + d.toNat * 128 + a.toNat * 16384 := rfl
  rw [e]
  omega
theorem fcopysign (d : BitVec 7) (a : BitVec 7) (b : BitVec 7) : Statement (.fcopysign d a b) := by
  refine ⟨fun h => absurd h (by intro h; cases h), fun _ => ?_⟩
  have e : encodeWord (.fcopysign d a b) = 1879048221 + d.toNat * 128 + a.toNat * 16384 + b.toNat * 2097152 := rfl
  rw [e]
  omega
theorem frint (d : BitVec 7) (a : BitVec 7) : Statement (.frint d a) := by
  refine ⟨fun h => absurd h (by intro h; cases h), fun _ => ?_⟩
  have e : encodeWord (.frint d a) = 2147483677 + d.toNat * 128 + a.toNat * 16384 := rfl
  rw [e]
  omega
theorem falusFadd (d : BitVec 7) (a : BitVec 7) (s : BitVec 6) : Statement (.falusFadd d a s) := by
  refine ⟨fun h => absurd h (by intro h; cases h), fun _ => ?_⟩
  have e : encodeWord (.falusFadd d a s) = 31 + d.toNat * 128 + a.toNat * 16384 + s.toNat * 2097152 := rfl
  rw [e]
  omega
theorem falusFsub (d : BitVec 7) (a : BitVec 7) (s : BitVec 6) : Statement (.falusFsub d a s) := by
  refine ⟨fun h => absurd h (by intro h; cases h), fun _ => ?_⟩
  have e : encodeWord (.falusFsub d a s) = 134217759 + d.toNat * 128 + a.toNat * 16384 + s.toNat * 2097152 := rfl
  rw [e]
  omega
theorem falusFmul (d : BitVec 7) (a : BitVec 7) (s : BitVec 6) : Statement (.falusFmul d a s) := by
  refine ⟨fun h => absurd h (by intro h; cases h), fun _ => ?_⟩
  have e : encodeWord (.falusFmul d a s) = 268435487 + d.toNat * 128 + a.toNat * 16384 + s.toNat * 2097152 := rfl
  rw [e]
  omega
theorem falusFmin (d : BitVec 7) (a : BitVec 7) (s : BitVec 6) : Statement (.falusFmin d a s) := by
  refine ⟨fun h => absurd h (by intro h; cases h), fun _ => ?_⟩
  have e : encodeWord (.falusFmin d a s) = 402653215 + d.toNat * 128 + a.toNat * 16384 + s.toNat * 2097152 := rfl
  rw [e]
  omega
theorem falusFmax (d : BitVec 7) (a : BitVec 7) (s : BitVec 6) : Statement (.falusFmax d a s) := by
  refine ⟨fun h => absurd h (by intro h; cases h), fun _ => ?_⟩
  have e : encodeWord (.falusFmax d a s) = 536870943 + d.toNat * 128 + a.toNat * 16384 + s.toNat * 2097152 := rfl
  rw [e]
  omega
theorem fma (d : BitVec 7) (a : BitVec 7) (b : BitVec 7) : Statement (.fma d a b) := by
  refine ⟨fun h => absurd h (by intro h; cases h), fun _ => ?_⟩
  have e : encodeWord (.fma d a b) = 33 + d.toNat * 128 + a.toNat * 16384 + b.toNat * 2097152 := rfl
  rw [e]
  omega
theorem fms (d : BitVec 7) (a : BitVec 7) (b : BitVec 7) : Statement (.fms d a b) := by
  refine ⟨fun h => absurd h (by intro h; cases h), fun _ => ?_⟩
  have e : encodeWord (.fms d a b) = 268435489 + d.toNat * 128 + a.toNat * 16384 + b.toNat * 2097152 := rfl
  rw [e]
  omega
theorem fnma (d : BitVec 7) (a : BitVec 7) (b : BitVec 7) : Statement (.fnma d a b) := by
  refine ⟨fun h => absurd h (by intro h; cases h), fun _ => ?_⟩
  have e : encodeWord (.fnma d a b) = 536870945 + d.toNat * 128 + a.toNat * 16384 + b.toNat * 2097152 := rfl
  rw [e]
  omega
theorem fnms (d : BitVec 7) (a : BitVec 7) (b : BitVec 7) : Statement (.fnms d a b) := by
  refine ⟨fun h => absurd h (by intro h; cases h), fun _ => ?_⟩
  have e : encodeWord (.fnms d a b) = 805306401 + d.toNat * 128 + a.toNat * 16384 + b.toNat * 2097152 := rfl
  rw [e]
  omega
theorem fcmpEq (d : BitVec 7) (a : BitVec 7) (b : BitVec 7) : Statement (.fcmpEq d a b) := by
  refine ⟨fun h => absurd h (by intro h; cases h), fun _ => ?_⟩
  have e : encodeWord (.fcmpEq d a b) = 35 + d.toNat * 128 + a.toNat * 16384 + b.toNat * 2097152 := rfl
  rw [e]
  omega
theorem fcmpNe (d : BitVec 7) (a : BitVec 7) (b : BitVec 7) : Statement (.fcmpNe d a b) := by
  refine ⟨fun h => absurd h (by intro h; cases h), fun _ => ?_⟩
  have e : encodeWord (.fcmpNe d a b) = 268435491 + d.toNat * 128 + a.toNat * 16384 + b.toNat * 2097152 := rfl
  rw [e]
  omega
theorem fcmpLt (d : BitVec 7) (a : BitVec 7) (b : BitVec 7) : Statement (.fcmpLt d a b) := by
  refine ⟨fun h => absurd h (by intro h; cases h), fun _ => ?_⟩
  have e : encodeWord (.fcmpLt d a b) = 536870947 + d.toNat * 128 + a.toNat * 16384 + b.toNat * 2097152 := rfl
  rw [e]
  omega
theorem fcmpLe (d : BitVec 7) (a : BitVec 7) (b : BitVec 7) : Statement (.fcmpLe d a b) := by
  refine ⟨fun h => absurd h (by intro h; cases h), fun _ => ?_⟩
  have e : encodeWord (.fcmpLe d a b) = 805306403 + d.toNat * 128 + a.toNat * 16384 + b.toNat * 2097152 := rfl
  rw [e]
  omega
theorem fcmpGt (d : BitVec 7) (a : BitVec 7) (b : BitVec 7) : Statement (.fcmpGt d a b) := by
  refine ⟨fun h => absurd h (by intro h; cases h), fun _ => ?_⟩
  have e : encodeWord (.fcmpGt d a b) = 1073741859 + d.toNat * 128 + a.toNat * 16384 + b.toNat * 2097152 := rfl
  rw [e]
  omega
theorem fcmpGe (d : BitVec 7) (a : BitVec 7) (b : BitVec 7) : Statement (.fcmpGe d a b) := by
  refine ⟨fun h => absurd h (by intro h; cases h), fun _ => ?_⟩
  have e : encodeWord (.fcmpGe d a b) = 1342177315 + d.toNat * 128 + a.toNat * 16384 + b.toNat * 2097152 := rfl
  rw [e]
  omega
theorem fcmpUn (d : BitVec 7) (a : BitVec 7) (b : BitVec 7) : Statement (.fcmpUn d a b) := by
  refine ⟨fun h => absurd h (by intro h; cases h), fun _ => ?_⟩
  have e : encodeWord (.fcmpUn d a b) = 1610612771 + d.toNat * 128 + a.toNat * 16384 + b.toNat * 2097152 := rfl
  rw [e]
  omega
theorem fcmpOrd (d : BitVec 7) (a : BitVec 7) (b : BitVec 7) : Statement (.fcmpOrd d a b) := by
  refine ⟨fun h => absurd h (by intro h; cases h), fun _ => ?_⟩
  have e : encodeWord (.fcmpOrd d a b) = 1879048227 + d.toNat * 128 + a.toNat * 16384 + b.toNat * 2097152 := rfl
  rw [e]
  omega
theorem rcp (d : BitVec 7) (a : BitVec 7) : Statement (.rcp d a) := by
  refine ⟨fun h => absurd h (by intro h; cases h), fun _ => ?_⟩
  have e : encodeWord (.rcp d a) = 37 + d.toNat * 128 + a.toNat * 16384 := rfl
  rw [e]
  omega
theorem rsq (d : BitVec 7) (a : BitVec 7) : Statement (.rsq d a) := by
  refine ⟨fun h => absurd h (by intro h; cases h), fun _ => ?_⟩
  have e : encodeWord (.rsq d a) = 268435493 + d.toNat * 128 + a.toNat * 16384 := rfl
  rw [e]
  omega
theorem sqrt (d : BitVec 7) (a : BitVec 7) : Statement (.sqrt d a) := by
  refine ⟨fun h => absurd h (by intro h; cases h), fun _ => ?_⟩
  have e : encodeWord (.sqrt d a) = 536870949 + d.toNat * 128 + a.toNat * 16384 := rfl
  rw [e]
  omega
theorem div (d : BitVec 7) (a : BitVec 7) (b : BitVec 7) : Statement (.div d a b) := by
  refine ⟨fun h => absurd h (by intro h; cases h), fun _ => ?_⟩
  have e : encodeWord (.div d a b) = 805306405 + d.toNat * 128 + a.toNat * 16384 + b.toNat * 2097152 := rfl
  rw [e]
  omega
theorem exp2 (d : BitVec 7) (a : BitVec 7) : Statement (.exp2 d a) := by
  refine ⟨fun h => absurd h (by intro h; cases h), fun _ => ?_⟩
  have e : encodeWord (.exp2 d a) = 1073741861 + d.toNat * 128 + a.toNat * 16384 := rfl
  rw [e]
  omega
theorem log2 (d : BitVec 7) (a : BitVec 7) : Statement (.log2 d a) := by
  refine ⟨fun h => absurd h (by intro h; cases h), fun _ => ?_⟩
  have e : encodeWord (.log2 d a) = 1342177317 + d.toNat * 128 + a.toNat * 16384 := rfl
  rw [e]
  omega
theorem sin (d : BitVec 7) (a : BitVec 7) : Statement (.sin d a) := by
  refine ⟨fun h => absurd h (by intro h; cases h), fun _ => ?_⟩
  have e : encodeWord (.sin d a) = 1610612773 + d.toNat * 128 + a.toNat * 16384 := rfl
  rw [e]
  omega
theorem cos (d : BitVec 7) (a : BitVec 7) : Statement (.cos d a) := by
  refine ⟨fun h => absurd h (by intro h; cases h), fun _ => ?_⟩
  have e : encodeWord (.cos d a) = 1879048229 + d.toNat * 128 + a.toNat * 16384 := rfl
  rw [e]
  omega
theorem cvt (d : BitVec 7) (a : BitVec 7) (t : BitVec 4) (m : BitVec 2) : Statement (.cvt d a t m) := by
  refine ⟨fun h => absurd h (by intro h; cases h), fun _ => ?_⟩
  have e : encodeWord (.cvt d a t m) = 39 + d.toNat * 128 + a.toNat * 16384 + t.toNat * 2097152 + m.toNat * 33554432 := rfl
  rw [e]
  omega
theorem cast (d : BitVec 7) (a : BitVec 7) (t : BitVec 4) : Statement (.cast d a t) := by
  refine ⟨fun h => absurd h (by intro h; cases h), fun _ => ?_⟩
  have e : encodeWord (.cast d a t) = 268435495 + d.toNat * 128 + a.toNat * 16384 + t.toNat * 2097152 := rfl
  rw [e]
  omega
theorem pack (d : BitVec 7) (a : BitVec 7) (b : BitVec 7) : Statement (.pack d a b) := by
  refine ⟨fun h => absurd h (by intro h; cases h), fun _ => ?_⟩
  have e : encodeWord (.pack d a b) = 536870951 + d.toNat * 128 + a.toNat * 16384 + b.toNat * 2097152 := rfl
  rw [e]
  omega
theorem unpacklo (d : BitVec 7) (a : BitVec 7) : Statement (.unpacklo d a) := by
  refine ⟨fun h => absurd h (by intro h; cases h), fun _ => ?_⟩
  have e : encodeWord (.unpacklo d a) = 805306407 + d.toNat * 128 + a.toNat * 16384 := rfl
  rw [e]
  omega
theorem unpackhi (d : BitVec 7) (a : BitVec 7) : Statement (.unpackhi d a) := by
  refine ⟨fun h => absurd h (by intro h; cases h), fun _ => ?_⟩
  have e : encodeWord (.unpackhi d a) = 1073741863 + d.toNat * 128 + a.toNat * 16384 := rfl
  rw [e]
  omega
theorem qdec (d : BitVec 5) (a : BitVec 7) (b : BitVec 7) : Statement (.qdec d a b) := by
  refine ⟨fun h => absurd h (by intro h; cases h), fun _ => ?_⟩
  have e : encodeWord (.qdec d a b) = 1342177319 + d.toNat * 512 + a.toNat * 16384 + b.toNat * 2097152 := rfl
  rw [e]
  omega
theorem shfl (d : BitVec 7) (a : BitVec 7) (b : BitVec 7) : Statement (.shfl d a b) := by
  refine ⟨fun h => absurd h (by intro h; cases h), fun _ => ?_⟩
  have e : encodeWord (.shfl d a b) = 41 + d.toNat * 128 + a.toNat * 16384 + b.toNat * 2097152 := rfl
  rw [e]
  omega
theorem shflup (d : BitVec 7) (a : BitVec 7) (b : BitVec 7) : Statement (.shflup d a b) := by
  refine ⟨fun h => absurd h (by intro h; cases h), fun _ => ?_⟩
  have e : encodeWord (.shflup d a b) = 268435497 + d.toNat * 128 + a.toNat * 16384 + b.toNat * 2097152 := rfl
  rw [e]
  omega
theorem shfldn (d : BitVec 7) (a : BitVec 7) (b : BitVec 7) : Statement (.shfldn d a b) := by
  refine ⟨fun h => absurd h (by intro h; cases h), fun _ => ?_⟩
  have e : encodeWord (.shfldn d a b) = 536870953 + d.toNat * 128 + a.toNat * 16384 + b.toNat * 2097152 := rfl
  rw [e]
  omega
theorem shflx (d : BitVec 7) (a : BitVec 7) (b : BitVec 7) : Statement (.shflx d a b) := by
  refine ⟨fun h => absurd h (by intro h; cases h), fun _ => ?_⟩
  have e : encodeWord (.shflx d a b) = 805306409 + d.toNat * 128 + a.toNat * 16384 + b.toNat * 2097152 := rfl
  rw [e]
  omega
theorem ballot (d : BitVec 7) (a : BitVec 7) : Statement (.ballot d a) := by
  refine ⟨fun h => absurd h (by intro h; cases h), fun _ => ?_⟩
  have e : encodeWord (.ballot d a) = 1073741865 + d.toNat * 128 + a.toNat * 16384 := rfl
  rw [e]
  omega
theorem voteall (d : BitVec 7) (a : BitVec 7) : Statement (.voteall d a) := by
  refine ⟨fun h => absurd h (by intro h; cases h), fun _ => ?_⟩
  have e : encodeWord (.voteall d a) = 1342177321 + d.toNat * 128 + a.toNat * 16384 := rfl
  rw [e]
  omega
theorem voteany (d : BitVec 7) (a : BitVec 7) : Statement (.voteany d a) := by
  refine ⟨fun h => absurd h (by intro h; cases h), fun _ => ?_⟩
  have e : encodeWord (.voteany d a) = 1610612777 + d.toNat * 128 + a.toNat * 16384 := rfl
  rw [e]
  omega
theorem redadd (d : BitVec 7) (a : BitVec 7) : Statement (.redadd d a) := by
  refine ⟨fun h => absurd h (by intro h; cases h), fun _ => ?_⟩
  have e : encodeWord (.redadd d a) = 1879048233 + d.toNat * 128 + a.toNat * 16384 := rfl
  rw [e]
  omega
theorem redmin (d : BitVec 7) (a : BitVec 7) : Statement (.redmin d a) := by
  refine ⟨fun h => absurd h (by intro h; cases h), fun _ => ?_⟩
  have e : encodeWord (.redmin d a) = 2147483689 + d.toNat * 128 + a.toNat * 16384 := rfl
  rw [e]
  omega
theorem redmax (d : BitVec 7) (a : BitVec 7) : Statement (.redmax d a) := by
  refine ⟨fun h => absurd h (by intro h; cases h), fun _ => ?_⟩
  have e : encodeWord (.redmax d a) = 2415919145 + d.toNat * 128 + a.toNat * 16384 := rfl
  rw [e]
  omega
theorem scanadd (d : BitVec 7) (a : BitVec 7) : Statement (.scanadd d a) := by
  refine ⟨fun h => absurd h (by intro h; cases h), fun _ => ?_⟩
  have e : encodeWord (.scanadd d a) = 2684354601 + d.toNat * 128 + a.toNat * 16384 := rfl
  rw [e]
  omega
theorem matchv (d : BitVec 7) (a : BitVec 7) : Statement (.matchv d a) := by
  refine ⟨fun h => absurd h (by intro h; cases h), fun _ => ?_⟩
  have e : encodeWord (.matchv d a) = 2952790057 + d.toNat * 128 + a.toNat * 16384 := rfl
  rw [e]
  omega
theorem movs (d : BitVec 7) (t : BitVec 4) (h : BitVec 1) (s : BitVec 6) : Statement (.movs d t h s) := by
  refine ⟨fun h => absurd h (by intro h; cases h), fun _ => ?_⟩
  have e : encodeWord (.movs d t h s) = 43 + d.toNat * 128 + t.toNat * 16384 + h.toNat * 262144 + s.toNat * 2097152 := rfl
  rw [e]
  omega
theorem vtos (d : BitVec 6) (a : BitVec 7) (h : BitVec 1) : Statement (.vtos d a h) := by
  refine ⟨fun h => absurd h (by intro h; cases h), fun _ => ?_⟩
  have e : encodeWord (.vtos d a h) = 268435499 + d.toNat * 128 + a.toNat * 16384 + h.toNat * 2097152 := rfl
  rw [e]
  omega
theorem laneid (d : BitVec 7) : Statement (.laneid d) := by
  refine ⟨fun h => absurd h (by intro h; cases h), fun _ => ?_⟩
  have e : encodeWord (.laneid d) = 536870955 + d.toNat * 128 := rfl
  rw [e]
  omega
theorem wid (d : BitVec 7) (h : BitVec 1) : Statement (.wid d h) := by
  refine ⟨fun h => absurd h (by intro h; cases h), fun _ => ?_⟩
  have e : encodeWord (.wid d h) = 805306411 + d.toNat * 128 + h.toNat * 16384 := rfl
  rw [e]
  omega
theorem widf (d : BitVec 7) (n : BitVec 3) : Statement (.widf d n) := by
  refine ⟨fun h => absurd h (by intro h; cases h), fun _ => ?_⟩
  have e : encodeWord (.widf d n) = 1073741867 + d.toNat * 128 + n.toNat * 16384 := rfl
  rw [e]
  omega
theorem rng (d : BitVec 7) (a : BitVec 7) (k : BitVec 6) : Statement (.rng d a k) := by
  refine ⟨fun h => absurd h (by intro h; cases h), fun _ => ?_⟩
  have e : encodeWord (.rng d a k) = 45 + d.toNat * 128 + a.toNat * 16384 + k.toNat * 2097152 := rfl
  rw [e]
  omega
theorem rng4 (d : BitVec 5) (a : BitVec 7) (k : BitVec 6) : Statement (.rng4 d a k) := by
  refine ⟨fun h => absurd h (by intro h; cases h), fun _ => ?_⟩
  have e : encodeWord (.rng4 d a k) = 268435501 + d.toNat * 512 + a.toNat * 16384 + k.toNat * 2097152 := rfl
  rw [e]
  omega
theorem ld (d : BitVec 7) (a : BitVec 7) (s : BitVec 6) (k : BitVec 5) (px : Option (BitVec 25)) : Statement (.ld d a s k px) := by
  refine ⟨fun h => absurd h (by intro h; cases h), fun _ => ?_⟩
  have e : encodeWord (.ld d a s k px) = 47 + d.toNat * 128 + a.toNat * 16384 + s.toNat * 2097152 + k.toNat * 134217728 := rfl
  rw [e]
  omega
theorem st (d : BitVec 7) (a : BitVec 7) (s : BitVec 6) (k : BitVec 5) (px : Option (BitVec 25)) : Statement (.st d a s k px) := by
  refine ⟨fun h => absurd h (by intro h; cases h), fun _ => ?_⟩
  have e : encodeWord (.st d a s k px) = 49 + d.toNat * 128 + a.toNat * 16384 + s.toNat * 2097152 + k.toNat * 134217728 := rfl
  rw [e]
  omega
theorem lds (d : BitVec 7) (a : BitVec 7) (s : BitVec 6) (k : BitVec 5) (px : Option (BitVec 25)) : Statement (.lds d a s k px) := by
  refine ⟨fun h => absurd h (by intro h; cases h), fun _ => ?_⟩
  have e : encodeWord (.lds d a s k px) = 51 + d.toNat * 128 + a.toNat * 16384 + s.toNat * 2097152 + k.toNat * 134217728 := rfl
  rw [e]
  omega
theorem sts (d : BitVec 7) (a : BitVec 7) (s : BitVec 6) (k : BitVec 5) (px : Option (BitVec 25)) : Statement (.sts d a s k px) := by
  refine ⟨fun h => absurd h (by intro h; cases h), fun _ => ?_⟩
  have e : encodeWord (.sts d a s k px) = 53 + d.toNat * 128 + a.toNat * 16384 + s.toNat * 2097152 + k.toNat * 134217728 := rfl
  rw [e]
  omega
theorem atom (d : BitVec 7) (a : BitVec 7) (s : BitVec 6) (o : BitVec 4) (px : Option (BitVec 25)) : Statement (.atom d a s o px) := by
  refine ⟨fun h => absurd h (by intro h; cases h), fun _ => ?_⟩
  have e : encodeWord (.atom d a s o px) = 55 + d.toNat * 128 + a.toNat * 16384 + s.toNat * 2097152 + o.toNat * 134217728 := rfl
  rw [e]
  omega
theorem red (d : BitVec 7) (a : BitVec 7) (s : BitVec 6) (o : BitVec 4) (px : Option (BitVec 25)) : Statement (.red d a s o px) := by
  refine ⟨fun h => absurd h (by intro h; cases h), fun _ => ?_⟩
  have e : encodeWord (.red d a s o px) = 2147483703 + d.toNat * 128 + a.toNat * 16384 + s.toNat * 2097152 + o.toNat * 134217728 := rfl
  rw [e]
  omega
theorem atoms (d : BitVec 7) (a : BitVec 7) (s : BitVec 6) (o : BitVec 4) (px : Option (BitVec 25)) : Statement (.atoms d a s o px) := by
  refine ⟨fun h => absurd h (by intro h; cases h), fun _ => ?_⟩
  have e : encodeWord (.atoms d a s o px) = 57 + d.toNat * 128 + a.toNat * 16384 + s.toNat * 2097152 + o.toNat * 134217728 := rfl
  rw [e]
  omega
theorem reds (d : BitVec 7) (a : BitVec 7) (s : BitVec 6) (o : BitVec 4) (px : Option (BitVec 25)) : Statement (.reds d a s o px) := by
  refine ⟨fun h => absurd h (by intro h; cases h), fun _ => ?_⟩
  have e : encodeWord (.reds d a s o px) = 2147483705 + d.toNat * 128 + a.toNat * 16384 + s.toNat * 2097152 + o.toNat * 134217728 := rfl
  rw [e]
  omega
theorem fence (o : BitVec 2) (p : BitVec 3) : Statement (.fence o p) := by
  refine ⟨fun h => absurd h (by intro h; cases h), fun _ => ?_⟩
  have e : encodeWord (.fence o p) = 59 + o.toNat * 128 + p.toNat * 512 := rfl
  rw [e]
  omega
theorem xfence (p : BitVec 3) (a : BitVec 6) (b : BitVec 6) : Statement (.xfence p a b) := by
  refine ⟨fun h => absurd h (by intro h; cases h), fun _ => ?_⟩
  have e : encodeWord (.xfence p a b) = 33554491 + p.toNat * 512 + a.toNat * 8192 + b.toNat * 524288 := rfl
  rw [e]
  omega
theorem bar (b : BitVec 10) (px : Option (BitVec 25)) : Statement (.bar b px) := by
  refine ⟨fun h => absurd h (by intro h; cases h), fun _ => ?_⟩
  have e : encodeWord (.bar b px) = 61 + b.toNat * 4194304 := rfl
  rw [e]
  omega
theorem bararr (b : BitVec 10) (px : Option (BitVec 25)) : Statement (.bararr b px) := by
  refine ⟨fun h => absurd h (by intro h; cases h), fun _ => ?_⟩
  have e : encodeWord (.bararr b px) = 189 + b.toNat * 4194304 := rfl
  rw [e]
  omega
theorem armw (v : BitVec 7) (o : BitVec 10) (px : Option (BitVec 25)) : Statement (.armw v o px) := by
  refine ⟨fun h => absurd h (by intro h; cases h), fun _ => ?_⟩
  have e : encodeWord (.armw v o px) = 317 + v.toNat * 32768 + o.toNat * 4194304 := rfl
  rw [e]
  omega
theorem arwait (v : BitVec 7) (o : BitVec 10) (px : Option (BitVec 25)) : Statement (.arwait v o px) := by
  refine ⟨fun h => absurd h (by intro h; cases h), fun _ => ?_⟩
  have e : encodeWord (.arwait v o px) = 445 + v.toNat * 32768 + o.toNat * 4194304 := rfl
  rw [e]
  omega
theorem aradd (v : BitVec 7) (o : BitVec 10) (px : Option (BitVec 25)) : Statement (.aradd v o px) := by
  refine ⟨fun h => absurd h (by intro h; cases h), fun _ => ?_⟩
  have e : encodeWord (.aradd v o px) = 573 + v.toNat * 32768 + o.toNat * 4194304 := rfl
  rw [e]
  omega
theorem cpy (a : BitVec 6) (c : BitVec 6) (k : BitVec 3) : Statement (.cpy a c k) := by
  refine ⟨fun h => absurd h (by intro h; cases h), fun _ => ?_⟩
  have e : encodeWord (.cpy a c k) = 63 + a.toNat * 16384 + c.toNat * 1048576 + k.toNat * 536870912 := rfl
  rw [e]
  omega
theorem cpy2 (a : BitVec 6) (c : BitVec 6) (k : BitVec 3) : Statement (.cpy2 a c k) := by
  refine ⟨fun h => absurd h (by intro h; cases h), fun _ => ?_⟩
  have e : encodeWord (.cpy2 a c k) = 67108927 + a.toNat * 16384 + c.toNat * 1048576 + k.toNat * 536870912 := rfl
  rw [e]
  omega
theorem cpym (a : BitVec 6) (c : BitVec 6) (k : BitVec 3) : Statement (.cpym a c k) := by
  refine ⟨fun h => absurd h (by intro h; cases h), fun _ => ?_⟩
  have e : encodeWord (.cpym a c k) = 134217791 + a.toNat * 16384 + c.toNat * 1048576 + k.toNat * 536870912 := rfl
  rw [e]
  omega
theorem binsc (v : BitVec 7) (t : BitVec 6) (r : BitVec 6) (k : BitVec 3) : Statement (.binsc v t r k) := by
  refine ⟨fun h => absurd h (by intro h; cases h), fun _ => ?_⟩
  have e : encodeWord (.binsc v t r k) = 65 + v.toNat * 128 + t.toNat * 16384 + r.toNat * 1048576 + k.toNat * 536870912 := rfl
  rw [e]
  omega
theorem binga (v : BitVec 6) (t : BitVec 6) (r : BitVec 6) (k : BitVec 3) : Statement (.binga v t r k) := by
  refine ⟨fun h => absurd h (by intro h; cases h), fun _ => ?_⟩
  have e : encodeWord (.binga v t r k) = 67108929 + v.toNat * 256 + t.toNat * 16384 + r.toNat * 1048576 + k.toNat * 536870912 := rfl
  rw [e]
  omega
theorem binrst (t : BitVec 6) (f : BitVec 6) : Statement (.binrst t f) := by
  refine ⟨fun h => absurd h (by intro h; cases h), fun _ => ?_⟩
  have e : encodeWord (.binrst t f) = 134217793 + t.toNat * 16384 + f.toNat * 1048576 := rfl
  rw [e]
  omega
theorem binqry (v : BitVec 7) (t : BitVec 6) (b : BitVec 6) : Statement (.binqry v t b) := by
  refine ⟨fun h => absurd h (by intro h; cases h), fun _ => ?_⟩
  have e : encodeWord (.binqry v t b) = 201326657 + v.toNat * 128 + t.toNat * 16384 + b.toNat * 1048576 := rfl
  rw [e]
  omega
theorem tfet (t : BitVec 3) (s : BitVec 6) (f : BitVec 3) (n : BitVec 1) : Statement (.tfet t s f n) := by
  refine ⟨fun h => absurd h (by intro h; cases h), fun _ => ?_⟩
  have e : encodeWord (.tfet t s f n) = 67 + t.toNat * 128 + s.toNat * 1024 + f.toNat * 65536 + n.toNat * 524288 := rfl
  rw [e]
  omega
theorem mma (a : BitVec 3) (b : BitVec 3) (l : BitVec 6) (e : BitVec 4) (m : BitVec 1) (n : BitVec 1) (s : BitVec 1) (k : BitVec 1) : Statement (.mma a b l e m n s k) := by
  refine ⟨fun h => absurd h (by intro h; cases h), fun _ => ?_⟩
  have e : encodeWord (.mma a b l e m n s k) = 69 + a.toNat * 128 + b.toNat * 1024 + l.toNat * 8192 + e.toNat * 524288 + m.toNat * 8388608 + n.toNat * 16777216 + s.toNat * 33554432 + k.toNat * 67108864 := rfl
  rw [e]
  omega
theorem mloop (l : BitVec 6) (e : BitVec 4) (n : BitVec 6) (r : BitVec 1) (s : BitVec 1) : Statement (.mloop l e n r s) := by
  refine ⟨fun h => absurd h (by intro h; cases h), fun _ => ?_⟩
  have e : encodeWord (.mloop l e n r s) = 71 + l.toNat * 8192 + e.toNat * 524288 + n.toNat * 8388608 + r.toNat * 536870912 + s.toNat * 1073741824 := rfl
  rw [e]
  omega
theorem accz (a : BitVec 6) (c : BitVec 6) : Statement (.accz a c) := by
  refine ⟨fun h => absurd h (by intro h; cases h), fun _ => ?_⟩
  have e : encodeWord (.accz a c) = 73 + a.toNat * 16384 + c.toNat * 1048576 := rfl
  rw [e]
  omega
theorem accrd (v : BitVec 7) (a : BitVec 6) (c : BitVec 6) : Statement (.accrd v a c) := by
  refine ⟨fun h => absurd h (by intro h; cases h), fun _ => ?_⟩
  have e : encodeWord (.accrd v a c) = 67108937 + v.toNat * 128 + a.toNat * 16384 + c.toNat * 1048576 := rfl
  rw [e]
  omega
theorem accwr (v : BitVec 7) (a : BitVec 6) : Statement (.accwr v a) := by
  refine ⟨fun h => absurd h (by intro h; cases h), fun _ => ?_⟩
  have e : encodeWord (.accwr v a) = 134217801 + v.toNat * 128 + a.toNat * 16384 := rfl
  rw [e]
  omega
theorem accdr (q : BitVec 4) (a : BitVec 6) (c : BitVec 6) : Statement (.accdr q a c) := by
  refine ⟨fun h => absurd h (by intro h; cases h), fun _ => ?_⟩
  have e : encodeWord (.accdr q a c) = 201341001 + q.toNat * 128 + a.toNat * 16384 + c.toNat * 1048576 := rfl
  rw [e]
  omega
theorem accver (v : BitVec 7) (a : BitVec 6) : Statement (.accver v a) := by
  refine ⟨fun h => absurd h (by intro h; cases h), fun _ => ?_⟩
  have e : encodeWord (.accver v a) = 268435529 + v.toNat * 128 + a.toNat * 16384 := rfl
  rw [e]
  omega
theorem accwv (a : BitVec 6) (c : BitVec 6) : Statement (.accwv a c) := by
  refine ⟨fun h => absurd h (by intro h; cases h), fun _ => ?_⟩
  have e : encodeWord (.accwv a c) = 335544393 + a.toNat * 16384 + c.toNat * 1048576 := rfl
  rw [e]
  omega
theorem ctset (v : BitVec 7) : Statement (.ctset v) := by
  refine ⟨fun h => absurd h (by intro h; cases h), fun _ => ?_⟩
  have e : encodeWord (.ctset v) = 75 + v.toNat * 128 := rfl
  rw [e]
  omega
theorem ctget (v : BitVec 7) : Statement (.ctget v) := by
  refine ⟨fun h => absurd h (by intro h; cases h), fun _ => ?_⟩
  have e : encodeWord (.ctget v) = 67108939 + v.toNat * 128 := rfl
  rw [e]
  omega
theorem achopen (a : BitVec 6) : Statement (.achopen a) := by
  refine ⟨fun h => absurd h (by intro h; cases h), fun _ => ?_⟩
  have e : encodeWord (.achopen a) = 77 + a.toNat * 16384 := rfl
  rw [e]
  omega
theorem achjoin (c : BitVec 6) : Statement (.achjoin c) := by
  refine ⟨fun h => absurd h (by intro h; cases h), fun _ => ?_⟩
  have e : encodeWord (.achjoin c) = 67108941 + c.toNat * 16384 := rfl
  rw [e]
  omega
theorem asend (c : BitVec 6) (q : BitVec 6) : Statement (.asend c q) := by
  refine ⟨fun h => absurd h (by intro h; cases h), fun _ => ?_⟩
  have e : encodeWord (.asend c q) = 134217805 + c.toNat * 16384 + q.toNat * 1048576 := rfl
  rw [e]
  omega
theorem achwait (v : BitVec 7) (c : BitVec 6) : Statement (.achwait v c) := by
  refine ⟨fun h => absurd h (by intro h; cases h), fun _ => ?_⟩
  have e : encodeWord (.achwait v c) = 201326669 + v.toNat * 128 + c.toNat * 16384 := rfl
  rw [e]
  omega
theorem achclose (c : BitVec 6) : Statement (.achclose c) := by
  refine ⟨fun h => absurd h (by intro h; cases h), fun _ => ?_⟩
  have e : encodeWord (.achclose c) = 268435533 + c.toNat * 16384 := rfl
  rw [e]
  omega
theorem topk (q : BitVec 4) (a : BitVec 6) (k : BitVec 3) : Statement (.topk q a k) := by
  refine ⟨fun h => absurd h (by intro h; cases h), fun _ => ?_⟩
  have e : encodeWord (.topk q a k) = 14415 + q.toNat * 128 + a.toNat * 16384 + k.toNat * 536870912 := rfl
  rw [e]
  omega
theorem softmx (q : BitVec 4) (a : BitVec 6) (k : BitVec 3) : Statement (.softmx q a k) := by
  refine ⟨fun h => absurd h (by intro h; cases h), fun _ => ?_⟩
  have e : encodeWord (.softmx q a k) = 67123279 + q.toNat * 128 + a.toNat * 16384 + k.toNat * 536870912 := rfl
  rw [e]
  omega
theorem sample (q : BitVec 4) (a : BitVec 6) (u : BitVec 6) (k : BitVec 3) : Statement (.sample q a u k) := by
  refine ⟨fun h => absurd h (by intro h; cases h), fun _ => ?_⟩
  have e : encodeWord (.sample q a u k) = 134232143 + q.toNat * 128 + a.toNat * 16384 + u.toNat * 1048576 + k.toNat * 536870912 := rfl
  rw [e]
  omega
theorem lnch (a : BitVec 6) (q : BitVec 6) : Statement (.lnch a q) := by
  refine ⟨fun h => absurd h (by intro h; cases h), fun _ => ?_⟩
  have e : encodeWord (.lnch a q) = 81 + a.toNat * 16384 + q.toNat * 1048576 := rfl
  rw [e]
  omega
theorem emit (a : BitVec 6) (o : BitVec 6) : Statement (.emit a o) := by
  refine ⟨fun h => absurd h (by intro h; cases h), fun _ => ?_⟩
  have e : encodeWord (.emit a o) = 67108945 + a.toNat * 16384 + o.toNat * 1048576 := rfl
  rw [e]
  omega
theorem jcnew (a : BitVec 6) (n : BitVec 6) : Statement (.jcnew a n) := by
  refine ⟨fun h => absurd h (by intro h; cases h), fun _ => ?_⟩
  have e : encodeWord (.jcnew a n) = 134217809 + a.toNat * 16384 + n.toNat * 1048576 := rfl
  rw [e]
  omega
theorem jcdec (a : BitVec 6) (n : BitVec 6) : Statement (.jcdec a n) := by
  refine ⟨fun h => absurd h (by intro h; cases h), fun _ => ?_⟩
  have e : encodeWord (.jcdec a n) = 201326673 + a.toNat * 16384 + n.toNat * 1048576 := rfl
  rw [e]
  omega
theorem jcwait (v : BitVec 7) (a : BitVec 6) : Statement (.jcwait v a) := by
  refine ⟨fun h => absurd h (by intro h; cases h), fun _ => ?_⟩
  have e : encodeWord (.jcwait v a) = 268435537 + v.toNat * 128 + a.toNat * 16384 := rfl
  rw [e]
  omega
theorem mbox (v : BitVec 7) (a : BitVec 6) (h : BitVec 6) : Statement (.mbox v a h) := by
  refine ⟨fun h => absurd h (by intro h; cases h), fun _ => ?_⟩
  have e : encodeWord (.mbox v a h) = 335544401 + v.toNat * 128 + a.toNat * 16384 + h.toNat * 1048576 := rfl
  rw [e]
  omega
theorem ovld (i : BitVec 6) (k : BitVec 3) : Statement (.ovld i k) := by
  refine ⟨fun h => absurd h (by intro h; cases h), fun _ => ?_⟩
  have e : encodeWord (.ovld i k) = 83 + i.toNat * 16384 + k.toNat * 536870912 := rfl
  rw [e]
  omega
theorem ovpin (v : BitVec 7) (i : BitVec 6) : Statement (.ovpin v i) := by
  refine ⟨fun h => absurd h (by intro h; cases h), fun _ => ?_⟩
  have e : encodeWord (.ovpin v i) = 67108947 + v.toNat * 128 + i.toNat * 16384 := rfl
  rw [e]
  omega
theorem ovunpin (i : BitVec 6) : Statement (.ovunpin i) := by
  refine ⟨fun h => absurd h (by intro h; cases h), fun _ => ?_⟩
  have e : encodeWord (.ovunpin i) = 134217811 + i.toNat * 16384 := rfl
  rw [e]
  omega
theorem ovevict (v : BitVec 7) (i : BitVec 6) : Statement (.ovevict v i) := by
  refine ⟨fun h => absurd h (by intro h; cases h), fun _ => ?_⟩
  have e : encodeWord (.ovevict v i) = 201326675 + v.toNat * 128 + i.toNat * 16384 := rfl
  rw [e]
  omega
theorem ovqry (v : BitVec 7) (i : BitVec 6) : Statement (.ovqry v i) := by
  refine ⟨fun h => absurd h (by intro h; cases h), fun _ => ?_⟩
  have e : encodeWord (.ovqry v i) = 268435539 + v.toNat * 128 + i.toNat * 16384 := rfl
  rw [e]
  omega
theorem qbind (p : BitVec 4) (a : BitVec 6) (b : BitVec 6) : Statement (.qbind p a b) := by
  refine ⟨fun h => absurd h (by intro h; cases h), fun _ => ?_⟩
  have e : encodeWord (.qbind p a b) = 14421 + p.toNat * 128 + a.toNat * 16384 + b.toNat * 1048576 := rfl
  rw [e]
  omega
theorem qfree (p : BitVec 4) : Statement (.qfree p) := by
  refine ⟨fun h => absurd h (by intro h; cases h), fun _ => ?_⟩
  have e : encodeWord (.qfree p) = 67123285 + p.toNat * 128 := rfl
  rw [e]
  omega
theorem qstat (v : BitVec 7) (a : BitVec 6) : Statement (.qstat v a) := by
  refine ⟨fun h => absurd h (by intro h; cases h), fun _ => ?_⟩
  have e : encodeWord (.qstat v a) = 134217813 + v.toNat * 128 + a.toNat * 16384 := rfl
  rw [e]
  omega
theorem hostKick (q : Nat) (hi : Bool) (w : BitVec 32) : Statement (.hostKick q hi w) :=
  ⟨fun h => absurd h (by intro h; cases h), fun h => absurd h (by intro h; cases h)⟩
theorem hostBar2Write (off : Nat) (data : List (BitVec 8)) : Statement (.hostBar2Write off data) :=
  ⟨fun h => absurd h (by intro h; cases h), fun h => absurd h (by intro h; cases h)⟩
theorem hostBar2Read (off : Nat) (n : Nat) : Statement (.hostBar2Read off n) :=
  ⟨fun h => absurd h (by intro h; cases h), fun h => absurd h (by intro h; cases h)⟩
theorem mboxhost (mgmt : Bool) : Statement (.mboxhost mgmt) :=
  ⟨fun h => absurd h (by intro h; cases h), fun h => absurd h (by intro h; cases h)⟩
theorem attestationQuote (req : List (BitVec 8)) : Statement (.attestationQuote req) :=
  ⟨fun h => absurd h (by intro h; cases h), fun h => absurd h (by intro h; cases h)⟩
theorem queueDefine (req : List (BitVec 8)) : Statement (.queueDefine req) :=
  ⟨fun h => absurd h (by intro h; cases h), fun h => absurd h (by intro h; cases h)⟩
theorem queueEnable (req : List (BitVec 8)) : Statement (.queueEnable req) :=
  ⟨fun h => absurd h (by intro h; cases h), fun h => absurd h (by intro h; cases h)⟩
theorem queueDisable (req : List (BitVec 8)) : Statement (.queueDisable req) :=
  ⟨fun h => absurd h (by intro h; cases h), fun h => absurd h (by intro h; cases h)⟩
theorem setPowerCap (req : List (BitVec 8)) : Statement (.setPowerCap req) :=
  ⟨fun h => absurd h (by intro h; cases h), fun h => absurd h (by intro h; cases h)⟩
theorem readErrorCounters (req : List (BitVec 8)) : Statement (.readErrorCounters req) :=
  ⟨fun h => absurd h (by intro h; cases h), fun h => absurd h (by intro h; cases h)⟩
theorem writeFlash (req : List (BitVec 8)) : Statement (.writeFlash req) :=
  ⟨fun h => absurd h (by intro h; cases h), fun h => absurd h (by intro h; cases h)⟩
theorem unknownCommand (req : List (BitVec 8)) : Statement (.unknownCommand req) :=
  ⟨fun h => absurd h (by intro h; cases h), fun h => absurd h (by intro h; cases h)⟩
theorem partmodeStop (w : BitVec 64) : Statement (.partmodeStop w) :=
  ⟨fun h => absurd h (by intro h; cases h), fun h => absurd h (by intro h; cases h)⟩
theorem partmodeModeWrite (w : BitVec 64) : Statement (.partmodeModeWrite w) :=
  ⟨fun h => absurd h (by intro h; cases h), fun h => absurd h (by intro h; cases h)⟩
theorem watchdogRestart : Statement (.watchdogRestart) :=
  ⟨fun h => absurd h (by intro h; cases h), fun h => absurd h (by intro h; cases h)⟩
theorem watchdogExpiry : Statement (.watchdogExpiry) :=
  ⟨fun h => absurd h (by intro h; cases h), fun h => absurd h (by intro h; cases h)⟩
theorem preempt (cmd : BitVec 64) : Statement (.preempt cmd) :=
  ⟨fun h => absurd h (by intro h; cases h), fun h => absurd h (by intro h; cases h)⟩
theorem kill (cmd : BitVec 64) : Statement (.kill cmd) :=
  ⟨fun h => absurd h (by intro h; cases h), fun h => absurd h (by intro h; cases h)⟩
theorem unpark (cmd : BitVec 64) : Statement (.unpark cmd) :=
  ⟨fun h => absurd h (by intro h; cases h), fun h => absurd h (by intro h; cases h)⟩
theorem refuse (cmd : BitVec 64) : Statement (.refuse cmd) :=
  ⟨fun h => absurd h (by intro h; cases h), fun h => absurd h (by intro h; cases h)⟩
theorem ctxcmdUndefinedOp (cmd : BitVec 64) : Statement (.ctxcmdUndefinedOp cmd) :=
  ⟨fun h => absurd h (by intro h; cases h), fun h => absurd h (by intro h; cases h)⟩
theorem invalPage (cmd : BitVec 64) : Statement (.invalPage cmd) :=
  ⟨fun h => absurd h (by intro h; cases h), fun h => absurd h (by intro h; cases h)⟩
theorem inval2mib (cmd : BitVec 64) : Statement (.inval2mib cmd) :=
  ⟨fun h => absurd h (by intro h; cases h), fun h => absurd h (by intro h; cases h)⟩
theorem inval1gib (cmd : BitVec 64) : Statement (.inval1gib cmd) :=
  ⟨fun h => absurd h (by intro h; cases h), fun h => absurd h (by intro h; cases h)⟩
theorem invalAspace (cmd : BitVec 64) : Statement (.invalAspace cmd) :=
  ⟨fun h => absurd h (by intro h; cases h), fun h => absurd h (by intro h; cases h)⟩
theorem invalAll (cmd : BitVec 64) : Statement (.invalAll cmd) :=
  ⟨fun h => absurd h (by intro h; cases h), fun h => absurd h (by intro h; cases h)⟩
theorem invalComplete : Statement (.invalComplete) :=
  ⟨fun h => absurd h (by intro h; cases h), fun h => absurd h (by intro h; cases h)⟩
theorem registerWrite (bar0 : Bool) (off : Nat) (w : BitVec 64) : Statement (.registerWrite bar0 off w) :=
  ⟨fun h => absurd h (by intro h; cases h), fun h => absurd h (by intro h; cases h)⟩
theorem moduleReset : Statement (.moduleReset) :=
  ⟨fun h => absurd h (by intro h; cases h), fun h => absurd h (by intro h; cases h)⟩
theorem thermalThrottle : Statement (.thermalThrottle) :=
  ⟨fun h => absurd h (by intro h; cases h), fun h => absurd h (by intro h; cases h)⟩
theorem thermalTrip : Statement (.thermalTrip) :=
  ⟨fun h => absurd h (by intro h; cases h), fun h => absurd h (by intro h; cases h)⟩
theorem powerCapStep (up : Bool) : Statement (.powerCapStep up) :=
  ⟨fun h => absurd h (by intro h; cases h), fun h => absurd h (by intro h; cases h)⟩
theorem putReceive (port : Nat) (dstdev : BitVec 20) (srcdev : BitVec 20) (aspace : BitVec 16) (va : BitVec 64) (seq : BitVec 32) (data : List (BitVec 8)) : Statement (.putReceive port dstdev srcdev aspace va seq data) :=
  ⟨fun h => absurd h (by intro h; cases h), fun h => absurd h (by intro h; cases h)⟩
theorem putSend (ring : Nat) : Statement (.putSend ring) :=
  ⟨fun h => absurd h (by intro h; cases h), fun h => absurd h (by intro h; cases h)⟩
theorem launchRecordConsume (q : Nat) : Statement (.launchRecordConsume q) :=
  ⟨fun h => absurd h (by intro h; cases h), fun h => absurd h (by intro h; cases h)⟩
theorem gangRelease (q : Nat) : Statement (.gangRelease q) :=
  ⟨fun h => absurd h (by intro h; cases h), fun h => absurd h (by intro h; cases h)⟩
theorem pendingLaunchAppend (k : Nat) (c : Nat) : Statement (.pendingLaunchAppend k c) :=
  ⟨fun h => absurd h (by intro h; cases h), fun h => absurd h (by intro h; cases h)⟩
theorem graphRecordAccept (k : Nat) (c : Nat) (q : Nat) : Statement (.graphRecordAccept k c q) :=
  ⟨fun h => absurd h (by intro h; cases h), fun h => absurd h (by intro h; cases h)⟩
theorem graphBatchTimeout (q : Nat) : Statement (.graphBatchTimeout q) :=
  ⟨fun h => absurd h (by intro h; cases h), fun h => absurd h (by intro h; cases h)⟩
theorem mailboxArrival : Statement (.mailboxArrival) :=
  ⟨fun h => absurd h (by intro h; cases h), fun h => absurd h (by intro h; cases h)⟩
theorem handlerAppend (m : Nat) : Statement (.handlerAppend m) :=
  ⟨fun h => absurd h (by intro h; cases h), fun h => absurd h (by intro h; cases h)⟩
theorem jcRetireDecrement (n : Nat) : Statement (.jcRetireDecrement n) :=
  ⟨fun h => absurd h (by intro h; cases h), fun h => absurd h (by intro h; cases h)⟩
theorem courseRetire (k : Nat) (c : Nat) : Statement (.courseRetire k c) :=
  ⟨fun h => absurd h (by intro h; cases h), fun h => absurd h (by intro h; cases h)⟩
theorem jcwaitWake (k : Nat) (c : Nat) : Statement (.jcwaitWake k c) :=
  ⟨fun h => absurd h (by intro h; cases h), fun h => absurd h (by intro h; cases h)⟩
theorem swapOut (k : Nat) : Statement (.swapOut k) :=
  ⟨fun h => absurd h (by intro h; cases h), fun h => absurd h (by intro h; cases h)⟩
theorem contextSave (k : Nat) : Statement (.contextSave k) :=
  ⟨fun h => absurd h (by intro h; cases h), fun h => absurd h (by intro h; cases h)⟩
theorem consortResume (k : Nat) : Statement (.consortResume k) :=
  ⟨fun h => absurd h (by intro h; cases h), fun h => absurd h (by intro h; cases h)⟩
theorem napExpiry (k : Nat) (c : Nat) : Statement (.napExpiry k c) :=
  ⟨fun h => absurd h (by intro h; cases h), fun h => absurd h (by intro h; cases h)⟩
theorem portCheckFail : Statement (.portCheckFail) :=
  ⟨fun h => absurd h (by intro h; cases h), fun h => absurd h (by intro h; cases h)⟩
theorem translationWalk (aspace : BitVec 16) (va : BitVec 64) : Statement (.translationWalk aspace va) :=
  ⟨fun h => absurd h (by intro h; cases h), fun h => absurd h (by intro h; cases h)⟩
theorem faultRingFlush : Statement (.faultRingFlush) :=
  ⟨fun h => absurd h (by intro h; cases h), fun h => absurd h (by intro h; cases h)⟩
theorem registerFill (k : Nat) (c : Nat) (r : Nat) : Statement (.registerFill k c r) :=
  ⟨fun h => absurd h (by intro h; cases h), fun h => absurd h (by intro h; cases h)⟩
theorem lineWriteback (k : Nat) (c : Nat) (r : Nat) : Statement (.lineWriteback k c r) :=
  ⟨fun h => absurd h (by intro h; cases h), fun h => absurd h (by intro h; cases h)⟩
theorem loadReturn (id : Nat) : Statement (.loadReturn id) :=
  ⟨fun h => absurd h (by intro h; cases h), fun h => absurd h (by intro h; cases h)⟩
theorem storePerform (id : Nat) : Statement (.storePerform id) :=
  ⟨fun h => absurd h (by intro h; cases h), fun h => absurd h (by intro h; cases h)⟩
theorem combineClose (id : Nat) : Statement (.combineClose id) :=
  ⟨fun h => absurd h (by intro h; cases h), fun h => absurd h (by intro h; cases h)⟩
theorem atomPerform (id : Nat) : Statement (.atomPerform id) :=
  ⟨fun h => absurd h (by intro h; cases h), fun h => absurd h (by intro h; cases h)⟩
theorem releaseClosure (k : Nat) (c : Nat) : Statement (.releaseClosure k c) :=
  ⟨fun h => absurd h (by intro h; cases h), fun h => absurd h (by intro h; cases h)⟩
theorem overlayLoadComplete (id : Nat) : Statement (.overlayLoadComplete id) :=
  ⟨fun h => absurd h (by intro h; cases h), fun h => absurd h (by intro h; cases h)⟩
theorem overlayFrameRetry (id : Nat) : Statement (.overlayFrameRetry id) :=
  ⟨fun h => absurd h (by intro h; cases h), fun h => absurd h (by intro h; cases h)⟩
theorem frameProtectionExpiry (id : Nat) : Statement (.frameProtectionExpiry id) :=
  ⟨fun h => absurd h (by intro h; cases h), fun h => absurd h (by intro h; cases h)⟩
theorem fetchAbsentLoad (k : Nat) (c : Nat) : Statement (.fetchAbsentLoad k c) :=
  ⟨fun h => absurd h (by intro h; cases h), fun h => absurd h (by intro h; cases h)⟩
theorem copyChunk (id : Nat) (n : Nat) : Statement (.copyChunk id n) :=
  ⟨fun h => absurd h (by intro h; cases h), fun h => absurd h (by intro h; cases h)⟩
theorem copyComplete (id : Nat) : Statement (.copyComplete id) :=
  ⟨fun h => absurd h (by intro h; cases h), fun h => absurd h (by intro h; cases h)⟩
theorem binScatterComplete (id : Nat) : Statement (.binScatterComplete id) :=
  ⟨fun h => absurd h (by intro h; cases h), fun h => absurd h (by intro h; cases h)⟩
theorem binGatherComplete (id : Nat) : Statement (.binGatherComplete id) :=
  ⟨fun h => absurd h (by intro h; cases h), fun h => absurd h (by intro h; cases h)⟩
theorem arwaitWake (k : Nat) (c : Nat) : Statement (.arwaitWake k c) :=
  ⟨fun h => absurd h (by intro h; cases h), fun h => absurd h (by intro h; cases h)⟩
theorem tfetFillComplete (id : Nat) : Statement (.tfetFillComplete id) :=
  ⟨fun h => absurd h (by intro h; cases h), fun h => absurd h (by intro h; cases h)⟩
theorem tilePinTimeout (id : Nat) : Statement (.tilePinTimeout id) :=
  ⟨fun h => absurd h (by intro h; cases h), fun h => absurd h (by intro h; cases h)⟩
theorem matrixAdmit (id : Nat) : Statement (.matrixAdmit id) :=
  ⟨fun h => absurd h (by intro h; cases h), fun h => absurd h (by intro h; cases h)⟩
theorem matrixPerform (id : Nat) : Statement (.matrixPerform id) :=
  ⟨fun h => absurd h (by intro h; cases h), fun h => absurd h (by intro h; cases h)⟩
theorem versionWait (id : Nat) : Statement (.versionWait id) :=
  ⟨fun h => absurd h (by intro h; cases h), fun h => absurd h (by intro h; cases h)⟩
theorem matrixErrorDelivery (k : Nat) (c : Nat) : Statement (.matrixErrorDelivery k c) :=
  ⟨fun h => absurd h (by intro h; cases h), fun h => absurd h (by intro h; cases h)⟩
theorem accdrPush (id : Nat) : Statement (.accdrPush id) :=
  ⟨fun h => absurd h (by intro h; cases h), fun h => absurd h (by intro h; cases h)⟩
theorem codeTableBusy (k : Nat) (c : Nat) : Statement (.codeTableBusy k c) :=
  ⟨fun h => absurd h (by intro h; cases h), fun h => absurd h (by intro h; cases h)⟩
theorem queueStall (k : Nat) (c : Nat) : Statement (.queueStall k c) :=
  ⟨fun h => absurd h (by intro h; cases h), fun h => absurd h (by intro h; cases h)⟩
theorem achjoinBind (k : Nat) (c : Nat) : Statement (.achjoinBind k c) :=
  ⟨fun h => absurd h (by intro h; cases h), fun h => absurd h (by intro h; cases h)⟩
theorem acnFlitLanding (n : Nat) : Statement (.acnFlitLanding n) :=
  ⟨fun h => absurd h (by intro h; cases h), fun h => absurd h (by intro h; cases h)⟩
theorem acnOrderedForward (k : Nat) (chn : BitVec 2) : Statement (.acnOrderedForward k chn) :=
  ⟨fun h => absurd h (by intro h; cases h), fun h => absurd h (by intro h; cases h)⟩
theorem achwaitComplete (k : Nat) (c : Nat) : Statement (.achwaitComplete k c) :=
  ⟨fun h => absurd h (by intro h; cases h), fun h => absurd h (by intro h; cases h)⟩
theorem selServe (id : Nat) : Statement (.selServe id) :=
  ⟨fun h => absurd h (by intro h; cases h), fun h => absurd h (by intro h; cases h)⟩
theorem selResultReady (id : Nat) : Statement (.selResultReady id) :=
  ⟨fun h => absurd h (by intro h; cases h), fun h => absurd h (by intro h; cases h)⟩
theorem selDeliver (id : Nat) : Statement (.selDeliver id) :=
  ⟨fun h => absurd h (by intro h; cases h), fun h => absurd h (by intro h; cases h)⟩
theorem softmxComplete (id : Nat) : Statement (.softmxComplete id) :=
  ⟨fun h => absurd h (by intro h; cases h), fun h => absurd h (by intro h; cases h)⟩
theorem undefinedEncoding (enc : BitVec 32) : Statement (.undefinedEncoding enc) :=
  ⟨fun h => absurd h (by intro h; cases h), fun h => absurd h (by intro h; cases h)⟩
theorem fetchBeyondOverlay : Statement (.fetchBeyondOverlay) :=
  ⟨fun h => absurd h (by intro h; cases h), fun h => absurd h (by intro h; cases h)⟩
theorem faultService (what : Nat) (id : Nat) : Statement (.faultService what id) :=
  ⟨fun h => absurd h (by intro h; cases h), fun h => absurd h (by intro h; cases h)⟩
theorem residentSetChange (qs : List Nat) : Statement (.residentSetChange qs) :=
  ⟨fun h => absurd h (by intro h; cases h), fun h => absurd h (by intro h; cases h)⟩
theorem halfWidthEnable : Statement (.halfWidthEnable) :=
  ⟨fun h => absurd h (by intro h; cases h), fun h => absurd h (by intro h; cases h)⟩
theorem coreDisable : Statement (.coreDisable) :=
  ⟨fun h => absurd h (by intro h; cases h), fun h => absurd h (by intro h; cases h)⟩
theorem writeBackAndInvalidate : Statement (.writeBackAndInvalidate) :=
  ⟨fun h => absurd h (by intro h; cases h), fun h => absurd h (by intro h; cases h)⟩
theorem contextPoolRefill (ctx : Nat) (aux : Nat) : Statement (.contextPoolRefill ctx aux) :=
  ⟨fun h => absurd h (by intro h; cases h), fun h => absurd h (by intro h; cases h)⟩
theorem resourceRetirement (detail : BitVec 32) : Statement (.resourceRetirement detail) :=
  ⟨fun h => absurd h (by intro h; cases h), fun h => absurd h (by intro h; cases h)⟩
theorem powerStateIdle : Statement (.powerStateIdle) :=
  ⟨fun h => absurd h (by intro h; cases h), fun h => absurd h (by intro h; cases h)⟩
theorem pcieD3cold : Statement (.pcieD3cold) :=
  ⟨fun h => absurd h (by intro h; cases h), fun h => absurd h (by intro h; cases h)⟩

end Sys2Proof.Laws.EncodedForm
end

