-- ==== Sys2Proof/Tests/Slice0.lean ====
section
/-!
SUPPORT. The model's own tests: words written out from the spec's encodings, ill-formed instructions that the check refuses, one step of
each kind on small states, and for every statement with hypotheses a state and operands that meet them.
-/

open Sys2Proof Sys2Proof.Machine Sys2Proof.Statements

namespace Sys2Proof.Tests

set_option Elab.async false

/-! ### A small machine

One consort 0 with one course 0, every register and slot, 262,144 bytes of scratchpad, and overlay 0 RESIDENT; lanes 0 and 1 issue a 32-bit
instruction at halfword 0. Its address space 0 maps VA 0 to 1 GiB to the same physical addresses (spec/09_memory_access.md R256 to R258). -/

def world : State :=
  let s := State.reset.about []
  { s with
    iss := { Issue.blank with set := 3, len := 2 }
    ms := { s.ms with mem := [(0, 1), (2, 0x10), (0x100000, 1), (0x100001, 0x10), (0x100002, 0x10), (0x101000, 0x0F)] } }

/-- A register with a tag and one word per lane. -/
def reg (t : BitVec 4) (f : Nat → Word) : VReg := { tag := t, lanes := vof 32 f }

/-- Vector register n set. -/
def setV (n : Nat) (r : VReg) (s : State) : State := s.modMe (fun c => { c with v := vset c.v n r })

/-- Scalar register n set. -/
def setS (n : Nat) (x : DWord) (s : State) : State := s.setS n x

/-- Port q set. -/
def setP (q : Nat) (p : Port) (s : State) : State := s.modMe (fun c => { c with ports := vset c.ports q p })

/-- The instruction answers a next state for which p holds. -/
def after (i : Instr) (s : State) (p : State → Bool) : Bool :=
  match exec i s with
  | .next t => p t
  | _ => false

/-- The operands read without a cause or a stall. -/
def readsWell (s : State) (srcs : List Src) (d : Option (BitVec 7)) (fp : Bool) (accept : List (BitVec 4)) (rawOk : Bool)
    (t : BitVec 4) (xs : List VReg) : Bool :=
  match s.vecRead srcs d fp accept rawOk noCheck with
  | .ok (_, t1, ys) => decide (t1 = t ∧ ys = xs)
  | .error _ => false

theorem vecRead_of_readsWell {s : State} {srcs : List Src} {d : Option (BitVec 7)} {fp : Bool} {accept : List (BitVec 4)} {rawOk : Bool}
    {t : BitVec 4} {xs : List VReg} (h : readsWell s srcs d fp accept rawOk t xs = true) (hr : ∀ x ∈ srcs, isPort x.v = false) :
    s.vecRead srcs d fp accept rawOk noCheck = .ok (s, t, xs) := by
  unfold readsWell at h
  split at h
  · rename_i s1 t1 ys he
    have g := vecRead_only.2 _ _ hr he
    simp only [decide_eq_true_eq] at h
    rw [he, g, h.1, h.2]
  · cases h

/-- Words of v1 of these lanes. -/
def lanesOf1 (i : Instr) (s : State) (ls : List Nat) : List Word :=
  match exec i s with
  | .next t => ls.map (t.me.getV 1).at
  | _ => []

/-- The word of v1 of lane 0, where it is tagged N32. -/
def answer1 (i : Instr) (s : State) : Option Word :=
  match exec i s with
  | .next t => if (t.me.getV 1).tag = 5 then some ((t.me.getV 1).at 0) else none
  | _ => none

/-- The header of the small machine changed. -/
def setH (f : Header → Header) (s : State) : State := s.modMine (fun q => { q with hdr := f q.hdr })

/-- The issuing course changed. -/
def setC (f : Course → Course) (s : State) : State := s.modMe f

/-! ### Decoding

Each word is written out from the encoding tables of spec/02_encoding.md: the member's fixed bits with these values in its fields. -/

/-- The decoder reads each of these words as its instruction. -/
def reads (nbits : Nat) (rows : List (Nat × Instr)) : Bool := rows.all (fun r => decodeTableWord nbits r.1 == some r.2)

theorem test_decode_short : reads 16
    [(0xE5A0, .movShort 45 28), (0x8402, .iaddShort 32 16), (0x83E4, .isubShort 31 16), (0xFBE6, .iandShort 31 31),
      (0x7348, .iorShort 26 14), (0x54EA, .ixorShort 39 10), (0xC62C, .shlShort 49 24), (0x6FAE, .shrlShort 61 13),
      (0xD2D0, .shraShort 22 26), (0xCBF2, .imulShort 31 25), (0xFE34, .faddShort 49 31), (0xCD16, .fsubShort 40 25),
      (0xFB58, .fmulShort 26 31), (0xECBA, .fminShort 37 29), (0xFBFC, .fmaxShort 31 31),
      (0x9D3E, .moviShort 41 19)] = true := by decide +kernel

theorem test_decode_sys : reads 32
    [(0x00000001, .nop), (0x02C80001, .trap 25), (0x05B80001, .brk 55), (0x06000001, .yield), (0x08281F01, .rdsr 62 5),
      (0x0A3FE001, .wrsr 63 7), (0x0C000B81, .clock 23), (0x0E000001, .prbclr)] = true := by decide +kernel

theorem test_decode_branch : reads 32
    [(0xAC192685, .brnz 77 0x15832 none), (0xA4E45685, .brz 45 0x149c8 none)] = true := by decide +kernel

theorem test_decode_control : reads 32
    [(0x6E241007, .jmp 0xdc482 none), (0x944DD887, .call 0x1289bb none), (0x0001C107, .ret 56), (0x9E953987, .callx 0xd2a7 19),
      (0x00023A07, .callxr 71), (0x00036287, .retx 108), (0x00000307, .exit),
      (0x9B71CB87, .nap 0x136e39)] = true := by decide +kernel

theorem test_decode_mask : reads 32
    [(0x00003809, .join 7), (0x00002889, .leave 5), (0x00005909, .waitm 11), (0x01803189, .mmov 6 6 none),
      (0x00314A09, .mread 9 98), (0x001ABA89, .mwrite 7 53), (0x0032DB09, .mcount 11 101)] = true := by decide +kernel

theorem test_decode_waitc : reads 32
    [(0x93D8D90B, .waitc 18 13 8 13 147)] = true := by decide +kernel

theorem test_decode_salu : reads 32
    [(0x00EFAD0D, .sadd 26 61 29), (0x03F5328D, .ssub 37 41 62), (0x051FDB8D, .smul 55 62 35), (0x0744570D, .sand 46 34 40),
      (0x099B370D, .sor 46 25 51), (0x0B2D360D, .sxor 44 41 37), (0x0D87300D, .sshl 32 57 48), (0x0F64950D, .sshrl 42 36 44),
      (0x118B0B8D, .sshra 23 24 49), (0x138E348D, .smin 41 49 49), (0x14D2ED0D, .smax 26 23 26), (0x176DF48D, .snmin 41 47 45),
      (0x19CE9B8D, .snmax 55 52 57), (0x1B75FB0D, .scmpeq 54 47 46), (0x1D44F18D, .scmplt 35 39 40),
      (0x1EF4F60D, .scmpnlt 44 39 30), (0x21D3350D, .ssel 42 25 58)] = true := by decide +kernel

theorem test_decode_salui : reads 32
    [(0x9842DF0F, .saddi 62 22 0x261 none), (0xFA8ABB8F, .sandi 55 21 0x3ea none), (0xF715D78F, .sori 47 46 0x3dc none),
      (0x999CF70F, .sxori 46 39 0x266 none), (0x0B25B88F, .sshli 49 45 44 none), (0x0BAAB48F, .sshrli 41 21 46 none),
      (0xD0700B0F, .smovi 22 0x341 none), (0x807B390F, .scmpeqi 50 25 0x201 none)] = true := by decide +kernel

theorem test_decode_scalar_memory : reads 32
    [(0xDCC3B191, .sld 35 29 0x373 none), (0x8BCF5F11, .sst 62 58 0x22f none), (0x8213B891, .sldw 49 29 0x208 none),
      (0x6A5B8C11, .sstw 24 28 0x1a9 none)] = true := by decide +kernel

theorem test_decode_ialu : reads 32
    [(0x0510D593, .iadd 43 67 40), (0x1578F613, .isub 108 99 43), (0x2993DE13, .iand 60 79 76), (0x366F1913, .ior 50 60 51),
      (0x45F95B93, .ixor 55 101 47), (0x5CF93393, .andn 103 100 103), (0x6BF16613, .shl 76 69 95), (0x7B356F93, .shrl 95 85 89),
      (0x85F41C13, .shra 56 80 47), (0x971A1E93, .imin 61 104 56), (0xABAD5E13, .imax 60 53 93), (0xB8526813, .nmin 80 73 66),
      (0xC6311B13, .nmax 54 68 49), (0xD010E613, .iabs 76 67), (0xE0182393, .ineg 71 96),
      (0xF00F5693, .mov 45 61)] = true := by decide +kernel

theorem test_decode_ialu2 : reads 32
    [(0x0DB56015, .imul 64 85 109), (0x1BF43095, .imulhi 97 80 95), (0x276A9C15, .nmulhi 56 42 59), (0x382F5D15, .imad 58 61 65),
      (0x40109315, .popc 38 66), (0x50132415, .clz 72 76), (0x601BF095, .brev 97 111),
      (0x78D3E195, .iaddsat 67 79 70)] = true := by decide +kernel

theorem test_decode_ialui : reads 32
    [(0xCE12A197, .iaddi 67 74 206 none), (0x5C327597, .andi 107 73 92 none), (0xF6546197, .ori 67 81 246 none),
      (0x8D72B697, .xori 109 74 141 none), (0xD790A997, .shli 83 66 215 none), (0x68B3EB97, .shrli 87 79 104 none),
      (0xC6D49797, .shrai 47 82 198 none), (0xC7E26F17, .movi 94 9 199 none)] = true := by decide +kernel

theorem test_decode_ialus : reads 32
    [(0x05FB7099, .ialusIadd 97 109 47), (0x0B6A6199, .ialusIsub 67 41 27), (0x12D9DC99, .ialusAnd 57 103 22),
      (0x1B3AA599, .ialusOr 75 106 25), (0x2434F799, .ialusXor 111 83 33), (0x2BD4A019, .ialusAndn 64 82 30),
      (0x3459D999, .ialusShl 51 103 34), (0x3F917399, .ialusShrl 103 69 60), (0x44CE6A19, .ialusShra 84 57 38),
      (0x4CF7B399, .ialusImin 103 94 39), (0x57525C99, .ialusImax 57 73 58), (0x5F955B99, .ialusNmin 55 85 60),
      (0x648B9399, .ialusNmax 39 46 36), (0x68097119, .ialusIabs 98 37)] = true := by decide +kernel

theorem test_decode_icmp : reads 32
    [(0x0C79A21B, .icmpEq 68 102 99), (0x1D2DB19B, .icmpNe 99 54 105), (0x2634611B, .icmpLt 66 81 49),
      (0x3774199B, .icmpLe 51 80 59), (0x47DBE11B, .icmpGt 66 111 62), (0x5B4EE81B, .icmpGe 80 59 90),
      (0x6C31611B, .icmpNlt 66 69 97), (0x759B2A9B, .icmpNle 85 108 44), (0x8A7AB01B, .icmpNgt 96 106 83),
      (0x9C2FA61B, .icmpNge 76 62 97), (0xAD2EA21B, .sel 68 58 105)] = true := by decide +kernel

theorem test_decode_falu : reads 32
    [(0x06D2129D, .fadd 37 72 54), (0x1CABB61D, .fsub 108 46 101), (0x289A341D, .fmul 104 104 68), (0x3DD36F1D, .fmin 94 77 110),
      (0x44AE9E9D, .fmax 61 58 37), (0x50186A1D, .fabs 84 97), (0x600D551D, .fneg 42 53), (0x79141C9D, .fcopysign 57 80 72),
      (0x800F6D9D, .frint 91 61)] = true := by decide +kernel

theorem test_decode_falus : reads 32
    [(0x06109A1F, .falusFadd 52 66 48), (0x0E6FA51F, .falusFsub 74 62 51), (0x14D0211F, .falusFmul 66 64 38),
      (0x1EAE2E1F, .falusFmin 92 56 53), (0x26D0B69F, .falusFmax 109 66 54)] = true := by decide +kernel

theorem test_decode_ffma : reads 32
    [(0x067219A1, .fma 51 72 51), (0x1A4D5321, .fms 38 53 82), (0x26F67721, .fnma 110 89 55),
      (0x3A497421, .fnms 104 37 82)] = true := by decide +kernel

theorem test_decode_fcmp : reads 32
    [(0x0D365E23, .fcmpEq 60 89 105), (0x18CDA523, .fcmpNe 74 54 70), (0x262FD723, .fcmpLt 46 63 49),
      (0x36F2EE23, .fcmpLe 92 75 55), (0x484C6723, .fcmpGt 78 49 66), (0x5730EC23, .fcmpGe 88 67 57),
      (0x652CF223, .fcmpUn 100 51 41), (0x7B5218A3, .fcmpOrd 49 72 90)] = true := by decide +kernel

theorem test_decode_special : reads 32
    [(0x0019EE25, .rcp 92 103), (0x100C70A5, .rsq 97 49), (0x2014E4A5, .sqrt 73 83), (0x3AD5EE25, .div 92 87 86),
      (0x400DDCA5, .exp2 57 55), (0x500C65A5, .log2 75 49), (0x6009B0A5, .sin 97 38),
      (0x7009DBA5, .cos 55 39)] = true := by decide +kernel

theorem test_decode_cvt : reads 32
    [(0x03177727, .cvt 110 93 8 1), (0x10CBA2A7, .cast 69 46 6), (0x275624A7, .pack 73 88 58), (0x300D2A27, .unpacklo 84 52),
      (0x40117727, .unpackhi 110 69), (0x5CD49827, .qdec 12 82 102)] = true := by decide +kernel

theorem test_decode_cross_lane : reads 32
    [(0x0DB16729, .shfl 78 69 109), (0x19F4B4A9, .shflup 105 82 79), (0x287B1BA9, .shfldn 55 108 67),
      (0x384DDAA9, .shflx 53 55 66), (0x4015AD29, .ballot 90 86), (0x501BACA9, .voteall 89 110), (0x6016D929, .voteany 50 91),
      (0x701622A9, .redadd 69 88), (0x801315A9, .redmin 43 76), (0x900FEBA9, .redmax 87 63), (0xA00CEAA9, .scanadd 85 51),
      (0xB00D6429, .matchv 72 53)] = true := by decide +kernel

theorem test_decode_misc : reads 32
    [(0x03E6DEAB, .movs 61 11 1 31), (0x103B5EAB, .vtos 61 109 1), (0x2000202B, .laneid 64), (0x30005D2B, .wid 58 1),
      (0x4000D7AB, .widf 47 3)] = true := by decide +kernel

theorem test_decode_rng : reads 32
    [(0x071B18AD, .rng 49 108 56), (0x1470B62D, .rng4 27 66 35)] = true := by decide +kernel

theorem test_decode_memory : reads 32
    [(0x76B45F2F, .ld 62 81 53 14 none), (0x67B12EB1, .st 93 68 61 12 none), (0x7CF8A1B3, .lds 67 98 39 15 none),
      (0x5EEFB7B5, .sts 111 62 55 11 none), (0x27EAD2B7, .atom 37 43 63 4 none), (0xAC2D5B37, .red 54 53 33 5 none),
      (0x14EFDD39, .atoms 58 63 39 2 none), (0xA67465B9, .reds 75 81 51 4 none)] = true := by decide +kernel

theorem test_decode_fence : reads 32
    [(0x0000033B, .fence 2 1), (0x02C5443B, .xfence 2 42 24)] = true := by decide +kernel

theorem test_decode_barrier : reads 32
    [(0x02C0003D, .bar 11 none), (0x030000BD, .bararr 12 none), (0xC3B3013D, .armw 102 0x30e none),
      (0xA5AF81BD, .arwait 95 0x296 none), (0xE41B023D, .aradd 54 0x390 none)] = true := by decide +kernel

theorem test_decode_copy : reads 32
    [(0x4277403F, .cpy 29 39 2), (0xA59B003F, .cpy2 44 25 5), (0x4B0B003F, .cpym 44 48 2)] = true := by decide +kernel

theorem test_decode_bin : reads 32
    [(0x43B91CC1, .binsc 57 36 59 2), (0x4609A241, .binga 34 38 32 2), (0x09978041, .binrst 30 25),
      (0x0D69DAC1, .binqry 53 39 22)] = true := by decide +kernel

theorem test_decode_matrix : reads 32
    [(0x000565C3, .tfet 3 25 5 0), (0x07BDEFC5, .mma 7 3 47 7 1 1 1 1),
      (0x6B338047, .mloop 28 6 22 1 1)] = true := by decide +kernel

theorem test_decode_accumulator : reads 32
    [(0x01F9C049, .accz 39 31), (0x07FCF049, .accrd 96 51 63), (0x080F5BC9, .accwr 55 61), (0x0E5B3B49, .accdr 6 44 37),
      (0x100A94C9, .accver 41 42), (0x1667C049, .accwv 31 38)] = true := by decide +kernel

theorem test_decode_code_table : reads 32
    [(0x000026CB, .ctset 77), (0x0400304B, .ctget 96)] = true := by decide +kernel

theorem test_decode_network : reads 32
    [(0x0007C04D, .achopen 31), (0x040EC04D, .achjoin 59), (0x0AECC04D, .asend 51 46), (0x0C09D8CD, .achwait 49 39),
      (0x1005404D, .achclose 21)] = true := by decide +kernel

theorem test_decode_selection : reads 32
    [(0x40093ACF, .topk 5 36 2), (0xE407FE4F, .softmx 12 31 7), (0xCA367C4F, .sample 8 25 35 6)] = true := by decide +kernel

theorem test_decode_launch : reads 32
    [(0x01674051, .lnch 29 22), (0x07B7C051, .emit 31 59), (0x0B158051, .jcnew 22 49), (0x0FA68051, .jcdec 26 58),
      (0x100E76D1, .jcwait 109 57), (0x17AFEA51, .mbox 84 63 58)] = true := by decide +kernel

theorem test_decode_overlay : reads 32
    [(0x6005C053, .ovld 23 3), (0x04071C53, .ovpin 56 28), (0x08054053, .ovunpin 21), (0x0C0E56D3, .ovevict 45 57),
      (0x100592D3, .ovqry 37 22)] = true := by decide +kernel

theorem test_decode_port : reads 32
    [(0x02CA7DD5, .qbind 11 41 44), (0x04003B55, .qfree 6), (0x0807EA55, .qstat 84 31)] = true := by decide +kernel

/-- R75. An immediate behind a LIMM, and a LIMM before a member that takes none; R53, R58, R78: words that no member produces. -/
theorem test_decode_limm :
    decodeTableWord 64 0x0040000F00000083 = some (.saddi 0 0 1 (some 1)) ∧ decodeTableWord 64 0x0000000D00000083 = some (.limm 1 0x0D) ∧
    decodeTableWord 32 0x00000083 = some (.limm 1 0) ∧ decodeTableWord 32 0x80000013 = some (.shra 0 0 0) ∧
    decodeTableWord 32 0x00000401 = none ∧ decodeTableWord 32 0x0000007F = none := by
  decide +kernel

/-! ### Well-formedness -/

/-- Every limit on a field refuses a term that breaks it (R50, R51, R59, R61 to R64, R67, R68, R70, R75). -/
theorem test_ill_formed :
    ([.rdsr 0 9, .wrsr 0 6, .brnz 112 0 none, .brz 112 0 none, .ret 112, .callxr 112, .retx 112, .join 12, .leave 12, .waitm 12,
      .mmov 12 0 none, .mmov 0 12 none, .mmov 0 0 (some 1), .mread 12 0, .mwrite 12 0, .mcount 12 0, .sshli 0 0 64 none,
      .sshli 0 0 0 (some 1), .sshrli 0 0 64 none, .sshrli 0 0 0 (some 1), .movi 0 12 0 none, .cvt 0 0 0 0, .cvt 0 0 9 0, .cast 0 0 12,
      .qdec 28 0 0, .movs 0 12 0 0, .widf 0 6, .rng 0 0 63, .rng4 0 0 63, .rng4 28 0 0, .ld 0 112 0 0 none, .ld 1 0 0 16 none,
      .ld 2 0 0 24 none, .ld 112 0 0 16 none, .st 0 112 0 0 none, .st 1 0 0 16 none, .st 0 0 0 1 none, .st 0 0 0 3 none,
      .lds 0 112 0 0 none, .lds 1 0 0 16 none, .sts 0 112 0 0 none, .sts 0 0 0 1 none, .sts 0 0 0 3 none, .atom 112 0 0 0 none,
      .atom 0 112 0 0 none, .atom 111 0 0 9 none, .red 112 0 0 0 none, .red 0 112 0 0 none, .red 0 0 0 8 none, .red 0 0 0 9 none,
      .atoms 112 0 0 0 none, .atoms 111 0 0 9 none, .atoms 0 0 0 11 none, .reds 0 112 0 0 none, .reds 0 0 0 8 none, .reds 0 0 0 9 none,
      .reds 0 0 0 11 none, .fence 0 5, .xfence 5 1 1, .xfence 0 0 1, .xfence 0 1 0, .bar 16 none, .bar 0 (some 1), .bararr 16 none,
      .bararr 0 (some 1), .cpy 63 0 0, .cpy2 61 0 0, .cpym 63 0 0, .binsc 112 0 0 0, .binga 56 0 0 0, .tfet 0 62 0 0, .tfet 0 0 6 0,
      .tfet 0 0 3 1, .mloop 0 0 59 0 0, .achopen 63, .topk 0 61 0, .softmx 0 61 0, .sample 0 61 0 0, .qstat 112 0] : List Instr).all
      (fun i => !i.wf) = true := by decide +kernel

/-- Values at those limits are well formed. -/
theorem test_well_formed :
    ([.rdsr 0 8, .wrsr 0 7, .brnz 111 0 none, .join 11, .mmov 11 11 (some 0), .sshli 0 0 63 (some 0), .movi 0 11 0 none, .cvt 0 0 8 0,
      .qdec 27 0 0, .widf 0 5, .rng4 27 0 62, .ld 110 111 0 16 none, .ld 108 0 0 24 none, .st 127 111 0 0 none, .atom 110 111 0 9 none,
      .red 111 111 0 11 none, .reds 111 111 0 10 none, .fence 3 4, .bar 15 (some 0), .cpy 62 0 0, .cpy2 60 0 0, .binga 55 0 0 0,
      .tfet 7 61 5 1, .mloop 0 0 58 0 0, .achopen 62, .topk 0 60 0, .qstat 111 0] : List Instr).all Instr.wf = true := by decide +kernel

/-! ### What meets the statements' hypotheses: encodings and steps -/

theorem test_hyps_EncodeThenDecode :
    let i : Instr := .saddi 63 63 0x3FF (some 0x1FFFFFF)
    i.wf = true ∧ encoded i ∧ decode (encode i ++ [0xFFFF]) = .instr i 4 := by decide +kernel

theorem test_hyps_DecodeThenEncode : decode [0xF001, 0x7FFF] ≠ .instr .nop 2 ∧ decode [0x0001, 0, 0xFFFF] = .instr .nop 2 := by
  decide +kernel

/-- The small machine about to fetch NOP. -/
def fetching : State := State.reset.about [1, 0, 0, 0]

theorem test_hyps_StepRunsDecodedInstruction :
    let s := fetching
    s.next = some (.issue 0 0) ∧ (s.crs 0 0).issueSet = some (0xFFFFFFFF, 0) ∧ (s.crs 0 0).errorDue = false ∧
      (s.crs 0 0).faultsOf 0xFFFFFFFF = [] ∧ (Inst.holding [1, 0, 0, 0]).st = .resident ∧ s.instFor (s.cons 0) (refOv ((s.crs 0 0).lpcAt (lowest 0xFFFFFFFF))) = some (Inst.holding [1, 0, 0, 0]) ∧
      Instr.nop.wf = true ∧ encoded .nop ∧
      (Inst.holding [1, 0, 0, 0]).window (((s.crs 0 0).lpcAt (lowest 0xFFFFFFFF)).toNat % 65536) = encode .nop ++ [] ∧
      (s.crs 0 0).refused.any (fun r => bit 0xFFFFFFFF r.lane && r.ref == (s.crs 0 0).lpcAt (lowest 0xFFFFFFFF)) = false ∧
      s.inputs = [] ∧ (s.consorts.find? (·.id == 0)).isSome = true ∧ ((s.cons 0).courses.find? (·.idx == 0)).isSome = true := by
  decide +kernel

/-- R202, R247. What an instruction that waits for its check would have popped stands at the head no more, and stands there again
when the failure discards it. -/
theorem test_issue_in_vain :
    let e (x : Word) : Elem := { val := x, tag := 4 }
    let s := setC (fun c => { c with unchecked := some { since := 0, pops := [(1, 1)] } })
      (setP 0 { Port.unbound with bound := true, kind := 2, chan := 1 }
        ((State.reset.about []).modMine (fun q => { q with channels := vset q.channels 1 [e 7, e 8] })))
    s.portElems 0 0 0 = [e 8] ∧ s.ready 0 0 = false ∧
      after .portCheckFail s (fun t => t.portElems 0 0 0 == [e 7, e 8] && (t.crs 0 0).unchecked.isNone) = true := by decide +kernel

/-- Does it answer a next state? -/
def goesOn (o : Host.Outcome State Fault Refusal) : Bool :=
  match o with
  | .next _ => true
  | _ => false

/-- Of StepAdvancesClock too. -/
theorem test_hyps_StepKeepsCanonicalMemory : fetching.canonical ∧ goesOn (step fetching) = true ∧ goesOn (step State.reset) = true := by
  refine ⟨⟨?_, ?_, ?_⟩, ?_, ?_⟩ <;> decide +kernel
theorem test_hyps_StepAdvancesClock : goesOn (step fetching) = true := by decide +kernel


theorem test_hyps_IssueSetIsLowestUnlapped : (fetching.crs 0 0).issueSet = some (0xFFFFFFFF, 0) ∧
    ({ Course.blank with lane := Vector.replicate 32 .exited } : Course).issueSet = none ∧
    ({ Course.blank with lapped := 0xFFFFFFFF } : Course).issueSet = some (0xFFFFFFFF, 0) ∧ (fetching.crs 7 0).issueSet.isSome = true := by
  decide +kernel

/-! ### Counts, traps and operands -/

/-- A header word that declares 8 vector registers, 4 scalar registers and 2 tiles (R30, R31). -/
def few : State := setH (fun h => { h with khw := BitVec.ofNat 32 (3 * 2 ^ 28 + 8 * 2 ^ 13 + 1 * 2 ^ 8 + 2) }) world

theorem test_hyps_OperandBeyondCountTraps :
    few.overCount (.iadd 7 112 127) = none ∧ few.overCount (.iadd 7 8 0) = some 8 ∧ few.overCount (.sadd 3 3 3) = none ∧
      few.overCount (.sadd 3 4 0) = some 4 ∧ few.overCount (.mma 1 1 0 0 0 0 0 0) = none ∧ few.overCount (.mma 2 0 0 0 0 0 0 0) = some 2 := by
  decide +kernel

/-- R32, R79. Its trap: ILLEGAL, sub-cause 1, the operand's number. -/
theorem test_over_count : after (.iadd 7 8 0) { few with iss := { few.iss with enc := 0x000203 } }
    (fun t => (t.me.term.map (·.cause)) == some .illegal) = true := by decide +kernel

/-- A handler at halfword 6 of overlay 0, which is on the core. -/
def handled : State := setH (fun h => { h with traph := 6 }) world

theorem test_hyps_TrapEntersHandler :
    let g : TrapGroup := { cause := .format, lanes := 2, info := 5 }
    let h : TrapGroup := { cause := .misalign, lanes := 1, info := 9 }
    (handled.consorts.find? (·.id == 0)).isSome = true ∧ (handled.mine.courses.find? (·.idx == 0)).isSome = true ∧
      (handled.mine.crs 0).hmask = 0 ∧ [g, h].foldl (fun m h => m ||| h.lanes) 0 = 3 ∧ ([g, h].find? (fun x => bit x.lanes (lowest 3))) = some h ∧
      handled.refusedNow 0 0 = 0 ∧ handled.mine.hdr.traph ≠ 0xFFFFFFFF#32 ∧
      handled.instFor handled.mine (refOv handled.mine.hdr.traph) = some (Inst.holding []) ∧ 1 ≤ handled.mine.hdr.vregs ∧
      handled.mine.hdr.vregs ≤ 112 ∧
      (let y := (handled.deliver 0 0 3 (fun _ => 3) [g]).me
       y.lpcAt 1 = 6 ∧ y.lpcAt 0 = 0 ∧ y.hmask = 2 ∧ y.trapcause = Cause.format.code ∧ (y.getV 111).at 1 = 3 ∧ (y.getV 111).at 0 = 0) ∧
      (let y := (handled.deliver 0 0 3 (fun _ => 3) [g, h]).me
       y.lpcAt 0 = 6 ∧ y.lpcAt 1 = 0 ∧ y.hmask = 1 ∧ y.trapcause = Cause.misalign.code ∧ y.lapped = 2) := by
  decide +kernel

theorem test_hyps_TrapInsideHandlerEndsCourse :
    let s := setC (fun c => { c with hmask := 2 }) handled
    let g (m : BitVec 32) : TrapGroup := { cause := .format, lanes := m, info := 5 }
    (s.consorts.find? (·.id == 0)).isSome = true ∧ (s.mine.courses.find? (·.idx == 0)).isSome = true ∧ (s.mine.crs 0).hmask ≠ 0 ∧
      (g 2).lanes &&& s.me.hmask ≠ 0 ∧ s.me.term = none ∧ (s.deliver 0 0 3 (fun _ => 3) [g 2]).me.ended = true ∧
      (g 1).lanes &&& s.me.hmask = 0 ∧ (s.deliver 0 0 3 (fun _ => 3) [g 1]).me.lapped = 1 ∧ s.refusedNow 0 0 = 0 ∧
      world.mine.hdr.traph = 0xFFFFFFFF#32 ∧ world.me.hmask = 0 ∧ world.refusedNow 0 0 = 0 ∧ world.me.term = none ∧
      (world.deliver 0 0 3 (fun _ => 3) [g 2, { cause := .misalign, lanes := 1, info := 0 }]).me.term =
        some { cls := 1, cause := .misalign, lanes := 1, ref := 3 } := by decide +kernel

/-- v2 and v3 with these tags. -/
def tagged (a b : BitVec 4) : State := setV 2 (reg a (fun _ => 7)) (setV 3 (reg b (fun _ => 9)) world)

theorem test_hyps_TypedSourcesChooseType :
    (let ok (a b : BitVec 4) (raw : Bool) (t : BitVec 4) : Bool :=
       readsWell (tagged a b) [.typed 2, .typed 3] (some 1) false [4, 5] raw t [reg a (fun _ => 7), reg b (fun _ => 9)]
     ok 4 4 false 4 ∧ ok 4 4 true 4 ∧ ok 4 0 true 4 ∧ ok 0 5 true 5 ∧ ok 0 0 true 0 ∧
       ¬ ok 4 5 true 4 ∧ ¬ ok 1 1 true 1 ∧ ¬ ok 4 0 false 4 ∧ ¬ ok 0 0 false 0) ∧
      (let faults (a b : BitVec 4) (raw : Bool) (r : Nat) : Bool := match (tagged a b).vecRead [.typed 2, .typed 3] (some 1) false [4, 5] raw noCheck with
        | .error t => (t.me.term.map (·.cause)) == some .format && t.me.trapinfo == ((tagged a b).fail .format r).me.trapinfo
        | .ok _ => false
       faults 1 4 true 2 ∧ faults 0 4 false 2 ∧ faults 4 5 true 3 ∧ faults 4 0 false 3 ∧ faults 0 1 true 3) ∧
      isPort 1 = false ∧ isPort 2 = false ∧ isPort 3 = false := by decide +kernel

/-- A channel source that holds these elements. -/
def sourced (es : List Elem) : State :=
  setP 0 { Port.unbound with bound := true, kind := 2, chan := 1 }
    (world.modMine (fun q => { q with channels := vset q.channels 1 es }))

theorem test_hyps_PortReadPopsOnePerLane :
    let e (x : Word) (t : BitVec 4) : Elem := { val := x, tag := t }
    isPort 112 = true ∧ world.issuing = true ∧ (world.me.port 0).isSource = false ∧
      ((sourced [e 5 4]).me.port 0).isSource = true ∧ ((sourced [e 5 4]).portElems 0 0 0).length < popcount world.iss.set ∧
      popcount world.iss.set ≤ ((sourced [e 5 4, e 6 5]).portElems 0 0 0).length ∧
      mixedTags (((sourced [e 5 4, e 6 5]).portElems 0 0 0).take 2) = true ∧
      mixedTags (((sourced [e 5 4, e 6 4, e 7 1]).portElems 0 0 0).take 2) = false ∧
      after (.mov 1 112) (sourced [e 5 4, e 6 4, e 7 1])
        (fun t => (t.me.getV 1).at 0 == 5 && (t.me.getV 1).at 1 == 6 && t.portElems 0 0 0 == [e 7 1]) = true ∧
      after (.mov 1 112) (sourced [e 5 4]) (fun t => t.me.stall.isSome && t.me.lpcAt 0 == 0) = true := by decide +kernel

theorem test_hyps_ResultWritesIssueSetOnly :
    let sink (k : BitVec 3) := setP 3 { Port.unbound with bound := true, kind := k, chan := 2 } world
    isPort 111 = false ∧ isPort 115 = true ∧ (∀ k ∈ ([3, 5] : List (BitVec 3)), ((sink k).me.port 3).bound = true ∧ ((sink k).me.port 3).kind = k ∧
      (sink k).issuing = true) ∧
      vget ((sink 3).writeDst 115 4 (fun l => BitVec.ofNat 32 l)).mine.channels [] 2 =
        [{ val := 0, tag := 4 }, { val := 1, tag := 4 }] ∧
      (((sink 5).writeDst 115 4 (fun l => BitVec.ofNat 32 (l + 8))).me.port 3).part = [8, 9] := by decide +kernel

/-! ### Scalar and lane arithmetic

Expected results by hand from spec/08_lane_instructions.md and spec/03_numbers.md. -/

/-- Each instruction, with these words in s2 and s3, writes this word to s1. -/
def scalars (rows : List (Instr × DWord × DWord × DWord)) : Bool :=
  rows.all (fun r => let s := setS 2 r.2.1 (setS 3 r.2.2.1 world)
    decide (Fits s r.1) && after r.1 s (fun t => t.getS 1 == r.2.2.2 && t.me.lpcAt 0 == 2 && t.me.lpcAt 2 == 0))

theorem test_hyps_ScalarResults : scalars
    [(.sadd 1 2 3, 0xFFFFFFFFFFFFFFFF, 2, 1), (.ssub 1 2 3, 0, 1, 0xFFFFFFFFFFFFFFFF), (.smul 1 2 3, 0xFFFFFFFFFFFFFFFF, 2, 0xFFFFFFFFFFFFFFFE),
      (.sand 1 2 3, 0xF0F0, 0xFF00, 0xF000), (.sor 1 2 3, 0xF0F0, 0xFF00, 0xFFF0), (.sxor 1 2 3, 0xF0F0, 0xFF00, 0x0FF0),
      (.sshl 1 2 3, 1, 63, 0x8000000000000000), (.sshl 1 2 3, 1, 64, 0), (.sshrl 1 2 3, 0x8000000000000000, 63, 1),
      (.sshra 1 2 3, 0x8000000000000000, 64, 0xFFFFFFFFFFFFFFFF), (.smin 1 2 3, 0xFFFFFFFFFFFFFFFF, 1, 0xFFFFFFFFFFFFFFFF),
      (.smax 1 2 3, 0xFFFFFFFFFFFFFFFF, 1, 1), (.snmin 1 2 3, 0xFFFFFFFFFFFFFFFF, 1, 1),
      (.snmax 1 2 3, 0xFFFFFFFFFFFFFFFF, 1, 0xFFFFFFFFFFFFFFFF), (.scmpeq 1 2 3, 5, 5, 1), (.scmplt 1 2 3, 0xFFFFFFFFFFFFFFFF, 0, 1),
      (.scmpnlt 1 2 3, 0xFFFFFFFFFFFFFFFF, 0, 0), (.ssel 1 2 3, 5, 6, 6), (.saddi 1 2 0x3FF none, 5, 0, 4),
      (.saddi 1 2 0 (some 1), 5, 0, 1029), (.sandi 1 2 0x3FF none, 0xABCD, 0, 0xABCD), (.sori 1 2 8 none, 1, 0, 9),
      (.sxori 1 2 0x3FF none, 0, 0, 0xFFFFFFFFFFFFFFFF), (.sshli 1 2 63 none, 1, 0, 0x8000000000000000),
      (.sshrli 1 2 63 (some 0), 0x8000000000000000, 0, 1), (.smovi 1 0x3FB none, 0, 0, 0xFFFFFFFFFFFFFFFB),
      (.scmpeqi 1 2 0x3FF none, 0xFFFFFFFFFFFFFFFF, 0, 1)] = true := by decide +kernel

/-- The small machine with words x, y and z of this tag in v2, v3 and v1, in every lane, and n in s4. -/
def lanes3 (t : BitVec 4) (x y z : Word) (n : DWord) : State :=
  setV 1 (reg t (fun _ => z)) (setV 2 (reg t (fun _ => x)) (setV 3 (reg t (fun _ => y)) (setS 4 n world)))

/-- Each instruction, with these words of this tag in v2 and v3 (and y in s4), writes this word with this tag to v1 of lanes 0 and 1. -/
def vectors (rows : List (Instr × BitVec 4 × Word × Word × BitVec 4 × Word)) : Bool :=
  rows.all (fun (i, t, x, y, u, r) => let s := lanes3 t x y 0xAAAAAAAA (y.zeroExtend 64)
    (s.overCount i).isNone && after i s (fun s => (s.me.getV 1).tag == u && (s.me.getV 1).at 0 == r && (s.me.getV 1).at 1 == r &&
      ((s.me.getV 1).at 2 == 0xAAAAAAAA) && s.me.lpcAt 0 == 2))

theorem test_hyps_IntegerResults : vectors
    [(.iadd 1 2 3, 4, 0xFFFFFFFF, 2, 4, 1), (.iadd 1 2 3, 8, 0x77777777, 0x11111111, 8, 0x88888888), (.isub 1 2 3, 7, 0, 0x01010101, 7, 0xFFFFFFFF),
      (.isub 1 2 3, 5, 0, 1, 5, 0xFFFFFFFF), (.imin 1 2 3, 6, 0x80007FFF, 0x00010002, 6, 0x80000002), (.imax 1 2 3, 6, 0x80007FFF, 0x00010002, 6, 0x00017FFF),
      (.nmin 1 2 3, 5, 0xFFFFFFFF, 1, 5, 1), (.nmax 1 2 3, 5, 0xFFFFFFFF, 1, 5, 0xFFFFFFFF), (.iaddsat 1 2 3, 8, 0x77777777, 0x11111111, 8, 0x77777777),
      (.iaddsat 1 2 3, 5, 0xFFFFFFFF, 1, 5, 0xFFFFFFFF), (.imul 1 2 3, 4, 0xFFFFFFFF, 3, 4, 0xFFFFFFFD), (.imulhi 1 2 3, 4, 0xFFFFFFFF, 3, 4, 0xFFFFFFFF),
      (.nmulhi 1 2 3, 5, 0xFFFFFFFF, 3, 5, 2), (.iand 1 2 3, 0, 0xF0F0, 0xFF00, 0, 0xF000), (.ior 1 2 3, 11, 0xF0F0, 0xFF00, 11, 0xFFF0),
      (.ixor 1 2 3, 1, 0xF0F0, 0xFF00, 1, 0x0FF0), (.andn 1 2 3, 4, 0xF0F0, 0xFF00, 4, 0x00F0),
      (.imad 1 2 3, 5, 0x10000, 0x10000, 5, 0xAAAAAAAA)] = true ∧
    readsWell (lanes3 4 1 2 3 0) [.typed 2, .typed 3] (some 1) false [4, 5, 6, 7, 8] false 4 [reg 4 (fun _ => 1), reg 4 (fun _ => 2)] = true := by
  decide +kernel

theorem test_hyps_IntegerUnaryShiftAndImmediateResults : vectors
    [(.iabs 1 2, 6, 0xFFFF8000, 0, 6, 0x00018000), (.ialusIabs 1 2, 4, 0x80000000, 0, 4, 0x80000000), (.ineg 1 2, 7, 0x01FF8000, 0, 7, 0xFF018000),
      (.mov 1 2, 9, 7, 0, 9, 7), (.cast 1 2 11, 1, 7, 0, 11, 7), (.popc 1 2, 4, 0xF000000F, 0, 5, 8), (.clz 1 2, 5, 0, 0, 5, 32),
      (.brev 1 2, 4, 1, 0, 4, 0x80000000), (.shl 1 2 3, 4, 1, 31, 4, 0x80000000), (.shl 1 2 3, 5, 1, 32, 5, 0), (.shrl 1 2 3, 4, 0x80000000, 31, 4, 1),
      (.shra 1 2 3, 4, 0x80000000, 32, 4, 0xFFFFFFFF), (.iaddi 1 2 0xFF none, 4, 0, 0, 4, 0xFFFFFFFF), (.iaddi 1 2 0 (some 1), 5, 1, 0, 5, 257),
      (.andi 1 2 0xF0 none, 0, 0x12345678, 0, 0, 0x12345670), (.ori 1 2 1 none, 1, 2, 0, 1, 3), (.xori 1 2 0xFF none, 5, 0, 0, 5, 0xFFFFFFFF),
      (.shli 1 2 31 none, 5, 1, 0, 5, 0x80000000), (.shrli 1 2 32 none, 5, 1, 0, 5, 0), (.shrai 1 2 31 none, 4, 0x80000000, 0, 4, 0xFFFFFFFF),
      (.movi 1 11 0x80 none, 4, 0, 0, 11, 0xFFFFFF80), (.ialusIadd 1 2 4, 4, 0xFFFFFFFF, 2, 4, 1), (.ialusIsub 1 2 4, 8, 0, 0x11111111, 8, 0xFFFFFFFF),
      (.ialusAnd 1 2 4, 4, 12, 10, 4, 8), (.ialusOr 1 2 4, 4, 12, 10, 4, 14), (.ialusXor 1 2 4, 4, 12, 10, 4, 6), (.ialusAndn 1 2 4, 4, 12, 10, 4, 4),
      (.ialusShl 1 2 4, 5, 1, 31, 5, 0x80000000), (.ialusShrl 1 2 4, 5, 0x80000000, 32, 5, 0), (.ialusShra 1 2 4, 5, 0x80000000, 31, 5, 0xFFFFFFFF),
      (.ialusImin 1 2 4, 4, 0xFFFFFFFF, 1, 4, 0xFFFFFFFF), (.ialusImax 1 2 4, 4, 0xFFFFFFFF, 1, 4, 1), (.ialusNmin 1 2 4, 5, 0xFFFFFFFF, 1, 5, 1),
      (.ialusNmax 1 2 4, 5, 0xFFFFFFFF, 1, 5, 0xFFFFFFFF)] = true := by decide +kernel

theorem test_hyps_IntegerCompareAndSelectResults : vectors
    [(.icmpEq 1 2 3, 7, 0x01020304, 0x01FF03FF, 5, 0xFF00FF00), (.icmpNe 1 2 3, 4, 1, 1, 5, 0), (.icmpLt 1 2 3, 4, 0xFFFFFFFF, 0, 5, 0xFFFFFFFF),
      (.icmpLe 1 2 3, 6, 0x80000001, 0x7FFF0001, 5, 0xFFFFFFFF), (.icmpGt 1 2 3, 8, 0x80000000, 0, 5, 0), (.icmpGe 1 2 3, 4, 0, 0, 5, 0xFFFFFFFF),
      (.icmpNlt 1 2 3, 5, 0xFFFFFFFF, 0, 5, 0), (.icmpNle 1 2 3, 5, 0, 0, 5, 0xFFFFFFFF), (.icmpNgt 1 2 3, 5, 0xFFFFFFFF, 0, 5, 0xFFFFFFFF),
      (.icmpNge 1 2 3, 5, 0, 1, 5, 0), (.sel 1 2 3, 4, 5, 6, 4, 5)] = true := by decide +kernel

/-- A 16-bit form over v1 (old word 10) and v2. -/
def shorts (rows : List (Instr × BitVec 4 × Word × Word × Word)) : Bool :=
  rows.all (fun (i, t, d, x, r) => let s := lanes3 t x 0 d 0
    decide (Fits s i) && after i s (fun s => (s.me.getV 1).tag == t && (s.me.getV 1).at 0 == r && (s.me.getV 1).at 2 == d))

theorem test_hyps_ShortFormResults : shorts
    [(.movShort 1 2, 9, 5, 6, 6), (.iaddShort 1 2, 4, 0xFFFFFFFF, 2, 1), (.isubShort 1 2, 5, 0, 1, 0xFFFFFFFF), (.iandShort 1 2, 4, 12, 10, 8),
      (.iorShort 1 2, 4, 12, 10, 14), (.ixorShort 1 2, 4, 12, 10, 6), (.shlShort 1 2, 4, 1, 32, 0), (.shrlShort 1 2, 4, 0x80000000, 31, 1),
      (.shraShort 1 2, 4, 0x80000000, 32, 0xFFFFFFFF), (.imulShort 1 2, 5, 3, 5, 15), (.moviShort 1 31, 4, 0, 0, 0xFFFFFFFF),
      (.faddShort 1 2, 1, 0x3F800000, 0x40000000, 0x40400000), (.fsubShort 1 2, 1, 0x3F800000, 0x40000000, 0xBF800000),
      (.fmulShort 1 2, 1, 0x40000000, 0x40000000, 0x40800000), (.fminShort 1 2, 1, 0x00000000, 0x80000000, 0x80000000),
      (.fmaxShort 1 2, 1, 0x80000000, 0x00000000, 0x00000000)] = true := by decide +kernel

/-! ### Floating point -/

theorem test_hyps_RepresentableValuesRoundToThemselves :
    (0x7F800001 < 2 ^ (1 + F32.eb + F32.mb) ∧ F32.val 0x7F800001 = .nan ∧ F32.round 0 (F32.val 0x7F800001) = F32.nan) ∧
      0x00000001 < 2 ^ (1 + F32.eb + F32.mb) ∧ F32.round 3 (F32.val 1) = 1 ∧ 0xFFFF < 2 ^ (1 + F16.eb + F16.mb) ∧
      BF16.round 1 (BF16.val 0x8001) = 0x8001 := by decide +kernel

theorem test_hyps_MinMaxAndCompareRules :
    F32.val 0x7FC00000 = .nan ∧ F32.val 0x3F800000 ≠ .nan ∧ F32.minmax true 0x7FC00000 0x3F800000 = 0x3F800000 ∧
      F32.minmax false 0x3F800000 0x7F800001 = 0x3F800000 ∧ F16.minmax true 0x7E00 0x7E01 = F16.nan := by decide +kernel

/-- The same with y in s4 for the forms with a scalar operand; v1 holds 1.0 as the third operand of FFMA. -/
def floats (rows : List (Instr × BitVec 4 × Word × Word × BitVec 4 × Word)) : Bool :=
  rows.all (fun (i, t, x, y, u, r) => let s := lanes3 t x y (if t = 1 then 0x3F800000 else 0x3F803F80) (y.zeroExtend 64)
    (s.overCount i).isNone && after i s (fun s => (s.me.getV 1).tag == u && (s.me.getV 1).at 0 == r && s.me.lpcAt 0 == 2))

theorem test_hyps_FloatResults : floats
    [(.fadd 1 2 3, 1, 0x3F800000, 0x33800000, 1, 0x3F800000), (.fadd 1 2 3, 2, 0x3F803F80, 0x3F80BF80, 2, 0x40000000),
      (.fsub 1 2 3, 1, 0x3F800000, 0x3F800000, 1, 0), (.fmul 1 2 3, 1, 0x40400000, 0x40400000, 1, 0x41100000),
      (.fmin 1 2 3, 1, 0x7FC00000, 0x40000000, 1, 0x40000000), (.fmax 1 2 3, 3, 0x3C004000, 0x40003C00, 3, 0x40004000),
      (.falusFadd 1 2 4, 1, 0x3F800000, 0x3F800000, 1, 0x40000000), (.falusFsub 1 2 4, 1, 0x3F800000, 0x40000000, 1, 0xBF800000),
      (.falusFmul 1 2 4, 1, 0xBF800000, 0x40000000, 1, 0xC0000000), (.falusFmin 1 2 4, 1, 0, 0x80000000, 1, 0x80000000),
      (.falusFmax 1 2 4, 1, 0x80000000, 0, 1, 0), (.fabs 1 2, 1, 0xC0000000, 0, 1, 0x40000000), (.fneg 1 2, 1, 0, 0, 1, 0x80000000),
      (.fcopysign 1 2 3, 1, 0x40000000, 0x80000000, 1, 0xC0000000), (.frint 1 2, 1, 0x40200000, 0, 1, 0x40000000),
      (.fma 1 2 3, 1, 0x40000000, 0x40400000, 1, 0x40E00000), (.fms 1 2 3, 1, 0x40000000, 0x40400000, 1, 0x40A00000),
      (.fnma 1 2 3, 1, 0x40000000, 0x40400000, 1, 0xC0A00000), (.fnms 1 2 3, 1, 0x40000000, 0x40400000, 1, 0xC0E00000),
      (.div 1 2 3, 1, 0x3F800000, 0, 1, 0x7F800000), (.sqrt 1 2, 1, 0x40800000, 0, 1, 0x40000000), (.sqrt 1 2, 1, 0xBF800000, 0, 1, 0x7FC00000)] = true := by
  decide +kernel

/-- R235. -/
theorem test_float_compares : floats
    [(.fcmpEq 1 2 3, 1, 0, 0x80000000, 5, 0xFFFFFFFF), (.fcmpNe 1 2 3, 1, 0x7FC00000, 0x7FC00000, 5, 0xFFFFFFFF),
      (.fcmpLt 1 2 3, 2, 0x3F80BF80, 0x40003F80, 5, 0xFFFFFFFF), (.fcmpLe 1 2 3, 1, 0x40000000, 0x3F800000, 5, 0),
      (.fcmpGt 1 2 3, 1, 0x40000000, 0x3F800000, 5, 0xFFFFFFFF), (.fcmpGe 1 2 3, 1, 0x7FC00000, 0, 5, 0),
      (.fcmpUn 1 2 3, 1, 0x7FC00000, 0, 5, 0xFFFFFFFF), (.fcmpOrd 1 2 3, 1, 0, 0, 5, 0xFFFFFFFF)] = true := by decide +kernel

theorem test_hyps_SpecialFunctionResults : floats
    [(.rcp 1 2, 1, 0x80000000, 0, 1, 0xFF800000), (.rsq 1 2, 1, 0x7F800000, 0, 1, 0), (.exp2 1 2, 1, 0xFF800000, 0, 1, 0),
      (.log2 1 2, 1, 0x80000000, 0, 1, 0xFF800000), (.sin 1 2, 1, 0x7F800000, 0, 1, 0x7FC00000), (.cos 1 2, 1, 0, 0, 1, 0x3F800000)] = true := by
  decide +kernel

theorem test_hyps_ConversionResults : floats
    [(.cvt 1 2 4 0, 1, 0x40200000, 0, 4, 2), (.cvt 1 2 1 0, 4, 0xFFFFFFFF, 0, 1, 0xBF800000), (.cvt 1 2 2 0, 1, 0x3F800000, 0, 2, 0x00003F80),
      (.pack 1 2 3, 2, 0x11112222, 0x33334444, 2, 0x44442222), (.unpacklo 1 2, 2, 0x40003F80, 0, 1, 0x3F800000),
      (.unpackhi 1 2, 2, 0x40003F80, 0, 1, 0x40000000), (.unpackhi 1 2, 7, 0x80010000, 0, 6, 0xFF800001)] = true ∧
    cvtTarget 8 = true ∧
    (let s (t : BitVec 4) := setV 8 (reg t (fun _ => 0x80000000)) (setV 9 (reg 1 (fun _ => 0x3F800000)) world)
     (∀ t ∈ ([9, 10] : List (BitVec 4)), Fits (s t) (.qdec 27 8 9) ∧ (s t).mine.hdr.ctabbed = true ∧
       after (.qdec 27 8 9) (s t) (fun u => (u.me.getV 111).tag == 2 && (u.me.getV 107).tag == 0) = true)) ∧
    (let s := setV 9 (reg 1 (fun _ => 0x3F800000)) (sourced [{ val := 0x80000000, tag := 9 }, { val := 0, tag := 9 }])
     Fits s (.qdec 27 112 9) ∧ after (.qdec 27 112 9) s (fun u => (u.me.getV 111).tag == 2 && u.portElems 0 0 0 == []) = true) := by
  decide +kernel

/-! ### Between lanes, system, control and masks -/

/-- Four lanes issue; v2 holds 10 + l, v3 holds y; the header in compatibility mode or not. -/
def four (compat : Bool) (t : BitVec 4) (y : Word) : State :=
  let s := setV 2 (reg t (fun l => BitVec.ofNat 32 (10 + l))) (setV 3 (reg 5 (fun _ => y)) world)
  { (if compat then setH (fun h => { h with khw := h.khw ||| 0x00200000 }) s else s) with iss := { world.iss with set := 0x0003000F } }

theorem test_hyps_CrossLaneResults :
    (∀ b : Bool, (four b 4 1).issuing = true) ∧ (four true 4 1).mine.hdr.compat = true ∧ (four false 4 1).mine.hdr.compat = false ∧
      (∀ i ∈ [Instr.shfl 1 2 3, .shflup 1 2 3, .shfldn 1 2 3, .shflx 1 2 3, .ballot 1 2, .voteall 1 2, .voteany 1 2, .matchv 1 2, .redadd 1 2,
        .scanadd 1 2, .redmin 1 2, .redmax 1 2], (four true 4 1).overCount i = none) ∧
      lanesOf1 (.shfl 1 2 3) (four false 4 17) [0, 16] = [27, 27] ∧ lanesOf1 (.shfl 1 2 3) (four true 4 17) [0, 16] = [11, 27] ∧
      lanesOf1 (.shflup 1 2 3) (four false 4 1) [0, 1, 16] = [10, 10, 26] ∧ lanesOf1 (.shfldn 1 2 3) (four false 4 1) [0, 3] = [11, 13] ∧
      lanesOf1 (.shflx 1 2 3) (four true 4 16) [0, 17] = [10, 27] ∧ lanesOf1 (.ballot 1 2) (four false 4 0) [0] = [0x0003000F] ∧
      lanesOf1 (.ballot 1 2) (four true 4 0) [0, 16] = [0x000F000F, 0x00030003] ∧ lanesOf1 (.voteall 1 2) (four false 4 0) [0] = [0xFFFFFFFF] ∧
      lanesOf1 (.voteany 1 2) (setV 2 (reg 4 (fun l => if l = 4 then 1 else 0)) (four false 4 0)) [0] = [0] ∧
      lanesOf1 (.matchv 1 2) (setV 2 (reg 4 (fun l => if l = 1 then 1 else 0)) (four false 4 0)) [0, 1] = [0x0003000D, 2] ∧
      lanesOf1 (.redadd 1 2) (four false 4 0) [0, 16] = [99, 99] ∧ lanesOf1 (.redadd 1 2) (four true 4 0) [0, 16] = [46, 53] ∧
      lanesOf1 (.scanadd 1 2) (four false 4 0) [0, 1, 17] = [10, 21, 99] ∧
      lanesOf1 (.scanadd 1 2) (setV 2 (reg 1 (fun _ => 0x3F800000)) (four false 1 0)) [0, 17] = [0x3F800000, 0x40C00000] ∧
      lanesOf1 (.redadd 1 2) (setV 2 (reg 1 (fun _ => 0x3F800000)) (four true 1 0)) [0, 17] = [0x40800000, 0x40000000] ∧
      lanesOf1 (.redmax 1 2) (setV 2 (reg 1 (fun l => if l = 1 then 0x7FC00001 else 0x40000000)) (four false 1 0)) [1] = [0x40000000] ∧
      lanesOf1 (.redmin 1 2) (setV 2 (reg 1 (fun _ => 0x7F800001)) (four false 1 0)) [1] = [0x7FC00000] ∧
      lanesOf1 (.redmin 1 2) (setV 2 (reg 4 (fun l => if l = 1 then 0xFFFFFFFF else 1)) (four false 4 0)) [3] = [0xFFFFFFFF] ∧
      lanesOf1 (.redmax 1 2) (setV 2 (reg 5 (fun l => if l = 1 then 0xFFFFFFFF else 1)) (four false 5 0)) [3] = [0xFFFFFFFF] := by
  decide +kernel

theorem test_hyps_IdentityAndRandomResults :
    let s := setS 5 0x1111111122222222 (setV 2 (reg 4 (fun _ => 7)) (setV 3 (reg 5 (fun l => BitVec.ofNat 32 l)) world))
    let halves : State := { setH (fun h => { h with khw := h.khw ||| 0x00200000 }) s with iss := { s.iss with set := 0x20000 } }
    lanesOf1 (.movs 1 4 1 5) s [0, 1] = [0x11111111, 0x11111111] ∧ lanesOf1 (.laneid 1) s [1] = [1] ∧ lanesOf1 (.wid 1 0) s [1] = [1] ∧
      s.mine.hdr.compat = false ∧ lanesOf1 (.widf 1 0) s [1] = [1] ∧ halves.mine.hdr.compat = true ∧
      lanesOf1 (.widf 1 0) halves [17] = [1] ∧ lanesOf1 (.widf 1 1) halves [17] = [1] ∧ (lanesOf1 (.rng 1 2 4) s [0]).length = 1 ∧
      Fits s (.rng4 27 2 62) ∧ (27 : BitVec 5).toNat < 28 ∧ readsWell s [Src.of 2 [4, 5, 0]] none false [] true 0 [reg 4 (fun _ => 7)] = true ∧ Fits s (.vtos 6 2 1) ∧ (s.me.getV 2).tag.toNat < 12 ∧
      after (.vtos 5 2 1) s (fun t => t.getS 5 == 0x0000000722222222) = true ∧
      after (.vtos 5 3 0) s (fun t => t.me.term.map (·.cause) == some .uniform) = true ∧
      (let p := sourced [{ val := 7, tag := 4 }, { val := 7, tag := 4 }]
       Fits p (.vtos 5 112 0) ∧ after (.vtos 5 112 0) p (fun t => t.getS 5 == 7 && t.portElems 0 0 0 == []) = true ∧ Fits p (.rng4 27 112 62) ∧
         after (.rng4 27 112 62) p (fun t => (t.me.getV 111).tag == 5 && t.portElems 0 0 0 == []) = true) := by
  decide +kernel

/-- R246. The words of Philox 4x32 with 10 rounds for counter 0 and key 0, as its authors publish them. -/
theorem test_philox : philox 0 0 0 0 = [0x6627E8D5, 0xE169C58D, 0xBC57AC4C, 0x9B00DBD8] := by decide +kernel

theorem test_hyps_SystemInstructionResults :
    let s := setS 5 6 world
    Fits s (.clock 63) ∧ Fits s (.wrsr 5 7) ∧ Fits s (.rdsr 63 8) ∧
      after (.wrsr 5 7) s (fun t => t.me.fpmode == 6) = true ∧ after (.rdsr 1 0) s (fun t => t.getS 1 == 0x31) = true ∧
      after (.trap 63) handled (fun t => t.me.trapinfo == 63 && t.me.lpcAt 0 == 6 && (t.me.getV 111).at 0 == 2) = true ∧
      after (.undefinedEncoding 0x7F) (setH (fun h => { h with khw := h.khw ||| 0x00100000 }) world) (fun t => t.me.lpcAt 0 == 2 && t.me.probef) = true := by
  decide +kernel

theorem test_hyps_ControlTransferResults :
    let s := setV 3 (reg 5 (fun l => BitVec.ofNat 32 (8 + l))) (setV 2 (reg 0 (fun l => BitVec.ofNat 32 l)) world)
    s.issuing = true ∧ isPort 2 = false ∧ (s.me.getV 2).tag.toNat < 12 ∧ s.overCount (.brnz 2 4 none) = none ∧ s.overCount (.call 4 none) = none ∧
      s.overCount (.ret 3) = none ∧ (∀ l : Nat, l < 32 → bit s.iss.set l = true → refOv ((s.me.getV 3).at l) = refOv s.iss.own) ∧
      after (.brnz 2 4 none) s (fun t => t.me.lpcAt 1 == 4 && t.me.lpcAt 0 == 2 && t.me.lapped == 0) = true ∧
      after (.brz 2 0 none) s (fun t => t.me.lpcAt 0 == 0 && t.me.lpcAt 1 == 2 && t.me.lapped == 1) = true ∧
      after (.jmp 0x1FFFFF none) s (fun t => t.me.lpcAt 0 == 0xFFFF && t.me.lpcAt 2 == 0) = true ∧
      after (.call 4 none) s (fun t => t.me.lpcAt 0 == 4 && (t.me.getV 0).at 0 == 2 && (t.me.getV 0).tag == 5) = true ∧
      after (.ret 3) s (fun t => t.me.lpcAt 0 == 8 && t.me.lpcAt 1 == 9) = true ∧
      after .exit s (fun t => t.me.laneAt 0 == .exited && t.me.laneAt 2 == .running && t.me.exitMask == 3) = true ∧
      after (.nap 5) s (fun t => t.me.hold == .nap 6 && t.me.lpcAt 0 == 2) = true := by decide +kernel

theorem test_hyps_ReturnFaults :
    let s (t : BitVec 4) (f : Nat → Word) : State := setV 3 (reg t f) world
    let bad (u : State) : BitVec 32 := maskOf (fun l => bit u.iss.set l && refOv ((u.me.getV 3).at l) != refOv u.iss.own)
    (∀ t ∈ ([4, 5] : List (BitVec 4)), Fits (s t (fun _ => 8)) (.ret 3)) ∧ isPort 3 = false ∧ bad (s 5 (fun _ => 8)) = 0 ∧
      bad (s 0 (fun l => if l = 1 then 0x10008 else 8)) = 2 ∧
      after (.ret 3) (s 4 (fun _ => 8)) (fun t => t.me.term.map (·.cause) == some .format) = true ∧
      after (.ret 3) (s 0 (fun l => if l = 1 then 0x10008 else 8)) (fun t => t.me.term.map (·.lanes) == some 2) = true := by decide +kernel

theorem test_hyps_MaskAndWaitResults :
    let s := setC (fun c => { c with m := vset c.m 11 4 }) (setV 3 (reg 5 (fun _ => 6)) world)
    let w := setC (fun c => { c with m := vset c.m 11 4, lane := vset c.lane 2 (.waiting 11) }) world
    let e := setC (fun c => { c with loads := 1 }) world
    let popped (a b : Elem) : State := sourced [a, b]
    let stuck := setC (fun c => { c with m := vset c.m 11 0x80000000, lane := vof 32 (fun l => if l < 2 then .running else .exited) }) handled
    let failed := setC (fun c => { c with tokens := c.tokens.set 5 { Token.fresh with st := .error .poison, addr := 9 } }) handled
    let partly := setC (fun c => { c with tokens := c.tokens.set 5 { Token.fresh with st := .error .multicastPartial, dst := true, failed := 2, detail := 1 } }) handled
    s.issuing = true ∧ (11 : BitVec 4).toNat < 12 ∧ s.overCount (.mwrite 11 3) = none ∧ s.overCount (.mread 11 1) = none ∧ s.iss.set ≠ 0 ∧
      (bit s.iss.set 2 = false ∧ s.me.laneAt 2 = .running ∧ bit (s.me.getM 11) 2 = true ∧ s.me.laneAt 2 ≠ .waiting 11) ∧
      (∀ l : Nat, l < 32 → bit (w.me.getM 11) l = true → bit w.iss.set l = true ∨ w.me.laneAt l = .waiting 11) ∧
      (∀ n : Nat, n < 8 → (s.me.token n).st = .free) ∧ s.me.tokenError 0xFF = none ∧ e.me.loads = 1 ∧
      after (.join 11) s (fun t => t.me.getM 11 == 7) = true ∧ after (.leave 11) s (fun t => t.me.getM 11 == 4) = true ∧
      after (.mmov 0 11 none) s (fun t => t.me.getM 0 == 4) = true ∧ after (.mwrite 11 3) s (fun t => t.me.getM 11 == 6) = true ∧
      lanesOf1 (.mread 11 1) s [0] = [4] ∧ lanesOf1 (.mcount 11 1) s [0] = [1] ∧
      after (.waitm 11) s (fun t => t.me.laneAt 0 == .waiting 11 && t.me.lpcAt 0 == 0 && t.me.getM 11 == 7) = true ∧
      after (.waitm 11) w (fun t => t.me.laneAt 0 == .running && t.me.laneAt 2 == .running) = true ∧
      after (.waitc 0 15 15 15 0) e (fun t => t.me.lpcAt 0 == 0 && t.me.stall.isSome) = true ∧
      after (.waitc 31 15 15 15 0xFF) s (fun t => t.me.lpcAt 0 == 2) = true ∧
      after (.mwrite 11 112) (popped { val := 6, tag := 5 } { val := 6, tag := 5 }) (fun t => t.me.getM 11 == 6) = true ∧
      after (.mwrite 11 112) (popped { val := 6, tag := 5 } { val := 7, tag := 5 }) (fun t => t.me.term.map (·.cause) == some .uniform) = true ∧
      after (.mwrite 11 112) (popped { val := 6, tag := 4 } { val := 6, tag := 4 }) (fun t => t.me.term.map (·.cause) == some .format) = true ∧
      after (.mwrite 11 112) (sourced []) (fun t => t.me.stall.map (·.why) == some .port) = true ∧
      after (.waitm 11) stuck (fun t => t.me.trapcause == Cause.maskDeadlock.code && t.me.trapinfo == 3 && t.me.lpcAt 1 == 6) = true ∧
      (∀ n : Nat, n < 8 → (failed.me.token n).st ≠ .pending) ∧ (failed.me.token 5).st = .error .poison ∧
      after (.waitc 31 15 15 15 0xFF) failed (fun t => t.me.trapcause == Cause.poison.code && t.me.trapinfo == 0xA000000000000009 &&
        (t.me.token 5).st == .free) = true ∧
      after (.waitc 31 15 15 15 0xFF) partly (fun t => t.me.trapinfo == 0xB000000000010002) = true ∧
      after (.waitc 31 15 15 15 0xFF) (setC (fun c => { c with hmask := 4 }) failed) (fun t => (t.me.token 5).st == .error .poison && t.me.lapped == 3) = true ∧
      after (.waitc 31 15 15 15 0) failed (fun t => t.me.lpcAt 0 == 2) = true := by
  repeat' apply And.intro
  all_goals decide +kernel

/-! ### Overlays -/

/-- The overlay table at VA 0x200000, of three overlays; 0 and 1 are on the core, 1 with entries at halfwords 0 and 5. -/
def tabled : State :=
  let s := setH (fun h => { h with otaddr := 0x200000 }) world
  { s with
    ms := { s.ms with mem := s.ms.mem ++ [(0x200000, 3), (0x200188, 2)] }
    core := { s.core with insts :=
      [{ Inst.holding [] with sharers := [{ aspace := 0, ot := 0x200000, ov := 0 }] },
       { Inst.holding [] with uid := 1, sharers := [{ aspace := 0, ot := 0x200000, ov := 1 }]
                              entry := { (Inst.holding []).entry with nentry := 2, entryoff := [0, 5] } }] } }

/-- The bytes of the count of that table. -/
theorem tabled_count : tabled.fetchCount tabled.mine = .bytes [3, 0, 0, 0] 0x200000 := by decide +kernel

theorem test_hyps_OverlayTransferResults :
    let s := setV 3 (reg 5 (fun l => BitVec.ofNat 32 (0x10007 + l))) tabled
    s.issuing = true ∧ s.fetchCount s.mine = .bytes [3, 0, 0, 0] 0x200000 ∧ s.overCount (.callx 1 1) = none ∧
      (1 : BitVec 16).toNat < leNat [3, 0, 0, 0] ∧ (1 : BitVec 16) ≠ 0xFFFF#16 ∧ (s.instFor s.mine 1).isSome = true ∧
      (∀ l : Nat, l < 32 → bit s.iss.set l = true → (refOv ((s.me.getV 3).at l)).toNat < leNat [3, 0, 0, 0] ∧
        refOv ((s.me.getV 3).at l) ≠ 0xFFFF#16 ∧
        (s.instFor s.mine (refOv ((s.me.getV 3).at l))).isSome = true) ∧
      after (.callx 1 1) s (fun t => t.me.lpcAt 0 == 0x10005 && (t.me.getV 0).at 1 == 2 && t.me.lpcAt 2 == 0) = true ∧
      after (.callxr 3) s (fun t => t.me.lpcAt 1 == 0x10008 && (t.me.getV 0).at 1 == 2) = true ∧
      after (.retx 3) s (fun t => t.me.lpcAt 1 == 0x10008 && (t.me.getV 0).at 1 == 0) = true ∧
      s.overCount (.callx 3 0) = none ∧ s.overCount (.callx 1 2) = none ∧ (s.me.getV 4).tag = 0 ∧ s.iss.refused = 0 ∧
      (∀ i ∈ [Instr.callx 3 0, .callx 0xFFFF 0, .callx 1 2], after i s (fun t => t.me.term.map (·.cause) == some .badHandle) = true) ∧
      (∀ i ∈ [Instr.callxr 3, .retx 3], after i (setV 3 (reg 4 (fun _ => 0x10007)) tabled)
        (fun t => t.me.term.map (·.cause) == some .format && t.me.lpcAt 0 == 0) = true) := by decide +kernel

/-- The entry of an overlay reads, and is or is not well formed. -/
def entryOk (s : State) (ov : Nat) : Option Bool :=
  match s.fetchEntry s.mine ov with
  | .bytes bs _ => some (OvEntry.ofBytes bs).ok
  | _ => none

theorem test_hyps_OverlayMissGoesToManager :
    let m := setH (fun h => { h with ovmgr := 9 }) tabled
    let g : TrapGroup := { cause := .format, lanes := 2, info := 5 }
    let h := setH (fun h => { h with traph := 0x20004 }) m
    let low : State := { tabled with ms := { tabled.ms with mem := tabled.ms.mem.filter (fun x => x.1 != 0x200188) } }
    entryOk tabled 2 = some true ∧ entryOk m 2 = some true ∧ entryOk low 2 = some false ∧ Fits low (.callx 2 0) ∧
    Fits tabled (.callx 2 0) ∧ (2 : BitVec 16).toNat < leNat [3, 0, 0, 0] ∧ tabled.instFor tabled.mine 2 = none ∧
      m.mine.hdr.ovmgr ≠ 0xFFFFFFFF#32 ∧ tabled.mine.hdr.ovmgr = 0xFFFFFFFF#32 ∧ h.mine.hdr.traph ≠ 0xFFFFFFFF#32 ∧
      h.instFor h.mine (refOv h.mine.hdr.traph) = none ∧ (h.mine.crs 0).hmask = 0 ∧ g.lanes ≠ 0 ∧
      after (.callx 2 0) m (fun t => t.me.lpcAt 0 == 9 && t.me.missref == 0x2000000200000000) = true ∧
      after (.callx 2 0) low (fun t => t.me.term.map (·.cause) == some .badHandle) = true ∧
      after (.callx 2 0) tabled (fun t => t.me.term.map (·.cause) == some .overlayMiss) = true ∧
      (let y := (h.deliver 0 0 3 (fun _ => 3) [g]).me
       y.lpcAt 1 = 9 ∧ y.missref = 0x8000000200020004) ∧
      ((setH (fun h => { h with traph := 0x30004 }) m).deliver 0 0 3 (fun _ => 3) [g]).me.term =
        some { cls := 1, cause := .badHandle, lanes := 2, ref := 3 } ∧
      ((setH (fun h => { h with traph := 0xFFFF0004 }) m).deliver 0 0 3 (fun _ => 3) [g]).me.term =
        some { cls := 1, cause := .badHandle, lanes := 2, ref := 3 } ∧
      ((setH (fun h => { h with traph := 0x20004 }) low).deliver 0 0 3 (fun _ => 3) [g]).me.term =
        some { cls := 1, cause := .badHandle, lanes := 2, ref := 3 } ∧
      ((setH (fun h => { h with traph := 0x20004 }) tabled).deliver 0 0 3 (fun _ => 3) [g]).me.term =
        some { cls := 1, cause := .format, lanes := 2, ref := 3 } := by decide +kernel

/-- R177, R182. The lanes of one CALLXR that misses part on their ways. -/
theorem test_hyps_OverlayMissGoesToManager_registers :
    let regs : State := setV 3 (reg 5 (fun l => if l = 0 then 0x10007 else if l = 1 then 0x20000 else 0x90000)) { tabled with iss := { tabled.iss with set := 7 } }
    let m := setH (fun h => { h with ovmgr := 9, traph := 6 }) regs
    let low : State := { m with ms := { m.ms with mem := m.ms.mem.filter (fun x => x.1 != 0x200188) } }
    Fits m (.callxr 3) ∧ Fits m (.retx 3) ∧ (m.me.getV 3).tag = 5 ∧ entryOk m 2 = some true ∧ entryOk low 2 = some false ∧
      (m.instFor m.mine 1).isSome = true ∧ (m.instFor m.mine 2).isNone = true ∧
      after (.callxr 3) m (fun t => t.me.lpcAt 0 == 0x10007 && (t.me.getV 0).at 0 == 2 && t.me.lpcAt 1 == 9 && t.me.lpcAt 2 == 6 &&
        t.me.hmask == 4 && t.me.trapcause == Cause.badHandle.code && t.me.missref == 0x4000000200000000) = true ∧
      after (.retx 3) low (fun t => t.me.lpcAt 0 == 0x10007 && t.me.hmask == 6 && t.me.missref == 0) = true ∧
      after (.retx 3) { setH (fun h => { h with ovmgr := 0xFFFFFFFF }) m with iss := { m.iss with set := 3 } } (fun t => t.me.lpcAt 0 == 0x10007 &&
        t.me.hmask == 2 && t.me.trapcause == Cause.overlayMiss.code && t.me.trapinfo == 0x6000000200000000) = true := by
  repeat' apply And.intro
  all_goals decide +kernel

/-- R162, R170. An OVLD of an overlay that is absent. -/
theorem test_hyps_OverlayInstructionResults_absent :
    let s := setS 2 2 tabled
    let low : State := { s with ms := { s.ms with mem := s.ms.mem.filter (fun x => x.1 != 0x200188) } }
    let shared : State := { s with ms := { s.ms with mem := s.ms.mem ++ [(0x20018C, 1)] } }
    let same : OvEntry := { base := 0, len := 2, oflags := 1, nentry := 0, entryoff := List.replicate 32 0, digest := List.replicate 32 0 }
    let theirs (st : InstState) : Inst := { Inst.holding [] with uid := 7, owner := 9, st := st, verified := true, entry := same, sharers := [{ aspace := 9, ot := 0, ov := 4 }] }
    let beside (i : Inst) : State := { shared with nextId := 20, core := { shared.core with insts := shared.core.insts ++ [i] } }
    let mine : Joiner := { aspace := 0, ot := 0x200000, ov := 2, entry := same, tokens := [] }
    s.issuing = true ∧ s.overCount (.ovld 2 7) = none ∧ (s.me.token 7).st = .free ∧ (s.instFor s.mine 2).isNone = true ∧ entryOk s 2 = some true ∧
      entryOk low 2 = some false ∧ (∀ y ∈ (beside (theirs .loading)).core.insts, y.uid < 20) ∧
      after (.ovld 2 7) low (fun t => t.me.term.map (·.cause) == some .badHandle) = true ∧
      after (.ovld 2 7) { s with nextId := 20 } (fun t => (t.me.token 7).st == .pending && t.core.insts.map (·.uid) == [0, 1, 20] && t.me.lpcAt 0 == 2) = true ∧
      after (.ovld 2 7) (beside (theirs .resident)) (fun t => (t.me.token 7).st == .free && t.core.insts.map (·.sharers.length) == [1, 1, 2]) = true ∧
      after (.ovld 2 7) (beside (theirs .loading)) (fun t => (t.me.token 7).st == .pending && t.core.insts.map (·.joiners.length) == [0, 0, 1]) = true ∧
      after (.ovld 2 7) (beside { theirs .loading with joiners := [mine] }) (fun t => (t.me.token 7).st == .pending &&
        t.core.insts.map (fun i => i.joiners.map (·.tokens)) == [[], [], [[(0, 0, 7)]]]) = true := by
  repeat' apply And.intro
  all_goals decide +kernel

theorem test_hyps_OverlayInstructionResults :
    let s (i : Nat) := setS 2 (BitVec.ofNat 64 i) tabled
    let loading : State := { s 1 with core := { (s 1).core with insts := modFirst (·.uid == 1) (fun x => { x with st := .loading }) (s 1).core.insts } }
    let held (n : Nat) : State := (s 1).modMine (fun q => { q with rtokens := [{ ov := 1, count := n }] })
    (s 1).issuing = true ∧ (s 1).fetchCount (s 1).mine = .bytes [3, 0, 0, 0] 0x200000 ∧ ((s 1).getS 2).toNat < leNat [3, 0, 0, 0] ∧
      (s 1).overCount (.ovld 2 7) = none ∧ ((s 1).me.token 7).st = .free ∧ ((s 1).instFor (s 1).mine 1).map (·.st) = some .resident ∧
      (loading.instFor loading.mine 1).map (·.st) = some .loading ∧ (s 2).instFor (s 2).mine 2 = none ∧
      readsWell (s 1) [] (some 1) false [] true 0 [] = true ∧
      after (.ovld 2 7) (s 1) (fun t => t.me.lpcAt 0 == 2) = true ∧
      after (.ovld 2 7) loading (fun t => (t.me.token 7).st == .pending) = true ∧
      answer1 (.ovpin 1 2) (s 2) = some 0 ∧ answer1 (.ovevict 1 2) (s 2) = some 0 ∧ answer1 (.ovpin 1 2) (held 255) = some 3 ∧
      answer1 (.ovpin 1 2) (s 1) = some 1 ∧ answer1 (.ovpin 1 2) loading = some 2 ∧
      after (.ovpin 1 2) (held 254) (fun t => t.mine.rtokens == [{ ov := 1, count := 255 }]) = true ∧
      answer1 (.ovevict 1 2) loading = some 3 ∧ answer1 (.ovevict 1 2) (s 1) = some 0 ∧ answer1 (.ovevict 1 2) (held 1) = some 1 ∧
      answer1 (.ovevict 1 2) (s 0) = some 2 ∧ answer1 (.ovqry 1 2) (held 2) = some 0x02000202 ∧
      (held 1).mine.permanent 1 < (held 1).mine.held 1 ∧ (s 1).mine.held 1 ≤ (s 1).mine.permanent 1 ∧
      after (.ovunpin 2) (held 1) (fun t => t.mine.rtokens.isEmpty && t.me.lpcAt 0 == 2) = true ∧
      after (.ovunpin 2) (s 1) (fun t => t.me.term.map (·.cause) == some .badHandle) = true := by decide +kernel

/-- R169. An identifier that the table does not list. -/
def unlisted (v : BitVec 64) (j : Instr) : Bool :=
  let s := setS 2 v tabled
  (s.overCount j).isNone && after j s (fun t => t.me.term.map (·.cause) == some .badHandle && t.me.lpcAt 0 == 0)

theorem test_hyps_OverlayInstructionResults_unlisted :
    unlisted 3 (.ovld 2 7) = true ∧ unlisted 0xFFFF (.ovld 2 7) = true ∧ unlisted 3 (.ovpin 1 2) = true ∧
      unlisted 3 (.ovunpin 2) = true ∧ unlisted 3 (.ovevict 1 2) = true ∧ unlisted 3 (.ovqry 1 2) = true := by
  repeat' apply And.intro
  all_goals decide +kernel
/-! ### Memory -/

/-- s7 at a base address, offsets 4l in v2 and data in v8 to v11, memory with some words from 0x300000 on. -/
def loading (t : BitVec 4) : State :=
  let s := setS 7 0x300000 (setV 2 (reg 5 (fun l => BitVec.ofNat 32 (16 * l))) (setV 8 (reg t (fun l => BitVec.ofNat 32 (0x11223300 + l)))
    (setV 9 (reg t (fun _ => 0xFFFFFFFF)) world)))
  { s with ms := { s.ms with mem := s.ms.mem ++ [(0x300000, 0x80), (0x300001, 0x7F), (0x300004, 5), (0x300010, 0xFF), (0x300011, 0xFF)] } }

/-- Lane l's bytes of those addresses. -/
def placeOf (l : Nat) : Nat := 0x300000 + 16 * l

theorem test_hyps_ScalarMemoryResults :
    let s := setS 6 0x1122334455667788 (loading 5)
    s.issuing = true ∧ s.overCount (.sld 1 7 0 none) = none ∧ (s.getS 7 + wide 10 0 none).toNat % 8 = 0 ∧
      s.atomPending 0 0 [0x300000] 8 = false ∧ s.me.loads < 255 ∧ s.me.stores < 255 ∧
      s.laneFate (s.getS 7 + wide 10 0 none) 8 true false false [] = .ok 0x300000 false ∧
      s.laneFate (s.getS 7 + wide 10 0 none) 8 false true false [] = .ok 0x300000 false ∧
      s.laneFate (s.getS 7 + wide 10 0x3FC none) 4 true false false [] = .ok 0x2FFFFC false ∧
      after (.sld 1 7 0 none) s (fun t => t.ms.loads.map (·.scalar) == [some (1, 0x500007F80)] && t.me.loads == 1) = true ∧
      after (.sldw 1 7 4 none) s (fun t => t.ms.loads.map (·.scalar) == [some (1, 5)]) = true ∧
      after (.sst 6 7 0 none) s (fun t => (t.lsuByte 0 0 0x300000) == 0x88 && t.lsuByte 0 0 0x300007 == 0x11 && t.lsuByte 0 0 0x300010 == 0xFF &&
        t.me.stores == 1 && memGet t.ms.mem 0x300000 == 0x80) = true ∧
      after (.sstw 6 7 0x3FC none) s (fun t => t.lsuByte 0 0 0x2FFFFC == 0x88 && t.lsuByte 0 0 0x300000 == 0x80) = true := by decide +kernel

/-- Consort 1 beside it, whose course has the record of a byte at 0x300000; pages are Checked. -/
def racing (area : BitVec 64) : State :=
  let s := setH (fun h => { h with hflags := 3 }) (loading 5)
  { s with
    consorts := s.consorts ++ [{ Consort.ready with id := 1 }]
    hub := { s.hub with recarea := s.hub.recarea.set 0 area }
    ms := { s.ms with records := [{ sector := 0x300000 / 32, k := 1, c := 0, mask := 1, region := 1, atomic := false, eng := [], area := none }] } }

/-- What a lane meets, and the stops of a scalar access. -/
theorem test_hyps_ScalarMemoryResults_causes :
    let s := racing 1
    let p : State := { loading 5 with ms := { (loading 5).ms with poison := [0x300000 / 32] } }
    let r : AtomReq := { k := 0, c := 0, op := 9, dest := none, tag := 5, lanes := [], va := 0x300000, epoch := 0, region := 1, checked := false, behind := [] }
    let a : State := { loading 5 with ms := { (loading 5).ms with atoms := [{ id := 9, pa := 0x300000, code := 0, open_ := false, opened := 0, reqs := [r] }] } }
    let at_ (x : DWord) : State := setS 7 x handled
    s.laneFate 0x300001 4 true false false [] = .trap .misalign ∧ s.laneFate 0x100000000000000 4 true false false [] = .trap .xlateDenied ∧
      s.laneFate 0x300000 4 true false false [] = .trap .race ∧ s.laneFate 0x300004 4 false true false [] = .ok 0x300004 true ∧
      p.laneFate 0x300004 4 true false false [] = .trap .poison ∧
      p.laneFate 0x300004 4 false true false [] = .ok 0x300004 false ∧ a.atomPending 0 0 [0x2FFFFC] 8 = true ∧ a.atomPending 0 0 [0x300004] 8 = false ∧
      StoresInOrder (loading 5) 0 0 ∧
      after (.sld 1 7 0x3F8 none) (setS 7 0x300008 a) (fun t => t.me.stall.isSome && t.ms.loads.isEmpty) = true ∧
      after (.sst 1 7 0 none) (at_ 0x300001) (fun t => t.me.trapcause == Cause.misalign.code && t.me.trapinfo == 0x0400000000300001) = true ∧
      after (.sldw 1 7 0 none) (at_ 0x40000000) (fun t => t.me.laneAt 0 == .parked && t.me.laneAt 2 == .running && t.me.lpcAt 0 == 0 &&
        t.hub.faults.map (fun f => (f.kind, f.access, f.lanes)) == [(1, 4, 3)]) = true := by
  repeat' apply And.intro
  all_goals decide +kernel

/-- R390. With no room in the slices, and no record area, a sector without a record has no room for one; one with a record has. -/
theorem test_recordRoom (h : Config.sliceRoom (racing 0).tick = false) :
    (racing 0).recordRoom 0x300024 [] = false ∧ (racing 0).recordRoom 0x300004 [] = true := by
  unfold State.recordRoom
  rw [h]
  decide +kernel

/-- Three lanes: lane 0 reads or writes 0x300000, lane 1 is misaligned, lane 2 finds no translation; lanes 0 to 2 issue, and a handler
stands at halfword 6. -/
def split3 (s : State) : State :=
  { setH (fun h => { h with traph := 6 }) (setV 2 (reg 5 (fun l => if l = 0 then 0 else if l = 1 then 0x11 else 0x3FD00000)) s) with iss := { s.iss with set := 7 } }

theorem test_hyps_VectorAccessResults_lanes :
    let s := split3 (loading 5)
    let sink := setP 0 { Port.unbound with bound := true, kind := 3, chan := 2 } s
    let source := setP 0 { Port.unbound with bound := true, kind := 2, chan := 1 }
      (s.modMine (fun q => { q with channels := vset q.channels 1 (List.replicate 3 { val := 8, tag := 5 }) }))
    Fits s (.ld 1 2 7 4 none) ∧ Fits source (.st 112 2 7 4 none) ∧ Fits s (.atom 8 2 7 0 none) ∧ s.iss.set ≠ 0 ∧
      (s.laneFates (laneAddr (s.getS 7) (s.me.getV 2) 0) 4 false true false).map (·.fate) = [.ok 0x300000 false, .trap .misalign, .park 0x101008] ∧
      ((source.storeData 2 112 4).toOption.map (fun z => z.2.map (fun r => (r.tag, r.at 2)))) = some [(5, 8)] ∧
      after (.ld 1 2 7 4 none) s (fun t => t.ms.loads.map (·.words) == [[(1, 0, 0x7F80)]] && t.me.lpcAt 0 == 2 && t.me.lpcAt 1 == 6 &&
        t.me.laneAt 2 == .parked && t.me.hmask == 2 && t.hub.faults.map (·.lanes) == [4]) = true ∧
      after (.ld 112 2 7 4 none) sink (fun t => vget t.mine.channels [] 2 == [{ val := 0x7F80, tag := 0 }] && t.ms.loads.isEmpty) = true ∧
      after (.st 8 2 7 4 none) s (fun t => t.lsuByte 0 0 0x300000 == 0 && t.me.stores == 1 && t.me.trapcause == Cause.misalign.code) = true ∧
      after (.st 112 2 7 4 none) source (fun t => t.ms.stores.isEmpty && (vget t.mine.channels [] 1).length == 3 && t.me.lpcAt 0 == 0 &&
        t.me.lpcAt 1 == 6 && t.me.laneAt 2 == .parked) = true ∧
      after (.atom 8 2 7 0 none) s (fun t => t.ms.atoms.map (·.pa) == [0x300000] && t.me.loads == 1 && t.me.lpcAt 0 == 2 && t.me.laneAt 2 == .parked &&
        t.hub.faults.map (·.access) == [6]) = true ∧
      after (.red 8 2 7 0 none) s (fun t => t.me.stores == 1 && t.me.lpcAt 1 == 6) = true := by
  repeat' apply And.intro
  all_goals decide +kernel

theorem test_hyps_VectorLoadResults :
    let s := loading 5
    Fits s (.ld 1 2 7 1 none) ∧ isPort 1 = false ∧ isPort 2 = false ∧ s.iss.set ≠ 0 ∧ (s.me.getV 2).tag = 5 ∧
      (∀ l : Nat, l < 32 → bit s.iss.set l = true → s.laneFate (laneAddr (s.getS 7) (s.me.getV 2) 0 l) (kindSize 1) true false false [] = .ok (placeOf l) false ∧
        s.atomPending 0 0 [placeOf l] (kindSize 1) = false) ∧ s.me.loads < 255 ∧
      after (.ld 1 2 7 1 none) s (fun t => t.ms.loads.map (·.words) == [[(1, 0, 0xFFFFFF80), (1, 1, 0xFFFFFFFF)]] &&
        t.ms.loads.map (·.tag) == [4]) = true ∧
      after (.ld 8 2 7 31 none) s (fun t => t.ms.loads.map (·.regs) == [[8, 9, 10, 11]] || t.me.ended) = true := by decide +kernel

/-- R67. Bytes of each width, and the words they are. -/
theorem test_hyps_VectorLoadResults_kinds :
    let quad : List Byte := (List.range 16).map (BitVec.ofNat 8)
    quad.length = kindSize 24 ∧ (kindWords 24 quad).length = kindRegs 24 ∧ (quad.take 8).length = kindSize 22 ∧
      kindWords 22 (quad.take 8) = [0x03020100, 0x07060504] ∧ kindTag 22 = 9 ∧ kindTag 24 = 0 ∧ kindTag 31 = 10 ∧ kindTag 4 = 0 ∧ kindTag 15 = 11 ∧
      kindWords 24 quad = [0x03020100, 0x07060504, 0x0B0A0908, 0x0F0E0D0C] ∧ kindWords 3 [0x34, 0x82] = [0xFFFF8234] ∧
      kindWords 2 [0x34, 0x82] = [0x8234] ∧ kindWords 0 [0x80] = [0x80] ∧ kindBytes 2 [0x11228234] = [0x34, 0x82] ∧
      kindBytes 16 [0x03020100, 0x07060504] = quad.take 8 := by decide +kernel

theorem test_hyps_VectorStoreResults :
    let s := loading 5
    Fits s (.st 8 2 7 2 none) ∧ isPort 8 = false ∧ isPort 2 = false ∧ s.iss.set ≠ 0 ∧ (s.me.getV 2).tag = 5 ∧ kindRegs 2 = 1 ∧
      storeAccepts 2 (s.me.getV 8).tag = true ∧
      (∀ l : Nat, l < 32 → bit s.iss.set l = true → s.laneFate (laneAddr (s.getS 7) (s.me.getV 2) 0 l) (kindSize 2) false true false [] = .ok (placeOf l) false ∧
        s.atomPending 0 0 [placeOf l] (kindSize 2) = false) ∧ s.me.stores < 255 ∧ s.ms.stores = [] ∧
      after (.st 8 2 7 2 none) s (fun t => t.lsuByte 0 0 0x300010 == 1 && t.lsuByte 0 0 0x300011 == 0x33 && t.lsuByte 0 0 0x300012 == 0 &&
        t.lsuByte 0 0 0x300004 == 5) = true ∧
      after (.st 8 2 7 2 none) (setV 2 (reg 5 (fun _ => 0)) s) (fun t => t.lsuByte 0 0 0x300000 == 1) = true := by decide +kernel

/-- The data registers of a store's kind from register d, each accepted or not. -/
def dataOk (s : State) (d : BitVec 7) (kd : BitVec 5) : List Bool :=
  (List.range (kindRegs kd)).map (fun i => storeAccepts kd (s.me.getV (d.toNat + i)).tag)

theorem test_hyps_StoreDataTagCheck :
    let s := loading 4
    let t := setV 8 (reg 1 (fun _ => 0)) s
    let source := setP 0 { Port.unbound with bound := true, kind := 2, chan := 1 }
      (s.modMine (fun q => { q with channels := vset q.channels 1 (List.replicate 3 { val := 8, tag := 4 }) }))
    (11 : BitVec 4).toNat < 12 ∧ Fits s (.st 8 2 7 5 none) ∧ (s.me.getV 2).tag = 5 ∧ dataOk s 8 5 = [false] ∧ dataOk s 8 17 = [false, false] ∧
      dataOk t 8 17 = [true, false] ∧ dataOk s 8 8 = [true] ∧ (s.storeData 2 8 8).toBool = true ∧ Fits source (.st 112 2 7 8 none) ∧
      ((source.readSrcs [112] none 0).toOption.map (fun x => x.2.map (·.tag))) = some [4] ∧
      after (.st 8 2 7 5 none) s (fun t => t.me.term.map (·.cause) == some .format && t.ms.stores.isEmpty) = true ∧
      after (.st 112 2 7 5 none) source (fun t => t.me.term.map (·.cause) == some .format && t.ms.stores.isEmpty) = true := by
  repeat' apply And.intro
  all_goals decide +kernel

/-- The scratchpad holds words 7 and 9 at offsets 0 and 16. -/
def padded (t : BitVec 4) : State :=
  (setS 7 0 (setV 2 (reg 5 (fun l => BitVec.ofNat 32 (16 * l))) (setV 8 (reg t (fun l => BitVec.ofNat 32 (5 + l)))
    (setV 9 (reg t (fun l => BitVec.ofNat 32 (7 + 2 * l))) world)))).modMine (fun q => { q with scratch := [(0, 7), (16, 9)] })

theorem test_hyps_ScratchpadAccessResults :
    let s := padded 5
    s.issuing = true ∧ isPort 8 = false ∧ isPort 2 = false ∧ s.iss.set ≠ 0 ∧ Memory.wf s.mine.scratch ∧ s.mine.sstale = [] ∧ s.me.loads < 255 ∧ s.me.stores < 255 ∧
      (∀ l : Nat, l < 32 → bit s.iss.set l = true → (16 * l) % 4 = 0 ∧ s.mine.spOff (16 * l) 4 = false ∧ s.mine.spPoisoned (16 * l) 4 = false) ∧
      s.mine.spOff (262144 - 4) 4 = false ∧ s.overCount (.lds 8 2 7 0 none) = none ∧ s.overCount (.sts 8 2 7 0 none) = none ∧
      storeAccepts 0 (s.me.getV 8).tag = true ∧ s.overCount (.atoms 8 2 7 9 none) = none ∧ s.overCount (.reds 8 2 7 0 none) = none ∧
      (s.me.getV 8).tag ∈ atomTags 9 ∧ (s.me.getV 9).tag = (s.me.getV 8).tag ∧
      after (.lds 1 2 7 5 none) s (fun t => t.ms.loads.map (·.words) == [[(1, 0, 7), (1, 1, 9)]]) = true ∧
      after (.sts 8 2 7 0 none) s (fun t => t.mine.scratch == [(0, 5), (16, 6)]) = true ∧
      after (.reds 8 2 7 0 none) s (fun t => t.mine.scratch == [(0, 12), (16, 15)]) = true ∧
      after (.atoms 8 2 7 9 none) s (fun t => t.mine.scratch == [(0, 5), (16, 6)] && t.ms.loads.map (·.words) == [[(8, 0, 7), (8, 1, 9)]]) = true := by
  decide +kernel

theorem test_hyps_ScratchpadRangeSwitchesLanesOff :
    let s := setS 7 262141 (padded 5)
    Fits s (.sts 8 2 7 9 none) ∧ s.iss.set ≠ 0 ∧ s.me.stores < 255 ∧ (s.me.getV 2).tag = 5 ∧ kindRegs 9 = 1 ∧ storeAccepts 9 (s.me.getV 8).tag = true ∧
      (∀ l : Nat, l < 32 → bit s.iss.set l = true →
        s.mine.hdr.scratch < (laneAddr (s.getS 7) (s.me.getV 2) (memOff none) l).toNat + kindSize 9) ∧
      after (.sts 8 2 7 9 none) s (fun t => t.me.fmask == 3 && t.me.laneAt 0 == .off && t.me.laneAt 2 == .running &&
        t.mine.scratch == s.mine.scratch) = true := by decide +kernel

/-- Four lanes: lane 0 works, lane 1 lies beyond SCRATCH, lane 2 touches a tracked range, lane 3 is misaligned. -/
theorem test_hyps_ScratchpadRangeSwitchesLanesOff_mixed :
    let s : State := { setH (fun h => { h with traph := 6 }) (setV 2 (reg 5 (fun l => if l = 0 then 0 else if l = 1 then 0x3FFFE else if l = 2 then 0x40 else 17))
      ((padded 5).modMine (fun q => { q with tracks := [{ op := 9, lo := 0x40, hi := 0x4F }] }))) with iss := { world.iss with set := 15 } }
    let ill := s.modMine (fun q => { q with spoison := [0] })
    (∀ l : Nat, l < 32 → (s.me.laneAt l).isWaiting = false) ∧ s.mine.spOff 0x3FFFE 4 = true ∧ s.mine.spOff 0x40 4 = true ∧ s.mine.spOff 0x3C 4 = false ∧
      after (.lds 1 2 7 4 none) s (fun t => t.ms.loads.map (·.words) == [[(1, 0, 7)]] && t.me.laneAt 1 == .off && t.me.laneAt 2 == .off && t.me.fmask == 6 &&
        t.me.lpcAt 0 == 2 && t.me.lpcAt 3 == 6 && t.me.trapinfo == 0x1A00000000000011) = true ∧
      after (.lds 1 2 7 4 none) ill (fun t => t.ms.loads.isEmpty && t.me.hmask != 0) = true ∧
      after (.sts 8 2 7 4 none) ill (fun t => t.mine.scratch == [(0, 5), (16, 9)] && t.me.fmask == 6) = true ∧
      after (.reds 8 2 7 0 none) s (fun t => t.mine.scratch == [(0, 12), (16, 9)] && t.me.lpcAt 0 == 2) = true ∧
      after (.atoms 8 2 7 0 none) s (fun t => t.mine.scratch == [(0, 12), (16, 9)] && t.ms.loads.map (·.words) == [[(8, 0, 7)]]) = true := by
  repeat' apply And.intro
  all_goals decide +kernel

/-- R265, R281. A sink and a source port in the place of a register; both lanes name one word. -/
theorem test_hyps_ScratchpadRangeSwitchesLanesOff_ports :
    let s := padded 5
    let sink := setP 0 { Port.unbound with bound := true, kind := 3, chan := 2 } s
    let source := setP 0 { Port.unbound with bound := true, kind := 2, chan := 1 }
      (s.modMine (fun q => { q with channels := vset q.channels 1 (List.replicate 3 { val := 8, tag := 5 }) }))
    let odd := setV 2 (reg 5 (fun l => BitVec.ofNat 32 (17 * l))) source
    let one := setV 2 (reg 5 (fun _ => 16)) s
    (∀ l : Nat, l < 32 → (s.me.laneAt l).isWaiting = false) ∧ (sink.overCount (.lds 112 2 7 4 none)).isNone = true ∧
      (sink.readSrcs [] (some 112) 1).toBool = true ∧ (source.storeData 2 112 4).toBool = true ∧ (odd.storeData 2 112 4).toBool = true ∧
      after (.lds 112 2 7 4 none) sink (fun t => vget t.mine.channels [] 2 == [{ val := 7, tag := 0 }, { val := 9, tag := 0 }] && t.ms.loads.isEmpty) = true ∧
      after (.sts 112 2 7 4 none) source (fun t => t.mine.scratch == [(0, 8), (16, 8)] && (vget t.mine.channels [] 1).length == 1) = true ∧
      after (.sts 112 2 7 4 none) { odd with iss := { odd.iss with refused := 0 } } (fun t => t.mine.scratch == odd.mine.scratch &&
        (vget t.mine.channels [] 1).length == 3 && t.me.lpcAt 0 == 0) = true ∧
      after (.reds 8 2 7 0 none) one (fun t => t.mine.scratch == [(0, 7), (16, 20)]) = true ∧
      after (.atoms 8 2 7 8 none) one (fun t => t.mine.scratch == [(0, 7), (16, 6)] && t.ms.loads.map (·.words) == [[(8, 0, 9), (8, 1, 5)]]) = true := by
  repeat' apply And.intro
  all_goals decide +kernel

/-- R278, R279. A quad load; three requests of courses 0 and 1 in one entry, and their sums. -/
theorem test_hyps_AccessEventResults_groups :
    let quad : Load := { id := 9, k := 0, c := 0, regs := [4, 5, 6, 7], words := [(4, 0, 1), (7, 0, 2)], tag := 9, scalar := none }
    let req (c d : Nat) (xs : List Word) : AtomReq := { k := 0, c := c, op := 9, dest := some d, tag := 1, va := 0x400000, epoch := 0, region := 1, checked := false, behind := []
                                                        lanes := (xs.zip (List.range 32)).map (fun y => { lane := y.2, x := y.1, c := 0 }) }
    let e (code : BitVec 4) : Atomic := { id := 9, pa := 0x400000, code := code, open_ := false, opened := 0
                                          reqs := [req 0 1 [0x3F800000, 0x40000000], req 1 2 [0x40800000], req 0 3 [0x41000000]] }
    let old : StaleByte := { pa := 0x400020, old := 5, cls := 2, k := 0, c := 0, op := 3, arw := [], blind := false, also := [] }
    let s (code : BitVec 4) : State := { world.modMine (fun q => { q with courses := q.courses ++ [{ Course.blank with idx := 1 }] }) with
      ms := { world.ms with mem := world.ms.mem ++ [(0x400002, 0x80), (0x400003, 0x3F)], atoms := [e code], stale := [old] } }
    (s 10).ms.atoms.find? (fun y => y.id == 9) = some (e 10) ∧ (s 10).atomReady (e 10) = true ∧ Memory.wf (s 10).ms.mem ∧
      (quad.words.map (fun w => (w.1, w.2.1))).Nodup ∧
      after (.loadReturn 9) { world with ms := { world.ms with loads := [quad] } } (fun t => (t.me.getV 4).at 0 == 1 && (t.me.getV 7).at 0 == 2 &&
        (t.me.getV 6).tag == 9) = true ∧
      after (.atomPerform 9) (s 10) (fun t => t.peek 0x400000 4 == 0x41800000 && (t.me.getV 1).at 0 == 0x3F800000 && (t.me.getV 1).at 1 == 0x40000000 &&
        ((t.crs 0 1).getV 2).at 0 == 0x40800000 && (t.me.getV 3).at 0 == 0x41000000 && t.ms.stale.length != 0 && t.ms.stale.all (·.blind)) = true ∧
      after (.atomPerform 9) (s 0) (fun t => (t.me.getV 1).at 1 == 0x7F000000 && t.ms.atoms.isEmpty) = true := by
  repeat' apply And.intro
  all_goals decide +kernel

theorem test_hyps_AtomicIssueResults :
    let s := loading 5
    Fits s (.atom 8 2 7 0 none) ∧ Fits s (.red 8 2 7 0 none) ∧ (s.me.getV 8).tag ∈ atomTags 0 ∧ (s.me.getV 8).tag ∈ atomTags 9 ∧
      (s.me.getV 9).tag = (s.me.getV 8).tag ∧
      (∀ l : Nat, l < 32 → bit s.iss.set l = true →
        s.laneFate (laneAddr (s.getS 7) (s.me.getV 2) (memOff none) l) 4 true true true [] = .ok (placeOf l) false) ∧
      s.ms.atoms = [] ∧ s.iss.set ≠ 0 ∧ s.me.loads < 255 ∧ s.me.stores < 255 ∧
      after (.atom 8 2 7 0 none) s (fun t => t.ms.atoms.map (·.pa) == [0x300000, 0x300010] && t.me.loads == 1) = true ∧
      after (.red 8 2 7 0 none) s (fun t => t.ms.atoms.length == 2 && t.me.stores == 1) = true := by decide +kernel

theorem test_hyps_AccessEventResults :
    let ld : Load := { id := 9, k := 0, c := 0, regs := [1], words := [(1, 1, 7)], tag := 5, scalar := none }
    let sc : Load := { ld with regs := [], words := [], scalar := some (63, 8) }
    let o : Store := { id := 9, op := 9, k := 0, c := 0, at_ := .issued, epoch := 0, cells := [(0x300000, 1), (0x300001, 2)] }
    let at_ (f : MemSys → MemSys) : State := { loading 5 with ms := f (loading 5).ms }
    let r : AtomReq := { k := 0, c := 0, op := 9, dest := some 1, tag := 5, lanes := [{ lane := 0, x := 3, c := 0 }, { lane := 1, x := 4, c := 0 }]
                         va := 0x300000, epoch := 0, region := 1, checked := false, behind := [] }
    let e : Atomic := { id := 9, pa := 0x300000, code := 0, open_ := false, opened := 0, reqs := [r] }
    (∀ y ∈ [ld, sc], let s := at_ (fun m => { m with loads := [y] })
      s.ms.loads.find? (fun x => x.id == 9) = some y ∧ (s.consorts.find? (·.id == 0)).isSome = true ∧
      ((s.cons 0).courses.find? (·.idx == 0)).isSome = true) ∧
      (ld.words.map (fun w => (w.1, w.2.1))).Nodup ∧ ld.regs.Nodup ∧
      after (.loadReturn 9) (at_ (fun m => { m with loads := [ld] })) (fun t => (t.me.getV 1).at 1 == 7 && (t.me.getV 1).at 0 == 0 && t.ms.loads.isEmpty) = true ∧
      after (.loadReturn 9) (at_ (fun m => { m with loads := [sc] })) (fun t => t.getS 63 == 8) = true ∧
      (at_ (fun m => { m with stores := [o] })).storeDieReady o = true ∧
      after (.storePerform 9) (at_ (fun m => { m with stores := [o], stale := [{ pa := 0x300020, old := 5, cls := 2, k := 0, c := 0, op := 3, arw := [], blind := false, also := [] }] }))
        (fun t => t.ms.stores.map (·.at_) == [.die] && t.ms.stale.length != 0 && t.ms.stale.all (·.blind)) = true ∧
      (at_ (fun m => { m with stores := [{ o with at_ := .die }] })).storeDieReady { o with at_ := .die } = false ∧
      (at_ (fun m => { m with stores := [{ o with at_ := .die }] })).storeHomeReady { o with at_ := .die } = true ∧
      Memory.wf (loading 5).ms.mem ∧ (o.cells.map (·.1)).Nodup ∧
      after (.storePerform 9) (at_ (fun m => { m with stores := [{ o with at_ := .die }] })) (fun t => memGet t.ms.mem 0x300000 == 1 &&
        memGet t.ms.mem 0x300001 == 2 && memGet t.ms.mem 0x300004 == 5) = true ∧
      (at_ (fun m => { m with atoms := [{ e with open_ := true }] })).ms.atoms.find? (fun y => y.id == 9) = some { e with open_ := true } ∧
      (at_ (fun m => { m with atoms := [e] })).atomReady e = true ∧ e.code ≠ 10 ∧
      after (.combineClose 9) { at_ (fun m => { m with atoms := [{ e with open_ := true }] }) with clock := 64 } (fun t => t.ms.atoms == [e]) = true ∧
      after (.combineClose 9) { at_ (fun m => { m with atoms := [{ e with open_ := true }] }) with clock := 63 } (fun _ => true) = false ∧
      after (.atomPerform 9) (at_ (fun m => { m with atoms := [e] })) (fun t => memGet t.ms.mem 0x300000 == 0x87 && memGet t.ms.mem 0x300001 == 0x7F &&
        memGet t.ms.mem 0x300004 == 5 && t.ms.atoms.isEmpty) = true ∧
      after (.translationWalk 0 0x300000) (loading 5) (fun t => t.ms.tlb.length == 1) = true := by decide +kernel

/-! ### Synchronisation, copies and bins -/

/-- A copy in flight between device memory and the scratchpad. -/
def flying (dstSp : Bool) (chunks : List Chunk) : Copy :=
  { id := 9, k := 0, c := 0, tok := 7, srcSp := !dstSp, dstSp := dstSp, multi := false, arw := none, mbx := none, chunks := chunks
    dests := if dstSp then [{ num := 0, cid := 0, failed := none, left := 2 }] else [], region := 1, epoch := 0, ref := 0, waiting := false, error := none }

/-- The event cannot happen now. -/
def notYet (i : Instr) (s : State) : Bool :=
  match exec i s with
  | .refused .notEnabled => true
  | _ => false

/-- A store of course 0 on its way to the line of 0x400000. -/
def early : Store := { id := 3, op := 3, k := 0, c := 0, at_ := .issued, epoch := 0, cells := [(0x400010, 1)] }

theorem test_hyps_FenceAndBarrierResults :
    let s := world
    let busy := setC (fun c => { c with loads := 1 }) { s with ms := { s.ms with loads := [{ id := 9, k := 0, c := 0, regs := [], words := [], tag := 0, scalar := none }] } }
    let storing : State := { s with ms := { s.ms with stores := [{ id := 9, op := 9, k := 0, c := 1, at_ := .die, epoch := 0, cells := [(0x300000, 1)] }] } }
    let late := setC (fun c => { c with stall := some { why := .other, since := 0, iss := world.iss, buffers := 0, reg := 0, drain := [] } }) storing
    let byte (op : Nat) : StaleByte := { pa := 0x300000, old := 1, cls := 2, k := 0, c := 0, op := op, arw := [], blind := false, also := [(1, 2, 3, op)] }
    let held := setC (fun c => { c with hold := .closing 2 1 0x3F [7] }) { s with ms := { s.ms with stale := [byte 6, byte 7] } }
    let two : State := s.modMine (fun q => { q with courses := q.courses ++ [{ Course.blank with idx := 1, hold := .bar 15 0 }] })
    let came (m : BitVec 16) : State := two.modMine (fun q => { q with bars := vset q.bars 15 { gen := 0, arr := m } })
    s.issuing = true ∧ s.loadsDone 0 0 = true ∧ busy.loadsDone 0 0 = false ∧ s.releaseReady 0 0 4 = true ∧ s.slicesDrained = true ∧
      storing.releaseReady 0 0 4 = true ∧ storing.slicesDrained = false ∧ storing.toDrain = [9] ∧ late.toDrain = [] ∧ late.slicesDrained = true ∧ (held.crs 0 0).hold = .closing 2 1 0x3F [7] ∧
      (15 : BitVec 10).toNat < 16 ∧ ((came 0).mine.bar 15).arr.getLsbD 0 = false ∧ ((came 1).mine.bar 15).arr.getLsbD 0 = true ∧
      (¬ ∀ x ∈ (came 0).mine.courses, x.retired = false → x.idx = 0 ∨ ((came 0).mine.bar 15).arr.getLsbD x.idx = true) ∧
      (∀ x ∈ (came 2).mine.courses, x.retired = false → x.idx = 0 ∨ ((came 2).mine.bar 15).arr.getLsbD x.idx = true) ∧
      after (.fence 0 4) s (fun t => t.me.region == 2 && t.me.hold == .none) = true ∧
      after (.fence 0 4) busy (fun t => t.me.region == 1 && t.me.lpcAt 0 == 0) = true ∧
      after (.fence 3 4) s (fun t => t.me.region == 2 && t.me.hold == .closing 4 1 0x3F []) = true ∧
      after (.fence 3 4) storing (fun t => t.me.lpcAt 0 == 0 && t.me.stall.map (·.drain) == some [9]) = true ∧
      after (.fence 3 4) late (fun t => t.me.hold == .closing 4 1 0x3F []) = true ∧
      after (.xfence 1 2 1) s (fun t => t.me.hold == .closing 1 1 2 []) = true ∧
      after (.fence 1 2) { s with core := { s.core with copies := [flying true []] } } (fun t => t.me.hold == .closing 2 1 0x3F [9]) = true ∧
      after (.releaseClosure 0 0) held (fun t => t.me.hold == .none && t.ms.closed == [{ k := 0, c := 0, scope := 2, region := 1, but := [7] }] &&
        t.ms.stale.map (·.op) == [7]) = true ∧
      after (.bar 15 none) (came 1) (fun t => t.me.lpcAt 0 == 0) = true ∧
      after (.bar 15 none) (came 0) (fun t => (t.mine.bar 15).arr == 1 && t.me.hold == .bar 15 0 && t.me.region == 2) = true ∧
      after (.bararr 15 none) (came 0) (fun t => (t.mine.bar 15).arr == 1 && t.me.hold == .none && t.me.lpcAt 0 == 2) = true ∧
      after (.bar 15 none) (came 2) (fun t => (t.mine.bar 15).gen == 1 && t.me.hold == .none && (t.crs 0 1).hold == .none) = true := by
  decide +kernel

/-- v1 holds x in every lane; the word at offset 32 of the scratchpad has TARGET 3, COUNT 2 and GEN 7. -/
def arriving (x : Word) : State :=
  (setV 1 (reg 5 (fun _ => x)) world).modMine (fun q => { q with scratch := [(32, 3), (36, 2), (40, 7)] })

theorem test_hyps_ArrivalWordResults :
    let s := arriving
    let held : State := setC (fun c => { c with hold := .arwait 32 6 1 { world.iss with set := 0x80000003 } }) (arriving 0)
    (s 4).issuing = true ∧ isPort 1 = false ∧ ((s 4).me.getV 1).tag = 5 ∧ (s 4).iss.set ≠ 0 ∧
      (∀ l : Nat, l < 32 → bit (s 4).iss.set l = true → ((s 4).me.getV 1).at l = 4) ∧ (s 4).mine.spOff 32 16 = false ∧ Memory.wf (s 4).mine.scratch ∧
      (s 4).overCount (.armw 1 2 none) = none ∧ (s 4).overCount (.aradd 1 2 none) = none ∧ (s 4).overCount (.arwait 1 2 none) = none ∧
      (s 4).loadsDone 0 0 = true ∧ (s 4).mine.spNat 40 4 ≠ 4 ∧ (s 7).mine.spNat 40 4 = 7 ∧
      (held.crs 0 0).hold = .arwait 32 6 1 { world.iss with set := 0x80000003 } ∧ (held.cons 0).place = .resident ∧ (held.cons 0).spNat 40 4 ≠ 6 ∧
      after (.armw 1 2 none) (s 4) (fun t => t.mine.spNat 32 4 == 4 && t.mine.spNat 36 4 == 2 && t.mine.spNat 40 4 == 7) = true ∧
      after (.armw 1 2 none) (s 2) (fun t => t.mine.spNat 32 4 == 2 && t.mine.spNat 36 4 == 0 && t.mine.spNat 40 4 == 8) = true ∧
      after (.aradd 1 2 none) (s 4) (fun t => t.mine.spNat 36 4 == 0 && t.mine.spNat 40 4 == 9) = true ∧
      after (.aradd 1 2 none) (s 0xFFFFFFFF) (fun t => t.mine.spNat 36 4 == 1 && t.mine.spNat 40 4 == 7) = true ∧
      after (.arwait 1 2 none) (s 4) (fun t => (t.me.getV 1).at 0 == 7 && t.me.lpcAt 0 == 2 && t.me.hold == .none) = true ∧
      after (.arwait 1 2 none) (s 7) (fun t => t.me.hold == .arwait 32 7 1 world.iss && t.me.lpcAt 0 == 0) = true ∧
      after (.arwaitWake 0 0) held (fun t => (t.me.getV 1).at 31 == 7 && t.me.lpcAt 31 == 2 && (t.me.getV 1).at 30 == 0 && t.me.lpcAt 30 == 0) = true := by decide +kernel

/-- s10 to s13 are a copy's group and s20 its control word. -/
def copying (g0 g1 g2 g3 ctl : DWord) : State :=
  let s := setS 10 g0 (setS 11 g1 (setS 12 g2 (setS 13 g3 (setS 20 ctl (loading 5)))))
  s.modMine (fun q => { q with scratch := [(16, 0xAA)] })

/-- What BAD_HANDLE looks at, for a copy of one row. -/
def badOne (k : CopyKind) (s : State) : Option Nat :=
  (s.badCopy k (s.getS 20) (s.getS 11) [(s.getS 10, if k = .multi then ((s.getS 11).extractLsb' 0 32).setWidth 64 else s.getS 11)]).reg 10 20

theorem test_hyps_CopyIssueResults :
    let g2s := copying 0x300000 64 0 0 0x01000012
    let rows := copying 16 0x400000 16 100 0x22000008
    let other := setH (fun h => { h with khw := h.khw ||| 0x10 }) g2s
    let full := g2s.modMine (fun q => { q with tracks := List.replicate 8 { op := 9, lo := 0, hi := 0 } })
    g2s.issuing = true ∧ g2s.overCount (.cpy 10 20 7) = none ∧ (g2s.me.token 7).st = .free ∧ other.iss.c ≠ other.mine.hdr.producer ∧
      g2s.iss.c = g2s.mine.hdr.producer ∧ badOne .one g2s = none ∧ badOne .one (copying 0x300000 262144 0 0 0x01000001) = some 0 ∧
      badOne .one (copying 0x300000 64 0 0 0x8000000001000012) = some 20 ∧ badOne .multi (copying 0x300000 0x8000000100000040 0 0 0x01000012) = some 11 ∧
      badOne .one (copying 0x300000 262144 0 0 0x01000000) = none ∧ badOne .multi (copying 0x300000 0x100000040 0 0 0x01000012) = none ∧
      g2s.tracksFree (g2s.copyDests .one (CopyCtl.of (g2s.getS 20)) (g2s.getS 11) 18) = true ∧
      full.tracksFree (full.copyDests .one (CopyCtl.of (full.getS 20)) (full.getS 11) 18) = false ∧
      (rows.badCopy .rows (rows.getS 20) (rows.getS 11) [(16, 0x400000), (32, 0x400064)]).reg 10 20 = none ∧
      after (.cpy 10 20 7) other (fun t => t.me.term.map (·.cause) == some .copyRights) = true ∧
      after (.cpy 10 20 7) (copying 0x300000 262144 0 0 0x01000001) (fun t => t.me.term.map (·.cause) == some .badHandle) = true ∧
      after (.cpy 10 20 7) (copying 0x300000 262144 0 0 0x01000000) (fun t => t.me.lpcAt 0 == 2 && t.core.copies.isEmpty) = true ∧
      after (.cpy 10 20 7) full (fun t => t.me.lpcAt 0 == 0) = true ∧
      after (.cpy 10 20 7) (copying 0x300030 64 0 0 0x01000012) (fun t => t.core.copies.map (·.chunks.map (·.len)) == [[16, 2]] &&
        (t.me.token 7).st == .pending && t.me.copies == 1 && t.mine.tracks.map (·.hi) == [81]) = true ∧
      after (.cpy2 10 20 7) rows (fun t => t.core.copies.map (·.chunks.map (·.dst)) == [[0x400000, 0x400064]]) = true ∧
      after (.cpym 10 20 7) (copying 0x300000 0x100000040 0 0 0x01000012) (fun t => t.core.copies.map (·.dests.length) == [1]) = true := by
  decide +kernel

/-- R289. The words of that copy, and one of each that a check turns away. -/
theorem test_hyps_CopyIssueResults_checks :
    let s := copying 0x300000 64 0 0 0x01000012
    let ctl := (s.getS 20).toNat
    let fails (j : Instr) (s : State) (reg : Nat) : Bool := after j s (fun t => decide (t.me.term.map (·.cause) = some .badHandle) && t.core.copies.isEmpty) &&
      after j (setH (fun h => { h with traph := 6 }) s) (fun t => decide (t.me.trapinfo.toNat % 256 = reg))
    field ctl 63 60 = 0 ∧ field ctl 59 54 = 0 ∧ field ctl 39 28 = 0 ∧ field ctl 27 26 = 0 ∧ field ctl 53 40 = 0 ∧ field ctl 25 24 = 1 ∧
      field ctl 23 0 = 18 ∧ (s.getS 11).toNat + 18 ≤ s.mine.hdr.scratch ∧
      fails (.cpym 10 20 7) (copying 0x300000 0x0001000100000040 0 0 0x01000012) 11 = true ∧
      fails (.cpym 10 20 7) (copying 0x300000 64 0 0 0x01000012) 11 = true ∧
      fails (.cpy 10 20 7) (copying 0x300000 64 0 0 0x0000000009000012) 20 = true ∧
      fails (.cpy2 10 20 7) (copying 16 0x400000 16 100 0x02000008) 20 = true ∧
      fails (.cpy 10 20 7) (copying 0x300000 262144 0 0 0x01000001) 0 = true ∧
      fails (.cpy 10 20 7) (copying 16 20 0 0 0x03000008) 0 = true ∧
      fails (.cpym 10 20 7) (copying 0x300000 0x200000040 0 0 0x01000012) 0 = true := by
  repeat' apply And.intro
  all_goals decide +kernel

theorem test_hyps_CopyEventResults :
    let ch : Chunk := { src := 0x300000, dst := 64, len := 2 }
    let out : Chunk := { src := 16, dst := 0x400000, len := 1 }
    let away : Chunk := { src := 0x8000000000, dst := 64, len := 2 }
    let s (cp : Copy) : State := setC (fun c => { c with copies := 1 }) { copying 0 0 0 0 0 with core := { world.core with copies := [cp] } }
    let bad (cp : Copy) : Copy := { cp with error := some (.poison, false, 5) }
    let part (cp : Copy) : Copy := { cp with dests := [{ num := 3, cid := 0, failed := some 1, left := 0 }] }
    let many (cp : Copy) : Copy := { cp with multi := true }
    let torn (cp : Copy) : State := (s cp).modCons 0 (fun q => { q with spoison := [64] })
    let rings (cp : Copy) : Copy := { cp with mbx := some 5 }
    let behind (cp : Copy) : State := { s cp with ms := { (s cp).ms with stores := [early] } }
    let boxed (uid : Nat) (cp : Copy) : State := { s cp with work := { world.work with mailboxes :=
      [{ num := 3, uid := uid, doorbell := 0, handler := 0, aspace := 0, running := false, count := 0 }] } }
    ((torn (many (flying true [ch]))).cons 0).spMeets 64 2 = true ∧ ((s (many (flying true [ch]))).cons 0).spMeets 64 2 = false ∧
      ((torn (flying true [ch])).cons 0).place ≠ .retired ∧
      after (.copyChunk 9 0) (torn (many (flying true [ch]))) (fun t => t.core.copies.map (·.dests.map (·.failed)) == [[some 2]] &&
        t.mine.scratch == [(16, 0xAA)]) = true ∧
      (boxed 5 (rings (flying false []))).work.mailboxes.any (fun b => b.uid == 5) = true ∧
      (∀ b ∈ (boxed 6 (rings (flying false []))).work.mailboxes, b.uid ≠ 5) ∧
      after (.copyComplete 9) (boxed 5 (rings (flying false []))) (fun t => t.work.arrivals == [3]) = true ∧
      after (.copyComplete 9) (boxed 6 (rings (flying false []))) (fun t => t.work.arrivals == []) = true ∧
      (s (flying true [ch])).core.copies.find? (fun c => c.id == 9) = some (flying true [ch]) ∧
      (s (flying true [ch])).chunkSource (flying true [ch]) ch = .ok [0x80, 0x7F] ∧ (s (flying false [out])).chunkSource (flying false [out]) out = .ok [0xAA] ∧
      (s (flying false [out])).engineAccess 0 0 0x400000 true 1 = .ok [0x400000] ∧ Memory.wf ((s (flying true [ch])).cons 0).scratch ∧
      Memory.wf (s (flying true [ch])).ms.mem ∧
      (match (s (flying true [away])).chunkSource (flying true [away]) away with
       | .error (.fault .xlateDenied va) => va == 0x8000000000
       | .error (.absent va) => va == 0x8000000000
       | _ => false) = true ∧
      after (.copyChunk 9 0) (s (flying true [ch])) (fun t => t.mine.scratch == [(16, 0xAA), (64, 0x80), (65, 0x7F)] &&
        t.core.copies.map (·.chunks.length) == [0]) = true ∧
      after (.copyChunk 9 0) (s (flying false [out])) (fun t => memGet t.ms.mem 0x400000 == 0xAA && memGet t.ms.mem 0x300000 == 0x80) = true ∧
      after (.copyComplete 9) (s (flying true [])) (fun t => t.core.copies.isEmpty && (t.me.token 7).st == .free && t.me.copies == 0) = true ∧
      after (.copyComplete 9) (s (bad (flying true [ch]))) (fun t => (t.me.token 7).st == .error .poison && (t.me.token 7).addr == 5) = true ∧
      after (.copyComplete 9) (s (part (flying true []))) (fun t => (t.me.token 7).st == .error .multicastPartial && (t.me.token 7).failed == 8) = true ∧
      (behind (flying false [out])).chunkWaits (flying false [out]) out = true ∧ (s (flying false [out])).chunkWaits (flying false [out]) out = false ∧
      notYet (.copyChunk 9 0) (behind (flying false [out])) = true ∧
      after (.copyChunk 9 0) ((s (flying false [out])).modCons 0 (fun q => { q with spoison := [16] })) (fun t => t.core.copies.map (·.error) ==
        [some (.poison, false, 16)]) = true := by
  repeat' apply And.intro
  all_goals decide +kernel

/-- A table of two bins at VA 0x310000 of rows of four bytes: bin 0 holds one row at 0x320000, and bin 1, the overflow bin, two at
0x320100; lanes name bin b and row r, their rows stand at offset 0 of the scratchpad, and s6 holds x. -/
def binned (b r : Nat → Word) (x : DWord) : State :=
  let s := setS 5 0x310000 (setS 6 x (setV 4 (reg 5 b) (setV 5 (reg 5 r) world)))
  { s with ms := { s.ms with mem := s.ms.mem ++
      [(0x310000, 2), (0x310004, 4), (0x310008, 1), (0x310042, 0x32), (0x310048, 1), (0x310050, 1), (0x310061, 1), (0x310062, 0x32), (0x310068, 2),
       (0x320000, 0x11)] } }.modMine (fun q => { q with scratch := [(0, 0xA0), (4, 0xA4)] })

/-- A bin operation over that table. -/
def binOp (gather bumped : Bool) (todo : List BinLane) : BinOp :=
  { id := 9, k := 0, c := 0, tok := 7, gather := gather, table := 0x310000, nbins := 2, rowb := 4, ovf := 1
    entries := [{ bin := 0, base := 0x320000, cap := 1 }, { bin := 1, base := 0x320100, cap := 2 }]
    bumped := bumped, todo := todo, lanes := 3, codes := [(0, 5), (1, 6)], v := 4, region := 1, epoch := 0, ref := 0, waiting := false, error := none }

/-- The bytes of a table are read at this address. -/
def readAt (s : State) (va : DWord) (n pa : Nat) (wr : Bool) : Bool :=
  match s.fetchBin 0 0 va n wr with
  | .inl (.bytes bs p) => bs.length == n && p == pa
  | _ => false

theorem test_hyps_BinEventResults :
    let s (op : BinOp) : State := setC (fun c => { c with copies := 1 }) { binned (fun _ => 0) (fun _ => 0) 0 with core := { world.core with bins := [op] } }
    let lane (b r : Nat) (ovr : Bool) : BinLane := { lane := 0, bin := b, row := r, off := 0, ovr := ovr }
    let next : BinLane := { lane := 1, bin := 0, row := 0, off := 4, ovr := false }
    let far (op : BinOp) : BinOp := { op with entries := [{ bin := 0, base := 0x40000000, cap := 1 }] }
    let host (op : BinOp) : State := { s (far op) with ms := { (s op).ms with
      mem := [(0, 1), (2, 0x10), (0x100000, 1), (0x100001, 0x10), (0x100002, 0x10), (0x101000, 0x0F), (0x101008, 0x0F), (0x10100D, 2)] } }
    let row := binOp false true [lane 0 0 false]
    let torn : State := (s row).modCons 0 (fun q => { q with spoison := [0] })
    let behind (pa : Nat) : State := { s row with ms := { (s row).ms with stores := [{ early with cells := [(pa, 1)] }] } }
    let denied (op : BinOp) : Bool := (op.error.map (·.1)) == some .xlateDenied
    (host (binOp false true [lane 0 0 false])).engineAccess 0 0 0x40000000 true 4 = .ok [0x20000000000, 0x20000000001, 0x20000000002, 0x20000000003] ∧
      isHost 0x20000000000 = true ∧
      after (.binScatterComplete 9) (host (binOp false true [lane 0 0 false])) (fun t => t.core.bins.all denied) = true ∧
      after (.binGatherComplete 9) (host (binOp true true [lane 0 0 false])) (fun t => t.core.bins.all denied) = true ∧
      (torn.cons 0).spPoisoned 0 1 = true ∧ after (.binScatterComplete 9) torn (fun t => t.core.bins.map (·.error) == [some (.poison, false, 0)]) = true ∧
      (behind 0x320000).binWaits row (lane 0 0 false) = true ∧ (behind 0x330000).binWaits row (lane 0 0 false) = false ∧
      notYet (.binScatterComplete 9) (behind 0x320000) = true ∧ readAt (s row) (binCountAt 0x310000 1) 4 0x310070 true = true ∧
      readAt ((s row).binWrite 0 0 9 1 (binCountAt 0x310000 1) 0x310070 (min ((s row).peek 0x310070 4 + 1) (2 ^ 32 - 1)))
        (binFlagsAt 0x310000) 4 0x31000C true = true ∧ (s (binOp false true [])).ms.stores = [] ∧ ((s (binOp false true [])).cons 0).sstale = [] ∧
    (∀ op ∈ [binOp false true [], binOp false false [lane 0 0 false, next], binOp false true [lane 0 1 false, next], binOp true true [lane 2 0 false]],
      (s op).core.bins.find? (fun o => o.id == 9) = some op ∧ op.waiting = false) ∧
      Memory.wf (s (binOp false true [])).ms.mem ∧ ((s (binOp false true [])).cons 0).spPoisoned 0 4 = false ∧
      (s (binOp false true [lane 0 0 false])).engineAccess 0 0 0x320000 true 4 = .ok [0x320000, 0x320001, 0x320002, 0x320003] ∧
      (s (binOp true true [lane 0 0 false])).engineAccess 0 0 0x320000 false 4 = .ok [0x320000, 0x320001, 0x320002, 0x320003] ∧
      after (.binScatterComplete 9) (s (binOp false true [])) (fun t => (t.me.getV 4).at 0 == 5 && (t.me.getV 4).at 1 == 6 && (t.me.token 7).st == .free &&
        t.me.copies == 0) = true ∧
      after (.binGatherComplete 9) (s { binOp true true [] with error := some (.poison, false, 0) }) (fun t => (t.me.token 7).st == .error .poison) = true ∧
      after (.binScatterComplete 9) (s (binOp false false [lane 0 0 false, next])) (fun t => memGet t.ms.mem 0x310050 == 3 &&
        t.core.bins.map (fun o => o.todo.map (·.row)) == [[1, 2]]) = true ∧
      after (.binScatterComplete 9) (s (binOp false true [lane 0 1 false, next])) (fun t => memGet t.ms.mem 0x310070 == 1 && memGet t.ms.mem 0x31000C == 1 &&
        t.core.bins.map (fun o => o.todo.map (fun x => (x.row, x.ovr))) == [[(0, true), (0, false)]]) = true ∧
      after (.binScatterComplete 9) (s (binOp false true [lane 0 1 true])) (fun t => memGet t.ms.mem 0x320104 == 0xA0 &&
        t.core.bins.map (·.codes) == [[(0, 5), (1, 6), (0, 0x80000001)]]) = true ∧
      after (.binScatterComplete 9) (s (binOp false true [lane 0 2 true])) (fun t => t.core.bins.map (·.codes) == [[(0, 5), (1, 6), (0, 0xFFFFFFFF)]]) = true ∧
      after (.binGatherComplete 9) (s (binOp true true [lane 2 0 false])) (fun t => t.mine.scratch == [(0, 0xA0), (4, 0xA4)] &&
        t.core.bins.map (·.todo) == [[]]) = true ∧
      after (.binGatherComplete 9) (s (binOp true true [lane 0 0 false])) (fun t => t.mine.scratch == [(0, 0x11), (4, 0xA4)]) = true := by
  repeat' apply And.intro
  all_goals decide +kernel

/-- A table of one bin with rows of four bytes, one of which it holds, at VA 0x310000. -/
def oneBin (x : DWord) : State :=
  let s := setS 5 0x310000 (setS 6 x (setV 4 (reg 5 (fun l => BitVec.ofNat 32 l)) (setV 5 (reg 5 (fun _ => 0)) world)))
  { s with ms := { s.ms with mem := s.ms.mem ++ [(0x310000, 1), (0x310004, 4), (0x310050, 1)] } }

theorem test_hyps_BinIssueResults :
    (oneBin 0).issuing = true ∧ ((oneBin 0).getS 5).toNat % 64 = 0 ∧ readAt (oneBin 0) 0x310000 64 0x310000 false = true ∧
      (binHeader ([1, 0, 0, 0, 4] ++ List.replicate 59 0)).map (fun h => (h.nbins, h.rowb, h.ovf)) = some (1, 4, 0) ∧
      (∀ l : Nat, l < 32 → bit (oneBin 0).iss.set l = true → (0 + BitVec.ofNat 64 (l * 4) : DWord).toNat + 4 ≤ (oneBin 0).mine.hdr.scratch) ∧
      (oneBin 0).me.copies < 255 ∧ ((oneBin 0).me.token 7).st = .free ∧ (oneBin 0).overCount (.binsc 4 5 6 7) = none ∧
      ((oneBin 0).me.getV 4).tag = 5 ∧ readAt (oneBin 0) (binEntryAt 0x310000 0) 32 0x310040 false = true ∧
      (oneBin 0).overCount (.binga 2 5 6 7) = none ∧ ((oneBin 0).me.getV 5).tag = 5 ∧ (oneBin 0).mine.tracks.length < 8 ∧
      (oneBin 0).overCount (.binrst 5 6) = none ∧ 1 < ((oneBin 0x100000001).getS 6).toNat % 2 ^ 32 + ((oneBin 0x100000001).getS 6).toNat / 2 ^ 32 ∧
      ((oneBin 0x100000000).getS 6).toNat % 2 ^ 32 + ((oneBin 0x100000000).getS 6).toNat / 2 ^ 32 ≤ 1 ∧ Memory.wf (oneBin 0).ms.mem ∧
      readAt (oneBin 0) (binCountAt 0x310000 0) 4 0x310050 true = true ∧ readAt (oneBin 0) (binFlagsAt 0x310000) 4 0x31000C true = true ∧
      readAt (oneBin 0) (binCountAt 0x310000 0) 4 0x310050 false = true ∧ (oneBin 0).ms.stores = [] ∧
      (oneBin 0).overCount (.binqry 1 5 6) = none ∧ 1 ≤ ((oneBin 1).getS 6).toNat ∧ ((oneBin 0).getS 6).toNat < 1 := by
  repeat' apply And.intro
  all_goals decide +kernel

/-- R307 to R309. -/
theorem test_bins :
    after (.binsc 4 5 6 7) (oneBin 0) (fun t => t.core.bins.map (fun o => (o.todo.map (·.bin), o.codes)) == [([0], [(1, 0xFFFFFFFE)])] &&
      (t.me.token 7).st == .pending) = true ∧
    after (.binga 2 5 6 7) (oneBin 0) (fun t => t.core.bins.map (fun o => o.todo.map (·.off)) == [[0, 4]]) = true ∧
    after (.binrst 5 6) (oneBin 0x100000000) (fun t => memGet t.ms.mem 0x310050 == 0 && memGet t.ms.mem 0x310004 == 4) = true ∧
    after (.binrst 5 6) { oneBin 0x100000000 with nextId := 9, ms := { (oneBin 0).ms with stores := [{ early with cells := [(0x310040, 1)] }] } } (fun t =>
      t.me.stall.isSome && memGet t.ms.mem 0x310050 == 1) = true ∧
    answer1 (.binqry 1 5 6) (oneBin 0) = some 1 := by
  repeat' apply And.intro
  all_goals decide +kernel

/-! ### The matrix engine -/

/-- A tile copy of one row of I8X4 elements. -/
def tileOf (tag : BitVec 4) (st : TileState) (bs : List Byte) : TileCopy :=
  { TileCopy.blank with st := st, tag := tag, rows := 1, klen := bs.length, data := [bs] }

/-- t0 holds 1 and 2, t1 holds 3 and 4 (I8X4), t2 is BF16X2 and t3 EMPTY; slot 0 holds I40 entries; s30 names slot 63 with version 5,
s31 holds x; s20 to s22 are a view of two BF16X2 rows at 0x300000 and s40 to s45 a loop of them. -/
def tiled (x : DWord) : State :=
  let s := setS 30 0x57070 (setS 31 x (setS 20 0x300000 (setS 21 0x0000001002000040 (setS 40 0x300000 (setS 41 0x300000
    (setS 42 0x40000040 (setS 43 0x0000200000000101 (loading 2))))))))
  s.modMine (fun q => { q with
    tiles := ((q.tiles.set 0 { Tile.blank with c0 := tileOf 7 .full [1, 2] }).set 1 { Tile.blank with c0 := tileOf 7 .full [3, 4] }).set 2
      { Tile.blank with c0 := tileOf 2 .full [0x80, 0x3F] }
    slots := (q.slots.set 0 { Slot.blank with i40 := true, ver := 5 }).set 63 { Slot.blank with ver := 5 } })

theorem test_hyps_MatrixInstructionResults :
    let s := tiled 0
    let owned : State := { s with core := { s.core with mq := [{ id := 9, k := 0, c := 0, op := .mma 0 true 1 false false false false false 0, slots := [63], expv := 5, ref := 0, since := 0, admitted := false, skip := [], failed := none, waiting := false, inStep := false, region := 1 }] } }
    let plain := setH (fun h => { h with hflags := 0, accslots := 8 }) s
    s.issuing = true ∧ s.overCount (.tfet 0 20 0 0) = none ∧ viewFault 20 0 false 0x300000 0x0000001002000040 0 = none ∧
      viewFault 20 0 false 0x300001 0 0 = some 20 ∧ viewFault 20 5 true 0x300000 0x0000001002000010 0x300040 = none ∧ plain.mine.hdr.ctabbed = false ∧
      (s.owned 0 0 = false ∧ s.boundCopy 0 0 true = false ∧ owned.boundCopy 0 0 true = true) ∧ s.me.tiles < 255 ∧
      s.overCount (.mma 0 1 63 5 0 0 0 0) = none ∧ plain.mine.hdr.accslots ≤ 8 ∧ (63 : BitVec 6).toNat < s.mine.hdr.accslots ∧
      (s.mine.tile 3).now.st = .empty ∧ (s.mine.tile 0).now.st ≠ .empty ∧ pairOf 7 false 2 false = none ∧
      (pairOf 7 false 7 false).map (fun p => (p.k, p.float, p.f16)) = some (64, false, false) ∧ s.mqLevel < 32 ∧
      s.overCount (.mloop 0 5 40 0 0) = none ∧ loopFault false ((List.range 6).map (fun i => s.getS (40 + i))) = none ∧
      (loopFault false [1, 0, 0, 0, 0, 0] = some 0) ∧ (pairOf 2 false 2 false).map (fun p => (p.k, p.float, p.f16)) = some (32, true, false) ∧
      Addressed s 30 1 63 0 5 ∧ Addressed s 30 16 63 0 5 ∧ s.overCount (.accz 30 31) = none ∧ 2 ≤ ((tiled 2).getS 31).toNat ∧ (s.getS 31).toNat < 2 ∧
      2 ^ 16 ≤ ((tiled 0x10000).getS 31).toNat ∧ s.overCount (.accrd 1 30 31) = none ∧ readsWell s [] (some 1) false [] true 0 [] = true ∧
      3 ≤ ((tiled 3).getS 31).toNat ∧ (s.getS 31).toNat = (0 : BitVec 2).toNat ∧ s.overCount (.accwr 2 30) = none ∧
      ((setV 2 (reg 4 (fun _ => 7)) s).me.getV 2).tag = 4 ∧ ¬ ((s.me.port 0).bound = true ∧ (s.me.port 0).kind = 1) ∧
      s.overCount (.ctset 8) = none ∧ (s.me.getV 8).tag = 2 ∧ (∃ i : Fin 8, bit s.iss.set i = false) ∧
      (let w : State := { s with iss := { s.iss with set := 0xFF } }
       (∀ i : Nat, i < 8 → bit w.iss.set i = true) ∧ w.genHeld (w.core.ctgen - 1) = false) := by
  repeat' apply And.intro
  all_goals decide +kernel

/-- R314, R327, R329, R332, R334. -/
theorem test_matrix_instructions :
    let s := tiled 0
    let sunk := setP 0 { Port.unbound with bound := true, kind := 1 } s
    let old : State := { s with hub := { s.hub with fp16 := false } } |>.modMine (fun q => q.modTileCopy 2 false (fun x => { x with tag := 3 }))
    let full : State := { s with iss := { s.iss with set := 0xFF } }
    let held : State := { full with core := { full.core with mq := [{ id := 9, k := 0, c := 0, op := .mma 0 false 4 false false false false false 0xFFFFFFFF, slots := [63], expv := 5, ref := 0, since := 0, admitted := false, skip := [], failed := none, waiting := false, inStep := false, region := 1 }] } }
      |>.modMine (fun q => q.modTileCopy 4 false (fun x => { x with tag := 10 }))
    after (.tfet 0 20 0 0) s (fun t => (t.mine.tile 0).now.st == .filling && (t.mine.tile 0).now.rows == 2 && t.core.tfills.length == 1 &&
        (t.mine.tile 0).c0.st == .full) = true ∧
      after (.tfet 0 20 5 0) (setH (fun h => { h with hflags := 0 }) (setS 22 0x40 s)) (fun t => t.me.term.map (·.cause) == some .badHandle) = true ∧
      after (.mma 0 1 63 5 0 0 0 0) s (fun t => t.core.mq.map (·.slots) == [[63]] && t.me.tiles == 1) = true ∧
      after (.mma 0 2 63 5 0 0 0 0) s (fun t => t.me.term.map (·.cause) == some .format) = true ∧
      after (.mma 0 2 63 5 0 0 0 0) old (fun t => t.me.term.map (·.cause) == some .profile) = true ∧
      after (.mloop 0 5 40 0 0) (setS 42 0x0001000040000040 old) (fun t => t.me.term.map (·.cause) == some .profile) = true ∧
      after (.mloop 0 5 40 0 0) s (fun t => t.core.mq.map (·.expv) == [5]) = true ∧
      after (.accz 30 31) s (fun t => t.core.mq.map (·.op) == [.accz false]) = true ∧
      after (.accwv 30 31) (tiled 0xFFFF) (fun t => t.core.mq.map (·.op) == [.accwv 0xFFFF]) = true ∧
      after (.accrd 1 30 31) s (fun t => t.core.mq.map (·.op) == [.accrd 1 0 0 0 3]) = true ∧
      after (.accwr 2 30) (setV 2 (reg 4 (fun _ => 7)) s) (fun t => t.core.mq.map (·.op) == [.accwr (reg 4 (fun _ => 7)) 0 0 3]) = true ∧
      after (.accdr 0 30 31) sunk (fun t => t.core.mq.map (·.op) == [.accdr 0 0 0]) = true ∧ answer1 (.accver 1 30) (setS 30 0x7070 s) = some 5 ∧
      held.genHeld (held.core.ctgen - 1) = true ∧ after (.ctset 8) held (fun t => t.me.lpcAt 0 == 0) = true ∧
      after (.ctset 8) full (fun t => t.core.ctgen == 1 && vget t.core.ctab 0 16 == 0x3300 && vget t.core.ctab 0 17 == 0x1122) = true ∧
      lanesOf1 (.ctget 1) s [0] = [0] := by
  repeat' apply And.intro
  all_goals decide +kernel

/-- R323. Scalar register 30 with bit 7 set names no row of a slot. -/
theorem test_hyps_MatrixInstructionResults_unaddressed : Unaddressed (setS 30 0x80 (tiled 0)) 30 16 ∧ Unaddressed (setS 30 0x80 (tiled 0)) 30 1 := by
  have h : ((setS 30 0x80 (tiled 0)).getS (30 : BitVec 6).toNat).toNat = 0x80 := by decide +kernel
  constructor <;> rintro slot row e ⟨h1, -, h3, -, h5⟩ <;> omega

/-- R314, R321, R327, R329, R332, R334. Checks that fail. -/
theorem test_hyps_MatrixInstructionResults_faults :
    let s := tiled 0
    let lost := setS 30 0x80 s
    let plain := setH (fun h => { h with hflags := 0, accslots := 8 }) s
    let coded (q : State) : State := q.modMine (fun q => q.modTileCopy 1 false (fun x => { x with tag := 10, narrow := true }))
    let sunk := setP 0 { Port.unbound with bound := true, kind := 1 } s
    let full : State := { s with core := { s.core with mq := (List.range 32).map (fun i => { id := i, k := 0, c := 0, op := .accz true, slots := [63], expv := 9, ref := 0, since := 0
                                                                                             admitted := false, skip := [], failed := none, waiting := false, inStep := false, region := 1 }) } }
    let took (i : Instr) (t : State) (cause : Cause) : Bool := after i t (fun u => u.me.term.map (·.cause) == some cause)
    (pairOf 2 false 10 true).isSome = true ∧ 32 ≤ full.mqLevel ∧
      took (.mma 0 3 63 5 0 0 0 0) s .format ∧ took (.mma 3 0 63 5 0 0 0 0) s .format ∧ took (.mma 0 1 8 5 0 0 0 0) plain .badHandle ∧
      took (.mma 2 1 0 5 0 0 0 0) (coded plain) .badHandle ∧ after (.mma 2 1 0 5 0 0 0 0) (coded s) (fun t => t.core.mq.length == 1) = true ∧
      took (.mloop 0 5 40 0 0) (setS 40 1 s) .badHandle ∧ took (.mloop 7 5 40 1 0) s .badHandle ∧ took (.mloop 8 5 40 0 0) plain .badHandle ∧
      took (.accz 30 31) lost .badHandle ∧ took (.accwv 30 31) lost .badHandle ∧ took (.accrd 1 30 31) lost .badHandle ∧
      took (.accrd 1 30 31) (tiled 3) .badHandle ∧ took (.accz 30 31) (tiled 2) .badHandle ∧ took (.accwv 30 31) (tiled 0x10000) .badHandle ∧
      took (.accdr 0 30 31) s .badHandle ∧ took (.accdr 0 30 31) (setS 30 0x80 sunk) .badHandle ∧ took (.accdr 0 30 31) (setS 31 3 sunk) .badHandle ∧
      took (.ctset 2) s .format ∧ took (.ctset 8) s .badHandle ∧ took (.ctget 1) plain .badHandle ∧
      after (.accz 30 31) full (fun t => t.me.stall.isSome && t.core.mq.length == 32) = true := by
  repeat' apply And.intro
  all_goals decide +kernel

/-- An entry of the matrix queue. -/
def entryOf (op : MqOp) (slot : Nat) (admitted : Bool) : MqEntry :=
  { id := 9, k := 0, c := 0, op := op, slots := [slot], expv := 5, ref := 0, since := 0, admitted := admitted, skip := [], failed := none
    waiting := false, inStep := false, region := 1 }

/-- The machine of those tiles with one entry in its matrix queue. -/
def queued (e : MqEntry) : State :=
  setC (fun c => { c with tiles := 1 }) { tiled 0 with core := { (tiled 0).core with mq := [e] } }

/-- The operations of these tests. -/
def mmaOp (t : Nat) : MqOp := .mma t false t false false false false true 0

theorem test_hyps_MatrixEventResults_admission :
    ((queued (entryOf (mmaOp 0) 0 false)).nextAdmission.isSome = true ∧ (queued (entryOf (mmaOp 0) 0 false)).discarded (entryOf (mmaOp 0) 0 false) = none) ∧
      Stands (queued (entryOf (mmaOp 0) 0 false)) 0 0 ∧
      after (.matrixAdmit 9) (queued (entryOf (mmaOp 0) 0 false)) (fun t => (t.mine.slot 0).ver == 6 && t.core.mq.map (·.admitted) == [true]) = true ∧
      after (.matrixAdmit 9) (queued (entryOf (mmaOp 0) 63 false)) (fun t => t.core.mq.isEmpty && t.me.merrs.map (·.cause) == [.format]) = true ∧
      after (.matrixAdmit 9) (queued (entryOf (.accz true) 63 false)) (fun t => (t.mine.slot 63).i40 && (t.mine.slot 63).ver == 6) = true ∧
      after (.matrixAdmit 9) (queued (entryOf (.accwv 0xFFFF) 63 false)) (fun t => (t.mine.slot 63).ver == 0xFFFF) = true ∧
      after (.matrixAdmit 9) (queued (entryOf (.asend 0 0 1 false false false) 63 false)) (fun t => (t.mine.slot 63).ver == 6) = true ∧
      (let late : State := { queued { entryOf (mmaOp 0) 0 false with expv := 4 } with clock := 1048576 }
       late.qualifies [] { entryOf (mmaOp 0) 0 false with expv := 4 } = false ∧
         after (.versionWait 18) late (fun t => t.core.mq.isEmpty && t.me.merrs.map (·.cause) == [.versionWait] && t.me.tiles == 0) = true) := by
  repeat' apply And.intro
  all_goals decide +kernel

theorem test_hyps_MatrixEventResults_performance :
    (queued (entryOf (mmaOp 0) 0 true)).mqReady (entryOf (mmaOp 0) 0 true) = true ∧
      after (.matrixPerform 9) (queued (entryOf (mmaOp 0) 0 true)) (fun t => (t.mine.slot 0).entry 0 0 == 5 && t.core.mq.isEmpty && t.me.tiles == 0) = true ∧
      after (.matrixPerform 9) (queued (entryOf (mmaOp 2) 63 true)) (fun t => (t.mine.slot 63).entry 0 0 == BitVec.ofNat 40 (AX40.round 0 (.num false 1 0))) = true ∧
      after (.matrixPerform 9) (queued (entryOf (.accz true) 63 true)) (fun t => (t.mine.slot 63).entry 15 15 == 0) = true ∧
      after (.matrixPerform 9) (queued (entryOf (.accwr (reg 4 (fun l => BitVec.ofNat 32 l)) 14 0 0x00020001) 0 true)) (fun t =>
        (t.mine.slot 0).entry 15 1 == 17 && (t.mine.slot 0).entry 14 1 == 0) = true ∧
      after (.matrixPerform 9) (queued (entryOf (.accrd 1 2 0 0 3) 0 true)) (fun t => (t.me.getV 1).tag == 4 && (t.me.getV 1).at 0 == 0) = true ∧
      after (.accdrPush 9) (setP 0 { Port.unbound with bound := true, kind := 1 } (queued (entryOf (.accdr 0 2 192) 0 true))) (fun t =>
        (t.me.port 0).elems.length == 64 && t.core.mq.isEmpty) = true ∧
      (let looped := entryOf (.mloop false false ((List.range 6).map (fun i => (tiled 0).getS (40 + i))) 0 1) 0 true
       (queued looped).mqReady looped = true ∧ (LoopDesc.of ((List.range 6).map (fun i => (tiled 0).getS (40 + i)))).ktot ≤ 1 * 32 ∧
         after (.matrixPerform 9) (queued looped) (fun t => t.core.mq.isEmpty) = true) := by
  repeat' apply And.intro
  all_goals decide +kernel

/-- R324, R330, R446. Which entries go before which, and a loop that waits for an atomic of its course. -/
theorem test_hyps_MatrixEventResults_order :
    let m : MqEntry := { entryOf (mmaOp 0) 1 true with id := 8 }
    let looped := entryOf (.mloop false false ((List.range 6).map (fun i => (tiled 0).getS (40 + i))) 0 0) 0 true
    let both (o e : MqEntry) : State := { queued e with core := { (queued e).core with mq := [o, e] } }
    let r : AtomReq := { k := 0, c := 0, op := 3, dest := none, tag := 5, lanes := [], va := 0x300000, epoch := 0, region := 1, checked := false, behind := [] }
    let held : State := { queued looped with ms := { (queued looped).ms with atoms := [{ id := 3, pa := 0x300000, code := 0, open_ := false, opened := 0, reqs := [r] }] } }
    (both m (entryOf (mmaOp 0) 0 true)).mqReady (entryOf (mmaOp 0) 0 true) = false ∧ (both m looped).mqReady looped = false ∧
      (both m (entryOf (.accz true) 0 true)).mqReady (entryOf (.accz true) 0 true) = true ∧
      (both m (entryOf (.accz true) 1 true)).mqReady (entryOf (.accz true) 1 true) = false ∧
      (both { looped with id := 8 } looped).mqReady looped = false ∧
      (both { looped with id := 8, slots := [1] } (entryOf (mmaOp 0) 0 true)).mqReady (entryOf (mmaOp 0) 0 true) = true ∧
      held.mqReady looped = true ∧ held.loopHeld looped false ((List.range 6).map (fun i => (tiled 0).getS (40 + i))) 0 = true ∧ notYet (.matrixPerform 9) held = true ∧
      (queued looped).loopHeld looped false ((List.range 6).map (fun i => (tiled 0).getS (40 + i))) 0 = false ∧
      after (.matrixPerform 9) (queued looped) (fun t => t.core.mq.map (fun e => match e.op with
        | .mloop _ _ _ _ n => n
        | _ => 9) == [1]) = true := by
  repeat' apply And.intro
  all_goals decide +kernel

/-- R324, R330, R446. An MMA behind a loop on its own slot does not hold back one of another slot. -/
theorem test_hyps_MatrixEventResults_keptBack :
    let m : MqEntry := { entryOf (mmaOp 0) 1 true with id := 8 }
    let looped : MqEntry := { entryOf (.mloop false false ((List.range 6).map (fun i => (tiled 0).getS (40 + i))) 0 0) 1 true with id := 7 }
    let e := entryOf (mmaOp 0) 0 true
    let s : State := { queued e with core := { (queued e).core with mq := [looped, m, e] } }
    SameSlot looped m ∧ ¬ SameSlot m e ∧ KeptBack [looped, m] m ∧ s.mqReady e = true ∧ s.mqReady m = false ∧ ([looped, m].map (·.id)).Nodup ∧
      (s.cons 0).onCore = true ∧ (s.cons 0).place = .resident := by
  refine ⟨⟨rfl, 1, by decide, by decide⟩, ?_, ⟨_, .refl _, rfl, ⟨_, rfl, .inl rfl⟩, ?_⟩, by decide +kernel, by decide +kernel, by decide +kernel,
    by decide +kernel, by decide +kernel⟩
  · rintro ⟨-, n, h1, h2⟩
    simp [entryOf] at h1 h2
    omega
  · intro i x y hx hy
    match i with
    | 0 =>
      cases hx
      cases hy
      exact ⟨rfl, 1, by decide, by decide⟩
    | i + 1 => simp at hy

/-- R310, R330. A loop over four slots performs one K step in each; one whose steps are done leaves; a saturating MMA. -/
theorem test_hyps_MatrixEventResults_four :
    let d : List DWord := (List.range 6).map (fun i => (tiled 0).getS (40 + i))
    let four (n : Nat) : MqEntry := { entryOf (.mloop true false d 0 n) 0 true with slots := [0, 1, 8, 9] }
    let fills (v : Nat → TileView) (i : Nat) : Bool := ((queued (four 0)).tileLoad 0 0 (v i)).toBool
    let y := LoopDesc.of d
    (queued (four 0)).mqReady (four 0) = true ∧ (queued (four 0)).loopHeld (four 0) true d 0 = false ∧ 0 < y.ktot ∧ y.ktot ≤ 1 * 32 ∧
      (pairOf (fmtTag y.a.fmt) y.a.narrow (fmtTag y.b.fmt) y.b.narrow).map (·.k) = some 32 ∧
      ((List.range 2).all (fills (fun i => y.a.view i 0 32 y.k0 y.ktot)) && (List.range 2).all (fills (fun i => y.b.view i 0 32 y.k0 y.ktot))) = true ∧
      after (.matrixPerform 9) (queued (four 0)) (fun t => t.core.mq.map (fun e => match e.op with
        | .mloop _ _ _ _ n => n
        | _ => 9) == [1]) = true ∧
      after (.matrixPerform 9) (queued (four 1)) (fun t => t.core.mq.isEmpty) = true ∧
      after (.matrixPerform 9) (queued (entryOf (.mma 0 false 0 false false false true true 0) 0 true)) (fun t => (t.mine.slot 0).entry 0 0 == 5) = true := by
  repeat' apply And.intro
  all_goals decide +kernel

/-- R247, R332, R334. ACCWR and CTSET from a queue port. -/
theorem test_hyps_MatrixInstructionResults_ports :
    let source (t : BitVec 4) (n : Nat) : State := setP 0 { Port.unbound with bound := true, kind := 2, chan := 1 }
      ((tiled 0).modMine (fun q => { q with channels := vset q.channels 1 ((List.range n).map (fun i => { val := BitVec.ofNat 32 i, tag := t })) }))
    let full (t : BitVec 4) : State := { source t 8 with iss := { (tiled 0).iss with set := 0xFF } }
    let gets (s : State) : Option (List (BitVec 4)) := (s.readSrcs [112] none 1).toOption.map (fun x => x.2.map (·.tag))
    isPort 112 = true ∧ gets (source 4 2) = some [4] ∧ gets (source 2 2) = some [2] ∧ gets (source 2 1) = none ∧ gets (full 2) = some [2] ∧
      Addressed (source 4 2) 30 2 63 0 5 ∧
      after (.accwr 112 30) (source 4 2) (fun t => t.core.mq.map (·.slots) == [[63]] && (vget t.mine.channels [] 1).isEmpty) = true ∧
      after (.accwr 112 30) (source 2 2) (fun t => t.me.term.map (·.cause) == some .format) = true ∧
      after (.accwr 112 30) (setS 30 0x80 (source 4 2)) (fun t => t.me.term.map (·.cause) == some .badHandle) = true ∧
      after (.ctset 112) (full 2) (fun t => t.core.ctgen == 1 && vget t.core.ctab 0 18 == 1 && (vget t.mine.channels [] 1).isEmpty) = true ∧
      after (.ctset 112) (source 4 2) (fun t => t.me.term.map (·.cause) == some .format) = true ∧
      after (.ctset 112) (source 2 1) (fun t => t.me.stall.isSome) = true := by
  repeat' apply And.intro
  all_goals decide +kernel

/-- A fill of copy 1 of t0 of two rows of two bytes. -/
def filling (data : List (List Byte)) (base : DWord) : State :=
  let f : TileFill := { id := 9, k := 0, c := 0, t := 0, copy := true, base := base, stride := 64, rowBytes := 2, scales := 0, region := 1
                        waiting := false, since := 0, unpinned := false, ref := 0, seq := 0 }
  (setC (fun c => { c with tiles := 1 }) { tiled 0 with core := { (tiled 0).core with tfills := [f] } }).modMine (fun q =>
    q.modTileCopy 0 true (fun _ => { tileOf 2 .filling [] with rows := 2, data := data }))

theorem test_hyps_MatrixEventResults_fills :
    (filling [] 0x300000).core.tfills.map (fun f => ((filling [] 0x300000).pinless f, f.waiting)) = [(false, false)] ∧ Stands (filling [] 0x300000) 0 0 ∧
      (match (filling [] 0x300000).tileRow 0 0 0x300000 64 2 0 with
       | .ok bs => bs == [0x80, 0x7F]
       | .error _ => false) = true ∧
      after (.tfetFillComplete 9) (filling [] 0x300000) (fun t => (t.mine.tile 0).c1.data == [[0x80, 0x7F]]) = true ∧
      after (.tfetFillComplete 9) (filling [[1, 2], [3, 4]] 0x300000) (fun t => (t.mine.tile 0).c1.st == .full && t.core.tfills.isEmpty && t.me.tiles == 0) = true ∧
      after (.tfetFillComplete 9) (filling [] 0x100000000000000) (fun t => (t.mine.tile 0).c1.st == .empty && t.me.merrs.map (·.cause) == [.xlateDenied]) = true := by
  repeat' apply And.intro
  all_goals decide +kernel

theorem test_hyps_MatrixEventResults_stalls :
    let e : MatrixError := { cause := .format, opk := 1, slot := 63, expv := 5, tile := 0, ref := 0, seq := 0 }
    let bad := setC (fun c => { c with merrs := [e] }) handled
    let late (why : StallWhy) : State := setC (fun c => { c with stall := some { why := why, since := 0, iss := world.iss, buffers := 0, reg := 112, drain := [] } }) { handled with clock := 1048576 }
    (bad.crs 0 0).issueSet.isSome = true ∧ (bad.cons 0).place = .resident ∧ (bad.crs 0 0).heldFirm = false ∧
      after (.matrixErrorDelivery 0 0) bad (fun t => t.me.trapcause == Cause.format.code && t.me.merrs.isEmpty && t.me.lpcAt 31 == 6) = true ∧
      after (.codeTableBusy 0 0) (late .ctset) (fun t => t.me.trapcause == Cause.codeTableBusy.code) = true ∧
      after (.queueStall 0 0) (late .launch) (fun t => t.me.trapcause == Cause.queueStall.code) = true ∧
      after (.queueStall 0 0) (late .port) (fun t => t.me.trapinfo.toNat % 256 == 112) = true ∧
      after (.versionWait 1) (late .achopen) (fun t => t.me.trapcause == Cause.versionWait.code) = true := by
  repeat' apply And.intro
  all_goals decide +kernel

theorem test_hyps_MatrixEventResults_rest :
    let pinned : State := { (filling [] 0x300000).modMine (fun q => q.modTileCopy 7 false (fun x => { x with pins := 1000 })) with clock := 256 }
    let coded := (filling [List.replicate 16 1] 0x300000).modMine (fun q => q.modTileCopy 0 true (fun x => { x with tag := 9, narrow := true, rows := 1 }))
    let send (exact : Bool) := entryOf (.asend 1 1 5 false exact false) 0 true
    let sent (exact : Bool) : State :=
      let s := queued (send exact)
      { s with consorts := s.consorts ++ [{ Consort.ready with id := 1, num := 1, chains := vset Consort.blank.chains 1 { Chain.blank with st := .opened, epoch := 5 } }] }
    (pinned.core.tfills.map (fun f => pinned.pinless f) = [true]) ∧ (coded.core.tfills.map (fun f => coded.pinless f)) = [false] ∧ isCodebook 9 = true ∧
      (match coded.tileFactors 0 0 0 0 (rowCapacity 9 true) 0 with
       | .ok ds => ds.map (·.1) == [0]
       | .error _ => false) = true ∧
      ((sent false).receiver 0 1 1 5).map (·.id) = some 1 ∧ (sent true).mqReady (send true) = true ∧
      after (.tilePinTimeout 9) pinned (fun t => t.core.tfills.map (·.unpinned) == [true]) = true ∧
      after (.tfetFillComplete 9) coded (fun t => (t.mine.tile 0).c1.factors.map (·.length) == [1]) = true ∧
      after (.matrixPerform 9) (sent false) (fun t => t.core.mq.isEmpty && (vget (t.cons 1).chains Chain.blank 1).contribs.map (·.1) == [0]) = true ∧
      after (.matrixPerform 9) (sent true) (fun t => t.core.packets.map (fun p => (p.rcv, p.epoch)) == [(1, 5)]) = true := by
  repeat' apply And.intro
  all_goals decide +kernel

/-! ### The accumulate network and selection -/

/-- A gang of two: consort 0 issues, with chain 0 as given, and consort 1 has chain 1 as given; s30 is x and s31 is y. -/
def ganged (h0 h1 : Chain) (x y : DWord) : State :=
  let s := (setS 30 x (setS 31 y world)).modMine (fun q => { q with cpg := 2, chains := vset q.chains 0 h0 })
  { s with consorts := s.consorts ++ [{ Consort.ready with id := 1, num := 1, cpg := 2, chains := vset Consort.blank.chains 1 h1 }] }

/-- An open epoch 5 of n members over slot 0. -/
def chainOf (exact : Bool) (members : BitVec 64) (n : Nat) : Chain :=
  { Chain.blank with st := .opened, epoch := 5, exact := exact, members := members, n := n, i40 := true
                     sums := if exact then [List.replicate 256 { x := 0, nan := false, pinf := false, ninf := false }] else [] }

/-- Consort 0 is bound to epoch 5 of chain 1 of consort 1. -/
def boundTo (s : State) : State :=
  s.modMine (fun q => { q with bindings := [{ rcv := 1, chn := 1, epoch := 5, four := false, exact := true, i40 := true, owner := 0, sent := false }] })

theorem test_hyps_AccumulateNetworkResults_issue :
    let closed (x y : DWord) := ganged Chain.blank (chainOf true 1 1) x y
    let done (x : DWord) := ganged { chainOf false 0 0 with members := 0 } (chainOf true 1 1) x 0
    let mixed := (closed 0x20300 3).modMine (fun q => { q with slots := q.slots.set 9 { Slot.blank with i40 := true } })
    let gone := boundTo ((closed 0x101 0x7070).modCons 1 (fun q => { q with place := .saved 1 }))
    let locked := (closed 0x20200 3).modMine (fun q => { q with slots := q.slots.set 0 { Slot.blank with lock := true } })
    (closed 0x20200 3).issuing = true ∧ (closed 0x20200 3).overCount (.achopen 30) = none ∧ (closed 0x20200 3).overCount (.achjoin 30) = none ∧
      (closed 0x20200 3).overCount (.asend 30 31) = none ∧ (closed 0x20200 3).overCount (.achclose 30) = none ∧
      (closed 0x20200 3).overCount (.achwait 1 30) = none ∧ (memberList 3).length = 2 ∧ (∀ i ∈ memberList 3, i < 2) ∧ 1 ≤ (closed 0x20200 3).freeBuffers ∧
      4 ≤ mixed.freeBuffers ∧ (closed 0x20200 3).me.stall.isNone = true ∧ (closed 0x20200 3).slotQuiet 0 0 0 = true ∧ locked.slotQuiet 0 0 0 = false ∧
      (∀ i ∈ [0, 1, 8, 9], mixed.slotQuiet 0 i 0 = true) ∧ (mixed.mine.slot 9).i40 ≠ (mixed.mine.slot 0).i40 ∧
      ((closed 0x101 0).residentMate (closed 0x101 0).mine 1).map (·.id) = some 1 ∧ ((closed 2 0).residentMate (closed 2 0).mine 1).isSome = true ∧
      (gone.residentMate gone.mine 1).isNone = true ∧ (gone.liveMate gone.mine 1).isSome = true ∧
      after (.achjoin 30) gone (fun t => t.me.term.map (·.cause) == some .acnNorecv) = true ∧
      after (.asend 30 31) gone (fun t => t.me.term.map (·.cause) == some .acnNorecv) = true ∧
      Addressed (setS 31 0x7070 (boundTo (closed 0x101 0))) 31 16 63 0 0 ∧ ((closed 0x101 0).mine.slot 63).lock = false ∧
      (done 0).mine.num = 0 ∧ ((done 0).mine.chain 0).complete = true ∧ ((done 0).mine.chain 0).slots.Nodup ∧
      ((ganged (chainOf true 2 1) Chain.blank 0 0).mine.chain 0).complete = false ∧
      after (.achopen 30) (closed 0x20200 3) (fun t => (t.mine.chain 0).n == 2 && (t.mine.slot 0).lock && (t.mine.chain 0).exact) = true ∧
      after (.achopen 30) locked (fun t => t.me.stall.map (·.why) == some .achopen) = true ∧
      after (.achopen 30) mixed (fun t => t.me.term.map (·.cause) == some .format) = true ∧
      after (.achjoin 30) (closed 0x40 0) (fun t => t.me.term.map (·.cause) == some .badHandle) = true ∧
      after (.achjoin 30) (closed 2 0) (fun t => t.me.term.map (·.cause) == some .acnBadchain) = true ∧
      after (.achjoin 30) (closed 0x101 0) (fun t => t.mine.bindings.map (·.epoch) == [5]) = true ∧
      after (.achjoin 30) (closed 1 0) (fun t => t.me.hold == .achjoin 30 (closed 1 0).iss) = true ∧
      after (.asend 30 31) (boundTo (closed 0x101 0x7070)) (fun t => t.core.mq.map (·.slots) == [[63]] && t.mine.bindings.map (·.sent) == [true]) = true ∧
      after (.achwait 1 30) (done 0x100) (fun t => t.me.term.map (·.cause) == some .acnBadchain) = true ∧
      after (.achwait 1 30) (ganged (chainOf true 2 1) Chain.blank 0 0) (fun t => t.me.hold == .achwait 1 30 world.iss) = true ∧
      after (.achwait 1 30) (done 0) (fun t => (t.mine.slot 0).ver == 1 && (t.me.getV 1).at 0 == 0 && t.me.lpcAt 0 == 2) = true ∧
      after (.achclose 30) (done 1) (fun t => t.me.term.map (·.cause) == some .acnBadchain) = true ∧
      after (.achclose 30) (done 0) (fun t => (t.mine.chain 0).st == .closed && (t.mine.slot 0).ver == 1) = true := by
  repeat' apply And.intro
  all_goals decide +kernel

/-- R344. An ACHOPEN whose word, chain or list of members is wrong. -/
theorem test_hyps_AccumulateNetworkResults_opens :
    let s (x y : DWord) := ganged Chain.blank Chain.blank x y
    let took (t : State) (cause : Cause) : Bool := after (.achopen 30) t (fun u => u.me.term.map (·.cause) == some cause)
    took (s 0x8000000000020200 3) .badHandle ∧ took (s 0x20240 3) .badHandle ∧ took (s 0x1020000 3) .badHandle ∧ took (s 0x20307 3) .badHandle ∧
      took (setH (fun h => { h with accslots := 9 }) (s 0x20300 3)) .badHandle ∧ took (s 0x30200 7) .acnBadchain ∧
      took (ganged (chainOf true 2 1) Chain.blank 0x20200 3) .acnBadchain ∧ took (s 0x20200 1) .acnBadchain ∧ took (s 0x20200 5) .acnBadchain ∧
      took (s 0x20000 3) .acnBadchain ∧ after (.achopen 30) (s 0x10000 2) (fun t => (t.mine.chain 0).st == .opened && !(t.mine.chain 0).exact) = true := by
  repeat' apply And.intro
  all_goals decide +kernel

/-- R353. An exact sum is added to its slot. -/
theorem test_exact_sum :
    let h : Chain := { chainOf true 2 1 with got := 2, sums := [List.replicate 256 { x := 5, nan := false, pinf := false, ninf := false }] }
    after (.achwait 1 30) (ganged h Chain.blank 0 0) (fun t => (t.mine.slot 0).entry 0 0 == 5 && (t.me.getV 1).at 0 == 0x100) = true := by
  decide +kernel

theorem test_hyps_AccumulateNetworkResults_events :
    let join := setC (fun c => { c with hold := .achjoin 30 world.iss }) (ganged Chain.blank (chainOf true 1 1) 0x101 0)
    let wait := setC (fun c => { c with hold := .achwait 1 30 world.iss }) (ganged (chainOf false 0 0) Chain.blank 0 0)
    let p : Packet := { rcv := 1, chn := 1, epoch := 5, member := 0, data := [List.replicate 256 7] }
    let s := ganged Chain.blank (chainOf true 1 1) 0 0
    let flight : State := { s with core := { s.core with packets := [p] } }
    let ordered (b : BitVec 64) :=
      let s := ganged { chainOf false 2 1 with broken := b, contribs := [(1, [List.replicate 256 7])] } Chain.blank 0 0
      s.modCons 1 (fun q => { q with bindings := [{ rcv := 0, chn := 0, epoch := 5, four := false, exact := false, i40 := true, owner := 0, sent := true }] })
    let gone := join.modCons 1 (fun q => { q with killed := true })
    let tight := (join.modCons 1 (fun q => { q with chains := vset q.chains 1 { chainOf false 1 1 with four := true, slot := 0 } })).modMine
      (fun q => { q with chains := vset (vset (vset (vset q.chains 0 { chainOf true 1 1 with four := true }) 1 { chainOf true 1 1 with four := true }) 2
        { chainOf true 1 1 with four := true }) 3 { chainOf true 1 1 with four := true } })
    world.iss.k = 0 ∧ (join.cons 0).place = .resident ∧ (join.crs 0 0).hold = .achjoin 30 world.iss ∧ (join.getS 30).toNat = 0x101 ∧
      ((join.residentMate join.mine 1).bind (fun r => r.joinable 1 join.mine)).isSome = true ∧ ChainWord join 30 1 1 ∧ ChainWord wait 30 0 0 ∧
      (gone.liveMate gone.mine 1).isNone = true ∧ tight.freeBuffers < 4 ∧ readsWell { wait with iss := world.iss } [] (some 1) false [] true 0 [] = true ∧
      (ordered 0).reserved ((ordered 0).cons 0) 5 1 = true ∧ ((ordered 2).mine.chain 0).packet.isNone = true ∧
      after (.achjoinBind 0 0) gone (fun t => t.me.term.map (·.cause) == some .acnNorecv) = true ∧
      after (.achjoinBind 0 0) tight (fun t => t.me.term.map (·.cause) == some .acnReserve) = true ∧
      after (.achwaitComplete 0 0) (wait.modMine (fun q => { q with chains := vset q.chains 0 Chain.blank })) (fun t =>
        t.me.term.map (·.cause) == some .acnBadchain) = true ∧ join.overCount (.achjoin 30) = none ∧
      (wait.crs 0 0).hold = .achwait 1 30 world.iss ∧ (wait.mine.chain 0).complete = true ∧ (flight.core.packets[0]?).isSome = true ∧
      (flight.cons 1).place ≠ .retired ∧ ((flight.cons 1).chain 1).st = .opened ∧ ((flight.cons 1).chain 1).epoch = p.epoch ∧
      ((ordered 0).mine.chain 0).exact = false ∧ (memberList ((ordered 0).mine.chain 0).members).drop ((ordered 0).mine.chain 0).passed = [1] ∧
      ((ordered 2).mine.chain 0).broken.getLsbD 1 = true ∧ ((ordered 0).mine.chain 0).broken.getLsbD 1 = false ∧
      (((ordered 0).mine.chain 0).contribs.find? (·.1 == 1)).isSome = true ∧
      after (.achjoinBind 0 0) join (fun t => t.mine.bindings.length == 1 && t.me.hold == .none) = true ∧
      after (.achwaitComplete 0 0) wait (fun t => (t.mine.chain 0).st == .waited && (t.me.getV 1).tag == 5 && t.me.hold == .none && t.me.lpcAt 0 == 2) = true ∧
      after (.acnFlitLanding 0) flight (fun t => ((t.cons 1).chain 1).got == 1 && t.core.packets.isEmpty &&
        (((t.cons 1).chain 1).sums.map (fun x => (x.take 1).map (·.x))) == [[7]]) = true ∧
      after (.acnOrderedForward 0 0) (ordered 2) (fun t => (t.mine.chain 0).passed == 1 && (t.mine.chain 0).packet.isNone) = true ∧
      after (.acnOrderedForward 0 0) (ordered 0) (fun t => (t.mine.chain 0).passed == 1 && (t.mine.chain 0).packet.map (·.map (·.take 1)) == some [[7]] &&
        (t.cons 1).bindings.isEmpty) = true := by
  repeat' apply And.intro
  all_goals decide +kernel

/-- s10 to s13 are a selection group over elements at src, with n of them in the control word's low bits. -/
def selecting (src ctl par dst : DWord) : State :=
  setP 0 { Port.unbound with bound := true, kind := 0 } (setS 10 src (setS 11 ctl (setS 12 par (setS 13 dst (loading 5)))))

/-- A selection operation in service over F32 elements at 0x300000. -/
def choosing (kind : Nat) (ctl : DWord) (reads : List (List Word)) : SelOp :=
  { id := 9, k := 0, c := 0, kind := kind, port := 0, src := 0x300000, ctl := ctl, par := 0x3F800000, dst := 0x300000, u := 0, tok := 3
    region := 1, ref := 0, served := true, waiting := false, reads := reads, epoch := 0 }

/-- The machine with that operation. -/
def serving (op : SelOp) : State := { selecting 0x300000 0 0 0 with core := { world.core with selq := [op] } }

theorem test_hyps_SelectionResults_issue :
    let s := selecting 0x300000 0x100000002 0 0
    let unbound := setP 0 Port.unbound s
    let full : State := { s with core := { s.core with selq := List.replicate 4 { choosing 0 0 [] with served := false } } }
    s.issuing = true ∧ s.overCount (.topk 0 10 3) = none ∧ s.overCount (.softmx 0 10 3) = none ∧ s.overCount (.sample 0 10 20 3) = none ∧
      selFaultReg 0 10 ((List.range 4).map (fun i => s.getS (10 + i))) = none ∧
      selFaultReg 1 10 [0x300000, 2, 0x3F800000, 0x300000] = none ∧ selFaultReg 2 10 [0x300000, 2, 0x3F800000, 0] = none ∧
      selFaultReg 0 10 [0x300001, 2, 0, 0] = some (.misalign, 10) ∧ selFaultReg 0 10 [0x300000, 2, 0, 0] = some (.badHandle, 11) ∧
      (s.me.port 0).kind = 0 ∧ ¬ ((unbound.me.port 0).bound = true ∧ (unbound.me.port 0).kind = 0) ∧
      4 ≤ (full.core.selq.filter (fun o => !o.served)).length ∧ (s.me.token 3).st = .free ∧
      after (.topk 0 10 3) s (fun t => t.core.selq.map (·.ctl) == [0x100000002] && (t.me.token 3).st == .pending) = true ∧
      after (.topk 0 10 3) unbound (fun t => t.me.term.map (·.cause) == some .badHandle) = true ∧
      after (.topk 0 10 3) full (fun t => t.core.selq.length == 4 && t.me.lpcAt 0 == 0) = true ∧
      after (.softmx 0 10 3) (selecting 0x300000 2 0x3F800000 0x300000) (fun t => t.core.selq.map (·.kind) == [1]) = true ∧
      after (.sample 0 10 20 3) (setS 20 7 (selecting 0x300000 2 0x3F800000 0)) (fun t => t.core.selq.map (·.u) == [7]) = true := by
  repeat' apply And.intro
  all_goals decide +kernel

/-- R364. One group for each check that fails, and the register that it names. -/
theorem test_hyps_SelectionResults_checks :
    let fails (j : Instr) (src ctl par dst : DWord) (cause : Cause) (reg : Nat) : Bool :=
      after j (setH (fun h => { h with traph := 6 }) (setS 20 7 (selecting src ctl par dst)))
        (fun t => t.me.trapcause == cause.code && decide (t.me.trapinfo.toNat % 256 = reg) && t.core.selq.isEmpty)
    fails (.topk 0 10 3) 0x300002 0x100000002 0 0 .misalign 10 = true ∧ fails (.softmx 0 10 3) 0x300000 2 0x3F800000 0x300002 .misalign 13 = true ∧
      fails (.topk 0 10 3) 0x300000 0x108000002 0 0 .badHandle 11 = true ∧ fails (.sample 0 10 20 3) 0x300000 0x40100000002 0x3F800000 0 .badHandle 11 = true ∧
      fails (.softmx 0 10 3) 0x300000 2 0x7F800000 0x300000 .badHandle 12 = true ∧
      fails (.sample 0 10 20 3) 0x300000 0x102000002 0x3F8000013F800000 0 .badHandle 12 = true ∧
      fails (.softmx 0 10 3) 0x300000 2 0x3F800000 0x300004 .badHandle 13 = true := by
  repeat' apply And.intro
  all_goals decide +kernel

/-- R366, R368 to R371. Elements of which one is NaN, and what SAMPLE may choose. -/
theorem test_hyps_SelectionResults_elements :
    Canonical [0x7FC00000, 0x3F800000] ∧ Above (0x3F800000, 1) (0x7FC00000, 0) ∧ Above (0, 1) (0x80000000, 0) ∧
      Above (0x3F800000, 0) (0x3F800000, 1) ∧ MaxOf [0x7FC00000, 0x3F800000] 0x3F800000 ∧ numberOf 0x7FC00000 = 0xFF800000 ∧
      weightOf 0x3F800000 0x3F800000 0x3F800000 = 0x3F800000 ∧ weightOf 0x3F800000 0x3F800000 0xFF800000 = 0 := by
  have one : F32.val (0x3F800000 : Word).toNat ≠ .nan := by decide +kernel
  refine ⟨?_, .inl (by decide +kernel), .inr (.inr (.inl (by decide +kernel))), .inr (.inr (.inr (by decide +kernel))),
    ⟨by decide +kernel, ?_⟩, by decide +kernel, by decide +kernel, by decide +kernel⟩
  · intro x hx
    rcases List.mem_cons.1 hx with rfl | hx
    · exact fun _ => rfl
    · exact fun h => absurd (List.mem_singleton.1 hx ▸ h) one
  · intro x hx
    rcases List.mem_cons.1 hx with rfl | hx
    · exact .inr (.inl (by decide +kernel))
    · rcases List.mem_singleton.1 hx with rfl
      exact .inr (.inr (.inr (by decide +kernel)))

/-- The elements of the one result buffer. -/
def results (t : State) (n : Nat) : List Word := (t.core.selbufs.flatMap (·.elems)).take n |>.map (·.val)

theorem test_hyps_SelectionResults_events :
    let fresh := { choosing 0 0x100000002 [] with served := false }
    let away := { choosing 0 0x100000002 [[]] with src := 0x100000000000000 }
    let lost := { choosing 0 0x100000002 [[]] with src := 0x40000000 }
    let out (dst : DWord) := { choosing 1 1 [[0], [0], []] with dst := dst }
    let behind (op : SelOp) : State := { serving op with ms := { (serving op).ms with stores := [{ early with cells := [(0x300000, 1)] }] } }
    let b : SelBuf := { id := 9, k := 0, c := 0, port := 0, elems := List.replicate 32 { val := 6, tag := 5 } }
    let held (n : Nat) : State := setP 0 { Port.unbound with bound := true, elems := List.replicate n { val := 1, tag := 5 } }
      { serving fresh with core := { world.core with selbufs := [b] } }
    (serving fresh).core.selq.find? (fun o => !o.served) = some fresh ∧ Stands (serving fresh) 0 0 ∧
      (match (serving (choosing 0 0x100000002 [[]])).selBlock (choosing 0 0x100000002 [[]]) with
       | .ok ws => ws == [0x00007F80, 5]
       | .error _ => false) = true ∧
      (match (serving away).selBlock away with
       | .error (.fault .xlateDenied va) => va == 0x100000000000000
       | _ => false) = true ∧
      (match (serving lost).selBlock lost with
       | .error (.absent va) => va == 0x40000000
       | _ => false) = true ∧
      after (.selResultReady 9) (serving lost) (fun t => t.core.selq.map (·.waiting) == [true] && t.hub.faults.map (fun f => (f.kind, f.access)) == [(2, 128)]) = true ∧
      (behind (out 0x300000)).selWaits (out 0x300000) = true ∧ (behind (out 0x330000)).selWaits (out 0x330000) = false ∧
      notYet (.softmxComplete 9) (behind (out 0x300000)) = true ∧
      after (.softmxComplete 9) (serving (out 0x100000000000000)) (fun t => t.core.selq.isEmpty && (t.me.token 3).st == .error .xlateDenied &&
        (t.me.token 3).dst && t.core.selbufs.isEmpty) = true ∧
      after (.softmxComplete 9) (serving (choosing 1 2 [])) (fun t => t.core.selq.map (·.reads) == [[[]]]) = true ∧
      (held 63).core.selbufs.find? (fun o => o.id == 9) = some b ∧ ((held 63).me.port 0).elems.length < 64 ∧
      after (.selServe 9) (serving fresh) (fun t => t.core.selq.map (·.served) == [true]) = true ∧
      after (.selResultReady 9) (serving (choosing 0 0x100000002 [])) (fun t => t.core.selq.map (·.reads) == [[[]]]) = true ∧
      after (.selResultReady 9) (serving (choosing 0 0x100000002 [[]])) (fun t => t.core.selq.map (·.reads) == [[[0x00007F80, 5]]]) = true ∧
      after (.selResultReady 9) (serving away) (fun t => t.core.selq.isEmpty && (t.me.token 3).st == .error .xlateDenied) = true ∧
      after (.selResultReady 9) (serving (choosing 0 0x100000002 [[0x3F800000, 0x40000000]])) (fun t => results t 33 ==
        [0x40000000] ++ List.replicate 31 0x7FC00000 ++ [1] && (t.me.token 3).st == .free) = true ∧
      after (.selResultReady 9) (serving (choosing 2 2 [[0xFF800000, 0x3F800000], [0xFF800000, 0x3F800000]])) (fun t => results t 32 ==
        List.replicate 32 1) = true ∧
      after (.softmxComplete 9) (serving (choosing 1 2 [[0x3F800000, 0x3F800000], [0x3F800000, 0x3F800000], [0, 0]])) (fun t => results t 3 ==
        [0x3F800000, 0x40000000, 0]) = true ∧
      after (.softmxComplete 9) (serving (choosing 1 1 [[0], [0], []])) (fun t =>
        (List.range 4).map (fun i => memGet t.ms.mem (0x300000 + i)) == [0, 0, 0x80, 0x3F]) = true ∧
      after (.selDeliver 9) (held 63) (fun t => (t.me.port 0).elems.length == 64 && t.core.selbufs.map (·.elems.length) == [31]) = true ∧
      after (.selDeliver 9) (held 0) (fun t => (t.me.port 0).elems.length == 32 && t.core.selbufs.isEmpty) = true := by
  repeat' apply And.intro
  all_goals decide +kernel

/-! ### Launches -/

/-- Queue 0 of a KIND at 0x200000, ENABLED, with a ring of 256 bytes at 0x210000; a node of records of 16 bytes, two to a launch, for queue 0 at
0x310000; a join counter of 3 at 0x320000; s20 to s27 name them, and memory goes on with these bytes. -/
def hosting (kind : Byte) (tail : List Host.Cell) : State :=
  let s := setS 20 0x300000 (setS 22 0x310000 (setS 23 0x320000 (setS 24 0x330000 (setS 25 0x340000 (setS 26 3 (setS 27 4096 world))))))
  { s with
    hub := { s.hub with qdtbase := 0x200000 }
    ms := { s.ms with mem := s.ms.mem ++ [(0x200002, 0x21), (0x200009, 1)] ++ (if kind = 0 then [] else [(0x20000C, kind)]) ++ [(0x20000D, 1)] ++
      tail ++ [(0x310000, 16), (0x310002, 2), (0x31000C, 1), (0x320000, 3)] } }

/-- The n bytes from WRIDX of queue 0 on have these physical addresses. -/
def ringAt (s : State) (n pa : Nat) : Bool :=
  match s.ringPas (s.qdesc 0) (s.qdesc 0).wr n with
  | .pas pas => pas == (List.range n).map (pa + ·)
  | _ => false

/-- n bytes at a virtual address are read at a physical one. -/
def readsAt (s : State) (va : DWord) (n pa : Nat) : Bool :=
  match s.fetchVa 0 va n with
  | .bytes bs p => bs.length == n && p == pa
  | _ => false

/-- R117. A descriptor of 256 bytes with nothing amiss. -/
theorem not_malformed (d : QDesc) (h : d.size = 256 ∧ d.base.toNat % 256 = 0 ∧ d.flags < 4 ∧ d.reserved = false) : ¬ Malformed d := by
  rintro ⟨-, -, h1 | h1 | h1 | h1⟩
  · exact h1 8 (by omega) (by omega) h.1
  · exact h1 h.2.1
  · omega
  · simp [h.2.2.2] at h1

/-- R17, R117, R136, R137, R249. What a queue, a node and a binding word are taken for, and are not. -/
theorem test_hyps_LaunchInstructionResults_checks :
    let s := hosting 0 []
    let e := hosting 2 []
    let ill : State := { s with ms := { s.ms with mem := s.ms.mem.map (fun x => if x.1 = 0x200009 then (0x20000B, 3) else x) } }
    MayLaunch s 0 0 ∧ ¬ MayLaunch s 4096 0 ∧ ¬ MayLaunch s 0 1 ∧ ¬ MayLaunch e 0 0 ∧ NodeTakes e (e.readBytes 0 0x310000 64) 0 ∧
      ¬ NodeTakes s (s.readBytes 0 0x310000 64) 0 ∧ BindWord 5 ∧ BindWord 0x703 ∧ ¬ BindWord 6 ∧ ¬ BindWord 0x101 ∧ ¬ BindWord 0x803 ∧
      Malformed (ill.qdesc 0) := by
  have h0 : ((hosting 0 []).qdesc 0).size = 256 ∧ ((hosting 0 []).qdesc 0).base.toNat % 256 = 0 ∧ ((hosting 0 []).qdesc 0).flags < 4 ∧
      ((hosting 0 []).qdesc 0).reserved = false := by decide +kernel
  have h2 : ((hosting 2 []).qdesc 0).size = 256 ∧ ((hosting 2 []).qdesc 0).base.toNat % 256 = 0 ∧ ((hosting 2 []).qdesc 0).flags < 4 ∧
      ((hosting 2 []).qdesc 0).reserved = false := by decide +kernel
  refine ⟨⟨by decide +kernel, by decide +kernel, by decide +kernel, by decide +kernel, not_malformed _ h0, by decide +kernel⟩, fun h => absurd h.1 (by decide),
    fun h => absurd h.2.2.2.2.2 (by decide +kernel), fun h => absurd h.2.2.1 (by decide +kernel), ?_,
    fun h => absurd h.2.2.2.2.2.2.2.2.2.2.2.2.1 (by decide +kernel), by unfold BindWord; decide +kernel, by unfold BindWord; decide +kernel,
    by unfold BindWord; decide +kernel, by unfold BindWord; decide +kernel, by unfold BindWord; decide +kernel, ⟨by decide +kernel, by decide +kernel, .inl ?_⟩⟩
  · refine ⟨by decide +kernel, by decide +kernel, by decide +kernel, by decide +kernel, by decide +kernel, by decide +kernel, by decide +kernel,
      by decide +kernel, by decide +kernel, by decide +kernel, by decide +kernel, ?_, by decide +kernel, by decide +kernel, by decide +kernel⟩
    exact not_malformed _ h2
  · intro i h6 h30
    rw [show QDesc.size _ = 3 * 2 ^ 24 by decide +kernel]
    interval_cases i <;> decide

theorem test_hyps_LaunchInstructionResults_records :
    let s := hosting 0 []
    let full := setC (fun c => { c with pending := List.replicate 4 { bytes := [], queue := 0, upTo := 0, region := 1, but := [], waiting := false } }) s
    let e := hosting 2 []
    let n := Node.ofBytes (e.readBytes 0 0x310000 64)
    let unused := e.modMine (fun q => { q with scratch := [(0, 0xAA)] })
    let filled := hosting 2 [(0x200015, 1)]
    let loading : State := { e with ms := { e.ms with stores := [{ id := 9, op := 9, k := 0, c := 0, at_ := .issued, epoch := 0, cells := [(0x400000, 1)] }] } }
    s.issuing = true ∧ s.overCount (.lnch 20 21) = none ∧ (s.getS 20).toNat % 64 = 0 ∧ s.launchOk 0 0 = true ∧ s.launchOk 4096 0 = false ∧
      e.launchOk 0 0 = false ∧ (match s.recordFate 0x300000 with
       | .ok pa _ => pa == 0x300000
       | _ => false) = true ∧
      s.atomPending 0 0 [0x300000] 64 = false ∧
      e.overCount (.emit 22 21) = none ∧ readsAt e 0x310000 64 0x310000 = true ∧ e.nodeOk n 0 = true ∧ s.nodeOk n 0 = false ∧
      (e.getS 21).toNat % 16 = 0 ∧ e.mine.spOff 0 16 = false ∧ e.mine.spPoisoned 0 16 = false ∧ e.releaseReady 0 0 3 = true ∧
      loading.releaseReady 0 0 3 = false ∧ (e.qdesc 0).room 16 = true ∧ (filled.qdesc 0).room 16 = false ∧ ringAt e 16 0x210000 = true ∧
      Apart e ((List.range 16).map (0x210000 + ·)) 0 ∧ Memory.wf e.ms.mem ∧ e.mine.sstale.isEmpty = true ∧
      after (.lnch 20 27) s (fun t => t.me.term.map (·.cause) == some .badHandle) = true ∧
      after (.lnch 20 21) full (fun t => t.me.stall.map (·.why) == some .launch) = true ∧
      after (.lnch 20 21) s (fun t => t.me.pending.map (·.queue) == [0] && t.me.region == 2 && t.me.pending.map (·.bytes.length) == [64]) = true ∧
      after (.emit 22 21) s (fun t => t.me.term.map (·.cause) == some .badHandle) = true ∧
      after (.emit 22 21) loading (fun t => t.me.stall.map (·.why) == some .other) = true ∧
      after (.emit 22 21) filled (fun t => t.me.stall.map (·.why) == some .launch) = true ∧
      after (.emit 22 21) unused (fun t => memGet t.ms.mem 0x210000 == 0xAA && t.peek 0x200014 4 == 16 &&
        (t.qrun 0).opened.map (fun b => (b.node, b.idxs)) == [(0x310000, [0])]) = true := by
  repeat' apply And.intro
  all_goals decide +kernel

/-- R260. Operands that take a cause with the layout of an access. -/
theorem test_hyps_LaunchInstructionResults_causes :
    let s := setH (fun h => { h with traph := 6 }) (hosting 2 [])
    let told (i : Instr) (t : State) (cause : Cause) (info : DWord) : Bool := after i t (fun u => u.me.trapcause == cause.code && u.me.trapinfo == info)
    let ill (pa : Nat) : State := { s with ms := { s.ms with poison := [pa / 32] } }
    let far : State := { s with ms := { s.ms with mem := s.ms.mem.map (fun x => if x.1 = 0x200002 then (0x200007, 1) else x) } }
    s.overCount (.lnch 20 21) = none ∧ s.overCount (.jcwait 1 23) = none ∧ s.overCount (.mbox 1 24 25) = none ∧
      (match s.xlate 0 s.mine.hdr.checked 0x100000000000000 true true with
       | .denied => true
       | _ => false) = true ∧ (ill 0x320000).poisoned 0x320000 = true ∧ (far.qdesc 0).room 16 = true ∧
      (match far.ringPas (far.qdesc 0) (far.qdesc 0).wr 16 with
       | .bad _ _ => true
       | _ => false) = true ∧
      told (.lnch 20 21) (setS 20 0x300020 s) .misalign 0x300020 ∧ told (.jcnew 23 26) (setS 23 0x320008 s) .misalign 0x0400000000320008 ∧
      told (.jcdec 23 26) (setS 23 0x100000000000000 s) .xlateDenied 0x0400000000000000 ∧ told (.jcdec 23 26) (ill 0x320000) .poison 0x0400000000320000 ∧
      told (.jcwait 1 23) (setS 23 0x320008 s) .misalign 0x320008 ∧ told (.jcwait 1 23) (setS 23 0x100000000000000 s) .xlateDenied 0 ∧
      told (.mbox 1 24 25) (setS 24 0x330020 s) .misalign 0x330020 ∧ told (.mbox 1 24 25) (setS 25 0x340020 s) .misalign 0x340020 ∧
      told (.emit 22 21) (s.modMine (fun q => { q with spoison := [8] })) .poison 0 ∧ told (.emit 22 21) far .xlateDenied 0x0400000000000000 ∧
      after (.emit 22 21) (setS 21 8 s) (fun t => t.me.laneAt 0 == .off && t.me.fmask == 3) = true ∧
      after (.emit 22 21) (setS 22 0x310020 s) (fun t => t.me.trapcause == Cause.badHandle.code) = true ∧
      after (.qbind 0 21 26) (setS 26 0x330000 (setS 21 5 s)) (fun t => t.me.trapcause == Cause.badHandle.code) = true := by
  repeat' apply And.intro
  all_goals decide +kernel

theorem test_hyps_LaunchInstructionResults_counters :
    let s := hosting 0 []
    let zero := { s with ms := { s.ms with mem := s.ms.mem.dropLast } }
    let storing : State := { s with ms := { s.ms with stores := [{ id := 9, op := 9, k := 0, c := 0, at_ := .issued, epoch := 0, cells := [(0x400000, 1)] }] } }
    let reading := setC (fun c => { c with loads := 1 }) { s with ms := { s.ms with loads := [{ id := 9, k := 0, c := 0, regs := [], words := [], tag := 0, scalar := none }] } }
    let box : Mailbox := { num := 0, uid := 1, doorbell := 0x330000, handler := 0x340000, aspace := 0, running := false, count := 0 }
    let boxed : State := { s with work := { s.work with mailboxes := [box] } }
    let bound := setP 0 { Port.unbound with bound := true } s
    let part := setP 0 { Port.unbound with bound := true, kind := 5, arg := 0x310000, part := [1, 2, 3, 4] } s
    s.overCount (.jcnew 23 26) = none ∧ s.overCount (.jcdec 23 26) = none ∧ (s.getS 23).toNat % 16 = 0 ∧ (s.getS 26).toNat < 2 ^ 32 ∧
      2 ^ 32 ≤ ((setS 26 0x100000000 s).getS 26).toNat ∧
      (match s.xlate 0 s.mine.hdr.checked (s.getS 23) true true with
       | .ok pa _ => pa == 0x320000
       | _ => false) = true ∧
      (match s.xlate 0 s.mine.hdr.checked (s.getS 23) true false with
       | .ok pa _ => pa == 0x320000
       | _ => false) = true ∧
      s.poisoned 0x320000 = false ∧ s.releaseReady 0 0 3 = true ∧ storing.releaseReady 0 0 3 = false ∧ s.overCount (.jcwait 1 23) = none ∧
      s.loadsDone 0 0 = true ∧ reading.loadsDone 0 0 = false ∧ s.peek 0x320000 4 = 3 ∧ zero.peek 0x320000 4 = 0 ∧
      s.overCount (.mbox 1 24 25) = none ∧ (s.getS 24).toNat % 64 = 0 ∧ (s.getS 25).toNat % 64 = 0 ∧ (s.getS 25) ≠ 0 ∧ s.work.mailboxes.isEmpty = true ∧
      boxed.work.mailboxes.find? (fun m => m.doorbell == boxed.getS 24 && m.aspace == boxed.mine.aspace) = some box ∧
      s.overCount (.qbind 0 21 28) = none ∧ bindingWordOk 0 = true ∧ bindingWordOk 6 = false ∧ (s.me.port 0).bound = false ∧ (bound.me.port 0).bound = true ∧
      bindingWordOk 4 = true ∧ bindingWordOk 5 = true ∧ s.getS 26 ≠ 0 ∧ (Node.ofBytes (s.readBytes 0 0x310000 64)).valid = true ∧
      part.portBusy 0 0 0 = true ∧ s.portBusy 0 0 0 = false ∧ s.overCount (.qstat 1 21) = none ∧ 16 ≤ (s.getS 27).toNat ∧
      after (.jcnew 23 26) (setS 26 0x100000000 s) (fun t => t.me.term.map (·.cause) == some .badHandle) = true ∧
      after (.jcnew 23 26) storing (fun t => t.me.stall.map (·.why) == some .other) = true ∧
      after (.jcnew 23 26) (setS 26 9 s) (fun t => t.peek 0x320000 8 == 9 && t.me.region == 2) = true ∧
      after (.jcdec 23 26) s (fun t => t.peek 0x320000 8 == 0) = true ∧
      after (.jcdec 23 26) (setS 26 4 s) (fun t => t.peek 0x320000 4 == 0 && t.peek 0x320004 4 == 2) = true ∧
      after (.jcwait 1 23) reading (fun t => t.me.stall.map (·.why) == some .other) = true ∧
      after (.jcwait 1 23) zero (fun t => (t.me.getV 1).at 0 == 0 && t.me.lpcAt 0 == 2) = true ∧
      after (.jcwait 1 23) s (fun t => t.me.hold == .jcwait 0x320000 1 none s.iss && t.me.lpcAt 0 == 0) = true ∧
      after (.mbox 1 24 25) s (fun t => (t.me.getV 1).at 0 == 0 && t.work.mailboxes == [box]) = true ∧
      after (.mbox 1 24 25) boxed (fun t => (t.me.getV 1).at 0 == 0xFFFFFFFF) = true ∧
      after (.mbox 1 24 28) boxed (fun t => (t.me.getV 1).at 0 == 0 && t.work.mailboxes.isEmpty) = true ∧
      after (.mbox 1 24 28) s (fun t => (t.me.getV 1).at 0 == 0xFFFFFFFF) = true ∧
      after (.qbind 0 21 28) (setS 21 6 s) (fun t => t.me.term.map (·.cause) == some .badHandle) = true ∧
      after (.qbind 0 21 26) s (fun t => t.me.term.map (·.cause) == some .badHandle) = true ∧
      after (.qbind 0 21 28) bound (fun t => t.me.term.map (·.cause) == some .badHandle) = true ∧
      after (.qbind 0 21 28) (setS 21 4 s) (fun t => t.me.term.map (·.cause) == some .badHandle) = true ∧
      after (.qbind 0 21 26) (setS 21 5 s) (fun t => t.me.term.map (·.cause) == some .badHandle) = true ∧
      after (.qbind 0 21 20) (setS 21 5 s) (fun t => t.me.term.map (·.cause) == some .badHandle) = true ∧
      after (.qbind 0 21 28) (setS 21 4 boxed) (fun t => (t.me.port 0).kind == 4 && (t.me.port 0).bound) = true ∧
      after (.qbind 0 21 22) (setS 21 5 s) (fun t => (t.me.port 0).arg == 0x310000) = true ∧
      after (.qfree 0) (setP 0 { Port.unbound with bound := true, dropped := 9 } s) (fun t => (t.me.port 0).dropped == 9 && !(t.me.port 0).bound) = true ∧
      after (.jcwait 1 23) { s with ms := { s.ms with stores := [{ id := 9, op := 9, k := 0, c := 0, at_ := .issued, epoch := 0, cells := [(0x320007, 1)] }] } }
        (fun t => t.me.stall.map (·.why) == some .other && t.me.hold == .none) = true ∧
      after (.qfree 0) part (fun t => t.me.stall.map (·.why) == some .other) = true ∧
      after (.qfree 0) bound (fun t => (t.me.port 0).bound == false && t.me.lpcAt 0 == 2) = true ∧
      after (.qstat 1 27) s (fun t => t.me.term.map (·.cause) == some .badHandle) = true ∧
      after (.qstat 1 21) bound (fun t => (t.me.getV 1).at 0 == 0x80000000) = true := by
  repeat' apply And.intro
  all_goals decide +kernel

/-- The bytes of a record of one gang for the header at 0x300000, in the ring of queue 0, whose queue is 63 × 64 + 64 bytes ahead, and
that header: one course, one vector register, no scratchpad. -/
def recorded : List Host.Cell :=
  [(0x200014, 64), (0x210000, 1), (0x210020, 5), (0x210026, 1), (0x210028, 1), (0x210032, 0x30), (0x300001, 0x20), (0x300003, 0x30), (0x300018, 1)]

/-- The machine of those queues with this work before it. -/
def working (s : State) (w : WorkSt) : State := { s with work := w }

/-- Queue 0 resident. -/
def resident0 : WorkSt := { WorkSt.reset with qrun := [{ QRun.blank 0 with resident := true }] }

theorem test_hyps_LaunchEventResults_waits :
    let woken := setC (fun c => { c with hold := .jcwait 0x320000 1 (some 7) world.iss }) (hosting 0 [])
    let portly := setP 0 { Port.unbound with bound := true, kind := 3, chan := 2 } (setC (fun c => { c with hold := .jcwait 0x320000 112 (some 7) world.iss }) (hosting 0 []))
    let saved := woken.modMine (fun q => { q with place := .saved 2 })
    let b : Batch := { node := 0x310000, tmpl := 0, rpl := 2, recsz := 16, until_ := some 0, idxs := [0] }
    let batched := working (hosting 2 []) { WorkSt.reset with qrun := [{ QRun.blank 0 with opened := [b] }] }
    let box (run : Bool) : Mailbox := { num := 5, uid := 1, doorbell := 0x330000, handler := 0x340000, aspace := 0, running := run, count := 0 }
    let came (run : Bool) := working (hosting 0 []) { WorkSt.reset with arrivals := [5], mailboxes := [box run] }
    let due (a : DWord) := working (hosting 0 []) { WorkSt.reset with jcwork := [{ aspace := 0, addr := a, err := true, waiting := false }] }
    (woken.crs 0 0).hold = .jcwait 0x320000 1 (some 7) world.iss ∧ world.iss.k = 0 ∧ world.iss.c = 0 ∧ woken.linesReady 0 0 = true ∧ isPort 1 = false ∧ (woken.cons 0).place = .resident ∧
      (saved.cons 0).place = .saved 2 ∧ (saved.cons 0).readyAt.isNone = true ∧
      (batched.qrun 0).opened.find? (fun b => b.until_.any (fun t => decide (t ≤ batched.clock))) = some b ∧
      (came true).work.mailboxes.find? (fun b => b.num == 5) = some (box true) ∧ (due 0x320000).work.jcwork[0]? = some { aspace := 0, addr := 0x320000, err := true, waiting := false } ∧
      (match (due 0x320000).xlate 0 false 0x320000 true true with
       | .ok pa _ => pa == 0x320000
       | _ => false) = true ∧
      (due 0x320000).poisoned 0x320000 = false ∧ Memory.wf (due 0x320000).ms.mem ∧
      after (.jcwaitWake 0 0) woken (fun t => (t.me.getV 1).at 1 == 7 && t.me.lpcAt 1 == 2 && t.me.hold == .none) = true ∧
      popcount world.iss.set ≤ portly.portRoom 0 0 (portOf 112) ∧
      after (.jcwaitWake 0 0) portly (fun t => vget t.mine.channels [] 2 == List.replicate 2 { val := 7, tag := 5 } && t.me.lpcAt 1 == 2) = true ∧
      after (.jcwaitWake 0 0) saved (fun t => (t.cons 0).readyAt == some 0) = true ∧
      after (.graphBatchTimeout 0) batched (fun t => (t.qrun 0).closed == [b] && (t.qrun 0).opened.isEmpty) = true ∧
      after .mailboxArrival (came true) (fun t => t.work.mailboxes.map (·.count) == [1] && t.work.appends.isEmpty) = true ∧
      after .mailboxArrival (came false) (fun t => t.work.mailboxes.map (·.running) == [true] && t.work.appends.map (·.mbox) == [5] && t.work.arrivals.isEmpty) = true ∧
      after (.jcRetireDecrement 0) (due 0x320008) (fun t => t.hub.faults.map (·.kind) == [10] && t.work.jcwork.isEmpty) = true ∧
      after (.jcRetireDecrement 0) (due 0x320000) (fun t => t.peek 0x320000 4 == 2 && t.peek 0x320004 4 == 1) = true := by
  repeat' apply And.intro
  all_goals decide +kernel

/-- R117, R134. A pending launch, with or without a join counter, to a queue that is malformed, or of which nothing is known. -/
theorem test_hyps_LaunchEventResults_drops :
    let p (jc : Byte) : Pending := { bytes := [1, 0, jc] ++ List.replicate 61 0, queue := 0, upTo := 1, region := 1, but := [], waiting := false }
    let ill (halted : Bool) : List Host.Cell := (hosting 0 []).ms.mem.map (fun x =>
      if x.1 = 0x200009 then (0x20000B, 3) else if halted ∧ x.1 = 0x20000D then (0x20000D, 3) else x)
    let s (jc : Byte) (halted : Bool) : State := { setC (fun c => { c with pending := [p jc] }) (hosting 0 []) with ms := { (hosting 0 []).ms with mem := ill halted } }
    Malformed ((s 0 false).qdesc 0) ∧ Memory.wf (s 0 false).ms.mem ∧ ((s 0 false).qdesc 0).halted = false ∧ ((s 0 true).qdesc 0).halted = true ∧
      (s 0 false).hub.evEn = false ∧ (LRecord.ofBytes (p 1).bytes).jc = true ∧
      after (.pendingLaunchAppend 0 0) (s 0 false) (fun t => t.me.pending.isEmpty && t.peek 0x20000D 1 == 3 && t.peek 0x20001C 4 == 0x15 &&
        t.hub.faults.map (·.cause) == [0x15, 0x14] && t.work.jcwork.isEmpty) = true ∧
      after (.pendingLaunchAppend 0 0) (s 1 true) (fun t => t.me.pending.isEmpty && t.hub.faults.map (·.cause) == [0x14] &&
        t.work.jcwork.map (·.err) == [true]) = true := by
  refine ⟨⟨by decide +kernel, by decide +kernel, .inl ?_⟩, ?_⟩
  · intro i h6 h30
    rw [show QDesc.size _ = 3 * 2 ^ 24 by decide +kernel]
    interval_cases i <;> decide
  · repeat' apply And.intro
    all_goals decide +kernel

theorem test_hyps_LaunchEventResults_appends :
    let pend (bs : List Byte) (s : State) := setC (fun c => { c with pending := [{ bytes := bs, queue := 0, upTo := 1, region := 1, but := [], waiting := false }] }) s
    let host := hosting 1 []
    let moved (to_ : Host.Cell) : State := { pend (List.replicate 64 1) (hosting 0 []) with ms := { (hosting 0 []).ms with
      mem := (hosting 0 []).ms.mem.map (fun x => if x.1 = 0x200002 then to_ else x) } }
    let a : Append := { mbox := 5, doorbell := 0x330000, handler := 0x300000, aspace := 0, waiting := false }
    let hand (tail : List Host.Cell) := working (hosting 0 tail) { WorkSt.reset with appends := [a] }
    let part := setP 3 { Port.unbound with bound := true, kind := 5, arg := 0x310000, part := [1, 2, 3, 4, 5] } (hosting 2 [])
    (pend [] (hosting 0 [])).storesBefore 0 0 1 = true ∧ (hosting 0 []).qdMine 0 = true ∧ ((hosting 0 []).qdesc 0).enabled = true ∧
      ((hosting 0 []).qdesc 0).halted = false ∧ ((hosting 0 []).qdesc 0).malformed = false ∧ ((hosting 0 []).qdesc 0).kind = 0 ∧
      ((hosting 0 []).qdesc 0).room 64 = true ∧ ringAt (hosting 0 []) 64 0x210000 = true ∧ Apart (hosting 0 []) ((List.range 64).map (0x210000 + ·)) 0 ∧
      Memory.wf (hosting 0 []).ms.mem ∧ (host.qdesc 0).kind ≠ 0 ∧ (host.qdesc 0).malformed = false ∧
      Stands part 0 0 ∧ (part.cons 0).onCore = true ∧ part.portWhole 0 0 3 = true ∧ (part.me.port 3).waiting = false ∧ part.storesDone 0 0 3 = true ∧
      ringAt part 16 0x210000 = true ∧ readsAt part 0x310000 64 0x310000 = true ∧
      (match ((moved (0x200003, 0x40)).ringPas ((moved (0x200003, 0x40)).qdesc 0) 0 64), ((moved (0x200007, 1)).ringPas ((moved (0x200007, 1)).qdesc 0) 0 64) with
       | .absent _, .bad _ _ => true
       | _, _ => false) = true ∧
      after (.pendingLaunchAppend 0 0) (moved (0x200003, 0x40)) (fun t => t.me.pending.map (·.waiting) == [true] && t.hub.faults.map (fun f => (f.kind, f.cause, f.access)) == [(2, 6, 1)]) = true ∧
      after (.pendingLaunchAppend 0 0) (moved (0x200007, 1)) (fun t => t.me.pending.isEmpty && t.hub.faults.map (fun f => (f.kind, f.cause)) == [(4, 0x14)]) = true ∧
      (hand []).work.appends.find? (fun a => a.mbox == 5 && !a.waiting) = some a ∧ readsAt (hand []) 0x300000 64 0x300000 = true ∧
      after (.pendingLaunchAppend 0 0) (pend (List.replicate 64 1) (hosting 0 [])) (fun t => memGet t.ms.mem 0x21003F == 1 && t.peek 0x200014 4 == 64 &&
        t.me.pending.isEmpty) = true ∧
      after (.pendingLaunchAppend 0 0) (pend (List.replicate 64 0) host) (fun t => t.hub.faults.map (·.kind) == [4] && t.me.pending.isEmpty) = true ∧
      after (.graphRecordAccept 0 0 3) part (fun t => t.peek 0x210000 16 == 1 + 2 * 2 ^ 32 + 3 * 2 ^ 64 + 4 * 2 ^ 96 && (t.me.port 3).part == [5]) = true ∧
      after (.handlerAppend 5) (hand [(0x30002D, 0x10)]) (fun t => t.hub.faults.map (·.kind) == [9] && t.work.appends.isEmpty) = true ∧
      after (.handlerAppend 5) (hand []) (fun t => t.peek 0x200014 4 == 64 && t.work.handlers.map (·.mbox) == [some 5]) = true := by
  repeat' apply And.intro
  all_goals decide +kernel

/-- The head record of queue 0. -/
def headOf (s : State) : Option HeadRecord :=
  match s.lookHead 0 with
  | .record r => some r
  | _ => none

/-- The launch of that record. -/
def launched : Launch :=
  { id := 9, queue := 0, aspace := 0, hdr := { Header.blank with khw := 0x30002000, traph := 0xFFFFFFFF, ovmgr := 0xFFFFFFFF, courses := 1 }
    lr := { jc := false, cref := 5, frame := 6, jcaddr := 0, widbase := 0, widw := [5, 0, 0, 0, 0, 0], cpg := 1, ngang := 1 }
    inline := [], s0 := 7, released := 0, live := 0, err := false, node := none, mbox := none, bell := none, rd := 0, length := 64 }

/-- Queue 0 with that launch at its head and a context area at 0x500000. -/
def offering : State :=
  working (hosting 0 [(0x200014, 64)]) { resident0 with qrun := [{ QRun.blank 0 with resident := true, head := some 9 }], launches := [launched], pool := [0x500000] }

/-- R31, R110, R111, R114. Those bytes pass, and no longer with a PRIO that does not exist. -/
theorem test_hyps_LaunchEventResults_record :
    let rb := ((headOf (working (hosting 0 recorded) resident0)).map (·.bytes)).getD []
    let hb (prio : Byte) := ((memRead (hosting 0 recorded).ms.mem 0x300000 64).set 0x1A prio)
    rb.length = 64 ∧ RecordGood rb (hb 7) .device 0 ∧ RecordGood rb (hb 0) .hostRing 0 ∧ ¬ RecordGood rb (hb 8) .device 0 ∧ ¬ RecordGood rb (hb 0) .device 1 ∧
      offering.work.pool.filter (fun a => offering.spanOk a 0xA0000 && offering.spanOk (offering.peek (a + 0x99000) 8) 0x80000) = [0x500000] := by
  unfold RecordGood
  repeat' apply And.intro
  all_goals decide +kernel

theorem test_hyps_LaunchEventResults_gangs :
    let s := working (hosting 0 recorded) resident0
    let wrong := working (hosting 0 (recorded ++ [(0x30001A, 8)])) resident0
    s.consumable 0 = true ∧ (s.qdesc 0).kind ≤ 2 ∧ (s.headLaunch 0).isNone = true ∧ (headOf s).any (fun r => r.count == 0 && r.length == 64 && lhAddr r.bytes == 0x300000 &&
        recordOk r.bytes (memRead s.ms.mem 0x300000 64) .device 0) = true ∧
      (headOf wrong).any (fun r => !recordOk r.bytes (memRead wrong.ms.mem 0x300000 64) .device 0) = true ∧
      gangFits (Header.ofBytes (memRead s.ms.mem 0x300000 64)) 1 = true ∧ offering.distributing = true ∧ offering.offer 0 = some launched ∧
      offering.launchFit launched = .fits [0] ∧ launched.lr.cpg ≤ offering.freeAreas.length ∧ offering.freeAreas = [0x500000] ∧ offering.servedNext 0 launched = true ∧
      (match offering.snapshot launched with
       | .ok bs => bs.isEmpty
       | .error _ => false) = true ∧
      after (.launchRecordConsume 0) s (fun t => t.work.launches.map (fun l => (l.lr.ngang, l.hdr.courses)) == [(1, 1)] && (t.qrun 0).head.isSome) = true ∧
      after (.launchRecordConsume 0) wrong (fun t => t.peek 0x200010 4 == 64 && t.peek 0x20001C 4 == 0x14 && t.hub.faults.map (·.kind) == [4]) = true ∧
      after (.gangRelease 0) offering (fun t => t.work.pool.isEmpty && t.consorts.map (·.launch) == [0, 9] && t.consorts.map (·.ctx) == [0, 0x500000] &&
        (t.consorts.flatMap (·.courses)).map (fun x => (vget x.s 0 0, vget x.s 0 1, x.lpcAt 31)) == [(0, 0, 0), (7, 6, 5)]) = true := by
  repeat' apply And.intro
  all_goals decide +kernel

/-! ### Courses and consorts -/

/-- A consort with one vector register, no scratchpad and no slots, its context area at 0x500000 and its auxiliary area at 0x600000,
in a course changed by f. -/
def thin (f : Course → Course) : State :=
  let s := (setC f world).modMine (fun q => { q with hdr := { q.hdr with khw := 0x30002000, scratch := 0, accslots := 0, hflags := 0 }, ctx := 0x500000 })
  { s with ms := { s.ms with mem := s.ms.mem ++ [(0x500000, 9), (0x500800, 7), (0x599002, 0x60)] } }

/-- About to run MOV v45, v28, with the lines of r missing. -/
def missing (r : Nat) : State :=
  let s := State.reset.about [0xA0, 0xE5]
  { s with
    consorts := s.consorts.map (fun q => { q with ctx := 0x500000, courses := q.courses.map (fun x => { x with lines := x.lines.filter (fun y => y.reg != r) }) })
    ms := { s.ms with mem := [(0x500000 + 128 * r, 0x55)] } }

/-- Beside it a consort off the core that fills the register cache. -/
def crowded (r : Nat) (dirty : Bool) : State :=
  let s := missing r
  let y : Consort := { Consort.ready with
    id := 1, ctx := 0x700000, place := .saved 2
    courses := [{ Course.blank with s := vset Course.blank.s 0 5, lines := List.replicate 4096 { reg := 1, dirty := dirty, lastUse := 0 } }] }
  { s with consorts := s.consorts ++ [y] }

/-- The event stops at an address that does not exist. -/
def faultsAt (i : Instr) (s : State) (pa : Nat) : Bool :=
  match exec i s with
  | .fault (.noSuchAddress a) => a == pa
  | _ => false

/-- Every context area outside the partition. -/
def outside (s : State) : State := { s with consorts := s.consorts.map (fun q => { q with ctx := 0x20000000000000 }) }

theorem test_hyps_CourseEventResults_lines :
    let nap := setC (fun c => { c with hold := .nap 0 }) world
    let away := (thin (fun c => { c with v := vset c.v 0 (reg 4 (fun _ => 3)), lines := [{ reg := 16, dirty := true, lastUse := 0 }] })).modMine (fun q => { q with place := .saved 1 })
    (nap.crs 0 0).hold = .nap 0 ∧ Stands (missing 44) 0 0 ∧ ((missing 44).cons 0).onCore = true ∧ 44 ∈ (missing 44).missingLines 0 0 ∧
      0 ∈ (missing 0).missingLines 0 0 ∧ (missing 44).linesUsed < 4096 ∧ 4096 ≤ (crowded 44 false).linesUsed ∧
      (match (crowded 44 false).fetch 0 0 with
       | .instr i len => i == .movShort 45 28 && len == 1
       | _ => false) = true ∧
      ((crowded 44 false).victimLine 0 0 (Instr.lines (.movShort 45 28))).map (fun x => (x.k, x.line.reg, x.line.dirty)) = some (1, 1, false) ∧
      ((crowded 44 true).victimLine 0 0 (Instr.lines (.movShort 45 28))).map (fun x => (x.k, x.line.reg, x.line.dirty)) = some (1, 1, true) ∧
      (away.cons 0).onCore = false ∧ (∃ y ∈ (away.crs 0 0).lines, y.reg = 16 ∧ y.dirty = true) ∧ Memory.wf away.ms.mem ∧
      faultsAt (.lineWriteback 0 0 16) (outside away) 0x20000000000000 = true ∧ faultsAt (.registerFill 0 0 44) (outside (missing 44)) 0x20000000000000 = true ∧
      InPart (missing 44) ((missing 44).cons 0).ctx ∧ ¬ InPart (outside away) ((outside away).cons 0).ctx ∧
      after (.napExpiry 0 0) nap (fun t => t.me.hold == .none) = true ∧
      after (.registerFill 0 0 44) (missing 44) (fun t => (t.me.getV 28).at 0 == 0x55 && (t.missingLines 0 0).isEmpty) = true ∧
      after (.registerFill 0 0 44) (crowded 44 false) (fun t => t.linesUsed == 120 && t.ms.mem.length == 1) = true ∧
      after (.lineWriteback 0 0 16) away (fun t => (List.range 128).all (fun i => memGet t.ms.mem (0x500800 + i) == (if i % 4 = 0 then 3 else 0)) &&
        (t.crs 0 0).lines.map (·.dirty) == [false]) = true := by
  repeat' apply And.intro
  all_goals decide +kernel

/-- The exit ring's registers. -/
def ringed (mode : BitVec 2) (size : BitVec 32) (s : State) : State :=
  s.modHub (fun h => { h with exits := h.exits.set 0 { ExitRing.reset with base := 0x700000, size := size, mode := mode } })

theorem test_hyps_CourseEventResults_retirement :
    let quit (c : Course) : Course := { c with lane := Vector.replicate 32 .exited, exitMask := 0xFFFFFFFF, exitRef := 0x30004 }
    let killed (c : Course) : Course := { c with lane := Vector.replicate 32 .exited, term := some { cls := 2, cause := .killed, lanes := 1, ref := 6 } }
    let two := (thin quit).modMine (fun q => { q with courses := q.courses ++ [{ Course.blank with idx := 1 }] })
    let f (kind : Nat) : FaultRecord := { kind := kind, cause := 6, access := 1, course := 2, aspace := 3, lanes := 4, cref := 5, ctx := 6, addr := 7 }
    let filed := (thin id).modHub (fun h => { h with faults := [f 2, f 3], frbase := 0x700000, frsize := 4096, frwr := 32 })
    two.retirable 0 0 = true ∧ (∃ z ∈ (two.cons 0).courses, z.idx ≠ 0 ∧ z.retired = false) ∧ (thin quit).retirable 0 0 = true ∧ (thin killed).retirable 0 0 = true ∧
      Distinct (thin quit) 0 ∧ (∀ z ∈ ((thin quit).cons 0).courses, z.idx ≠ 0 → z.retired = true) ∧ (¬ ∃ z ∈ ((thin quit).cons 0).courses, z.cls ≠ 0) ∧
      (∃ z ∈ ((thin killed).cons 0).courses, z.cls ≠ 0) ∧ paExists 0x700000 = true ∧ Memory.wf (thin quit).ms.mem ∧
      filed.hub.faults = [f 2, f 3] ∧ filed.hub.frsize.toNat = 2 ^ 12 ∧ (filed.hub.frwr - filed.hub.frrd).toNat + 32 ≤ 2 ^ 12 ∧ paExists 0x700020 = true ∧
      after (.courseRetire 0 0) two (fun t => (t.crs 0 0).retired && (t.crs 0 0).status == (0x3FFFFFFFF0000, 4) && (t.cons 0).onCore) = true ∧
      after (.courseRetire 0 0) (ringed 1 4096 (thin quit)) (fun t => (t.cons 0).place != .resident && t.work.pool == [0x500000] && t.peek 0x700000 512 == 0) = true ∧
      after (.courseRetire 0 0) (ringed 0 100 (thin quit)) (fun t => (vget t.hub.exits ExitRing.reset 0).lost == 1 && t.work.pool == [0x500000]) = true ∧
      faultsAt (.courseRetire 0 0) ((ringed 0 4096 (thin quit)).modHub (fun h => { h with exits := h.exits.set 0 { (vget h.exits ExitRing.reset 0) with base := 0x7E0000000000 } })) 0x7E0000000000 = true ∧
      after (.courseRetire 0 0) (ringed 1 4096 (thin killed)) (fun t => (vget t.hub.exits ExitRing.reset 0).wr == 512 && t.peek 0x700016 1 == 1 && t.peek 0x700017 1 == 1 &&
        t.peek 0x700020 8 == 0x1021A && t.peek 0x700028 4 == 6 && t.hub.faults.map (·.kind) == [7]) = true ∧
      after .faultRingFlush filed (fun t => t.peek 0x700020 8 == 0x302010602 && t.peek 0x700028 8 == 0x500000004 && t.peek 0x700030 8 == 6 &&
        t.peek 0x700038 8 == 7 && t.hub.frwr == 64 && t.hub.faults == [f 3]) = true := by
  repeat' apply And.intro
  all_goals decide +kernel

/-- The auxiliary area lies below the context area. -/
def below (s : State) : State := { s with ms := { s.ms with mem := s.ms.mem.map (fun x => if x.1 = 0x599002 then (0x599002, 0x40) else x) } }

/-- Course 0 of a consort on the core has issued an instruction that waits for its check. -/
def inCheck : State := setC (fun c => { c with unchecked := some { since := 0, pops := [(1, 2)] } }) (thin id)

theorem test_hyps_ConsortEventResults :
    let parked := thin (fun c => { c with lane := Vector.replicate 32 .parked })
    let draining := (thin (fun c => { c with lane := Vector.replicate 32 .parked, hold := .nap 9 })).modMine (fun q => { q with place := .draining 1 })
    let back := (thin id).modMine (fun q => { q with
      place := .saved 1, readyAt := some 0, hdr := { q.hdr with scratch := 128, accslots := 1 }
      courses := q.courses.map (fun x => { x with lines := (List.range 8).map (fun r => { reg := r, dirty := true, lastUse := 0 }) }) })
    let e : TrapEntry := { upTo := 9, lanes := 1, lpc := Vector.replicate 32 5, link := VReg.zero, hmask := 0, trapcause := 0, trapinfo := 0, missref := 0, lastref := 0, ntraps := 0
                           tokens := [], refused := [], merrs := [], fetchFault := [] }
    let joined (kind : Nat) (w : Option Word) := (thin (fun c => { c with lane := Vector.replicate 32 .parked, hold := .jcwait 0x100000 1 w world.iss })).modMine
      (fun q => { q with place := .draining kind })
    let trapped := thin (fun c => { c with entered := some e, hmask := 1 })
    let g := back.reentering 0
    let back1 := forAll g back (fun s r => forAll r.live s (fun s x => s.refresh r.id x.idx))
    (parked.cons 0).place = .resident ∧ (∃ z ∈ (parked.cons 0).courses, z.retired = false) ∧ (∀ z ∈ (parked.cons 0).courses, z.retired = false → z.idle = true) ∧
      (draining.cons 0).place = .draining 1 ∧ draining.drained 0 = true ∧ (∀ r ∈ draining.consorts, r.id = 0) ∧ InPart draining (draining.cons 0).ctx ∧
      (draining.cons 0).ctx + 0x9A000 ≤ draining.peek 0x599000 8 ∧ InPart (below draining) 0x500000 ∧ (below draining).drained 0 = true ∧
      (below draining).peek 0x599000 8 + 0x80000 ≤ 0x500000 ∧ (draining.cons 0).buffers ≤ 16 ∧ (draining.cons 0).excess.length ≤ 32768 ∧
      (draining.cons 0).hdr.scratch ≤ 0x40000 ∧ Memory.wf draining.ms.mem ∧ (draining.crs 0 0).hold ≠ .none ∧
      back.distributing = true ∧ (g.head?.map (·.id)) = some 0 ∧ back.gangDraining 0 = false ∧ (∀ r ∈ g, r.entryWait = false ∧ InPart back r.ctx) ∧
      back1.gangFit 0 = .fits [0] ∧ back.leads 0 = some 0 ∧ back.comesNext 0 (back.cons 0).hdr.prio 0 = true ∧ Distinct back 0 ∧ Stands parked 0 0 ∧
      after (.swapOut 0) parked (fun t => (t.cons 0).place == .draining 2) = true ∧
      after (.contextSave 0) draining (fun t => (t.cons 0).place == .saved 1 && (t.crs 0 0).hold == .none) = true ∧
      (joined 1 (some 7)).drained 0 = true ∧ (joined 2 none).drained 0 = true ∧
      after (.contextSave 0) (joined 1 (some 7)) (fun t => (t.crs 0 0).hold == .jcwait 0x100000 1 (some 7) world.iss) = true ∧
      after (.contextSave 0) (joined 1 none) (fun t => (t.crs 0 0).hold == .none) = true ∧
      after (.contextSave 0) (joined 2 none) (fun t => (t.cons 0).place == .saved 2) = true ∧
      after (.consortResume 0) back (fun t => (t.cons 0).place == .resident && (t.cons 0).resumed) = true ∧
      (∀ l : Nat, l < 32 → bit e.lanes l = true → (trapped.crs 0 0).laneAt l = .running) ∧ (thin id).core.halves = 0 ∧ Distinct (thin id) 0 ∧
      after .portCheckFail inCheck (fun t => (t.crs 0 0).unchecked.isNone && (t.crs 0 0).laneAt 0 == .parked && (t.crs 0 0).lpcAt 0 == 0) = true ∧
      after .portCheckFail (thin id) (fun t => t.core.portFailed && (t.crs 0 0).laneAt 31 == .parked && t.hub.faults.map (·.kind) == [3]) = true := by
  repeat' apply And.intro
  all_goals decide +kernel

/-! ### Firmware's commands, overlay loads and fault service -/

/-- The consort of context area 0x500000, which CTXADDR names, with lanes 0 and 1 parked at a place. -/
def commanded (p : Place) : State :=
  ((thin (fun c => { c with lane := (c.lane.set 0 .parked).set 1 .parked, parkWr := 1 })).modMine (fun q => { q with place := p })).modHub
    (fun h => { h with ctxaddr := 0x500000 })

/-- ERR of CTXCMD. -/
def refusedBy (i : Instr) (s : State) : Bool := after i s (fun t => t.hub.ctxcmd.getLsbD 17)

theorem test_hyps_FirmwareCommandResults :
    let s := commanded .resident
    let off := commanded (.saved 1)
    let other := s.modHub (fun h => { h with ctxaddr := 0x400000 })
    let failed : State := { s with core := { s.core with portFailed := true, halves := 1 } }
    let quiet := off.modHub (fun h => { h with stop := true })
    s.named.map (·.id) = some 0 ∧ other.named.isNone = true ∧ off.named.map (·.id) = some 0 ∧ (s.consorts.map (·.place)) = [.resident] ∧
      (Cause.ofCode 7).any Cause.trapClass = true ∧ (Cause.ofCode 0x1A).any Cause.trapClass = false ∧
      (∃ x ∈ (s.cons 0).courses, x.idx = 0) ∧ (s.crs 0 0).retired = false ∧ (∀ x ∈ (s.cons 0).courses, x.idx ≠ 1) ∧
      s.spanOk 0x700000 0xA0000 = true ∧ s.spanOk 0x20000000000000 0xA0000 = false ∧ failed.core.portFailed = true ∧ failed.core.halves ≠ 3 ∧
      s.named.map (·.id) = some 0 ∧ s.mine.hdr.ovmgr = 0xFFFFFFFF ∧ (∀ q ∈ off.consorts, q.onCore = false) ∧
      quiet.hub.stop = true ∧ quiet.ms.atoms.isEmpty = true ∧
      refusedBy (.ctxcmdUndefinedOp 5) s = true ∧ refusedBy (.preempt 1) other = true ∧ refusedBy (.preempt 1) (commanded (.draining 1)) = true ∧
      refusedBy (.refuse 0x100000024) s = true ∧ refusedBy (.unpark 0x100100003) s = true ∧ refusedBy (.unpark 0x700000003) s = true ∧
      after (.preempt 1) s (fun t => (t.cons 0).place == .draining 1 && !t.hub.ctxcmd.getLsbD 17) = true ∧
      after (.kill 2) s (fun t => (t.crs 0 0).laneAt 5 == .exited && (t.crs 0 0).term.map (fun u => (u.cls, u.cause, u.lanes)) == some (2, .killed, 0xFFFFFFFF)) = true ∧
      after (.kill 2) (commanded (.draining 1)) (fun t => (t.cons 0).killPending) = true ∧
      after (.kill 2) off (fun t => (t.cons 0).place == .saved 1 && (t.crs 0 0).ended) = true ∧
      after (.unpark 3) off (fun t => (t.cons 0).readyAt == some 0) = true ∧
      after (.unpark 0x100000003) s (fun t => (t.crs 0 0).laneAt 0 == .running && (t.crs 0 0).laneAt 1 == .parked && !t.hub.ctxcmd.getLsbD 17) = true ∧
      after (.refuse 0x307000004) s (fun t => (t.crs 0 0).laneAt 1 == .running && (t.crs 0 0).refused == [{ cause := 7, lane := 0, ref := 0 }, { cause := 7, lane := 1, ref := 0 }]) = true ∧
      refusedBy (.refuse 0x313000004) (s.modMine (fun q => { q with hdr := { q.hdr with ovmgr := 5 } })) = true ∧ refusedBy (.refuse 0x313000004) s = false ∧
      after (.contextPoolRefill 0x700000 0x600000) s (fun t => t.work.pool == [0x700000] && t.peek 0x799000 8 == 0x600000) = true ∧
      after (.residentSetChange [3, 5]) s (fun t => (t.qrun 5).resident && !(t.qrun 4).resident) = true ∧
      after .halfWidthEnable failed (fun t => t.core.halfWidth && !t.core.portFailed) = true ∧
      after .coreDisable off (fun t => !t.core.openToWork) = true ∧
      after .writeBackAndInvalidate { quiet with ms := { quiet.ms with stores := [{ id := 9, op := 9, k := 0, c := 0, at_ := .die, epoch := 0, cells := [(0x700000, 1)] }] } }
        (fun t => t.core.insts.isEmpty && memGet t.ms.mem 0x700000 == 1 && t.ms.stores.isEmpty) = true := by
  repeat' apply And.intro
  all_goals decide +kernel

/-- A load of overlay 3 of two bytes at VA 0x300000, for token 5. -/
def loadOf (base : DWord) (share : Bool) (digest : List Byte) : Inst :=
  { Inst.holding [] with
    uid := 9, sharers := [{ aspace := 0, ot := 0, ov := 3 }], st := .loading, waiters := [(0, 0, 5)]
    entry := { base := base, len := 2, oflags := if share then 1 else 0, nentry := 0, entryoff := [], digest := digest }, fetched := false }

/-- The machine with that load, token 5 pending. -/
def awaiting (i : Inst) : State :=
  let s := setC (fun c => { c with tokens := c.tokens.set 5 { Token.fresh with st := .pending } }) (loading 5)
  { s with nextId := 20, core := { s.core with insts := s.core.insts ++ [i] } }

theorem test_hyps_OverlayEventResults_loads :
    let lost (i : Inst) : State := { awaiting i with ms := { (awaiting i).ms with poison := [0x300000 / 32] } }
    (awaiting (loadOf 0x300000 false [])).core.insts.find? (fun i => i.uid == 9 && i.st == .loading && i.framed && !i.waiting) = some (loadOf 0x300000 false []) ∧
      ((awaiting (loadOf 0x300000 false [])).core.insts.map (·.uid)).Nodup ∧ (∀ x ∈ (awaiting (loadOf 0x300000 false [])).core.insts, x.uid < 20) ∧
      Stands (awaiting (loadOf 0x300000 false [])) 0 0 ∧ readsAt (awaiting (loadOf 0x300000 false [])) 0x300000 2 0x300000 = true ∧
      (match (awaiting (loadOf 0x40000000 false [])).fetchVa 0 0x40000000 2 with
       | .absent _ va => va == 0x40000000
       | _ => false) = true ∧
      (match (awaiting (loadOf 0x100000000000000 false [])).fetchVa 0 0x100000000000000 2 with
       | .denied va => va == 0x100000000000000
       | _ => false) = true ∧
      (match (lost (loadOf 0x300000 false [])).fetchVa 0 0x300000 2 with
       | .poison va => va == 0x300000
       | _ => false) = true ∧
      after (.overlayLoadComplete 9) (awaiting (loadOf 0x300000 false [])) (fun t => (t.core.insts.map (·.bytes)) == [[], [0x80, 0x7F]] &&
        (t.core.insts.map (·.st)) == [.resident, .resident] && (t.me.token 5).st == .free) = true ∧
      after (.overlayLoadComplete 9) (awaiting (loadOf 0x40000000 false [])) (fun t => (t.core.insts.map (·.waiting)) == [false, true] &&
        t.hub.faults.map (·.cause) == [6]) = true ∧
      after (.overlayLoadComplete 9) (awaiting (loadOf 0x100000000000000 false [])) (fun t => t.core.insts.map (·.uid) == [0] &&
        (t.me.token 5).st == .error .xlateDenied) = true ∧
      after (.overlayLoadComplete 9) (lost (loadOf 0x300000 false [])) (fun t => (t.me.token 5).st == .error .poison) = true := by
  repeat' apply And.intro
  all_goals decide +kernel

/-- R183. A SHAREABLE load whose digest is another's is not verified, and is recorded. -/
theorem test_shareable_load :
    after (.overlayLoadComplete 9) (awaiting (loadOf 0x300000 true (List.replicate 32 0))) (fun t => (t.core.insts.map (·.verified)) == [false, false] &&
      t.hub.faults.map (·.kind) == [5]) = true := by decide +kernel

theorem test_hyps_OverlayEventResults_frames :
    let big (n : Nat) : Inst := { Inst.holding [] with
      uid := n, sharers := [{ aspace := 7, ot := 0, ov := 1 }], fetched := n != 1, lastFetch := n
      entry := { base := 0, len := 65536, oflags := 0, nentry := 0, entryoff := [], digest := [] } }
    let late : Inst := { loadOf 0x300000 false [] with framed := false }
    let s : State := { awaiting late with clock := 65536, core := { (awaiting late).core with insts := (List.range 4).map (fun i => big (i + 1)) ++ [late] } }
    s.core.insts.find? (fun i => i.uid == 9 && !i.framed) = some late ∧ (s.core.insts.map (·.uid)).Nodup ∧
      (takeVictims (late.entry.frames - (128 - s.framesUsed)) s.victims).map (·.map (·.uid)) = some [1] ∧
      (∃ i ∈ s.core.insts, i.uid = 1 ∧ i.st = .resident ∧ i.fetched = false ∧ i.residentAt + 65536 ≤ s.clock) ∧
      s.core.insts.find? (fun i => !i.framed) = some late ∧
      after (.overlayFrameRetry 9) s (fun t => t.core.insts.map (fun i => (i.uid, i.framed)) == [(2, true), (3, true), (4, true), (9, true)]) = true ∧
      after (.frameProtectionExpiry 1) s (fun t => t.core.insts.map (·.uid) == [2, 3, 4, 9]) = true := by
  repeat' apply And.intro
  all_goals decide +kernel

theorem test_hyps_OverlayEventResults_fetch :
    let at_ (ot : DWord) (mem : List Host.Cell) : State :=
      let s := setC (fun c => { c with lpc := Vector.replicate 32 0x10000 }) (setH (fun h => { h with otaddr := ot }) world)
      { s with nextId := 20, ms := { s.ms with mem := s.ms.mem ++ mem } }
    let whole := at_ 0x300000 [(0x300000, 2), (0x300102, 0x40), (0x300108, 4)]
    ((at_ 0x300000 []).crs 0 0).issueSet = some (0xFFFFFFFF, 0) ∧ Stands whole 0 0 ∧ whole.absentFetch 0 0 = some 1 ∧ (at_ 0x300000 []).absentFetch 0 0 = some 1 ∧ (at_ 0x40000000 []).absentFetch 0 0 = some 1 ∧
      (∀ x ∈ whole.core.insts, x.uid < whole.nextId) ∧
      (match (at_ 0x300000 []).readEntry (at_ 0x300000 []).mine 1 with
       | .bad e va => e == .badHandle && va == 0
       | _ => false) = true ∧
      (match (at_ 0x40000000 []).readEntry (at_ 0x40000000 []).mine 1 with
       | .absent va => va == 0x40000000
       | _ => false) = true ∧
      (match whole.readEntry whole.mine 1 with
       | .entry e => e.len == 4 && !e.shareable
       | _ => false) = true ∧
      after (.fetchAbsentLoad 0 0) (at_ 0x300000 []) (fun t => (t.crs 0 0).fetchFault == (List.range 32).map (fun l => { cause := .badHandle, va := 0, lane := l, ref := 0x10000, once := false })) = true ∧
      after (.fetchAbsentLoad 0 0) (at_ 0x40000000 []) (fun t => (t.crs 0 0).fetchWait && t.hub.faults.map (·.kind) == [2]) = true ∧
      after (.fetchAbsentLoad 0 0) whole (fun t => t.core.insts.map (fun i => (i.entry.base, i.st)) == [(0, .resident), (0x400000, .loading)]) = true := by
  repeat' apply And.intro
  all_goals decide +kernel

/-- Everything that can wait for firmware waits, each under the number 0. -/
def stuck : State :=
  let p : Port := { Port.unbound with waiting := true }
  let s := (setC (fun c => { c with
    fetchWait := true, ports := c.ports.set 0 p, pending := [{ bytes := [], queue := 0, upTo := 0, region := 1, but := [], waiting := true }] }) world).modMine
      (fun q => { q with entryWait := true })
  { s with
    core := { s.core with
      insts := [{ loadOf 0 false [] with uid := 0, waiting := true }]
      copies := [{ id := 0, k := 0, c := 0, tok := 7, srcSp := true, dstSp := true, multi := false, arw := none, mbx := none, chunks := [], dests := [],
                   region := 1, epoch := 0, ref := 0, waiting := true, error := none }]
      bins := [{ id := 0, k := 0, c := 0, tok := 7, gather := true, table := 0, nbins := 0, rowb := 0, ovf := 0, entries := [], bumped := false, todo := [],
                 lanes := 0, codes := [], v := 0, region := 1, epoch := 0, ref := 0, waiting := true, error := none }]
      tfills := [{ id := 0, k := 0, c := 0, t := 0, copy := true, base := 0, stride := 0, rowBytes := 16, scales := 0, region := 1, waiting := true,
                   since := 0, unpinned := false, ref := 0, seq := 0 }]
      selq := [{ id := 0, k := 0, c := 0, kind := 0, port := 0, src := 0, ctl := 0, par := 0, dst := 0, u := 0, tok := 3, region := 1, ref := 0, served := true,
                 waiting := true, reads := [], epoch := 0 }]
      mq := [{ id := 0, k := 0, c := 0, op := .accz true, slots := [0], expv := 0, ref := 0, since := 0, admitted := true, skip := [], failed := none,
               waiting := true, inStep := false, region := 1 }] }
    work := { s.work with
      jcwork := [{ aspace := 0, addr := 0, err := false, waiting := true }]
      appends := [{ mbox := 0, doorbell := 0, handler := 0, aspace := 0, waiting := true }]
      qrun := [{ QRun.blank 0 with faulted := true }] } }

theorem test_hyps_OverlayEventResults_service :
    (∃ x ∈ stuck.core.insts, x.uid = 0 ∧ x.waiting = true) ∧ (∃ x ∈ stuck.core.copies, x.id = 0 ∧ x.waiting = true) ∧
      (∃ x ∈ stuck.core.bins, x.id = 0 ∧ x.waiting = true) ∧ (∃ x ∈ stuck.core.tfills, x.id = 0 ∧ x.waiting = true) ∧
      (∃ x ∈ stuck.core.selq, x.id = 0 ∧ x.waiting = true) ∧ (∃ p ∈ (stuck.crs 0 0).pending, p.waiting = true) ∧
      (stuck.work.jcwork[0]?).any (·.waiting) = true ∧ (∃ x ∈ stuck.work.appends, x.mbox = 0 ∧ x.waiting = true) ∧
      (∃ x ∈ stuck.work.qrun, x.q = 0 ∧ x.faulted = true) ∧ (stuck.crs 0 0).fetchWait = true ∧ (∃ x ∈ stuck.core.mq, x.id = 0 ∧ x.waiting = true) ∧
      ((stuck.crs 0 0).port 0).waiting = true ∧ (stuck.cons 0).entryWait = true ∧
      after (.faultService 0 0) stuck (fun t => t.core.insts.all (!·.waiting)) = true ∧ after (.faultService 1 0) stuck (fun t => t.core.copies.all (!·.waiting)) = true ∧
      after (.faultService 2 0) stuck (fun t => t.core.bins.all (!·.waiting)) = true ∧ after (.faultService 3 0) stuck (fun t => t.core.tfills.all (!·.waiting)) = true ∧
      after (.faultService 4 0) stuck (fun t => t.core.selq.all (!·.waiting)) = true ∧ after (.faultService 5 0) stuck (fun t => t.me.pending.all (!·.waiting)) = true ∧
      after (.faultService 6 0) stuck (fun t => t.work.jcwork.all (!·.waiting)) = true ∧ after (.faultService 7 0) stuck (fun t => t.work.appends.all (!·.waiting)) = true ∧
      after (.faultService 8 0) stuck (fun t => t.work.qrun.all (!·.faulted)) = true ∧ after (.faultService 9 0) stuck (fun t => !t.me.fetchWait) = true ∧
      after (.faultService 10 0) stuck (fun t => t.core.mq.all (!·.waiting)) = true ∧ after (.faultService 11 0) stuck (fun t => !(t.me.port 0).waiting) = true ∧
      after (.faultService 12 0) stuck (fun t => !t.mine.entryWait) = true := by
  repeat' apply And.intro
  all_goals decide +kernel

/-! ### The host, the hub and what computing leaves alone -/

/-- A request of BAR4: CMD, PLEN, the two words at 0x40, and the rest of the 4,096 bytes. -/
def request (cmd len at40 op : Nat) (rest : List Byte) : List Byte :=
  (leBytes 4 cmd ++ leBytes 4 len ++ leBytes 8 0x1122 ++ List.replicate 48 0 ++ leBytes 4 at40 ++ leBytes 4 op ++ rest ++ List.replicate 4024 0).take 4096

/-- A module whose boot is done, with counters, a mailbox, an open window over 64 KiB at 0x300000 and a send ring. -/
def hosted (kind : Byte) (tail : List Host.Cell) : State :=
  let s := hosting kind tail
  { s with
    hub := { s.hub with bootok := true, counters := [[5, 6]], windows := s.hub.windows.set 3 (0x300001, 0x10000)
                        sends := [{ base := 0x310000, size := 1, aspace := 0, windex := 0x320000, rd := 0 }] }
    work := { s.work with mailboxes := [{ num := 5, uid := 1, doorbell := 0x300040, handler := 0x340000, aspace := 0, running := false, count := 0 }] } }

/-- The status of the one response in the outbox. -/
def statusOf (t : State) : List Nat := t.outbox.map (fun o => match o with
  | .response bs => numAt bs 0 4
  | _ => 99)

theorem test_hyps_HostResults_kicks :
    let s := hosted 1 []
    let boxes (bell handler : DWord) : State := s.modHub (fun h => { h with mboxMgmt := { doorbell := bell, handler := handler, aspace := 0, result := 0 } })
    paExists (s.qdPa 0) = true ∧ Memory.wf s.ms.mem ∧ (s.qdesc 0).enabled = true ∧ (s.qdesc 0).kind = 1 ∧ (s.qdesc 0).malformed = false ∧
      (s.qdesc 0).halted = false ∧ ((hosted 0 []).qdesc 0).kind ≠ 1 ∧ s.hub.evEn = false ∧
      (s.windowFor 0x300040 2).isSome = true ∧ (s.windowFor 0x30FFFF 2).isNone = true ∧
      ((boxes 0x330000 0x340000).hub.mboxMgmt.doorbell).toNat % 64 = 0 ∧
      after (.hostKick 0 true 64) s (fun t => (t.qdesc 0).wr == 0) = true ∧ after (.hostKick 0 false 64) s (fun t => (t.qdesc 0).wr == 64) = true ∧
      after (.hostKick 0 false 64) (hosted 0 []) (fun t => t.hub.kerr) = true ∧
      after (.hostKick 0 false 63) s (fun t => (t.qdesc 0).halted && t.peek 0x20001C 4 == 0x15 && t.peek 0x200014 4 == 63 && t.hub.faults.map (·.cause) == [0x15]) = true ∧
      after (.hostBar2Write 0x30003F [7, 8]) s (fun t => memGet t.ms.mem 0x30003F == 7 && memGet t.ms.mem 0x300040 == 8 && t.work.arrivals == [5] && t.hub.pstate == 0) = true ∧
      after (.hostBar2Write 0x30003F [7, 8]) (s.modHub (fun h => { h with pstate := 2, cclk := 1200 })) (fun t => t.hub.pstate == 0 && t.hub.cclk == 2400) = true ∧
      after (.hostBar2Write 0x30FFFF [7, 8]) s (fun t => t.hub.werr && memGet t.ms.mem 0x30FFFF == 0) = true ∧
      after (.hostBar2Read 0x310000 1) s (fun t => t.outbox == [.readReply [0xFF]]) = true ∧
      after (.hostBar2Read 0x300000 2) s (fun t => t.outbox == [.readReply [0, 0]]) = true ∧
      after (.mboxhost true) (boxes 0x330000 0x340000) (fun t => t.hub.mboxMgmt.result == 0 && t.work.mailboxes.map (·.num) == [5, 0]) = true ∧
      after (.mboxhost true) (boxes 0x300040 0x340000) (fun t => t.hub.mboxMgmt.result == 0xFFFFFFFF) = true ∧
      after (.mboxhost true) (boxes 0x300040 0) (fun t => t.hub.mboxMgmt.result == 5 && t.work.mailboxes.isEmpty) = true ∧
      after (.mboxhost true) (boxes 0x330000 0) (fun t => t.hub.mboxMgmt.result == 0xFFFFFFFF) = true := by
  repeat' apply And.intro
  all_goals decide +kernel

/-- The fields of a descriptor: base, size, kind, flags, aspace. -/
def fields (size : Nat) : List Byte := leBytes 8 0x210000 ++ leBytes 4 size ++ [1, 3] ++ leBytes 2 9

theorem test_hyps_HostResults_commands :
    let s := hosted 1 []
    let young := s.modHub (fun h => { h with bootok := false })
    (request 2 72 0 0 (fields 256)).length = 4096 ∧ numAt (request 2 72 0 0 (fields 256)) 0 4 = 2 ∧ numAt (request 2 72 0 0 (fields 256)) 0x50 4 = 2 ^ 8 ∧
      numAt (request 2 72 0 0 (fields 256)) 0x48 8 % 256 = 0 ∧ numAt (request 5 18 0x30 0 (leBytes 4 2 ++ List.replicate 4 0 ++ [7, 8])) 0x48 4 = 2 ∧
      s.hub.bootok = true ∧ young.hub.bootok = false ∧ s.hub.counters[0]? = some [5, 6] ∧ Memory.wf s.hub.flash ∧ s.hub.fwDigest.length = 32 ∧
      after (.setPowerCap (request 3 4 1500 0 [])) young (fun t => statusOf t == [3]) = true ∧
      after (.unknownCommand (request 6 0 0 0 [])) s (fun t => statusOf t == [1]) = true ∧
      after (.attestationQuote (request 1 32 0x55 0 [])) (s.modHub (fun h => { h with leaf := 0x40000000 })) (fun t => statusOf t == [4]) = true ∧
      after (.attestationQuote (request 1 32 0x55 0 [])) s (fun t => statusOf t == [0] && t.hub.leaf == 1) = true ∧
      after (.queueDefine (request 2 72 0 0 (fields 256))) s (fun t => statusOf t == [0] && t.peek 0x20000C 1 == 1 && t.peek 0x20000D 1 == 0 && t.peek 0x20000E 2 == 9) = true ∧
      after (.queueDefine (request 2 72 0 0 (fields 255))) s (fun t => statusOf t == [2]) = true ∧
      after (.queueDefine (request 2 72 4096 0 (fields 256))) s (fun t => statusOf t == [2]) = true ∧
      after (.queueDefine (request 2 72 0 3 (fields 256))) s (fun t => statusOf t == [2]) = true ∧
      after (.queueEnable (request 2 72 1 1 [])) s (fun t => statusOf t == [0] && (t.qdesc 1).enabled) = true ∧
      after (.queueDisable (request 2 72 0 2 [])) s (fun t => statusOf t == [0] && !(t.qdesc 0).enabled) = true ∧
      after (.setPowerCap (request 3 4 1500 0 [])) s (fun t => statusOf t == [0] && t.hub.powerCap == 1500) = true ∧
      after (.setPowerCap (request 3 4 1499 0 [])) s (fun t => statusOf t == [2]) = true ∧
      after (.readErrorCounters (request 4 4 0 0 [])) s (fun t => t.outbox.map (fun o => match o with
        | .response bs => bs.drop 64
        | _ => []) == [leBytes 8 2 ++ leBytes 8 5 ++ leBytes 8 6]) = true ∧
      after (.readErrorCounters (request 4 4 5 0 [])) s (fun t => statusOf t == [2]) = true ∧
      after (.writeFlash (request 5 18 0x30 0 (leBytes 4 2 ++ List.replicate 4 0 ++ [7, 8]))) young (fun t => statusOf t == [0] && t.hub.flash == [(0x30, 7), (0x31, 8)]) = true ∧
      after (.writeFlash (request 5 18 0x30 0 [])) s (fun t => statusOf t == [2]) = true := by
  repeat' apply And.intro
  all_goals decide +kernel

theorem test_hyps_HostResults_puts :
    let s := hosted 1 []
    (s.hub.sends[0]?).isSome = true ∧ readsAt s 0x320000 4 0x320000 = true ∧ s.peek 0x320000 4 ≠ 0 ∧ readsAt s 0x310000 64 0x310000 = true ∧
      (∀ x ∈ s.hub.seqs, ¬ (x.1 = 7 ∧ x.2.1 = 2)) ∧
      (match s.xlateRange 0 false 0x300040 false true 2 with
       | .ok pas => pas.map (·.1) == [0x300040, 0x300041]
       | .error _ => false) = true ∧
      (match s.xlateRange 0 false 0x40000000 false true 1 with
       | .ok _ => false
       | .error e => e.2 == 0x40000000) = true ∧
      notYet (.putReceive 2 0 7 0 0x300040 1 [9, 8]) (s.modHub (fun h => { h with seqs := [(7, 2, 1)] })) = true ∧
      after (.putReceive 2 0 7 0 0x300040 2 [9, 8]) (s.modHub (fun h => { h with seqs := [(7, 2, 1)] })) (fun t => t.hub.seqs.contains (7, 2, 2)) = true ∧
      after (.putReceive 2 1 7 0 0x300040 1 [9, 8]) s (fun t => t.hub.putDropped == 1 && t.ms.mem.length == s.ms.mem.length) = true ∧
      after (.putReceive 2 0 7 0 0x40000000 1 [9]) s (fun t => t.outbox == [.nack 7 1]) = true ∧
      after (.putReceive 2 0 7 0 0x300040 1 [9, 8]) s (fun t => memGet t.ms.mem 0x300041 == 8 && t.work.arrivals == [5] && t.outbox.isEmpty) = true := by
  repeat' apply And.intro
  all_goals decide +kernel

theorem test_hyps_HubResults :
    let s := hosted 1 []
    let busy := s.modHub (fun h => { h with invalBusy := true })
    let late := s.modHub (fun h => { h with watchdog := 0 })
    let still : State := { s.modHub (fun h => { h with stop := true }) with consorts := [] }
    (0x10000 : BitVec 64).setWidth 2 = s.hub.pmode ∧ (0x10003 : BitVec 64).setWidth 2 = 3#2 ∧ (1 : BitVec 64).setWidth 2 ≠ 3#2 ∧ s.drainedAll = false ∧
      still.drainedAll = true ∧ s.hub.invalBusy = false ∧ busy.hub.invalBusy = true ∧ s.hub.stopped = false ∧ s.hub.pstate.toNat < 2 ∧ 1300 ≤ s.hub.cclk ∧
      (s.modHub (fun h => { h with cclk := 2300 })).hub.cclk ≤ 2300 ∧ s.hub.therm = false ∧ s.hub.power ≤ s.hub.powerCap ∧
      s.hub.powerCap < (s.modHub (fun h => { h with power := 5501 })).hub.power ∧ late.hub.watchdog = 0 ∧ late.hub.fwlost = false ∧ still.consorts.isEmpty = true ∧ still.ms.stores.isEmpty = true ∧
      still.ms.atoms.isEmpty = true ∧ still.work.arrivals.isEmpty = true ∧
      after (.partmodeStop 0x10000) s (fun t => t.hub.stop) = true ∧ after (.partmodeModeWrite 1) s (fun t => t.hub.merr && t.hub.pmode == 0) = true ∧
      after (.partmodeModeWrite 1) still (fun t => !t.hub.merr && t.hub.pmode == 1) = true ∧
      after (.invalAspace 3) { s with ms := { s.ms with tlb := [{ aspace := 0, vpn := 0, shift := 30, base := 0, r := true, w := true, chk := 0 }] } }
        (fun t => t.hub.invalBusy && after .invalComplete t (fun u => !u.hub.invalBusy && u.ms.tlb.isEmpty)) = true ∧
      after (.invalPage 0) busy (fun t => t.hub.invalBusy) = true ∧ after (.translationWalk 0 0x300000) s (fun t => t.ms.tlb.map (·.shift) == [30]) = true ∧
      after (.registerWrite false 0x400 0x701F) s (fun t => t.hub.frbase == 0x7000) = true ∧ after (.registerWrite false 0x401 0x7000) s (fun t => t.hub.frbase == 0) = true ∧
      after (.registerWrite true 0xA008 0x80007) s (fun t => t.hub.evSize == 8 && t.hub.evRd == 7) = true ∧
      after .moduleReset s (fun t => t.consorts.isEmpty && t.clock == 0 && t.ms.stores.isEmpty) = true ∧ after .thermalThrottle s (fun t => t.hub.cclk == 1200) = true ∧
      after .thermalTrip s (fun t => t.hub.tripped && t.hub.evLost == 1) = true ∧ after (.powerCapStep false) (s.modHub (fun h => { h with power := 5501 })) (fun t => t.hub.cclk == 2300) = true ∧
      after (.powerCapStep true) (s.modHub (fun h => { h with cclk := 2300 })) (fun t => t.hub.cclk == 2400) = true ∧
      after .powerStateIdle still (fun t => t.hub.pstate == 2) = true ∧ after .pcieD3cold s (fun t => t.hub.pstate == 3) = true ∧
      after (.resourceRetirement 4) s (fun t => t.hub.replace) = true ∧ after .watchdogRestart s (fun t => t.hub.watchdog == 50000) = true ∧
      after .watchdogExpiry s (fun _ => true) = false ∧ after .watchdogExpiry late (fun t => t.hub.stop && t.hub.fwlost && t.outbox == [.firmwareReset]) = true := by
  repeat' apply And.intro
  all_goals decide +kernel

/-- R429, R435, R442. Reads of registers, and an error counted. -/
theorem test_reads :
    let s := (hosted 1 []).modHub (fun h => { h with pstate := 1, therm := true, devid := 0x12345, watchdog := 7 })
    let told (i : Input) : List Output := match s.input i with
      | .next t => t.outbox
      | _ => []
    told (.readBar0 0x9000 8) = [.readReply [0x22, 0, 0x51, 0x34, 0x12, 0, 0, 0]] ∧ told (.readBar0 4 4) = [.readReply [0, 0, 0, 0]] ∧
      told (.readMgmt 8 8) = [.readReply [7, 0, 0, 0, 0, 0, 0, 0]] ∧ told (.readMgmt 8 4) = [.readReply [0, 0, 0, 0]] ∧
      (match s.input (.errorCounted 2 1) with
       | .next t => t.hub.counters == [[5, 6], [], [0, 1]]
       | _ => false) = true := by
  repeat' apply And.intro
  all_goals decide +kernel

/-- R434. Firmware that is lost does nothing more. -/
theorem test_firmware_lost :
    (match ((commanded .resident).modHub (fun h => { h with bootok := true, fwlost := true })).input (.row (.unpark 0x300000003)) with
     | .next t => (t.crs 0 0).laneAt 0 == .parked
     | _ => false) = true := by decide +kernel

/-- R430. A host event is written with its phase. -/
theorem test_host_event :
    after (.hostKick 0 false 63) ((hosted 1 []).modHub (fun h => { h with evEn := true, evSize := 16 })) (fun t => t.peek (2 ^ 41) 4 == 0x80000001 && t.hub.evWr == 1 &&
      t.outbox == [.interrupt]) = true := by decide +kernel

theorem test_hyps_ComputingLeavesTheRest :
    computes (.iadd 1 2 3) = true ∧ world.issuing = true ∧ world.me.term.isNone = true ∧ bit world.iss.set 2 = false ∧
      after (.iadd 1 2 3) (setV 2 (reg 5 (fun _ => 5)) (setV 3 (reg 5 (fun _ => 6)) world)) (fun t => (t.me.getV 1).at 0 == 11 && (t.me.getV 1).at 2 == 0 &&
        t.me.lpcAt 2 == 0 && t.me.term.isNone) = true := by
  repeat' apply And.intro
  all_goals decide +kernel

end Sys2Proof.Tests
end

section
/-!
PROOFS. Operands and counts (R32), and the example words.
-/

namespace Sys2Proof.Proofs.Counts

open Sys2Proof Sys2Proof.Machine

/-- R32. The counts that a kernel header word declares allow an operand; queue ports are not limited. -/
def Within (k : Nat) : Opnd → Prop
  | .v n => 112 ≤ n ∨ n < field k 19 13
  | .s n => n < 2 * (field k 12 8 + 1)
  | .t n => n < field k 3 0

theorem over_eq_false_iff (h : Header) (o : Opnd) : Opnd.over h o = false ↔ Within h.khw.toNat o := by
  cases o with
  | v n =>
    by_cases hn : n < 112
    · rw [Opnd.over, decide_eq_true hn, Bool.true_and, decide_eq_false_iff_not, Nat.not_le, Within,
        or_iff_right (Nat.not_le.2 hn)]
      rfl
    · simp [Opnd.over, Within, hn, Nat.le_of_not_lt hn]
  | s n => rw [Opnd.over, decide_eq_false_iff_not, Nat.not_le]; rfl
  | t n => rw [Opnd.over, decide_eq_false_iff_not, Nat.not_le]; rfl

theorem over_eq_true_iff (h : Header) (o : Opnd) : Opnd.over h o = true ↔ ¬ Within h.khw.toNat o := by
  rw [← over_eq_false_iff, Bool.not_eq_false]

theorem overCount_eq_none_iff (s : State) (i : Instr) :
    s.overCount i = none ↔ ∀ o ∈ Instr.names i, Within s.mine.hdr.khw.toNat o := by
  simp only [State.overCount, Option.map_eq_none_iff, List.find?_eq_none, over_eq_true_iff, not_not]

theorem exists_of_overCount_eq_some {s : State} {i : Instr} {r : Nat} (h : s.overCount i = some r) :
    ∃ o ∈ Instr.names i, ¬ Within s.mine.hdr.khw.toNat o ∧ o.num = r := by
  obtain ⟨o, ho, hr⟩ := Option.map_eq_some_iff.1 h
  exact ⟨o, List.mem_of_find?_eq_some ho, (over_eq_true_iff _ o).1 (List.find?_some ho), hr⟩

/-- R79. REG is the low byte of TRAPINFO. -/
theorem info79_mod_256 (enc : BitVec 32) (sub reg : Nat) : (info79 enc sub reg).toNat % 256 = reg % 256 := by
  rw [info79, BitVec.toNat_ofNat]
  omega

/-- R32. Every instruction that names an operand counts its operands before anything else. -/
theorem exec_of_overCount_eq_some {i : Instr} {s : State} {r : Nat} (h : s.overCount i = some r) :
    exec i s = .next (s.failCount r) := by
  have hn : Instr.names i ≠ [] := fun e => by simp [State.overCount, e] at h
  cases i <;> first | exact absurd rfl hn | (unfold exec; exact gate_some _ h)

/-- Settles O9: the first operand that the counts do not allow is the one that the fault names. -/
theorem operandBeyondCountTraps : Obligations.OperandBeyondCountTraps := by
  intro s i k inside
  have hin : inside = Within k := funext (fun o => by cases o <;> rfl)
  rw [hin]
  refine ⟨overCount_eq_none_iff s i, fun r h => ⟨exists_of_overCount_eq_some h, ?_, info79_mod_256 _ _ _⟩⟩
  exact exec_of_overCount_eq_some h

/-- Settles O3: the decoder, run on each of the words. -/
theorem exampleWordsDecode : Obligations.ExampleWordsDecode := by
  unfold Obligations.ExampleWordsDecode
  refine ⟨?_, ?_, ?_, ?_, ?_, ?_, ?_⟩ <;> rfl

end Sys2Proof.Proofs.Counts
end

section
/-!
PROOFS. Looking things up after a change: the first entry of a list that a key picks, a consort, a course, a register.
-/

namespace Sys2Proof.Proofs

open Sys2Proof Sys2Proof.Machine Sys2Proof.Statements

/-! ### modFirst -/

section
variable {α : Type} {f : α → α}

/-- Changing the first entry that p picks changes what p finds, where the entry keeps p. -/
theorem find?_modFirst {p : α → Bool} (hf : ∀ x, p (f x) = p x) (xs : List α) :
    (modFirst p f xs).find? p = (xs.find? p).map f := by
  induction xs with
  | nil => rfl
  | cons x xs ih =>
    rw [modFirst]
    by_cases hx : p x = true
    · rw [if_pos hx, List.find?_cons_of_pos (by rw [hf, hx]), List.find?_cons_of_pos hx, Option.map_some]
    · rw [if_neg hx, List.find?_cons_of_neg hx, List.find?_cons_of_neg hx, ih]

/-- It does not change what another key finds. -/
theorem find?_modFirst_of_disjoint {p r : α → Bool} (hf : ∀ x, r (f x) = r x) (hpr : ∀ x, p x = true → r x = false)
    (xs : List α) : (modFirst p f xs).find? r = xs.find? r := by
  induction xs with
  | nil => rfl
  | cons x xs ih =>
    rw [modFirst]
    by_cases hx : p x = true
    · have hr : ¬ r x = true := by simp [hpr x hx]
      rw [if_pos hx, List.find?_cons_of_neg (by rwa [hf]), List.find?_cons_of_neg hr]
    · rw [if_neg hx, List.find?_cons, List.find?_cons, ih]

/-- An entry that p does not pick stays. -/
theorem mem_modFirst_of_not {p : α → Bool} {y : α} {xs : List α} (h : y ∈ xs) (hp : p y = false) : y ∈ modFirst p f xs := by
  induction xs with
  | nil => cases h
  | cons x xs ih =>
    rw [modFirst]
    rcases List.mem_cons.1 h with rfl | h
    · rw [hp]
      exact List.mem_cons_self
    · split
      · exact List.mem_cons_of_mem _ h
      · exact List.mem_cons_of_mem _ (ih h)

/-- The only entry that p picks is changed. -/
theorem mem_modFirst_of_unique {p : α → Bool} {y : α} {xs : List α} (h : y ∈ xs) (hp : p y = true)
    (hu : ∀ x ∈ xs, p x = true → x = y) : f y ∈ modFirst p f xs := by
  induction xs with
  | nil => cases h
  | cons x xs ih =>
    rw [modFirst]
    by_cases hx : p x = true
    · rw [if_pos hx, hu x List.mem_cons_self hx]
      exact List.mem_cons_self
    · have hy : y ∈ xs := (List.mem_cons.1 h).resolve_left (fun e => hx (by rw [← e, hp]))
      rw [if_neg hx]
      exact List.mem_cons_of_mem _ (ih hy (fun z hz => hu z (List.mem_cons_of_mem _ hz)))

theorem map_modFirst {β : Type} {p : α → Bool} {g : α → β} (hg : ∀ x, g (f x) = g x) (xs : List α) :
    (modFirst p f xs).map g = xs.map g := by
  induction xs with
  | nil => rfl
  | cons x xs ih =>
    rw [modFirst]
    split
    · rw [List.map_cons, List.map_cons, hg]
    · rw [List.map_cons, List.map_cons, ih]

/-- Every entry of a list stands in the changed list, as it was or changed. -/
theorem mem_modFirst_of_mem {p : α → Bool} {x : α} {xs : List α} (h : x ∈ xs) :
    x ∈ modFirst p f xs ∨ f x ∈ modFirst p f xs := by
  induction xs with
  | nil => cases h
  | cons y ys ih =>
    rw [modFirst]
    rcases List.mem_cons.1 h with rfl | h
    · split
      · exact .inr List.mem_cons_self
      · exact .inl List.mem_cons_self
    · split
      · exact .inl (List.mem_cons_of_mem _ h)
      · exact (ih h).imp (List.mem_cons_of_mem _) (List.mem_cons_of_mem _)

/-- Every entry of the changed list is one of the list, as it was or changed. -/
theorem exists_mem_of_mem_modFirst {p : α → Bool} {y : α} {xs : List α} (h : y ∈ modFirst p f xs) :
    ∃ x ∈ xs, y = x ∨ (p x = true ∧ y = f x) := by
  induction xs with
  | nil => cases h
  | cons x xs ih =>
    rw [modFirst] at h
    split at h
    · rename_i hx
      rcases List.mem_cons.1 h with rfl | h
      · exact ⟨x, List.mem_cons_self, .inr ⟨hx, rfl⟩⟩
      · exact ⟨y, List.mem_cons_of_mem _ h, .inl rfl⟩
    · rcases List.mem_cons.1 h with rfl | h
      · exact ⟨y, List.mem_cons_self, .inl rfl⟩
      · obtain ⟨z, hz, e⟩ := ih h
        exact ⟨z, List.mem_cons_of_mem _ hz, e⟩

end

/-! ### Vectors -/

section
variable {α : Type} {n : Nat}

theorem vget_of_lt (v : Vector α n) (d : α) {i : Nat} (h : i < n) : vget v d i = v[i] := by
  simp [vget, List.getD, h]

theorem vget_vset_same (v : Vector α n) (d x : α) {i : Nat} (h : i < n) : vget (vset v i x) d i = x := by
  rw [vget_of_lt _ _ h, vset, Vector.getElem_setIfInBounds_self]

theorem vget_vset_ne (v : Vector α n) (d x : α) {i j : Nat} (h : i ≠ j) : vget (vset v i x) d j = vget v d j := by
  simp [vget, vset, List.getD, Vector.toList, h]

theorem vget_vof (d : α) (f : Nat → α) {i : Nat} (h : i < n) : vget (vof n f) d i = f i := by
  rw [vget_of_lt _ _ h]
  simp [vof]

theorem vget_replicate (d : α) {i : Nat} (h : i < n) (x : α) : vget (Vector.replicate n x) d i = x := by
  rw [vget_of_lt _ _ h, Vector.getElem_replicate]

end

theorem port_setPort_same {c : Course} {n : Nat} {p : Port} (h : n < 16) : (c.setPort n p).port n = p :=
  vget_vset_same _ _ _ h

theorem port_blank {n : Nat} (h : n < 16) : Course.blank.port n = Port.unbound := vget_replicate _ h _

/-! ### Consorts and courses -/

theorem cons_of_find? {s : State} {k : Nat} {q : Consort} (h : s.consorts.find? (·.id == k) = some q) : s.cons k = q := by
  rw [State.cons, h, Option.getD_some]

theorem find?_cons {s : State} {k c : Nat} (h : Stands s k c) : s.consorts.find? (·.id == k) = some (s.cons k) := by
  obtain ⟨q, hq⟩ := Option.isSome_iff_exists.1 h.1
  rw [cons_of_find? hq, hq]

theorem find?_crs {s : State} {k c : Nat} (h : Stands s k c) :
    (s.cons k).courses.find? (·.idx == c) = some (s.crs k c) := by
  obtain ⟨x, hx⟩ := Option.isSome_iff_exists.1 h.2
  rw [State.crs, Consort.crs, hx, Option.getD_some]

/-- A course that differs from the blank one exists. -/
theorem stands_of_crs_ne {s : State} {k c : Nat} (h : s.crs k c ≠ Course.blank) : Stands s k c := by
  have hc : ((s.cons k).courses.find? (·.idx == c)).isSome = true := by
    cases e : (s.cons k).courses.find? (·.idx == c) with
    | some x => rfl
    | none => exact absurd (by rw [State.crs, Consort.crs, e, Option.getD_none]) h
  refine ⟨?_, hc⟩
  cases e : s.consorts.find? (·.id == k) with
  | some q => rfl
  | none =>
    rw [State.cons, e, Option.getD_none] at hc
    cases hc

/-- A consort that differs from the blank one exists. -/
theorem exists_find?_of_cons_ne {s : State} {k : Nat} (h : s.cons k ≠ Consort.blank) :
    (s.consorts.find? (·.id == k)).isSome = true := by
  cases e : s.consorts.find? (·.id == k) with
  | some q => rfl
  | none => exact absurd (by rw [State.cons, e, Option.getD_none]) h

section
variable {s : State} {k c : Nat}

theorem cons_modCons_same {f : Consort → Consort} (h : (s.consorts.find? (·.id == k)).isSome = true)
    (hf : ∀ q, (f q).id = q.id := by intro _; rfl) : (s.modCons k f).cons k = f (s.cons k) := by
  obtain ⟨q, hq⟩ := Option.isSome_iff_exists.1 h
  rw [State.cons, State.modCons_consorts, find?_modFirst (fun x => by rw [hf]), hq, Option.map_some, Option.getD_some,
    cons_of_find? hq]

theorem find?_modCons_isSome {k' : Nat} {f : Consort → Consort} (hf : ∀ q, (f q).id = q.id := by intro _; rfl) :
    ((s.modCons k f).consorts.find? (·.id == k')).isSome = (s.consorts.find? (·.id == k')).isSome := by
  rw [State.modCons_consorts]
  by_cases hk : k = k'
  · subst hk
    rw [find?_modFirst (fun x => by rw [hf]), Option.isSome_map]
  · rw [find?_modFirst_of_disjoint (fun x => by rw [hf])]
    intro x hx
    rw [beq_iff_eq] at hx
    simp [hx, hk]

theorem cons_modCons_ne {k' : Nat} {f : Consort → Consort} (hk : k ≠ k')
    (hf : ∀ q, (f q).id = q.id := by intro _; rfl) :
    (s.modCons k f).cons k' = s.cons k' := by
  rw [State.cons, State.modCons_consorts, find?_modFirst_of_disjoint (fun x => by rw [hf]), State.cons]
  intro x hx
  rw [beq_iff_eq] at hx
  simp [hx, hk]

theorem cons_modCrs_same {f : Course → Course} (h : Stands s k c) :
    (s.modCrs k c f).cons k = (s.cons k).modCrs c f := cons_modCons_same h.1

theorem cons_modCrs_ne {k' : Nat} {f : Course → Course} (hk : k ≠ k') : (s.modCrs k c f).cons k' = s.cons k' :=
  cons_modCons_ne hk

/-- What a change of a course leaves alone of its consort. -/
theorem cons_modCrs_frame {k' : Nat} {f : Course → Course} (h : Stands s k c) :
    ∃ xs, (s.modCrs k c f).cons k' = { s.cons k' with courses := xs } := by
  by_cases hk : k = k'
  · subst hk
    exact ⟨_, cons_modCrs_same h⟩
  · exact ⟨_, cons_modCrs_ne hk⟩

theorem crs_modCrs_same {f : Course → Course} (h : Stands s k c)
    (hf : ∀ x, (f x).idx = x.idx := by intro _; rfl) :
    (s.modCrs k c f).crs k c = f (s.crs k c) := by
  rw [State.crs, cons_modCrs_same h, Consort.crs, Consort.modCrs, find?_modFirst (fun x => by rw [hf]), find?_crs h,
    Option.map_some, Option.getD_some]

theorem crs_modCrs_ne {k' c' : Nat} {f : Course → Course} (h : Stands s k c)
    (hne : ¬ (k = k' ∧ c = c')) (hf : ∀ x, (f x).idx = x.idx := by intro _; rfl) : (s.modCrs k c f).crs k' c' = s.crs k' c' := by
  by_cases hk : k = k'
  · subst hk
    rw [State.crs, cons_modCrs_same h, Consort.crs, Consort.modCrs, find?_modFirst_of_disjoint (fun x => by rw [hf])]
    · rfl
    · intro x hx
      rw [beq_iff_eq] at hx
      simp only [hx, beq_eq_false_iff_ne]
      exact fun e => hne ⟨rfl, e⟩
  · rw [State.crs, cons_modCrs_ne hk, State.crs]

theorem modFirst_of_find?_eq_none {α : Type} {p : α → Bool} {f : α → α} {xs : List α} (h : xs.find? p = none) :
    modFirst p f xs = xs := by
  induction xs with
  | nil => rfl
  | cons x xs ih =>
    rw [List.find?_eq_none] at h
    rw [modFirst, if_neg (h x List.mem_cons_self), ih (List.find?_eq_none.2 (fun y hy => h y (List.mem_cons_of_mem _ hy)))]

/-- A course that does not exist is not changed, nor is any other. -/
theorem crs_modCrs_of_not_stands {k' c' : Nat} {f : Course → Course} (h : ¬ Stands s k c) :
    (s.modCrs k c f).crs k' c' = s.crs k' c' := by
  by_cases hk : k = k'
  · subst hk
    cases e : s.consorts.find? (·.id == k) with
    | none =>
      have : s.modCrs k c f = s := by rw [State.modCrs, State.modCons, modFirst_of_find?_eq_none e]
      rw [this]
    | some q =>
      have hc : (s.cons k).courses.find? (·.idx == c) = none := by
        rw [← Option.not_isSome_iff_eq_none]
        exact fun hc => h ⟨by rw [e]; rfl, hc⟩
      have : (s.modCrs k c f).cons k = s.cons k := by
        rw [State.modCrs, cons_modCons_same (by rw [e]; rfl), Consort.modCrs,
          modFirst_of_find?_eq_none hc]
      rw [State.crs, this, State.crs]
  · rw [State.crs, cons_modCrs_ne hk, State.crs]

theorem stands_modCrs {k' c' : Nat} {f : Course → Course} (hf : ∀ x, (f x).idx = x.idx := by intro _; rfl) :
    Stands (s.modCrs k c f) k' c' ↔ Stands s k' c' := by
  rw [Stands, Stands, State.modCrs, find?_modCons_isSome]
  refine and_congr_right (fun hk' => ?_)
  by_cases hk : k = k'
  · subst hk
    rw [cons_modCons_same hk', Consort.modCrs]
    by_cases hc : c = c'
    · subst hc
      rw [find?_modFirst (fun x => by rw [hf]), Option.isSome_map]
    · rw [find?_modFirst_of_disjoint (fun x => by rw [hf])]
      intro x hx
      rw [beq_iff_eq] at hx
      simp [hx, hc]
  · rw [cons_modCons_ne hk]

end

theorem cons_congr {s t : State} (h : t.consorts = s.consorts) (k : Nat) : t.cons k = s.cons k := by
  rw [State.cons, State.cons, h]

theorem crs_congr {s t : State} (h : t.consorts = s.consorts) (k c : Nat) : t.crs k c = s.crs k c := by
  rw [State.crs, State.crs, cons_congr h]

/-! ### All consorts changed alike -/

section
variable {s : State} {t : State} {g : Consort → Consort}

theorem find?_consorts_map (k : Nat) (hg : ∀ q, (g q).id = q.id := by intro _; rfl) :
    (s.consorts.map g).find? (·.id == k) = (s.consorts.find? (·.id == k)).map g := by
  rw [List.find?_map]
  congr 1
  exact congrArg (fun p => s.consorts.find? p) (funext (fun q => by simp [hg]))

theorem cons_of_consorts_map {k : Nat} (ht : t.consorts = s.consorts.map g)
    (h : (s.consorts.find? (·.id == k)).isSome = true) (hg : ∀ q, (g q).id = q.id := by intro _; rfl) :
    t.cons k = g (s.cons k) := by
  obtain ⟨q, hq⟩ := Option.isSome_iff_exists.1 h
  rw [State.cons, ht, find?_consorts_map k hg, hq, Option.map_some, Option.getD_some, cons_of_find? hq]

end

end Sys2Proof.Proofs
end

section
/-!
PROOFS. The code store: what the victims are, what an allocation, a new load and the tenants that waited do to the table of instances
(R161 to R168, R183), and what a completed load does to its tokens (R295).
-/

namespace Sys2Proof.Proofs

open Sys2Proof Sys2Proof.Machine Sys2Proof.Statements

/-! ### Victims (R165) -/

theorem mem_of_takeVictims {n : Nat} {xs vs : List Inst} (h : takeVictims n xs = some vs) : ∀ v ∈ vs, v ∈ xs := by
  induction xs generalizing n vs with
  | nil =>
    rw [takeVictims] at h
    split at h
    · cases h; exact fun _ hv => hv
    · cases h
  | cons x xs ih =>
    rw [takeVictims] at h
    split at h
    · cases h; exact fun v hv => absurd hv List.not_mem_nil
    · obtain ⟨ws, hws, rfl⟩ := Option.map_eq_some_iff.1 h
      intro v hv
      rcases List.mem_cons.1 hv with rfl | hv
      · exact List.mem_cons_self
      · exact List.mem_cons_of_mem _ (ih hws v hv)

theorem mem_insertInst {v x : Inst} {xs : List Inst} (h : v ∈ insertInst x xs) : v = x ∨ v ∈ xs := by
  induction xs with
  | nil => exact .inl (List.mem_singleton.1 h)
  | cons y ys ih =>
    rw [insertInst] at h
    split at h
    · exact List.mem_cons.1 h
    · rcases List.mem_cons.1 h with rfl | h
      · exact .inr List.mem_cons_self
      · exact (ih h).imp_right (List.mem_cons_of_mem _)

theorem mem_of_mem_foldr_insertInst {v : Inst} {xs : List Inst} (h : v ∈ xs.foldr insertInst []) : v ∈ xs := by
  induction xs with
  | nil => exact h
  | cons x xs ih =>
    rcases mem_insertInst h with rfl | h
    · exact List.mem_cons_self
    · exact List.mem_cons_of_mem _ (ih h)

/-- A victim is a RESIDENT entry of the table whose age does not protect it. -/
structure IsVictim (s : State) (v : Inst) : Prop where
  mem : v ∈ s.core.insts
  resident : v.st = .resident
  unprotected : s.unprotected v = true

theorem isVictim_of_mem_victims {s : State} {v : Inst} (h : v ∈ s.victims) : IsVictim s v := by
  have able : v ∈ s.core.insts.filter
      (fun i => i.st == .resident && s.unprotected i && s.pins i none == 0 && !s.lanesInside i none) := by
    rw [State.victims, List.mem_append] at h
    rcases h with h | h <;> exact (List.mem_filter.1 (mem_of_mem_foldr_insertInst h)).1
  obtain ⟨hm, hp⟩ := List.mem_filter.1 able
  simp only [Bool.and_eq_true, beq_iff_eq] at hp
  exact ⟨hm, hp.1.1.1, hp.1.1.2⟩

/-! ### Allocation (R165) -/

/-- The table once the victims vs have left it and entry id has its frames. -/
def framedTable (id : Nat) (vs insts : List Inst) : List Inst :=
  modFirst (·.uid == id) (fun i => { i with framed := true }) (insts.filter (fun x => vs.all (fun v => x.uid != v.uid)))

theorem foldl_freeInst (vs : List Inst) (s : State) :
    vs.foldl (fun s v => s.freeInst v.uid) s =
      s.modCore (fun c => { c with insts := c.insts.filter (fun x => vs.all (fun v => x.uid != v.uid)) }) := by
  induction vs generalizing s with
  | nil => simp [State.modCore]
  | cons v vs ih =>
    rw [List.foldl_cons, ih, State.freeInst]
    simp only [State.modCore, List.filter_filter, List.all_cons, Bool.and_comm]

theorem allocate_eq {s : State} {id : Nat} {i : Inst} {vs : List Inst}
    (hi : s.core.insts.find? (fun i => i.uid == id && !i.framed) = some i)
    (hv : takeVictims (i.entry.frames - (128 - s.framesUsed)) s.victims = some vs) :
    s.allocate id = some (s.modCore (fun c => { c with insts := framedTable id vs c.insts })) := by
  rw [State.allocate, hi]
  simp only [hv, Option.map_some, foldl_freeInst]
  rfl

/-- Trying to take frames changes nothing, or takes victims for the frames. -/
theorem tryFrames_cases (s : State) (id : Nat) :
    s.tryFrames id = s ∨ ∃ vs, (∀ v ∈ vs, IsVictim s v) ∧
      s.tryFrames id = s.modCore (fun c => { c with insts := framedTable id vs c.insts }) := by
  rw [State.tryFrames]
  cases hi : s.core.insts.find? (fun i => i.uid == id && !i.framed) with
  | none => exact .inl (by simp [State.allocate, hi])
  | some i =>
    cases hv : takeVictims (i.entry.frames - (128 - s.framesUsed)) s.victims with
    | none => exact .inl (by simp [State.allocate, hi, hv])
    | some vs =>
      exact .inr ⟨vs, fun v h => isVictim_of_mem_victims (mem_of_takeVictims hv v h), by rw [allocate_eq hi hv]; rfl⟩

/-- Trying to take frames changes the table of instances alone. -/
theorem tryFrames_eq (s : State) (id : Nat) :
    ∃ is, s.tryFrames id = s.modCore (fun c => { c with insts := is }) := by
  rcases tryFrames_cases s id with h | ⟨vs, -, h⟩
  · exact ⟨s.core.insts, h⟩
  · exact ⟨_, h⟩

/-- Every entry of the table with the victims gone was one before, but for its frames. -/
theorem exists_mem_of_mem_framedTable {id : Nat} {vs insts : List Inst} {y : Inst} (h : y ∈ framedTable id vs insts) :
    ∃ x ∈ insts, y.uid = x.uid ∧ ∀ v ∈ vs, y.uid ≠ v.uid := by
  obtain ⟨x, hx, e⟩ := exists_mem_of_mem_modFirst h
  obtain ⟨hm, hv⟩ := List.mem_filter.1 hx
  have hu : y.uid = x.uid := by rcases e with rfl | ⟨-, rfl⟩ <;> rfl
  refine ⟨x, hm, hu, fun v hv' => ?_⟩
  rw [hu]
  simpa using List.all_eq_true.1 hv v hv'

theorem not_mem_framedTable {id : Nat} {vs insts : List Inst} {v : Inst} (h : v ∈ vs) : v ∉ framedTable id vs insts := by
  intro hm
  obtain ⟨-, -, -, hne⟩ := exists_mem_of_mem_framedTable hm
  exact hne v h rfl

theorem uids_framedTable (id : Nat) (vs insts : List Inst) :
    (framedTable id vs insts).map (·.uid) = (insts.filter (fun x => vs.all (fun v => x.uid != v.uid))).map (·.uid) :=
  map_modFirst (f := fun i : Inst => { i with framed := true }) (fun _ => rfl) _

/-- Two instances of a table with distinct numbers are one where their numbers are. -/
theorem eq_of_uid_eq {insts : List Inst} (hn : (insts.map (·.uid)).Nodup) {x y : Inst} (hx : x ∈ insts) (hy : y ∈ insts)
    (h : x.uid = y.uid) : x = y := List.inj_on_of_nodup_map hn hx hy h

section
variable {insts vs : List Inst} {id : Nat} {y : Inst} (hy : y ∈ insts) (hu : ∀ v ∈ vs, v.uid ≠ y.uid)
include hy hu

theorem mem_filter_of_no_victim : y ∈ insts.filter (fun x => vs.all (fun v => x.uid != v.uid)) :=
  List.mem_filter.2 ⟨hy, List.all_eq_true.2 (fun v hv => bne_iff_ne.2 (Ne.symm (hu v hv)))⟩

/-- An entry that is no victim stays. -/
theorem mem_framedTable_other (e : y.uid ≠ id) : y ∈ framedTable id vs insts :=
  mem_modFirst_of_not (mem_filter_of_no_victim hy hu) (beq_eq_false_iff_ne.2 e)

/-- The one that takes the frames has them. -/
theorem mem_framedTable_self (hone : ∀ x ∈ insts, x.uid = y.uid → x = y) :
    { y with framed := true } ∈ framedTable y.uid vs insts :=
  mem_modFirst_of_unique (f := fun i : Inst => { i with framed := true }) (mem_filter_of_no_victim hy hu) (beq_self_eq_true _)
    (fun x hx e => hone x (List.mem_filter.1 hx).1 (beq_iff_eq.1 e))

end

/-! ### The numbers of instances -/

/-- The instances have distinct numbers, and the next number is none of theirs. -/
structure Fresh (s : State) : Prop where
  nodup : (s.core.insts.map (·.uid)).Nodup
  lt : ∀ x ∈ s.core.insts, x.uid < s.nextId

theorem fresh_of_only {s t : State} (h : OnlyConsorts s t) (hs : Fresh s) : Fresh t :=
  ⟨by rw [h.core]; exact hs.nodup, by rw [h.core, h.nextId]; exact hs.lt⟩

theorem fresh_modInst {s : State} {k : Nat} {f : Inst → Inst} (hf : ∀ i, (f i).uid = i.uid) (hs : Fresh s) :
    Fresh (s.modInst k f) := by
  refine ⟨by rw [State.modInst, State.modCore_core, map_modFirst hf]; exact hs.nodup, fun y hy => ?_⟩
  obtain ⟨x, hx, e⟩ := exists_mem_of_mem_modFirst hy
  have hu : y.uid = x.uid := by rcases e with rfl | ⟨-, rfl⟩ <;> simp [hf]
  rw [hu]
  exact hs.lt x hx

theorem fresh_tryFrames {s : State} (id : Nat) (hs : Fresh s) : Fresh (s.tryFrames id) := by
  rcases tryFrames_cases s id with h | ⟨vs, -, h⟩
  · rw [h]; exact hs
  · rw [h]
    refine ⟨?_, fun y hy => ?_⟩
    · rw [State.modCore_core, uids_framedTable]
      exact hs.nodup.sublist (List.filter_sublist.map _)
    · obtain ⟨x, hx, hu, -⟩ := exists_mem_of_mem_framedTable hy
      rw [hu]
      exact hs.lt x hx

/-! ### A new load (R170) -/

/-- The entry that a new load makes. -/
def newInst (s : State) (h : Sharer) (e : OvEntry) (toks : List (Nat × Nat × Nat)) : Inst :=
  { uid := s.nextId, owner := h.aspace, sharers := [h], entry := e, st := .loading, verified := false, bytes := []
    framed := false, waiting := false, waiters := toks, joiners := [], fetched := false, lastFetch := s.clock
    residentAt := 0 }

/-- The state with that entry in the table, before it takes frames. -/
def withNewInst (s : State) (h : Sharer) (e : OvEntry) (toks : List (Nat × Nat × Nat)) : State :=
  { s with nextId := s.nextId + 1, core := { s.core with insts := s.core.insts ++ [newInst s h e toks] } }

theorem createLoad_eq (s : State) (h : Sharer) (e : OvEntry) (toks : List (Nat × Nat × Nat)) :
    s.createLoad h e toks = (withNewInst s h e toks).tryFrames s.nextId := rfl

section
variable {s : State} {h : Sharer} {e : OvEntry} {toks : List (Nat × Nat × Nat)}

theorem mem_withNewInst {y : Inst} : y ∈ (withNewInst s h e toks).core.insts ↔ y ∈ s.core.insts ∨ y = newInst s h e toks := by
  simp [withNewInst]

theorem fresh_withNewInst (hs : Fresh s) : Fresh (withNewInst s h e toks) := by
  constructor
  · have : ∀ x ∈ s.core.insts, x.uid ≠ s.nextId := fun x hx => Nat.ne_of_lt (hs.lt x hx)
    simpa [withNewInst, newInst, List.nodup_append, hs.nodup] using this
  · intro y hy
    rcases mem_withNewInst.1 hy with hy | rfl
    · exact Nat.lt_succ_of_lt (hs.lt y hy)
    · exact Nat.lt_succ_self _

theorem fresh_createLoad (hs : Fresh s) : Fresh (s.createLoad h e toks) := fresh_tryFrames _ (fresh_withNewInst hs)

/-- A new load changes the table and the next number alone. -/
theorem createLoad_frame (s : State) (h : Sharer) (e : OvEntry) (toks : List (Nat × Nat × Nat)) :
    ∃ is, s.createLoad h e toks = { s with nextId := s.nextId + 1, core := { s.core with insts := is } } := by
  obtain ⟨is, hi⟩ := tryFrames_eq (withNewInst s h e toks) s.nextId
  exact ⟨is, by rw [createLoad_eq, hi]; rfl⟩

/-- The number of an entry that no allocation may take is that of no victim. -/
theorem uid_ne_of_isVictim {s : State} {y v : Inst} (hone : ∀ x ∈ s.core.insts, x.uid = y.uid → x = y)
    (hy : ¬ IsVictim s y) (hv : IsVictim s v) : v.uid ≠ y.uid :=
  fun e => hy (hone v hv.mem e ▸ hv)

/-- Such an entry is still there after an allocation of another's. -/
theorem mem_tryFrames {s : State} {id : Nat} {y : Inst} (hone : ∀ x ∈ s.core.insts, x.uid = y.uid → x = y)
    (hy : y ∈ s.core.insts) (hv : ¬ IsVictim s y) (hid : y.uid ≠ id) : y ∈ (s.tryFrames id).core.insts := by
  rcases tryFrames_cases s id with h | ⟨vs, hvs, h⟩
  · rwa [h]
  · rw [h]
    exact mem_framedTable_other hy (fun v hm => uid_ne_of_isVictim hone hv (hvs v hm)) hid

/-- An entry that takes frames, or waits on for them, is still there. -/
theorem mem_tryFrames_self {s : State} {y : Inst} (hone : ∀ x ∈ s.core.insts, x.uid = y.uid → x = y)
    (hy : y ∈ s.core.insts) (hv : ¬ IsVictim s y) :
    y ∈ (s.tryFrames y.uid).core.insts ∨ { y with framed := true } ∈ (s.tryFrames y.uid).core.insts := by
  rcases tryFrames_cases s y.uid with h | ⟨vs, hvs, h⟩
  · exact .inl (by rwa [h])
  · rw [h]
    exact .inr (mem_framedTable_self hy (fun v hm => uid_ne_of_isVictim hone hv (hvs v hm)) hone)

theorem mem_createLoad (hs : Fresh s) {y : Inst} (hy : y ∈ s.core.insts) (hv : s.unprotected y = false) :
    y ∈ (s.createLoad h e toks).core.insts := by
  have hm : y ∈ (withNewInst s h e toks).core.insts := mem_withNewInst.2 (.inl hy)
  rw [createLoad_eq]
  refine mem_tryFrames (fun x hx => eq_of_uid_eq (fresh_withNewInst hs).nodup hx hm) hm (fun v => ?_)
    (Nat.ne_of_lt (hs.lt y hy))
  have : s.unprotected y = true := v.unprotected
  rw [hv] at this
  cases this

/-- The new load is in the table, with frames or without. -/
theorem exists_newInst_mem_createLoad (hlt : ∀ x ∈ s.core.insts, x.uid < s.nextId) :
    ∃ b, { newInst s h e toks with framed := b } ∈ (s.createLoad h e toks).core.insts := by
  have hv : ¬ IsVictim (withNewInst s h e toks) (newInst s h e toks) := fun v => nomatch v.resident
  have hone : ∀ x ∈ (withNewInst s h e toks).core.insts, x.uid = s.nextId → x = newInst s h e toks := fun x hx hu =>
    (mem_withNewInst.1 hx).resolve_left (fun hx => Nat.ne_of_lt (hlt x hx) hu)
  rcases mem_tryFrames_self hone (mem_withNewInst.2 (.inr rfl)) hv with hm | hm
  · exact ⟨false, hm⟩
  · exact ⟨true, hm⟩

end

/-! ### Those that waited for a verification (R183) -/

/-- A change of an entry that touches who sees it and who waits for it, and nothing else. -/
def OnlyViews (f : Inst → Inst) : Prop := ∀ i, ∃ sh ws, f i = { i with sharers := sh, waiters := ws }

theorem endTokens_only (s : State) (ts : List (Nat × Nat × Nat)) (e : TokEnd) : OnlyConsorts s (s.endTokens ts e) :=
  forAll_only _ _ (fun _ _ => modCrs_only _ _ _ _) s

/-- What completing tokens, changing views and starting loads keep, the joiners' turn keeps. -/
theorem joiners_induction {P : State → Prop} (honly : ∀ s t, OnlyConsorts s t → P s → P t)
    (hviews : ∀ s k f, OnlyViews f → P s → P (s.modInst k f)) (hload : ∀ s h e toks, P s → P (s.createLoad h e toks))
    (id : Nat) (ok : Bool) (js : List Joiner) (s : State) (hs : P s) : P (s.joiners id ok js) := by
  unfold State.joiners forAll
  induction js generalizing s with
  | nil => exact hs
  | cons j js ih =>
    refine ih _ ?_
    dsimp only
    split
    · split
      · exact honly _ _ (endTokens_only _ _ _) hs
      · exact hviews _ _ _ (fun i => ⟨_, _, rfl⟩) hs
    · split
      · exact honly _ _ (endTokens_only _ _ _) (hviews _ _ _ (fun i => ⟨_, _, rfl⟩) hs)
      · exact hload _ _ _ _ hs

theorem joiners_hub (s : State) (id : Nat) (ok : Bool) (js : List Joiner) : (s.joiners id ok js).hub = s.hub := by
  refine joiners_induction (P := fun t => t.hub = s.hub) (fun _ _ h e => by rw [h.hub, e]) (fun _ _ _ _ e => e)
    (fun u h e toks hu => ?_) id ok js s rfl
  obtain ⟨is, hi⟩ := createLoad_frame u h e toks
  rw [hi]
  exact hu

/-- Instance id became RESIDENT in the present clock, with these bytes, and no lane has fetched from it. -/
structure Landed (s : State) (clk id : Nat) (bs : List Byte) (ok : Bool) (y : Inst) : Prop where
  clock : s.clock = clk
  mem : y ∈ s.core.insts
  uid : y.uid = id
  st : y.st = .resident
  bytes : y.bytes = bs
  verified : y.verified = ok
  residentAt : y.residentAt = clk
  fetched : y.fetched = false

theorem unprotected_of_landed {s : State} {clk id : Nat} {bs : List Byte} {ok : Bool} {y : Inst}
    (h : Landed s clk id bs ok y) :
    s.unprotected y = false := by
  simp [State.unprotected, h.fetched, h.residentAt, h.clock]

theorem joiners_landed {clk id' : Nat} {bs : List Byte} {ok' : Bool} (id : Nat) (ok : Bool) (js : List Joiner) (s : State)
    (hs : Fresh s) (hy : ∃ y, Landed s clk id' bs ok' y) : ∃ y, Landed (s.joiners id ok js) clk id' bs ok' y := by
  refine (joiners_induction (P := fun t => Fresh t ∧ ∃ y, Landed t clk id' bs ok' y) ?_ ?_ ?_ id ok js s ⟨hs, hy⟩).2
  · rintro s t h ⟨hs, y, hy⟩
    exact ⟨fresh_of_only h hs, y, { hy with mem := by rw [h.core]; exact hy.mem, clock := by rw [h.clock, hy.clock] }⟩
  · rintro s k f hf ⟨hs, y, hy⟩
    have huid : ∀ i, (f i).uid = i.uid := fun i => by obtain ⟨_, _, e⟩ := hf i; rw [e]
    refine ⟨fresh_modInst huid hs, ?_⟩
    rcases mem_modFirst_of_mem (p := (·.uid == k)) (f := f) hy.mem with hm | hm
    · exact ⟨y, { hy with mem := hm, clock := hy.clock }⟩
    · obtain ⟨sh, ws, e⟩ := hf y
      refine ⟨f y, hy.clock, hm, ?_, ?_, ?_, ?_, ?_, ?_⟩ <;> rw [e]
      exacts [hy.uid, hy.st, hy.bytes, hy.verified, hy.residentAt, hy.fetched]
  · rintro s h e toks ⟨hs, y, hy⟩
    have hm := mem_createLoad (h := h) (e := e) (toks := toks) hs hy.mem (unprotected_of_landed hy)
    obtain ⟨is, hi⟩ := createLoad_frame s h e toks
    exact ⟨fresh_createLoad hs, y, { hy with mem := hm, clock := by rw [hi]; exact hy.clock }⟩

/-- No entry has number id, and none will. -/
structure Gone (s : State) (id : Nat) : Prop where
  lt : id < s.nextId
  ne : ∀ y ∈ s.core.insts, y.uid ≠ id

theorem gone_tryFrames {s : State} {id : Nat} (n : Nat) (h : Gone s id) : Gone (s.tryFrames n) id := by
  rcases tryFrames_cases s n with e | ⟨vs, -, e⟩
  · rwa [e]
  · rw [e]
    refine ⟨h.lt, fun y hy => ?_⟩
    obtain ⟨x, hx, hu, -⟩ := exists_mem_of_mem_framedTable hy
    rw [hu]
    exact h.ne x hx

theorem joiners_gone {id' : Nat} (id : Nat) (ok : Bool) (js : List Joiner) (s : State) (hs : Gone s id') :
    Gone (s.joiners id ok js) id' := by
  refine joiners_induction (P := fun t => Gone t id') ?_ ?_ ?_ id ok js s hs
  · exact fun s t h hs => ⟨by rw [h.nextId]; exact hs.lt, by rw [h.core]; exact hs.ne⟩
  · intro s k f hf hs
    refine ⟨hs.lt, fun y hy => ?_⟩
    obtain ⟨x, hx, e⟩ := exists_mem_of_mem_modFirst hy
    have hu : y.uid = x.uid := by
      rcases e with rfl | ⟨-, rfl⟩
      · rfl
      · obtain ⟨_, _, e⟩ := hf x
        rw [e]
    rw [hu]
    exact hs.ne x hx
  · intro s h e toks hs
    rw [createLoad_eq]
    refine gone_tryFrames _ ⟨Nat.lt_succ_of_lt hs.lt, fun y hy => ?_⟩
    rcases mem_withNewInst.1 hy with hy | rfl
    · exact hs.ne y hy
    · exact Nat.ne_of_gt hs.lt

/-! ### Tokens (R295) -/

theorem token_setToken {c : Course} {n : Nat} {t : Token} (h : n < 8) : (c.setToken n t).token n = t :=
  vget_vset_same _ _ _ h

theorem endToken_keeps {s : State} {k c n k' c' n' : Nat} {e : TokEnd} (h : ((s.crs k c).token n) = e.token) (hn : n < 8) :
    ((s.endToken k' c' n' e).crs k c).token n = e.token := by
  rw [State.endToken]
  by_cases hst : Stands s k' c'
  · by_cases hkc : k' = k ∧ c' = c
    · obtain ⟨rfl, rfl⟩ := hkc
      rw [crs_modCrs_same hst]
      by_cases hnn : n' = n
      · subst hnn
        exact token_setToken hn
      · rw [Course.token, Course.setToken, vget_vset_ne _ _ _ hnn]
        exact h
    · rw [crs_modCrs_ne hst hkc, h]
  · rw [crs_modCrs_of_not_stands hst, h]

theorem endTokens_keeps {s : State} {k c n : Nat} {e : TokEnd} (ts : List (Nat × Nat × Nat))
    (h : ((s.crs k c).token n) = e.token) (hn : n < 8) : ((s.endTokens ts e).crs k c).token n = e.token := by
  unfold State.endTokens forAll
  induction ts generalizing s with
  | nil => exact h
  | cons t ts ih => exact ih (endToken_keeps h hn)

theorem stands_endToken {s : State} {k c k' c' n : Nat} {e : TokEnd} :
    Stands (s.endToken k' c' n e) k c ↔ Stands s k c := stands_modCrs

/-- Every token of a list that exists ends as told. -/
theorem token_endTokens {s : State} {ts : List (Nat × Nat × Nat)} {e : TokEnd} {x : Nat × Nat × Nat} (hx : x ∈ ts)
    (hst : Stands s x.1 x.2.1) (hn : x.2.2 < 8) : ((s.endTokens ts e).crs x.1 x.2.1).token x.2.2 = e.token := by
  induction ts generalizing s with
  | nil => cases hx
  | cons t ts ih =>
    change ((State.endTokens (s.endToken t.1 t.2.1 t.2.2 e) ts e).crs x.1 x.2.1).token x.2.2 = e.token
    rcases List.mem_cons.1 hx with rfl | hx
    · refine endTokens_keeps ts ?_ hn
      rw [State.endToken, crs_modCrs_same hst]
      exact token_setToken hn
    · exact ih hx (stands_endToken.2 hst)

end Sys2Proof.Proofs
end

section
/-!
PROOFS. The events of the code store and the service of faults (R28, R29, R164 to R168, R183, R184, R412, R470).
-/

namespace Sys2Proof.Proofs

open Sys2Proof Sys2Proof.Machine Sys2Proof.Statements

/-! ### OVERLAY_LOAD_COMPLETE (R164, R167) -/

section
variable {s : State} {id : Nat} {i : Inst}
  (hi : s.core.insts.find? (fun i => i.uid == id && i.st == .loading && i.framed && !i.waiting) = some i)
include hi

theorem loadComplete_of_bytes {bs : List Byte} {pa : Nat} (hf : s.fetchVa i.owner i.entry.base i.entry.len = .bytes bs pa) :
    exec (.overlayLoadComplete id) s = .next (s.loadLands i bs) := by
  rw [exec_overlayLoadComplete, execOverlayLoadComplete, hi]
  simp only [hf]

theorem loadComplete_of_absent {e : Nat} {va : DWord} (hf : s.fetchVa i.owner i.entry.base i.entry.len = .absent e va) :
    exec (.overlayLoadComplete id) s = .next ((s.modInst id (fun i => { i with waiting := true })).report
      { kind := 2, cause := 6, access := 0, course := 0xFF, aspace := i.owner, lanes := 0, cref := 0, ctx := 0, addr := va }) := by
  rw [exec_overlayLoadComplete, execOverlayLoadComplete, hi]
  simp only [hf]

theorem loadComplete_of_denied {va : DWord} (hf : s.fetchVa i.owner i.entry.base i.entry.len = .denied va) :
    exec (.overlayLoadComplete id) s = .next (s.loadFails i .xlateDenied va) := by
  rw [exec_overlayLoadComplete, execOverlayLoadComplete, hi]
  simp only [hf]

theorem loadComplete_of_poison {va : DWord} (hf : s.fetchVa i.owner i.entry.base i.entry.len = .poison va) :
    exec (.overlayLoadComplete id) s = .next (s.loadFails i .poison va) := by
  rw [exec_overlayLoadComplete, execOverlayLoadComplete, hi]
  simp only [hf]

theorem loading_of_find? : i ∈ s.core.insts ∧ i.uid = id := by
  have := List.find?_some hi
  simp only [Bool.and_eq_true, beq_iff_eq] at this
  exact ⟨List.mem_of_find?_eq_some hi, this.1.1.1⟩

end

/-- In a table with distinct numbers, changing entry i changes it. -/
theorem mem_modInst_self {s : State} {i : Inst} {f : Inst → Inst} (hn : (s.core.insts.map (·.uid)).Nodup)
    (hi : i ∈ s.core.insts) : f i ∈ (s.modInst i.uid f).core.insts :=
  mem_modFirst_of_unique hi (beq_self_eq_true _) (fun _ hx e => eq_of_uid_eq hn hx hi (beq_iff_eq.1 e))

/-- R183. Is the digest of a SHAREABLE load's bytes the one of its entry? -/
def digestAgrees (i : Inst) (bs : List Byte) : Bool := i.entry.shareable && sha256 bs == i.entry.digest

theorem digestAgrees_iff (i : Inst) (bs : List Byte) :
    digestAgrees i bs = true ↔ i.entry.shareable = true ∧ sha256 bs = i.entry.digest := by
  rw [digestAgrees, Bool.and_eq_true, beq_iff_eq]

/-- R164, R184. An entry whose bytes have landed. -/
def becomeResident (bs : List Byte) (ok : Bool) (clock : Nat) (i : Inst) : Inst :=
  { i with st := .resident, bytes := bs, verified := ok, residentAt := clock, waiters := [], joiners := [] }

/-- R183, R184. The entry RESIDENT, and the record of a digest that disagrees. -/
def landedState (s : State) (i : Inst) (bs : List Byte) : State :=
  let s1 := s.modInst i.uid (becomeResident bs (digestAgrees i bs) s.clock)
  if i.entry.shareable && !digestAgrees i bs then
    s1.report { kind := 5, cause := 0, access := 0, course := 0xFF, aspace := i.owner, lanes := 0, cref := 0, ctx := 0
                addr := i.entry.base }
  else s1

theorem loadLands_eq (s : State) (i : Inst) (bs : List Byte) :
    s.loadLands i bs =
      ((landedState s i bs).endTokens i.waiters .free).joiners i.uid (digestAgrees i bs) i.joiners := rfl

section
variable {s : State} {i : Inst} (bs : List Byte)

/-- Beside the entry, only the hub's list of fault records may differ. -/
theorem landedState_frame : ∃ h, landedState s i bs =
    { s.modInst i.uid (becomeResident bs (digestAgrees i bs) s.clock) with hub := h } := by
  rw [landedState]
  split
  · exact ⟨_, rfl⟩
  · exact ⟨_, rfl⟩

theorem loadLands_landed (hs : Fresh s) (hi : i ∈ s.core.insts) (hf : i.fetched = false) :
    ∃ y, Landed (s.loadLands i bs) s.clock i.uid bs (digestAgrees i bs) y := by
  obtain ⟨h, e⟩ := landedState_frame (s := s) (i := i) bs
  have hfresh : Fresh (landedState s i bs) := by
    have := fresh_modInst (s := s) (k := i.uid) (f := becomeResident bs (digestAgrees i bs) s.clock) (fun _ => rfl) hs
    rw [e]
    exact ⟨this.nodup, this.lt⟩
  have hland : Landed (landedState s i bs) s.clock i.uid bs (digestAgrees i bs)
      (becomeResident bs (digestAgrees i bs) s.clock i) := by
    rw [e]
    exact ⟨rfl, mem_modInst_self hs.nodup hi, rfl, rfl, rfl, rfl, rfl, hf⟩
  have honly := endTokens_only (landedState s i bs) i.waiters .free
  rw [loadLands_eq]
  refine joiners_landed _ _ _ _ (fresh_of_only honly hfresh) ⟨_, { hland with mem := ?_, clock := ?_ }⟩
  · rw [honly.clock]; exact hland.clock
  · rw [honly.core]; exact hland.mem

theorem loadLands_token (hj : i.joiners = []) {x : Nat × Nat × Nat} (hx : x ∈ i.waiters) (hst : Stands s x.1 x.2.1)
    (hn : x.2.2 < 8) : ((s.loadLands i bs).crs x.1 x.2.1).token x.2.2 = TokEnd.free.token := by
  obtain ⟨h, e⟩ := landedState_frame (s := s) (i := i) bs
  rw [loadLands_eq, hj]
  exact token_endTokens hx (by rw [e]; exact hst) hn

theorem loadLands_reports (hsh : i.entry.shareable = true) (hd : sha256 bs ≠ i.entry.digest) :
    ∃ r ∈ (s.loadLands i bs).hub.faults, r.kind = 5 := by
  have hno : digestAgrees i bs = false := by
    rw [← Bool.not_eq_true, digestAgrees_iff]
    exact fun h => hd h.2
  rw [loadLands_eq, joiners_hub, (endTokens_only _ _ _).hub, landedState, hsh, hno]
  exact ⟨_, List.mem_append_right _ (List.mem_singleton.2 rfl), rfl⟩

end

/-! ### A load that fails (R167, R186, R189) -/

/-- A change of a course that touches the failed loads it still has to take, and nothing else. -/
def OnlyFaults (f : Course → Course) : Prop := ∀ c, ∃ fs, f c = { c with fetchFault := fs }

/-- A failed load leaves of a consort all but its tokens on overlays, what it needs and its courses' failed loads. -/
theorem loadFailed_frame (q : Consort) (ov : BitVec 16) (cause : Cause) (va : DWord) :
    ∃ rt nd f, OnlyFaults f ∧ q.loadFailed ov cause va = { q with rtokens := rt, need := nd, courses := q.courses.map f } := by
  refine ⟨_, _, _, fun c => ?_, rfl⟩
  split
  · split
    · exact ⟨c.fetchFault, rfl⟩
    · exact ⟨_, rfl⟩
  · exact ⟨_, rfl⟩

/-- R167. What the failure of entry i means to a consort. -/
def failView (i : Inst) (cause : Cause) (va : DWord) (q : Consort) : Consort :=
  match i.sharers.find? (fun h => h.aspace == q.aspace && h.ot == q.hdr.otaddr) with
  | none => q
  | some h => if q.onCore then q.loadFailed h.ov cause va else q

theorem failView_frame (i : Inst) (cause : Cause) (va : DWord) (q : Consort) :
    ∃ rt nd f, OnlyFaults f ∧ failView i cause va q = { q with rtokens := rt, need := nd, courses := q.courses.map f } := by
  have same : ∃ rt nd f, OnlyFaults f ∧ q = { q with rtokens := rt, need := nd, courses := q.courses.map f } :=
    ⟨q.rtokens, q.need, id, fun c => ⟨c.fetchFault, rfl⟩, by rw [List.map_id]⟩
  rw [failView]
  split
  · exact same
  · split
    · exact loadFailed_frame q _ cause va
    · exact same

/-- Where every consort changes by its overlays and its courses' failed loads alone, so does a course. -/
theorem crs_of_onlyFaults {s t : State} {g : Consort → Consort} {k c : Nat} (ht : t.consorts = s.consorts.map g)
    (hg : ∀ q, ∃ rt nd f, OnlyFaults f ∧ g q = { q with rtokens := rt, need := nd, courses := q.courses.map f })
    (h : Stands s k c) : ∃ fs, t.crs k c = { s.crs k c with fetchFault := fs } := by
  have hid : ∀ q, (g q).id = q.id := fun q => by obtain ⟨_, _, _, -, e⟩ := hg q; rw [e]
  obtain ⟨rt, nd, f, hf, e⟩ := hg (s.cons k)
  have hidx : ((·.idx == c) ∘ f) = (fun x : Course => x.idx == c) := funext (fun x => by
    obtain ⟨fs, hx⟩ := hf x
    rw [Function.comp_apply, hx])
  have hcrs : t.crs k c = f (s.crs k c) := by
    rw [State.crs, cons_of_consorts_map ht h.1 hid, e, Consort.crs, List.find?_map, hidx, find?_crs h, Option.map_some,
      Option.getD_some]
  rw [hcrs]
  exact hf _

/-- The state in which a failed load is over for its own tokens and consorts, before the turn of those that waited with it. -/
def failedState (s : State) (i : Inst) (cause : Cause) (va : DWord) : State :=
  let s1 := (s.freeInst i.uid).endTokens i.waiters (.error cause false (va.setWidth 56))
  { s1 with consorts := s1.consorts.map (failView i cause va) }

theorem loadFails_eq (s : State) (i : Inst) (cause : Cause) (va : DWord) :
    s.loadFails i cause va = (failedState s i cause va).joiners i.uid false i.joiners := rfl

theorem failedState_core (s : State) (i : Inst) (cause : Cause) (va : DWord) :
    (failedState s i cause va).core = (s.freeInst i.uid).core := (endTokens_only _ _ _).core

theorem failedState_nextId (s : State) (i : Inst) (cause : Cause) (va : DWord) :
    (failedState s i cause va).nextId = s.nextId := (endTokens_only (s.freeInst i.uid) _ _).nextId

theorem loadFails_gone {s : State} {i : Inst} (cause : Cause) (va : DWord) (hi : i.uid < s.nextId) :
    Gone (s.loadFails i cause va) i.uid := by
  rw [loadFails_eq]
  refine joiners_gone _ _ _ _ ⟨by rw [failedState_nextId]; exact hi, fun y hy => ?_⟩
  rw [failedState_core] at hy
  simpa using (List.mem_filter.1 hy).2

theorem stands_endTokens {s : State} {k c : Nat} {ts : List (Nat × Nat × Nat)} {e : TokEnd} :
    Stands (s.endTokens ts e) k c ↔ Stands s k c := by
  unfold State.endTokens forAll
  induction ts generalizing s with
  | nil => rfl
  | cons t ts ih => exact ih.trans stands_endToken

theorem loadFails_token {s : State} {i : Inst} (cause : Cause) (va : DWord) (hj : i.joiners = []) {x : Nat × Nat × Nat}
    (hx : x ∈ i.waiters) (hst : Stands s x.1 x.2.1) (hn : x.2.2 < 8) :
    (((s.loadFails i cause va).crs x.1 x.2.1).token x.2.2).st = .error cause := by
  have hst' : Stands (s.freeInst i.uid) x.1 x.2.1 := hst
  obtain ⟨fs, e⟩ := crs_of_onlyFaults (t := failedState s i cause va) rfl (failView_frame i cause va)
    (stands_endTokens.2 hst')
  rw [loadFails_eq, hj]
  change (((failedState s i cause va).crs x.1 x.2.1).token x.2.2).st = .error cause
  rw [e]
  exact congrArg Token.st (token_endTokens hx hst' hn)

/-! ### Frames (R165) -/

theorem frameRetry_of_victims {s : State} {id : Nat} {i : Inst} {vs : List Inst}
    (hi : s.core.insts.find? (fun i => i.uid == id && !i.framed) = some i)
    (hv : takeVictims (i.entry.frames - (128 - s.framesUsed)) s.victims = some vs) :
    exec (.overlayFrameRetry id) s = .next (s.modCore (fun c => { c with insts := framedTable id vs c.insts })) := by
  rw [exec_overlayFrameRetry, execOverlayFrameRetry, allocate_eq hi hv]

theorem isVictim_of_takeVictims {s : State} {n : Nat} {vs : List Inst} (hv : takeVictims n s.victims = some vs) :
    ∀ v ∈ vs, IsVictim s v := fun v h => isVictim_of_mem_victims (mem_of_takeVictims hv v h)

/-- A LOADING entry is no victim. -/
theorem not_isVictim_of_loading {s : State} {i : Inst} (h : i.st = .loading) : ¬ IsVictim s i := fun v => by
  have := v.resident
  rw [h] at this
  cases this

/-- R165. The loads that wait for frames try again, in order. -/
theorem protectionExpiry_eq {s : State} {id : Nat}
    (h : ∃ i ∈ s.core.insts, i.uid = id ∧ i.st = .resident ∧ i.fetched = false ∧ i.residentAt + 65536 ≤ s.clock) :
    exec (.frameProtectionExpiry id) s =
      .next (forAll (s.core.insts.filter (fun i => !i.framed)) s (fun s i => s.tryFrames i.uid)) := by
  rw [exec_frameProtectionExpiry, execFrameProtectionExpiry, if_pos]
  obtain ⟨i, hi, hu, hst, hf, hr⟩ := h
  rw [List.any_eq_true]
  exact ⟨i, hi, by simp [hu, hst, hf, hr]⟩

theorem forAll_tryFrames_ms (is : List Inst) (s : State) :
    (forAll is s (fun s i => s.tryFrames i.uid)).ms = s.ms := by
  unfold forAll
  induction is generalizing s with
  | nil => rfl
  | cons i is ih =>
    obtain ⟨_, e⟩ := tryFrames_eq s i.uid
    rw [List.foldl_cons, ih, e]
    rfl

/-- Instance i has its frames, and the victims that it took are gone. -/
structure TookFrames (s : State) (i : Inst) (vs : List Inst) : Prop where
  nodup : (s.core.insts.map (·.uid)).Nodup
  mem : { i with framed := true } ∈ s.core.insts
  gone : ∀ v ∈ vs, ∀ y ∈ s.core.insts, y.uid ≠ v.uid

theorem tookFrames_tryFrames {s : State} {i : Inst} {vs : List Inst} {n : Nat} (hst : i.st = .loading) (hn : i.uid ≠ n)
    (h : TookFrames s i vs) : TookFrames (s.tryFrames n) i vs := by
  have hm := mem_tryFrames (id := n) (fun x hx => eq_of_uid_eq h.nodup hx h.mem) h.mem (not_isVictim_of_loading hst) hn
  rcases tryFrames_cases s n with e | ⟨ws, -, e⟩
  · rwa [e]
  · rw [e] at hm ⊢
    refine ⟨?_, hm, fun v hv y hy => ?_⟩
    · rw [State.modCore_core, uids_framedTable]
      exact h.nodup.sublist (List.filter_sublist.map _)
    · obtain ⟨x, hx, hu, -⟩ := exists_mem_of_mem_framedTable hy
      rw [hu]
      exact h.gone v hv x hx

theorem tookFrames_forAll {i : Inst} {vs : List Inst} (hst : i.st = .loading) (is : List Inst)
    (his : ∀ j ∈ is, i.uid ≠ j.uid) (s : State) (h : TookFrames s i vs) :
    TookFrames (forAll is s (fun s i => s.tryFrames i.uid)) i vs := by
  unfold forAll
  induction is generalizing s with
  | nil => exact h
  | cons j is ih =>
    exact ih (fun x hx => his x (List.mem_cons_of_mem _ hx)) _
      (tookFrames_tryFrames hst (his j List.mem_cons_self) h)

theorem tookFrames_framedTable {s : State} {i : Inst} {vs : List Inst} (hn : (s.core.insts.map (·.uid)).Nodup)
    (hi : i ∈ s.core.insts) (hst : i.st = .loading) (hvs : ∀ v ∈ vs, IsVictim s v) :
    TookFrames (s.modCore (fun c => { c with insts := framedTable i.uid vs c.insts })) i vs := by
  have hone : ∀ x ∈ s.core.insts, x.uid = i.uid → x = i := fun x hx => eq_of_uid_eq hn hx hi
  have hne : ∀ v ∈ vs, v.uid ≠ i.uid := fun v hm => uid_ne_of_isVictim hone (not_isVictim_of_loading hst) (hvs v hm)
  refine ⟨?_, mem_framedTable_self hi hne hone, fun v hv y hy => ?_⟩
  · rw [State.modCore_core, uids_framedTable]
    exact hn.sublist (List.filter_sublist.map _)
  · obtain ⟨-, -, -, hne⟩ := exists_mem_of_mem_framedTable hy
    exact hne v hv

/-- R165. The first load that waits takes its frames, and the later ones leave it and its victims as they then are. -/
theorem tookFrames_of_first {s : State} {i : Inst} {vs : List Inst}
    (hi : s.core.insts.find? (fun i => !i.framed) = some i) (hst : i.st = .loading)
    (hn : (s.core.insts.map (·.uid)).Nodup)
    (hv : takeVictims (i.entry.frames - (128 - s.framesUsed)) s.victims = some vs) :
    TookFrames (forAll (s.core.insts.filter (fun i => !i.framed)) s (fun s i => s.tryFrames i.uid)) i vs := by
  have hmem := List.mem_of_find?_eq_some hi
  have hfr : (!i.framed) = true := List.find?_some (p := fun i : Inst => !i.framed) hi
  have hfind : s.core.insts.find? (fun j => j.uid == i.uid && !j.framed) = some i := by
    cases e : s.core.insts.find? (fun j => j.uid == i.uid && !j.framed) with
    | none => exact absurd (List.find?_eq_none.1 e i hmem) (by simp [hfr])
    | some j =>
      have hj := List.find?_some e
      simp only [Bool.and_eq_true, beq_iff_eq] at hj
      rw [eq_of_uid_eq hn (List.mem_of_find?_eq_some e) hmem hj.1]
  have hsplit : ∃ rest, s.core.insts.filter (fun i => !i.framed) = i :: rest := by
    have := List.head?_filter (p := fun i : Inst => !i.framed) (l := s.core.insts)
    rw [hi] at this
    exact ⟨_, (List.cons_head?_tail this).symm⟩
  obtain ⟨rest, hrest⟩ := hsplit
  have hne : ∀ j ∈ rest, i.uid ≠ j.uid := by
    have hnd : ((s.core.insts.filter (fun i => !i.framed)).map (·.uid)).Nodup := hn.sublist (List.filter_sublist.map _)
    rw [hrest, List.map_cons, List.nodup_cons] at hnd
    exact fun j hj e => hnd.1 (List.mem_map.2 ⟨j, hj, e.symm⟩)
  have htry : s.tryFrames i.uid = s.modCore (fun c => { c with insts := framedTable i.uid vs c.insts }) := by
    rw [State.tryFrames, allocate_eq hfind hv, Option.getD_some]
  rw [hrest]
  refine tookFrames_forAll hst rest hne (s.tryFrames i.uid) ?_
  rw [htry]
  exact tookFrames_framedTable hn hmem hst (isVictim_of_takeVictims hv)

/-! ### FETCH_ABSENT_LOAD (R29, R470) -/

section
variable {s : State} {k c : Nat} {ov : BitVec 16} (h : s.absentFetch k c = some ov)
include h

/-- The lanes that a failed fetch concerns are the issue set. -/
theorem failedLanes_of_absentFetch {set laps : BitVec 32} (hset : (s.crs k c).issueSet = some (set, laps)) :
    (s.crs k c).failedLanes false ov = set := by
  have hov : refOv ((s.crs k c).lpcAt (lowest set)) = ov := by
    have hset' : ((s.cons k).crs c).issueSet = some (set, laps) := hset
    simp only [State.absentFetch, hset', Option.ite_none_right_eq_some, Option.some.injEq] at h
    exact h.2
  rw [Course.failedLanes, hset]
  exact if_pos hov

theorem fetchAbsent_of_bad {e : Cause} {va : DWord} (hr : s.readEntry (s.cons k) ov = .bad e va) :
    exec (.fetchAbsentLoad k c) s =
      .next (s.modCrs k c (fun x => x.addFault (x.failedLanes false ov) e va false)) := by
  rw [exec_fetchAbsentLoad, execFetchAbsentLoad, h]
  simp only [hr]

theorem fetchAbsent_of_absent {va : DWord} (hr : s.readEntry (s.cons k) ov = .absent va) :
    exec (.fetchAbsentLoad k c) s = .next ((s.modCrs k c (fun x => { x with fetchWait := true })).report
      { kind := 2, cause := 6, access := 0, course := c, aspace := (s.cons k).aspace, lanes := 0, cref := 0
        ctx := (s.cons k).ctx, addr := va }) := by
  rw [exec_fetchAbsentLoad, execFetchAbsentLoad, h]
  simp only [hr]

theorem fetchAbsent_of_entry {e : OvEntry} (hr : s.readEntry (s.cons k) ov = .entry e) (hs : e.shareable = false) :
    exec (.fetchAbsentLoad k c) s = .next (s.createLoad ((s.cons k).sharer ov) e []) := by
  rw [exec_fetchAbsentLoad, execFetchAbsentLoad, h]
  simp only [hr, State.request, hs, Bool.false_eq_true, if_false]

end

/-! ### FAULT_SERVICE (R412) -/

section
variable {α : Type} {p w : α → Bool} {f : α → α}

/-- Letting the first thing go that is named and waits frees one thing of the list. -/
theorem freed_modFirst {xs : List α} (h : ∃ x ∈ xs, p x = true ∧ w x = true) (hp : ∀ x, p (f x) = p x := by intro _; rfl)
    (hw : ∀ x, w (f x) = false := by intro _; rfl) : Freed p w xs (modFirst (fun x => p x && w x) f xs) := by
  induction xs with
  | nil => obtain ⟨x, hx, -⟩ := h; cases hx
  | cons y ys ih =>
    rw [modFirst]
    by_cases hy : (p y && w y) = true
    · rw [if_pos hy]
      obtain ⟨hpy, hwy⟩ := Bool.and_eq_true_iff.1 hy
      refine ⟨0, y, f y, rfl, hpy, hwy, rfl, by rw [hp, hpy], hw y, fun m hm => ?_⟩
      obtain ⟨m, rfl⟩ := Nat.exists_eq_succ_of_ne_zero hm
      rfl
    · rw [if_neg hy]
      obtain ⟨x, hx, hpx, hwx⟩ := h
      have hx' : x ∈ ys := (List.mem_cons.1 hx).resolve_left (fun e => hy (by rw [← e, hpx, hwx]; rfl))
      obtain ⟨n, a, b, ha, hpa, hwa, hb, hpb, hwb, hrest⟩ := ih ⟨x, hx', hpx, hwx⟩
      refine ⟨n + 1, a, b, ha, hpa, hwa, hb, hpb, hwb, fun m hm => ?_⟩
      cases m with
      | zero => rfl
      | succ m => exact hrest m (fun e => hm (by rw [e]))

theorem release_eq_some (f : α → α) {xs : List α} (h : ∃ x ∈ xs, p x = true ∧ w x = true) :
    release (fun x => p x && w x) f xs = some (modFirst (fun x => p x && w x) f xs) := by
  obtain ⟨x, hx, hp, hw⟩ := h
  rw [release, if_pos (List.any_eq_true.2 ⟨x, hx, by rw [hp, hw]; rfl⟩)]

end

theorem freed_set {α : Type} {w : α → Bool} {xs : List α} {n : Nat} {x y : α} (hx : xs[n]? = some x) (hwx : w x = true)
    (hwy : w y = false) : Freed (fun _ => true) w xs (xs.set n y) := by
  have hn : n < xs.length := (List.getElem?_eq_some_iff.1 hx).1
  refine ⟨n, x, y, hx, rfl, hwx, by simp [hn], rfl, hwy, fun m hm => ?_⟩
  rw [List.getElem?_set_ne (Ne.symm hm)]

/-! ### The obligation -/

/-- R164, R167, R183, R184. What OVERLAY_LOAD_COMPLETE does. -/
theorem loadComplete_results {s : State} {id : Nat} {i : Inst}
    (hi : s.core.insts.find? (fun i => i.uid == id && i.st == .loading && i.framed && !i.waiting) = some i)
    (hs : Fresh s) (hf : i.fetched = false) :
    let toks (t : State) (e : TokState) : Prop := i.joiners = [] → ∀ x ∈ i.waiters, Stands s x.1 x.2.1 → x.2.2 < 8 →
      ((t.crs x.1 x.2.1).token x.2.2).st = e
    let gone (t : State) (e : Cause) : Prop := (∀ y ∈ t.core.insts, y.uid ≠ id) ∧ toks t (.error e)
    (∀ bs pa, s.fetchVa i.owner i.entry.base i.entry.len = .bytes bs pa →
      ∃ (t : State) (y : Inst), exec (.overlayLoadComplete id) s = .next t ∧ y ∈ t.core.insts ∧ y.uid = id ∧ y.st = .resident ∧
        y.bytes = bs ∧ (y.verified = true ↔ i.entry.shareable = true ∧ sha256 bs = i.entry.digest) ∧ y.residentAt = s.clock ∧
        toks t .free ∧ (i.entry.shareable = true → sha256 bs ≠ i.entry.digest → ∃ r ∈ t.hub.faults, r.kind = 5)) ∧
    (∀ e va, s.fetchVa i.owner i.entry.base i.entry.len = .absent e va →
      ∃ (t : State) (y : Inst), exec (.overlayLoadComplete id) s = .next t ∧ y ∈ t.core.insts ∧ y = { i with waiting := true } ∧
        ∃ r ∈ t.hub.faults, r.kind = 2 ∧ r.cause = 6 ∧ r.addr = va) ∧
    (∀ va, s.fetchVa i.owner i.entry.base i.entry.len = .denied va →
      ∃ t : State, exec (.overlayLoadComplete id) s = .next t ∧ gone t .xlateDenied) ∧
    (∀ va, s.fetchVa i.owner i.entry.base i.entry.len = .poison va →
      ∃ t : State, exec (.overlayLoadComplete id) s = .next t ∧ gone t .poison) := by
  obtain ⟨hmem, rfl⟩ := loading_of_find? hi
  have fails (cause : Cause) (va : DWord) : (∀ y ∈ (s.loadFails i cause va).core.insts, y.uid ≠ i.uid) ∧
      (i.joiners = [] → ∀ x ∈ i.waiters, Stands s x.1 x.2.1 → x.2.2 < 8 →
        (((s.loadFails i cause va).crs x.1 x.2.1).token x.2.2).st = .error cause) :=
    ⟨(loadFails_gone cause va (hs.lt i hmem)).ne, fun hj _ hx hst hn => loadFails_token cause va hj hx hst hn⟩
  refine ⟨fun bs pa hb => ?_, fun e va ha => ?_, fun va hd => ⟨_, loadComplete_of_denied hi hd, fails _ _⟩,
    fun va hp => ⟨_, loadComplete_of_poison hi hp, fails _ _⟩⟩
  · obtain ⟨y, hy⟩ := loadLands_landed bs hs hmem hf
    refine ⟨_, y, loadComplete_of_bytes hi hb, hy.mem, hy.uid, hy.st, hy.bytes, ?_, hy.residentAt,
      fun hj _ hx hst hn => congrArg Token.st (loadLands_token bs hj hx hst hn), loadLands_reports bs⟩
    rw [hy.verified, digestAgrees_iff]
  · exact ⟨_, _, loadComplete_of_absent hi ha,
      mem_modInst_self (f := fun i => { i with waiting := true }) hs.nodup hmem, rfl, _,
      List.mem_append_right _ (List.mem_singleton.2 rfl), rfl, rfl, rfl⟩

/-- R29, R470. What FETCH_ABSENT_LOAD does. -/
theorem fetchAbsent_results {s : State} {k c : Nat} {ov : BitVec 16} (hst : Stands s k c) (h : s.absentFetch k c = some ov)
    (hlt : ∀ x ∈ s.core.insts, x.uid < s.nextId) :
    (∀ e va set laps, s.readEntry (s.cons k) ov = .bad e va → (s.crs k c).issueSet = some (set, laps) →
      ∃ t : State, exec (.fetchAbsentLoad k c) s = .next t ∧ t.core = s.core ∧
        (t.crs k c).fetchFault = (s.crs k c).fetchFault ++ (lanesOf set).map (fun l =>
          { cause := e, va := va.setWidth 56, lane := l, ref := (s.crs k c).lpcAt l, once := false })) ∧
    (∀ va, s.readEntry (s.cons k) ov = .absent va → ∃ t : State, exec (.fetchAbsentLoad k c) s = .next t ∧
      (t.crs k c).fetchWait = true ∧ t.core = s.core ∧ ∃ r ∈ t.hub.faults, r.kind = 2 ∧ r.cause = 6 ∧ r.course = c ∧ r.addr = va) ∧
    (∀ e, s.readEntry (s.cons k) ov = .entry e → e.shareable = false → ∃ (t : State) (y : Inst),
      exec (.fetchAbsentLoad k c) s = .next t ∧ y ∈ t.core.insts ∧ y.st = .loading ∧ y.entry = e ∧ y.owner = (s.cons k).aspace ∧
        y.sharers = [{ aspace := (s.cons k).aspace, ot := (s.cons k).hdr.otaddr, ov := ov }] ∧ y.waiters = [] ∧
        t.consorts = s.consorts) := by
  refine ⟨fun e va set laps hr hset => ⟨_, fetchAbsent_of_bad h hr, rfl, ?_⟩,
    fun va hr => ⟨_, fetchAbsent_of_absent h hr, ?_, rfl, _, List.mem_append_right _ (List.mem_singleton.2 rfl), rfl, rfl, rfl,
      rfl⟩, fun e hr hsh => ?_⟩
  · rw [crs_modCrs_same hst, failedLanes_of_absentFetch h hset]
    rfl
  · exact congrArg Course.fetchWait (crs_modCrs_same hst)
  · obtain ⟨b, hb⟩ := exists_newInst_mem_createLoad (h := (s.cons k).sharer ov) (e := e) (toks := []) hlt
    obtain ⟨is, hi⟩ := createLoad_frame s ((s.cons k).sharer ov) e []
    exact ⟨_, _, fetchAbsent_of_entry h hr hsh, hb, rfl, rfl, rfl, rfl, rfl, by rw [hi]⟩

section
variable {s : State} {id : Nat}

/-- R412. Code 6 lets go a decrement that waits, named by its place. -/
theorem faultService_jcwork {x : JcWork} (hx : s.work.jcwork[id]? = some x) (hw : x.waiting = true) :
    exec (.faultService 6 id) s =
      .next { s with work := { s.work with jcwork := s.work.jcwork.set id { x with waiting := false } } } := by
  rw [exec_faultService, execFaultService, hx, Option.filter_some, if_pos hw]
  rfl

theorem faultService_pending (h : ∃ p ∈ (s.crs (id / 16) (id % 16)).pending, p.waiting = true) :
    exec (.faultService 5 id) s = .next (s.modCrs (id / 16) (id % 16) (fun x =>
      { x with pending := x.pending.map (fun p => { p with waiting := false }) })) := by
  rw [exec_faultService, execFaultService]
  exact if_pos (List.any_eq_true.2 h)

theorem faultService_fetchWait (h : (s.crs (id / 16) (id % 16)).fetchWait = true) :
    exec (.faultService 9 id) s = .next (s.modCrs (id / 16) (id % 16) (fun x => { x with fetchWait := false })) := by
  rw [exec_faultService, execFaultService]
  exact if_pos h

theorem faultService_port (h : ((s.crs (id / 256) (id / 16 % 16)).port (id % 16)).waiting = true) :
    exec (.faultService 11 id) s = .next (s.modCrs (id / 256) (id / 16 % 16) (fun x =>
      x.setPort (id % 16) { (x.port (id % 16)) with waiting := false })) := by
  rw [exec_faultService, execFaultService]
  exact if_pos h

theorem faultService_entryWait (h : (s.cons id).entryWait = true) :
    exec (.faultService 12 id) s = .next (s.modCons id (fun q => { q with entryWait := false })) := by
  rw [exec_faultService, execFaultService]
  exact if_pos h

end

/-- Settles O57: the table of instances is followed through each event by the numbers of its instances. -/
theorem overlayEventResults : Obligations.OverlayEventResults := by
  intro s
  refine ⟨fun id i hi hn hlt hf => loadComplete_results hi ⟨hn, hlt⟩ hf, fun id i vs hi hst hn hv => ?_, fun id h => ?_,
    fun k c ov hst h hlt => fetchAbsent_results hst h hlt, fun id => ?_⟩
  · have hmem := List.mem_of_find?_eq_some hi
    obtain rfl : i.uid = id := by
      have := List.find?_some hi
      simp only [Bool.and_eq_true, beq_iff_eq] at this
      exact this.1
    have hvs := isVictim_of_takeVictims hv
    have ht := tookFrames_framedTable hn hmem hst hvs
    refine ⟨_, frameRetry_of_victims hi hv, ht.mem, fun v h => not_mem_framedTable h, fun y hy hne hyv => ?_⟩
    have hyne : ∀ v ∈ vs, v.uid ≠ y.uid := fun v hm e => hyv (eq_of_uid_eq hn (hvs v hm).mem hy e ▸ hm)
    exact mem_framedTable_other hy hyne (fun e => hne (eq_of_uid_eq hn hy hmem e))
  · refine ⟨_, protectionExpiry_eq h, forAll_tryFrames_ms _ s, fun hall => ?_, fun i vs hi hst hn hv => ?_⟩
    · rw [List.filter_eq_nil_iff.2 (fun y hy => by simp [hall y hy])]
      rfl
    · have ht := tookFrames_of_first hi hst hn hv
      exact ⟨ht.mem, fun v hvs hm => ht.gone v hvs v hm rfl⟩
  · have named {α : Type} {num : α → Nat} {w : α → Bool} {xs : List α} (h : ∃ x ∈ xs, num x = id ∧ w x = true) :
        ∃ x ∈ xs, (num x == id) = true ∧ w x = true := by simpa using h
    refine ⟨fun h => ?_, fun h => ?_, fun h => ?_, fun h => ?_, fun h => ?_, fun h => ⟨_, faultService_pending h, rfl, ?_⟩,
      fun ⟨x, hx, hw⟩ => ⟨_, faultService_jcwork hx hw, rfl, freed_set hx hw rfl⟩, fun h => ?_, fun h => ?_,
      fun h => ⟨_, faultService_fetchWait h, rfl, ?_⟩, fun h => ?_, fun h => ⟨_, faultService_port h, rfl, ?_⟩,
      fun h => ⟨_, faultService_entryWait h, rfl, ?_⟩⟩
    case refine_6 =>
      obtain ⟨p, hp, -⟩ := h
      have hst : Stands s (id / 16) (id % 16) := stands_of_crs_ne (fun e => by rw [e] at hp; cases hp)
      exact congrArg Course.pending (crs_modCrs_same hst)
    case refine_9 =>
      have hst : Stands s (id / 16) (id % 16) := stands_of_crs_ne (fun e => by rw [e] at h; cases h)
      exact congrArg Course.fetchWait (crs_modCrs_same hst)
    case refine_11 =>
      have hst : Stands s (id / 256) (id / 16 % 16) := stands_of_crs_ne (fun e => by
        rw [e, port_blank (Nat.mod_lt _ (by decide))] at h
        cases h)
      beta_reduce
      rw [crs_modCrs_same hst, port_setPort_same (Nat.mod_lt _ (by decide))]
    case refine_12 =>
      exact congrArg Consort.entryWait (cons_modCons_same (exists_find?_of_cons_ne (fun e => by rw [e] at h; cases h)))
    all_goals exact ⟨_, by rw [exec_faultService, execFaultService, release_eq_some _ (named h)]; rfl, by rfl,
      by exact freed_modFirst (named h)⟩

end Sys2Proof.Proofs
end

section
/-!
PROOFS. Numbers as bytes (R19), and what a byte or a number of home memory reads after a write of the device's own.
-/

namespace Sys2Proof.Proofs

open Sys2Proof Sys2Proof.Machine Sys2Proof.Statements
open Host (Cell)

/-! ### Numbers as bytes (R19) -/

theorem leNat_lt (bs : List Byte) : leNat bs < 256 ^ bs.length := by
  induction bs with
  | nil => exact Nat.one_pos
  | cons b bs ih =>
    have hb := b.isLt
    rw [leNat, List.length_cons, Nat.pow_succ]
    omega

theorem leNat_append (xs ys : List Byte) : leNat (xs ++ ys) = leNat xs + 256 ^ xs.length * leNat ys := by
  induction xs with
  | nil => simp [leNat]
  | cons x xs ih =>
    rw [List.cons_append, leNat, leNat, ih, List.length_cons, Nat.pow_succ]
    ring

@[simp] theorem leBytes_length (n x : Nat) : (leBytes n x).length = n := by
  induction n generalizing x with
  | zero => rfl
  | succ n ih => rw [leBytes, List.length_cons, ih]

theorem leNat_leBytes (n x : Nat) : leNat (leBytes n x) = x % 256 ^ n := by
  induction n generalizing x with
  | zero => simp [leBytes, leNat, Nat.mod_one]
  | succ n ih =>
    have h := Nat.mod_mul (x := x) (a := 256) (b := 256 ^ n)
    rw [leBytes, leNat, ih, BitVec.toNat_ofNat, Nat.pow_succ' (n := n), h]

/-! ### Bytes after single writes -/

section
variable {m : List Cell}

theorem memGet_memCells_of_not_mem (hm : Memory.wf m) {cs : List Cell} {a : Nat} (h : a ∉ cs.map (·.1)) :
    memGet (memCells m cs) a = memGet m a := by
  unfold memCells
  induction cs generalizing m with
  | nil => rfl
  | cons c cs ih =>
    rw [List.map_cons, List.mem_cons, not_or] at h
    rw [List.foldl_cons, ih (memSet_wf hm _ _) h.2, memGet_after hm.1, if_neg h.1]

theorem memGet_memCells_of_mem (hm : Memory.wf m) {cs : List Cell} {a : Nat} {b : Byte} (hn : (cs.map (·.1)).Nodup)
    (h : (a, b) ∈ cs) : memGet (memCells m cs) a = b := by
  induction cs generalizing m with
  | nil => cases h
  | cons c cs ih =>
    rw [List.map_cons, List.nodup_cons] at hn
    have step : memCells m (c :: cs) = memCells (memSet m c.1 c.2) cs := rfl
    rw [step]
    rcases List.mem_cons.1 h with rfl | h
    · rw [memGet_memCells_of_not_mem (memSet_wf hm _ _) hn.1, memGet_after hm.1, if_pos rfl]
    · exact ih (memSet_wf hm _ _) hn.2 h

theorem map_fst_zip_of_length_eq {pas : List Nat} {bs : List Byte} (h : pas.length = bs.length) :
    (pas.zip bs).map (·.1) = pas := List.map_fst_zip (Nat.le_of_eq h)

/-- Bytes written at distinct addresses, one each: each reads as its byte, and every other address as before. -/
theorem memGet_memCells_zip (hm : Memory.wf m) {pas : List Nat} {bs : List Byte} (hn : pas.Nodup)
    (hl : pas.length = bs.length) {i a : Nat} (h : pas[i]? = some a) :
    some (memGet (memCells m (pas.zip bs)) a) = bs[i]? := by
  obtain ⟨hi, rfl⟩ := List.getElem?_eq_some_iff.1 h
  have hb : i < bs.length := hl ▸ hi
  rw [List.getElem?_eq_getElem hb]
  refine congrArg some (memGet_memCells_of_mem hm ?_ ?_)
  · rwa [map_fst_zip_of_length_eq hl]
  · exact List.mem_iff_getElem.2 ⟨i, by simp [hi, hb], by simp⟩

end

/-- The cells of a write of bytes from an address up. -/
def cellsFrom (pa : Nat) (bs : List Byte) : List Cell := (List.range bs.length).zip bs |>.map (fun x => (pa + x.1, x.2))

theorem hubWrite_eq (s : State) (pa : Nat) (bs : List Byte) : s.hubWrite pa bs = s.homeWrite (cellsFrom pa bs) := rfl

theorem fst_cellsFrom (pa : Nat) (bs : List Byte) : (cellsFrom pa bs).map (·.1) = (List.range bs.length).map (pa + ·) := by
  rw [cellsFrom, List.map_map]
  have : ((fun x : Cell => x.1) ∘ fun x : Nat × Byte => (pa + x.1, x.2)) = (pa + ·) ∘ Prod.fst := rfl
  rw [this, ← List.map_map, List.map_fst_zip (by simp)]

theorem nodup_cellsFrom (pa : Nat) (bs : List Byte) : ((cellsFrom pa bs).map (·.1)).Nodup := by
  rw [fst_cellsFrom]
  exact List.nodup_range.map (fun _ _ => Nat.add_left_cancel)

/-! ### Home memory after the device's own writes -/

@[simp] theorem hubWrite_work (s : State) (pa : Nat) (bs : List Byte) : (s.hubWrite pa bs).work = s.work := rfl

/-- A number reads alike in memories that agree on its bytes. -/
theorem peek_congr {s t : State} {a n : Nat} (h : ∀ i, i < n → memGet t.ms.mem (a + i) = memGet s.ms.mem (a + i)) :
    t.peek a n = s.peek a n := by
  rw [State.peek, State.peek, memRead, memRead]
  exact congrArg leNat (List.map_congr_left (fun i hi => h i (List.mem_range.1 hi)))

theorem peek_of_mem_eq {s t : State} (h : t.ms.mem = s.ms.mem) (a n : Nat) : t.peek a n = s.peek a n := by
  rw [State.peek, State.peek, h]

theorem peek_lt (s : State) (a n : Nat) : s.peek a n < 256 ^ n := by
  have := leNat_lt (memRead s.ms.mem a n)
  rwa [memRead, List.length_map, List.length_range] at this

/-- A number is its low bytes and its high ones. -/
theorem peek_add (s : State) (a n k : Nat) : s.peek a (n + k) = s.peek a n + 256 ^ n * s.peek (a + n) k := by
  rw [State.peek, State.peek, State.peek, memRead, List.range_add, List.map_append, leNat_append, List.length_map,
    List.length_range, memRead, memRead, List.map_map]
  simp only [Function.comp_def, Nat.add_assoc]

section
variable {s : State} (hs : Memory.wf s.ms.mem)
include hs

theorem memGet_hubWrite_of_out {pa a : Nat} {bs : List Byte} (h : a < pa ∨ pa + bs.length ≤ a) :
    memGet (s.hubWrite pa bs).ms.mem a = memGet s.ms.mem a := by
  rw [hubWrite_eq, homeWrite_mem, memGet_memCells_of_not_mem hs]
  rw [fst_cellsFrom]
  intro hm
  obtain ⟨i, hi, rfl⟩ := List.mem_map.1 hm
  have := List.mem_range.1 hi
  omega

theorem memGet_hubWrite_self {pa i : Nat} {bs : List Byte} (h : i < bs.length) :
    memGet (s.hubWrite pa bs).ms.mem (pa + i) = bs[i] := by
  rw [hubWrite_eq, homeWrite_mem]
  refine memGet_memCells_of_mem hs (nodup_cellsFrom pa bs) (List.mem_map.2 ⟨(i, bs[i]), ?_, rfl⟩)
  exact List.mem_iff_getElem.2 ⟨i, by simp [h], by simp⟩

theorem memRead_hubWrite (pa : Nat) (bs : List Byte) : memRead (s.hubWrite pa bs).ms.mem pa bs.length = bs := by
  refine List.ext_getElem (by simp [memRead]) (fun i hi hi' => ?_)
  simp only [memRead, List.getElem_map, List.getElem_range]
  exact memGet_hubWrite_self hs hi'

/-- A number that the device writes reads back, modulo its bytes. -/
theorem peek_hubWrite_self (pa n v : Nat) : (s.hubWrite pa (leBytes n v)).peek pa n = v % 256 ^ n := by
  have := memRead_hubWrite hs pa (leBytes n v)
  rw [leBytes_length] at this
  rw [State.peek, this, leNat_leBytes]

theorem peek_hubWrite_of_out {pa a n : Nat} {bs : List Byte} (h : a + n ≤ pa ∨ pa + bs.length ≤ a) :
    (s.hubWrite pa bs).peek a n = s.peek a n :=
  peek_congr (fun i hi => memGet_hubWrite_of_out hs (by omega))

end

/-! ### Courses that a write of memory may wake (R138) -/

/-- From s to t no consort changes but in what its courses wait for. -/
def HoldsOnly (s t : State) : Prop :=
  ∃ f : Course → Course, (∀ x, ∃ h, f x = { x with hold := h }) ∧
    t.consorts = s.consorts.map (fun q => { q with courses := q.courses.map f })

theorem HoldsOnly.of_consorts_eq {s t : State} (h : t.consorts = s.consorts) : HoldsOnly s t :=
  ⟨id, fun x => ⟨x.hold, rfl⟩, by simp [h]⟩

theorem HoldsOnly.trans {s t u : State} (h : HoldsOnly s t) (g : HoldsOnly t u) : HoldsOnly s u := by
  obtain ⟨f, hf, e⟩ := h
  obtain ⟨f', hf', e'⟩ := g
  refine ⟨f' ∘ f, fun x => ?_, by simp [e, e']⟩
  obtain ⟨h1, e1⟩ := hf x
  obtain ⟨h2, e2⟩ := hf' { x with hold := h1 }
  exact ⟨h2, by rw [Function.comp_apply, e1, e2]⟩

section
variable {s t : State}

theorem HoldsOnly.cons (h : HoldsOnly s t) (k : Nat) : ∃ xs, t.cons k = { s.cons k with courses := xs } := by
  obtain ⟨f, -, e⟩ := h
  cases hk : s.consorts.find? (·.id == k) with
  | none =>
    have : t.cons k = s.cons k := by
      rw [State.cons, e, find?_consorts_map, hk, State.cons, hk]
      rfl
    exact ⟨_, this⟩
  | some q => exact ⟨_, cons_of_consorts_map e (by rw [hk]; rfl)⟩

theorem HoldsOnly.crs (h : HoldsOnly s t) (k c : Nat) : ∃ w, t.crs k c = { s.crs k c with hold := w } := by
  obtain ⟨f, hf, e⟩ := h
  have hidx : ((·.idx == c) ∘ f) = (fun x : Course => x.idx == c) := funext (fun x => by
    obtain ⟨w, hx⟩ := hf x
    rw [Function.comp_apply, hx])
  cases hk : s.consorts.find? (·.id == k) with
  | none =>
    have : t.crs k c = s.crs k c := by
      rw [State.crs, State.cons, e, find?_consorts_map, hk, State.crs, State.cons, hk]
      rfl
    exact ⟨_, this⟩
  | some q =>
    have hc : t.crs k c = (((s.cons k).courses.find? (·.idx == c)).map f).getD Course.blank := by
      rw [State.crs, cons_of_consorts_map e (by rw [hk]; rfl), Consort.crs, List.find?_map, hidx]
    rw [hc, State.crs, Consort.crs]
    cases hx : (s.cons k).courses.find? (·.idx == c) with
    | none => exact ⟨Hold.none, rfl⟩
    | some x => exact hf x

theorem HoldsOnly.stands (h : HoldsOnly s t) (k c : Nat) : Stands t k c ↔ Stands s k c := by
  obtain ⟨f, hf, e⟩ := h
  have hidx : ((·.idx == c) ∘ f) = (fun x : Course => x.idx == c) := funext (fun x => by
    obtain ⟨w, hx⟩ := hf x
    rw [Function.comp_apply, hx])
  have hk : (t.consorts.find? (·.id == k)).isSome = (s.consorts.find? (·.id == k)).isSome := by
    rw [e, find?_consorts_map, Option.isSome_map]
  rw [Stands, Stands, hk]
  refine and_congr_right (fun hk => ?_)
  rw [cons_of_consorts_map e hk, List.find?_map, hidx, Option.isSome_map]

end

/-- R138. A course that waits for a join counter which now reads zero is woken. -/
def wokenBy (s : State) (x : Course) : Course :=
  match x.hold with
  | .jcwait pa v none iss =>
    if s.peek pa 4 = 0 then { x with hold := .jcwait pa v (some (BitVec.ofNat 32 (s.peek (pa + 4) 4))) iss } else x
  | _ => x

theorem wokenBy_frame (s : State) (x : Course) : ∃ h, wokenBy s x = { x with hold := h } := by
  rw [wokenBy]
  split
  · split
    · exact ⟨_, rfl⟩
    · exact ⟨x.hold, rfl⟩
  · exact ⟨x.hold, rfl⟩

theorem jcScan_consorts (s : State) :
    s.jcScan.consorts = s.consorts.map (fun q => { q with courses := q.courses.map (wokenBy s) }) := rfl

theorem holdsOnly_homeWrite (s : State) (cs : List Cell) : HoldsOnly s (s.homeWrite cs) :=
  ⟨_, wokenBy_frame _, jcScan_consorts _⟩

theorem holdsOnly_hubWrite (s : State) (pa : Nat) (bs : List Byte) : HoldsOnly s (s.hubWrite pa bs) := holdsOnly_homeWrite s _

end Sys2Proof.Proofs
end

section
/-!
PROOFS. Queue descriptors, rings and join counters as the device reads and writes them (R114, R116 to R118, R123, R127, R128, R138).
-/

namespace Sys2Proof.Proofs

open Sys2Proof Sys2Proof.Machine Sys2Proof.Statements

/-! ### Malformed descriptors (R117) -/

theorem pow2In_iff {x lo n : Nat} : pow2In x lo n = true ↔ ∃ i, lo ≤ i ∧ i < lo + n ∧ x = 2 ^ i := by
  rw [pow2In, List.any_eq_true]
  constructor
  · rintro ⟨i, hi, e⟩
    rw [List.mem_range] at hi
    exact ⟨lo + i, by omega, by omega, beq_iff_eq.1 e⟩
  · rintro ⟨i, hlo, hi, e⟩
    refine ⟨i - lo, List.mem_range.2 (by omega), ?_⟩
    rw [Nat.add_sub_cancel' hlo, beq_iff_eq, e]

theorem malformed_iff (d : QDesc) : d.malformed = true ↔ Malformed d := by
  have hsize : pow2In d.size 6 25 = false ↔ ∀ i : Nat, 6 ≤ i → i ≤ 30 → d.size ≠ 2 ^ i := by
    rw [← Bool.not_eq_true, pow2In_iff]
    push Not
    exact forall_congr' (fun i => imp_congr_right (fun _ => imp_congr_left Nat.lt_succ_iff))
  simp only [QDesc.malformed, Malformed, Bool.and_eq_true, Bool.or_eq_true, Bool.not_eq_true', hsize, bne_iff_ne,
    decide_eq_true_eq, and_assoc, or_assoc]

theorem malformed_eq_false_iff (d : QDesc) : d.malformed = false ↔ ¬ Malformed d := by
  rw [← malformed_iff, Bool.not_eq_true]

/-! ### Lengths -/

/-- R117. n bytes of a ring have n addresses. -/
theorem ringPas_length {s : State} {d : QDesc} {i n : Nat} {pas : List Nat} (h : s.ringPas d i n = .pas pas) :
    pas.length = n := by
  induction n generalizing pas with
  | zero =>
    cases h
    rfl
  | succ n ih =>
    rw [State.ringPas] at h
    cases e : s.ringPas d i n with
    | absent va => rw [e] at h; cases h
    | bad cause va => rw [e] at h; cases h
    | pas xs =>
      rw [e] at h
      dsimp only at h
      split at h
      · split at h
        · cases h
        · cases h
          rw [List.length_append, ih e, List.length_singleton]
      · cases h
      · cases h

theorem xlateRange_length {s : State} {aspace : BitVec 16} {chk rd wr : Bool} {va : DWord} {n : Nat} {xs : List (Nat × Bool)}
    (h : s.xlateRange aspace chk va rd wr n = .ok xs) : xs.length = n := by
  induction n generalizing xs with
  | zero =>
    cases h
    rfl
  | succ n ih =>
    rw [State.xlateRange] at h
    cases e : s.xlateRange aspace chk va rd wr n with
    | error x => rw [e] at h; cases h
    | ok ys =>
      rw [e] at h
      dsimp only at h
      split at h
      · cases h
        rw [List.length_append, ih e, List.length_singleton]
      · cases h

theorem fetchVa_length {s : State} {aspace : BitVec 16} {va : DWord} {n : Nat} {bs : List Byte} {pa : Nat}
    (h : s.fetchVa aspace va n = .bytes bs pa) : bs.length = n := by
  rw [State.fetchVa] at h
  split at h
  · cases h
  · cases h
  · rename_i pas e
    split at h
    · cases h
    · cases h
      rw [List.length_map, xlateRange_length e]

theorem length_flatMap_leBytes (ws : List Word) (n : Nat) :
    (ws.flatMap (fun w => leBytes n w.toNat)).length = n * ws.length := by
  induction ws with
  | nil => rfl
  | cons w ws ih => rw [List.flatMap_cons, List.length_append, leBytes_length, ih, List.length_cons, Nat.mul_succ, Nat.add_comm]

/-! ### What stays under the device's own writes -/

@[simp] theorem qdSet_work (s : State) (q off n v : Nat) : (s.qdSet q off n v).work = s.work := rfl
@[simp] theorem report_work (s : State) (r : FaultRecord) : (s.report r).work = s.work := rfl
@[simp] theorem report_ms (s : State) (r : FaultRecord) : (s.report r).ms = s.ms := rfl
@[simp] theorem report_consorts (s : State) (r : FaultRecord) : (s.report r).consorts = s.consorts := rfl

/-- A fault record that has been formed waits. -/
theorem mem_faults_report (s : State) (r : FaultRecord) : r ∈ (s.report r).hub.faults :=
  List.mem_append_right _ (List.mem_singleton.2 rfl)

@[simp] theorem launchBad_ms (s : State) (q c : Nat) (a : BitVec 16) (x : Nat) : (s.launchBad q c a x).ms = s.ms := rfl
@[simp] theorem decrementLater_ms (s : State) (a : BitVec 16) (x : DWord) (e : Bool) : (s.decrementLater a x e).ms = s.ms := rfl
@[simp] theorem modQrun_ms (s : State) (q : Nat) (f : QRun → QRun) : (s.modQrun q f).ms = s.ms := rfl
@[simp] theorem modQrun_consorts (s : State) (q : Nat) (f : QRun → QRun) : (s.modQrun q f).consorts = s.consorts := rfl

theorem holdsOnly_qdSet (s : State) (q off n v : Nat) : HoldsOnly s (s.qdSet q off n v) := holdsOnly_hubWrite s _ _

/-! ### Fields of a descriptor (R117) -/

theorem qdSet_wf {s : State} (hs : Memory.wf s.ms.mem) (q off n v : Nat) : Memory.wf (s.qdSet q off n v).ms.mem :=
  homeWrite_wf hs _

theorem peek_qdSet_self {s : State} (hs : Memory.wf s.ms.mem) (q off n v : Nat) :
    (s.qdSet q off n v).peek (s.qdPa q + off) n = v % 256 ^ n := peek_hubWrite_self hs _ n v

theorem peek_qdSet_of_out {s : State} (hs : Memory.wf s.ms.mem) {q off n v a k : Nat}
    (h : a + k ≤ s.qdPa q + off ∨ s.qdPa q + off + n ≤ a) : (s.qdSet q off n v).peek a k = s.peek a k :=
  peek_hubWrite_of_out hs (by rwa [leBytes_length])

/-! ### Halting (R117, R123) -/

/-- R430. Without host events enabled, an event is counted as lost, and nothing else changes. -/
theorem hostEvent_of_disabled {s : State} (h : s.hub.evEn = false) (kind detail : Nat) (addr : DWord) :
    ∃ n, s.hostEvent kind detail addr = s.modHub (fun h => { h with evLost := n }) := by
  rw [State.hostEvent]
  rw [h, Bool.not_false, Bool.true_or, Bool.true_or, if_pos rfl]
  exact ⟨_, rfl⟩

/-- R123. The descriptor of a halting queue as the device writes it. -/
def haltWrites (s : State) (q errCause : Nat) : State :=
  ((s.qdSet q 0x0D 1 ((s.qdesc q).flags ||| 2)).qdSet q 0x18 4 (s.qdesc q).rd).qdSet q 0x1C 4 errCause

@[simp] theorem haltWrites_work (s : State) (q ec : Nat) : (haltWrites s q ec).work = s.work := by
  rw [haltWrites, qdSet_work, qdSet_work, qdSet_work]

theorem holdsOnly_haltWrites (s : State) (q ec : Nat) : HoldsOnly s (haltWrites s q ec) :=
  ((holdsOnly_qdSet _ _ _ _ _).trans (holdsOnly_qdSet _ _ _ _ _)).trans (holdsOnly_qdSet _ _ _ _ _)

theorem peek_haltWrites_flags {s : State} (hs : Memory.wf s.ms.mem) (q ec : Nat) :
    (haltWrites s q ec).peek (s.qdPa q + 0x0D) 1 = (s.qdesc q).flags ||| 2 := by
  have hlt : (s.qdesc q).flags ||| 2 < 2 ^ 8 := Nat.or_lt_two_pow (peek_lt s _ 1) (by decide)
  have hout {off : Nat} (h : 0x0D + 1 ≤ off) : s.qdPa q + 0x0D + 1 ≤ s.qdPa q + off := by omega
  calc (haltWrites s q ec).peek (s.qdPa q + 0x0D) 1
    _ = _ := peek_qdSet_of_out (qdSet_wf (qdSet_wf hs _ _ _ _) _ _ _ _) (.inl (hout (by decide)))
    _ = _ := peek_qdSet_of_out (qdSet_wf hs _ _ _ _) (.inl (hout (by decide)))
    _ = ((s.qdesc q).flags ||| 2) % 2 ^ 8 := peek_qdSet_self hs q 0x0D 1 _
    _ = (s.qdesc q).flags ||| 2 := Nat.mod_eq_of_lt hlt

theorem peek_haltWrites_cause {s : State} (hs : Memory.wf s.ms.mem) (q ec : Nat) :
    (haltWrites s q ec).peek (s.qdPa q + 0x1C) 4 = ec % 2 ^ 32 :=
  peek_qdSet_self (qdSet_wf (qdSet_wf hs _ _ _ _) _ _ _ _) q 0x1C 4 ec

/-- A queue that halts where no host event is written: the descriptor, and the fault record. -/
theorem haltQueue_of_disabled {s : State} (h : s.hub.evEn = false) (q ec : Nat) :
    (s.haltQueue q ec).ms = (haltWrites s q ec).ms ∧ (s.haltQueue q ec).work = s.work ∧ HoldsOnly s (s.haltQueue q ec) ∧
      (s.haltQueue q ec).hub.qdtbase = s.hub.qdtbase ∧
      ∃ f ∈ (s.haltQueue q ec).hub.faults, f.kind = 4 ∧ f.cause = 0x15 ∧ f.addr = BitVec.ofNat 64 q := by
  obtain ⟨n, e⟩ := hostEvent_of_disabled (s := haltWrites s q ec) h 1 q 0
  have hq : s.haltQueue q ec = ((haltWrites s q ec).modHub (fun h => { h with evLost := n })).report
      { kind := 4, cause := 0x15, access := 0, course := 0xFF, aspace := (s.qdesc q).aspace, lanes := 0, cref := 0, ctx := 0
        addr := BitVec.ofNat 64 q } := by
    exact congrArg (State.report · _) e
  rw [hq]
  refine ⟨?_, ?_, (holdsOnly_haltWrites s q ec).trans (.of_consorts_eq ?_), rfl, _, mem_faults_report _ _, rfl, rfl, rfl⟩
  · rw [report_ms, State.modHub_ms]
  · rw [report_work, State.modHub_work, haltWrites_work]
  · rw [report_consorts, State.modHub_consorts]

/-- R117. FLAGS with bit 1 set read as HALTED. -/
theorem halted_of_flags {d : QDesc} {n : Nat} (h : d.flags = n ||| 2) : d.halted = true := by
  have h1 : (n ||| 2).testBit 1 = true := by
    rw [Nat.testBit_or, Bool.or_eq_true]
    exact .inr (by decide)
  rw [Nat.testBit_eq_decide_div_mod_eq] at h1
  rw [QDesc.halted, h, beq_iff_eq]
  simpa using h1

/-- R117. A queue that has just been halted reads as halted. -/
theorem halted_haltQueue {s : State} (hs : Memory.wf s.ms.mem) (hev : s.hub.evEn = false) (q ec : Nat) :
    ((s.haltQueue q ec).qdesc q).halted = true := by
  obtain ⟨hms, -, -, hbase, -⟩ := haltQueue_of_disabled hev q ec
  refine halted_of_flags (n := (s.qdesc q).flags) ?_
  have hpa : (s.haltQueue q ec).qdPa q = s.qdPa q := by rw [State.qdPa, hbase, State.qdPa]
  calc ((s.haltQueue q ec).qdesc q).flags
    _ = (s.haltQueue q ec).peek (s.qdPa q + 0x0D) 1 := by rw [← hpa]; rfl
    _ = (haltWrites s q ec).peek (s.qdPa q + 0x0D) 1 := peek_of_mem_eq (by rw [hms]) _ _
    _ = _ := peek_haltWrites_flags hs q ec

theorem testQueue_of_not_malformed {s : State} {q : Nat} (h : (s.qdesc q).malformed = false) : s.testQueue q = s := by
  rw [State.testQueue, h, Bool.false_and, if_neg Bool.false_ne_true]

theorem testQueue_of_halted {s : State} {q : Nat} (h : (s.qdesc q).halted = true) : s.testQueue q = s := by
  rw [State.testQueue, h, Bool.not_true, Bool.and_false, if_neg Bool.false_ne_true]

theorem testQueue_of_malformed {s : State} {q : Nat} (h : (s.qdesc q).malformed = true) (hh : (s.qdesc q).halted = false) :
    s.testQueue q = s.haltQueue q 0x15 := by
  rw [State.testQueue, h, hh, Bool.not_false, Bool.and_self, if_pos rfl]

/-! ### What the device keeps of a queue (R118) -/

theorem qrun_eq_find? {s : State} {q : Nat} {r : QRun} (h : s.work.qrun.find? (fun r => r.q == q) = some r) : s.qrun q = r := by
  rw [State.qrun, h, Option.getD_some]

theorem qrun_q (s : State) (q : Nat) : (s.qrun q).q = q := by
  rw [State.qrun]
  cases e : s.work.qrun.find? (fun r => r.q == q) with
  | none => rfl
  | some r => exact beq_iff_eq.1 (List.find?_some e :)

theorem qrun_modWork {s : State} {q : Nat} {f : WorkSt → WorkSt} (hf : ∀ w, (f w).qrun = w.qrun := by intro _; rfl) :
    (s.modWork f).qrun q = s.qrun q := by
  rw [State.qrun, State.modWork_work, hf, State.qrun]

theorem qrun_modQrun {s : State} {q : Nat} {f : QRun → QRun} (hf : ∀ r, (f r).q = r.q := by intro _; rfl) :
    (s.modQrun q f).qrun q = f (s.qrun q) := by
  refine qrun_eq_find? ?_
  have hnone : (s.work.qrun.filter (fun x => x.q != q)).find? (fun r => r.q == q) = none :=
    List.find?_eq_none.2 (fun x hx => by simpa using (List.mem_filter.1 hx).2)
  have hq : ((f (s.qrun q)).q == q) = true := by rw [hf, qrun_q, beq_self_eq_true]
  rw [State.modQrun, State.modWork_work, List.find?_append, hnone, Option.none_or]
  exact List.find?_cons_of_pos hq

/-! ### A record enters a ring (R126, R128, R133) -/

/-- R117. The bytes of a record at their addresses, and WRIDX past them. -/
def ringPut (s : State) (q : Nat) (pas : List Nat) (bs : List Byte) (wr : Nat) : State :=
  (s.homeWrite (pas.zip bs)).qdSet q 0x14 4 wr

section
variable {s : State} {q : Nat} {pas : List Nat} {bs : List Byte} {wr : Nat}

theorem holdsOnly_ringPut : HoldsOnly s (ringPut s q pas bs wr) := (holdsOnly_homeWrite _ _).trans (holdsOnly_qdSet _ _ _ _ _)

variable (hs : Memory.wf s.ms.mem)
include hs

theorem peek_ringPut : (ringPut s q pas bs wr).peek (s.qdPa q + 0x14) 4 = wr % 2 ^ 32 :=
  peek_qdSet_self (homeWrite_wf hs _) q 0x14 4 wr

theorem lands_ringPut (ha : Apart s pas q) (hl : pas.length = bs.length) :
    Lands s (ringPut s q pas bs wr) pas bs (s.qdPa q + 0x14) 4 := by
  obtain ⟨hn, hout⟩ := ha
  have hfield (a : Nat) (h : a < s.qdPa q + 0x14 ∨ s.qdPa q + 0x14 + 4 ≤ a) :
      memGet (ringPut s q pas bs wr).ms.mem a = memGet (memCells s.ms.mem (pas.zip bs)) a :=
    memGet_hubWrite_of_out (homeWrite_wf hs _) (by rwa [leBytes_length])
  constructor
  · intro i a h
    rw [hfield a (hout a (List.mem_of_getElem? h))]
    exact memGet_memCells_zip hs hn hl h
  · intro a h hout
    rw [hfield a hout]
    exact memGet_memCells_of_not_mem hs (by rwa [map_fst_zip_of_length_eq hl])

end

/-- What lands is a matter of home memory alone. -/
theorem lands_of_mem_eq {s t u : State} {pas : List Nat} {bs : List Byte} {b n : Nat} (h : u.ms.mem = t.ms.mem)
    (hl : Lands s t pas bs b n) : Lands s u pas bs b n := by
  rwa [Lands, h]

/-! ### Nodes and records (R114, R127, R137) -/

theorem nodeOk_of_takes {s : State} {bs : List Byte} {a : BitVec 16} (h : NodeTakes s bs a) :
    s.nodeOk (Node.ofBytes bs) a = true := by
  obtain ⟨hv, hr1, hr2, hm, hlo, hhi, hl1, hl2, hq, hmine, hen, hmal, hkind, hfit, hasp⟩ := h
  simp only [State.nodeOk, Node.ofBytes, Bool.and_eq_true, Bool.not_eq_true', malformed_eq_false_iff, beq_iff_eq, decide_eq_true_eq,
    Bool.or_eq_false_iff, bne_eq_false_iff_eq, and_assoc, hv, Nat.mod_eq_of_lt, Nat.reduceLT, Nat.reduceDiv, true_and]
  exact ⟨hr1, hr2, hm, hlo, hhi, hl1, hl2, hq, hmine, hen, hmal, hkind, hfit, hasp⟩

/-- A field of n bytes keeps its value in a word of 8n bits. -/
theorem toNat_ofNat_field (bs : List Byte) (o n : Nat) :
    (BitVec.ofNat (8 * n) (leNat ((bs.drop o).take n))).toNat = leNat ((bs.drop o).take n) := by
  have h := leNat_lt ((bs.drop o).take n)
  have hn : 256 ^ ((bs.drop o).take n).length ≤ 2 ^ (8 * n) := by
    rw [Nat.pow_mul]
    exact Nat.pow_le_pow_right (by decide) (by rw [List.length_take]; exact Nat.min_le_left _ _)
  rw [BitVec.toNat_ofNat, Nat.mod_eq_of_lt (Nat.lt_of_lt_of_le h hn)]

/-- R31. The fields of a kernel header word that passes. -/
theorem khwOk_iff (khw : BitVec 32) (courses : Nat) : khwOk khw courses = true ↔
    ((field khw.toNat 31 28 = 3 ∧ field khw.toNat 27 22 = 0 ∨
      field khw.toNat 31 28 = 2 ∧ field khw.toNat 21 21 = 1 ∧ field khw.toNat 27 22 ≤ 3) ∧
      1 ≤ field khw.toNat 19 13 ∧ field khw.toNat 19 13 ≤ 112 ∧ field khw.toNat 3 0 ≤ 8) ∧ field khw.toNat 7 4 < courses := by
  simp only [khwOk, Bool.and_eq_true, Bool.or_eq_true, beq_iff_eq, decide_eq_true_eq, and_assoc]

/-- R110, R111. The fields of a launch identity that passes. -/
theorem widOk_iff (rb : List Byte) (courses : Nat) (carry : Bool) :
    let f (a k : Nat) : Nat := leNat ((rb.drop a).take k)
    let w (i : Nat) : Nat := f (0x20 + i) 1
    let low := w 0 + w 1 + w 2
    let width := low + w 3 + w 4 + w 5
    (LRecord.ofBytes rb).widOk courses carry = true ↔
      w 0 = 5 ∧ w 1 ≤ 4 ∧ courses ≤ 2 ^ w 1 ∧ f 0x26 1 ≤ 2 ^ w 2 ∧ width ≤ 64 ∧ f 0x18 8 % 2 ^ low = 0 ∧
        (carry = true → f 0x18 8 + f 0x28 4 * 2 ^ low ≤ 2 ^ width) := by
  intro f w low width
  have hw : (LRecord.ofBytes rb).widw = [w 0, w 1, w 2, w 3, w 4, w 5] := rfl
  have hlow : (LRecord.ofBytes rb).low = low := by
    rw [LRecord.low, hw]
    simp [low]
  have hwidth : (LRecord.ofBytes rb).width = width := by
    rw [LRecord.width, hw]
    simp [width, low]
  have hbase : (LRecord.ofBytes rb).widbase.toNat = f 0x18 8 := toNat_ofNat_field rb 0x18 8
  have hcarry (P : Prop) [Decidable P] : (!carry || decide P) = true ↔ (carry = true → P) := by cases carry <;> simp
  simp only [LRecord.widOk, hw, hlow, hwidth, hbase, Bool.and_eq_true, beq_iff_eq, decide_eq_true_eq, hcarry, and_assoc]
  rfl

/-- R114. The model's test of a record is the one that R114 lists. -/
theorem recordOk_iff (rb hb : List Byte) (o : Origin) (n : Nat) : recordOk rb hb o n = true ↔ RecordGood rb hb o n := by
  have hkhw : (Header.ofBytes hb).khw.toNat = leNat ((hb.drop 0).take 4) := toNat_ofNat_field hb 0 4
  have hot : (Header.ofBytes hb).otaddr.toNat = leNat ((hb.drop 16).take 8) := toNat_ofNat_field hb 16 8
  have hor {a b : Bool} : (a || b) = true ↔ (a = false → b = true) := by cases a <;> simp
  have hcourses : (Header.ofBytes hb).courses = leNat ((hb.drop 24).take 1) := rfl
  have hscratch : (Header.ofBytes hb).scratch = leNat ((hb.drop 12).take 4) := rfl
  have hslots : (Header.ofBytes hb).accslots = leNat ((hb.drop 25).take 1) := rfl
  have hcpg : (LRecord.ofBytes rb).cpg = leNat ((rb.drop 0x26).take 1) := rfl
  have hgang : (LRecord.ofBytes rb).ngang = leNat ((rb.drop 0x28).take 4) := rfl
  simp only [recordOk, RecordGood, Bool.and_eq_true, khwOk_iff, widOk_iff, hkhw, hot, hcourses, hscratch, hslots, hcpg, hgang,
    beq_iff_eq, beq_eq_false_iff_ne, decide_eq_true_eq, bne_iff_ne, bne_eq_false_iff_eq, hor, and_assoc]
  -- Only the place of the test of COURSES differs.
  constructor
  · rintro ⟨hf, hv, hv', h2, h27, h38, h1a, h1b, h1c, hc1, hc16, hmajor, hv1, hv112, ht, htrap, rest⟩
    exact ⟨hf, hv, hv', h2, h27, h38, h1a, h1b, h1c, hmajor, hv1, hv112, ht, hc1, hc16, htrap, rest⟩
  · rintro ⟨hf, hv, hv', h2, h27, h38, h1a, h1b, h1c, hmajor, hv1, hv112, ht, hc1, hc16, htrap, rest⟩
    exact ⟨hf, hv, hv', h2, h27, h38, h1a, h1b, h1c, hc1, hc16, hmajor, hv1, hv112, ht, htrap, rest⟩

/-! ### Join counters (R116, R138) -/

/-- R138. ERR and UNDER, with the other upper bits, after a decrement. -/
def jcFlags (count flags amount : Nat) (err : Bool) : Nat :=
  let flags1 := if count < amount ∧ flags / 2 % 2 = 0 then flags + 2 else flags
  if err ∧ flags1 % 2 = 0 then flags1 + 1 else flags1

theorem jcAfter_eq (word amount : Nat) (err : Bool) :
    jcAfter word amount err = (word % 2 ^ 32 - amount) + 2 ^ 32 * jcFlags (word % 2 ^ 32) (word / 2 ^ 32) amount err := rfl

section
variable (count flags amount : Nat) (err : Bool)

theorem jcFlags_lt (h : flags < 2 ^ 32) : jcFlags count flags amount err < 2 ^ 32 := by
  rw [jcFlags]
  split_ifs <;> omega

theorem jcFlags_err : jcFlags count flags amount true % 2 = 1 := by
  simp only [jcFlags, true_and]
  split_ifs <;> omega

theorem jcFlags_noErr : jcFlags count flags amount false % 2 = flags % 2 := by
  simp only [jcFlags, Bool.false_eq_true, false_and, if_false]
  split_ifs <;> omega

theorem jcFlags_under (h : count < amount) : jcFlags count flags amount err / 2 % 2 = 1 := by
  simp only [jcFlags, h, true_and]
  split_ifs <;> omega

end

section
variable {s : State} (hs : Memory.wf s.ms.mem) (pa word : Nat)
include hs

theorem peek_jcPut_lo : (s.jcPut pa word).peek pa 4 = word % 2 ^ 32 := by
  have h : (s.jcPut pa word).peek pa 8 = word % 2 ^ 64 := peek_hubWrite_self hs pa 8 word
  have hlt : (s.jcPut pa word).peek pa 4 < 2 ^ 32 := peek_lt _ _ 4
  have hadd : (s.jcPut pa word).peek pa 8 = _ + 2 ^ 32 * _ := peek_add _ pa 4 4
  omega

theorem peek_jcPut_hi : (s.jcPut pa word).peek (pa + 4) 4 = word / 2 ^ 32 % 2 ^ 32 := by
  have h : (s.jcPut pa word).peek pa 8 = word % 2 ^ 64 := peek_hubWrite_self hs pa 8 word
  have hlt : (s.jcPut pa word).peek pa 4 < 2 ^ 32 := peek_lt _ _ 4
  have hadd : (s.jcPut pa word).peek pa 8 = _ + 2 ^ 32 * _ := peek_add _ pa 4 4
  omega

theorem memGet_jcPut_of_out {x : Nat} (h : x < pa ∨ pa + 8 ≤ x) :
    memGet (s.jcPut pa word).ms.mem x = memGet s.ms.mem x := memGet_hubWrite_of_out hs (by rwa [leBytes_length])

end

/-- R116, R138. A join counter after the device's decrement by one: COUNT, and its upper word. -/
theorem peek_decrement {s : State} (hs : Memory.wf s.ms.mem) (pa : Nat) (err : Bool) :
    let t := s.jcPut pa (jcAfter (s.peek pa 8) 1 err)
    t.peek pa 4 = s.peek pa 4 - 1 ∧ t.peek (pa + 4) 4 = jcFlags (s.peek pa 4) (s.peek (pa + 4) 4) 1 err := by
  have hlo : s.peek pa 4 < 2 ^ 32 := peek_lt _ _ 4
  have hhi : s.peek (pa + 4) 4 < 2 ^ 32 := peek_lt _ _ 4
  have hadd : s.peek pa 8 = s.peek pa 4 + 2 ^ 32 * s.peek (pa + 4) 4 := peek_add _ pa 4 4
  have hmod : s.peek pa 8 % 2 ^ 32 = s.peek pa 4 := by omega
  have hdiv : s.peek pa 8 / 2 ^ 32 = s.peek (pa + 4) 4 := by omega
  have hf := jcFlags_lt (s.peek pa 4) _ 1 err hhi
  intro t
  rw [peek_jcPut_lo hs, peek_jcPut_hi hs, jcAfter_eq, hmod, hdiv]
  constructor <;> omega

end Sys2Proof.Proofs
end

section
/-!
PROOFS. A course that a zero has woken completes its JCWAIT (R138, R195, R247, R414).
-/

namespace Sys2Proof.Proofs

open Sys2Proof Sys2Proof.Machine Sys2Proof.Statements

/-- A change of a course keeps what stands. -/
theorem modCrs_stands {s : State} {k c k' c' : Nat} {f : Course → Course} (h : Stands s k' c')
    (hf : ∀ x, (f x).idx = x.idx := by intro _; rfl) : Stands (s.modCrs k c f) k' c' := (stands_modCrs hf).2 h

/-! ### What a destination receives (R195, R247) -/

theorem toNat_lt_of_not_port {v : BitVec 7} (h : isPort v = false) : v.toNat < 112 := by
  rwa [isPort, decide_eq_false_iff_not, Nat.not_le] at h

theorem portOf_lt (v : BitVec 7) : portOf v < 16 := by
  have := v.isLt
  rw [portOf]
  omega

section
variable {c : Course} {n : Nat} {tag : BitVec 4} {set : BitVec 32} {f : Nat → Word}

theorem getV_putV_same (h : n < 112) :
    (c.putV n tag set f).getV n = { tag := tag, lanes := vof 32 (fun l => if bit set l then f l else (c.getV n).at l) } :=
  vget_vset_same _ _ _ h

theorem getV_putV_ne {m : Nat} (h : m ≠ n) : (c.putV n tag set f).getV m = c.getV m := vget_vset_ne _ _ _ (Ne.symm h)

end

/-- Only the registers, the ports and the channels of a course decide what it has received. -/
theorem Receives.congr {s t u : State} {k c : Nat} {v : BitVec 7} {tag : BitVec 4} {set : BitVec 32} {w : Nat → Word}
    (h : Receives s t k c v tag set w) (hv : (u.crs k c).v = (t.crs k c).v) (hp : (u.crs k c).ports = (t.crs k c).ports)
    (hch : (u.cons k).channels = (t.cons k).channels) : Receives s u k c v tag set w := by
  have hget (m : Nat) : (u.crs k c).getV m = (t.crs k c).getV m := by rw [Course.getV, hv, Course.getV]
  have hport (m : Nat) : (u.crs k c).port m = (t.crs k c).port m := by rw [Course.port, hp, Course.port]
  simpa only [Receives, hget, hport, hch] using h

/-- A change of a consort that keeps its courses keeps what stands. -/
theorem stands_modCons {s : State} {k k' c' : Nat} {f : Consort → Consort} (h : Stands s k' c')
    (hf : ∀ q, (f q).id = q.id := by intro _; rfl) (hc : ∀ q, (f q).courses = q.courses := by intro _; rfl) :
    Stands (s.modCons k f) k' c' := by
  refine ⟨by rw [find?_modCons_isSome hf]; exact h.1, ?_⟩
  by_cases hk : k = k'
  · subst hk
    rw [cons_modCons_same h.1 hf, hc]
    exact h.2
  · rw [cons_modCons_ne hk hf]
    exact h.2

section
variable {s : State} (hst : Stands s s.iss.k s.iss.c)
include hst

theorem stands_portPush (q : Nat) (es : List Elem) : Stands (s.portPush s.iss.k s.iss.c q es) s.iss.k s.iss.c := by
  rw [State.portPush]
  split
  · exact stands_modCons hst
  · exact modCrs_stands hst

theorem stands_writeDst (v : BitVec 7) (tag : BitVec 4) (f : Nat → Word) :
    Stands (s.writeDst v tag f) s.iss.k s.iss.c := by
  rw [State.writeDst]
  split
  · exact stands_portPush hst _ _
  · exact modCrs_stands hst

theorem receives_writeDst (v : BitVec 7) (tag : BitVec 4) (f : Nat → Word) :
    Receives s (s.writeDst v tag f) s.iss.k s.iss.c v tag s.iss.set f := by
  rw [State.writeDst]
  refine ⟨fun hv => ?_, fun hv => ?_⟩
  · have hn := toNat_lt_of_not_port hv
    rw [hv, if_neg Bool.false_ne_true, State.modMe, crs_modCrs_same hst, getV_putV_same hn]
    exact ⟨rfl, fun m hm => getV_putV_ne hm, fun l hl => vget_vof _ _ hl⟩
  · rw [if_pos hv, State.portPush]
    by_cases hk : ((s.crs s.iss.k s.iss.c).port (portOf v)).kind = 3
    · rw [if_pos hk]
      refine ⟨fun m => ?_, fun _ => ?_, fun h => absurd hk h⟩
      · rw [State.crs, cons_modCons_same hst.1]
        rfl
      · rw [cons_modCons_same hst.1]
        exact vget_vset_same _ _ _ (BitVec.isLt _)
    · rw [if_neg hk]
      refine ⟨fun m => ?_, fun h => absurd h hk, fun _ => ?_⟩
      · rw [crs_modCrs_same hst]
        rfl
      · rw [crs_modCrs_same hst, port_setPort_same (portOf_lt v)]

end

theorem lpcAt_setLpc (c : Course) (m : BitVec 32) (f : Nat → BitVec 32) {l : Nat} (h : l < 32) :
    (c.setLpc m f).lpcAt l = if bit m l then f l else c.lpcAt l := vget_vof _ _ h

theorem channels_modCrs {s : State} {k c k' : Nat} {f : Course → Course} (h : Stands s k c) :
    ((s.modCrs k c f).cons k').channels = (s.cons k').channels := by
  obtain ⟨xs, e⟩ := cons_modCrs_frame (f := f) (k' := k') h
  rw [e]

/-! ### Completing a JCWAIT (R138) -/

/-- R138, R379. A course past its JCWAIT: an acquire, in which it has waited. -/
def pastJcwait (iss : Issue) (clock : Nat) (v : BitVec 7) (x : Course) : Course :=
  { ({ (({ x with region := x.region + 1 } : Course).soil [16 + v.toNat]) with hold := .none, age := clock } : Course).setLpc iss.set
      (fun _ => refAdd iss.at_ iss.len) with stall := none }

theorem jcDone_eq (s : State) (v : BitVec 7) (w : Word) : s.jcDone v w =
    ((((s.writeDst v 5 (fun _ => w)).modCrs s.iss.k s.iss.c (fun x => { x with region := x.region + 1 })).modCrs s.iss.k s.iss.c
      (fun x => { (x.soil [16 + v.toNat]) with hold := .none, age := s.clock })).modCrs s.iss.k s.iss.c
      (·.setLpc s.iss.set (fun _ => refAdd s.iss.at_ s.iss.len))).modCrs s.iss.k s.iss.c (fun x => { x with stall := none }) := by
  have hiss : (s.writeDst v 5 (fun _ => w)).iss = s.iss := (writeDst_only s v 5 _).iss
  simp only [State.jcDone, State.done, State.advance, State.modMe, State.nextRegion, State.modCrs_iss, hiss]

theorem jcDone_ms (s : State) (v : BitVec 7) (w : Word) : (s.jcDone v w).ms = s.ms := by
  rw [jcDone_eq, State.modCrs_ms, State.modCrs_ms, State.modCrs_ms, State.modCrs_ms, (writeDst_only s v 5 _).ms]

section
variable {s : State} (hst : Stands s s.iss.k s.iss.c) (v : BitVec 7) (w : Word)
include hst

theorem crs_jcDone : (s.jcDone v w).crs s.iss.k s.iss.c =
    pastJcwait s.iss s.clock v ((s.writeDst v 5 (fun _ => w)).crs s.iss.k s.iss.c) := by
  have h := stands_writeDst hst v 5 (fun _ => w)
  rw [jcDone_eq, crs_modCrs_same (modCrs_stands (modCrs_stands (modCrs_stands h))),
    crs_modCrs_same (modCrs_stands (modCrs_stands h)), crs_modCrs_same (modCrs_stands h), crs_modCrs_same h]
  rfl

theorem channels_jcDone : ((s.jcDone v w).cons s.iss.k).channels = ((s.writeDst v 5 (fun _ => w)).cons s.iss.k).channels := by
  have h := stands_writeDst hst v 5 (fun _ => w)
  rw [jcDone_eq, channels_modCrs (modCrs_stands (modCrs_stands (modCrs_stands h))),
    channels_modCrs (modCrs_stands (modCrs_stands h)), channels_modCrs (modCrs_stands h), channels_modCrs h]

/-- A write of a destination leaves where the lanes of its course stand. -/
theorem writeDst_lpc_region : ((s.writeDst v 5 (fun _ => w)).crs s.iss.k s.iss.c).lpc = (s.crs s.iss.k s.iss.c).lpc ∧
    ((s.writeDst v 5 (fun _ => w)).crs s.iss.k s.iss.c).region = (s.crs s.iss.k s.iss.c).region := by
  rw [State.writeDst]
  split
  · rw [State.portPush]
    split
    · rw [State.crs, cons_modCons_same hst.1]
      exact ⟨rfl, rfl⟩
    · rw [crs_modCrs_same hst]
      exact ⟨rfl, rfl⟩
  · rw [State.modMe, crs_modCrs_same hst]
    exact ⟨rfl, rfl⟩

end

section
variable {s : State} {k c pa : Nat} {v : BitVec 7} {w : Word} {iss : Issue}
  (hh : (s.crs k c).hold = .jcwait pa v (some w) iss) (hk : iss.k = k) (hc : iss.c = c)
include hh hk hc

theorem stands_of_jcwait : Stands { s with iss := iss } iss.k iss.c := by
  rw [hk, hc]
  refine stands_of_crs_ne (s := { s with iss := iss }) (fun e => ?_)
  have : (s.crs k c).hold = Course.blank.hold := congrArg Course.hold e
  rw [hh] at this
  cases this

/-- R138. A resident course that a zero has woken completes. -/
theorem jcwaitWake_resident (hres : (s.cons k).place = .resident) (hl : s.linesReady k c = true)
    (hroom : isPort v = true → popcount iss.set ≤ s.portRoom k c (portOf v)) :
    ∃ t : State, exec (.jcwaitWake k c) s = .next t ∧ (t.crs k c).hold = .none ∧ Receives s t k c v 5 iss.set (fun _ => w) ∧
      (∀ l : Nat, l < 32 → (t.crs k c).lpcAt l = if bit iss.set l then refAdd iss.at_ iss.len else (s.crs k c).lpcAt l) ∧
      (t.crs k c).region = (s.crs k c).region + 1 ∧ t.ms.mem = s.ms.mem := by
  have hst := stands_of_jcwait hh hk hc
  have hgo : ((isPort v && decide (s.portRoom k c (portOf v) < popcount iss.set)) || !s.linesReady k c) = false := by
    rw [hl, Bool.not_true, Bool.or_false, Bool.and_eq_false_imp]
    exact fun hp => decide_eq_false (Nat.not_lt.2 (hroom hp))
  have hex : exec (.jcwaitWake k c) s = .next ({ s with iss := iss }.jcDone v w) := by
    rw [exec_jcwaitWake, execJcwaitWake, hh]
    simp only [hres, hgo, Bool.false_eq_true, if_false]
  have hcrs := crs_jcDone hst v w
  have hch := channels_jcDone hst v w
  have hrec := receives_writeDst hst v 5 (fun _ => w)
  obtain ⟨hlpc, hreg⟩ := writeDst_lpc_region hst v w
  subst hk hc
  refine ⟨_, hex, ?_, ?_, fun l hl => ?_, ?_, ?_⟩
  · rw [hcrs]
    rfl
  · exact Receives.congr hrec (by rw [hcrs]; rfl) (by rw [hcrs]; rfl) hch
  · rw [hcrs]
    refine (lpcAt_setLpc _ _ _ hl).trans ?_
    rw [Course.lpcAt, Course.lpcAt]
    exact congrArg (fun x => if bit iss.set l then refAdd iss.at_ iss.len else vget x 0 l) hlpc
  · rw [hcrs]
    exact congrArg (· + 1) hreg
  · rw [jcDone_ms]

/-- R414. A consort off the core re-enters first. -/
theorem jcwaitWake_saved {n : Nat} (hp : (s.cons k).place = .saved n) (hr : (s.cons k).readyAt = none) :
    ∃ t : State, exec (.jcwaitWake k c) s = .next t ∧ (t.cons k).readyAt = some s.clock := by
  have hst : Stands s k c := by
    have := stands_of_jcwait hh hk hc
    rw [hk, hc] at this
    exact this
  have hex : exec (.jcwaitWake k c) s = .next (s.modCons k (·.reenter s.clock)) := by
    rw [exec_jcwaitWake, execJcwaitWake, hh]
    simp only [hp, hr, Option.isSome_none, Bool.false_eq_true, if_false]
  refine ⟨_, hex, ?_⟩
  rw [cons_modCons_same hst.1, Consort.reenter, hr, Option.getD_none]

end

end Sys2Proof.Proofs
end

section
/-!
PROOFS. A pending launch enters its target, waits or is dropped (R126, R132, R151, R412).
-/

namespace Sys2Proof.Proofs

open Sys2Proof Sys2Proof.Machine Sys2Proof.Statements

/-- R126. A course's oldest pending launch is dropped: a fault record is formed, and its join counter is to lose one, with ERR. -/
structure Dropped (s t : State) (k c : Nat) (p : Pending) (ps : List Pending) : Prop where
  pending : (t.crs k c).pending = ps
  fault : ∃ r ∈ t.hub.faults, r.kind = 4 ∧ r.cause = 0x14 ∧ r.course = c ∧ r.addr = BitVec.ofNat 64 p.queue
  counter : (LRecord.ofBytes p.bytes).jc = true → ∃ y ∈ t.work.jcwork, y.addr = (LRecord.ofBytes p.bytes).jcaddr ∧
    y.aspace = (s.cons k).aspace ∧ y.err = true

section
variable {s s1 : State} {k c : Nat} {p : Pending} {ps : List Pending}

theorem dropPending_ms : (s1.dropPending k c p).ms = s1.ms := by
  rw [State.dropPending]
  split <;> rfl

/-- A launch is dropped in a state in which only what courses wait for has changed. -/
theorem dropped_dropPending (hst : Stands s k c) (hp : (s.crs k c).pending = p :: ps) (h : HoldsOnly s s1) :
    Dropped s (s1.dropPending k c p) k c p ps := by
  have hst1 : Stands s1 k c := (h.stands k c).2 hst
  obtain ⟨xs, hcons⟩ := h.cons k
  obtain ⟨w, hcrs⟩ := h.crs k c
  have hpend {t : State} (e : t.consorts = (s1.pendingGone k c).consorts) : (t.crs k c).pending = ps := by
    rw [crs_congr e, State.pendingGone, crs_modCrs_same hst1, hcrs, hp]
    rfl
  have hasp : (s1.cons k).aspace = (s.cons k).aspace := by rw [hcons]
  rw [State.dropPending]
  split
  · rename_i hjc
    exact ⟨hpend rfl, ⟨_, mem_faults_report _ _, rfl, rfl, rfl, rfl⟩,
      fun _ => ⟨_, List.mem_append_right _ (List.mem_singleton.2 rfl), rfl, hasp, rfl⟩⟩
  · rename_i hjc
    exact ⟨hpend rfl, ⟨_, mem_faults_report _ _, rfl, rfl, rfl, rfl⟩, fun h => absurd h hjc⟩

end

theorem mem_faults_dropPending {s : State} {k c : Nat} {p : Pending} {f : FaultRecord} (h : f ∈ s.hub.faults) :
    f ∈ (s.dropPending k c p).hub.faults := by
  rw [State.dropPending]
  split
  · exact List.mem_append_left _ h
  · exact List.mem_append_left _ h

/-! ### PENDING_LAUNCH_APPEND -/

/-- R126, R412. A pending launch whose ring storage is absent waits. -/
def appendParks (s : State) (k c : Nat) (p : Pending) (va : DWord) : State :=
  (s.modCrs k c (fun x =>
    { x with pending := x.pending.take 1 |>.map (fun p => { p with waiting := true }) |>.append (x.pending.drop 1) })).report
    { kind := 2, cause := 6, access := 1, course := c, aspace := (s.qdesc p.queue).aspace, lanes := 0, cref := 0
      ctx := (s.cons k).ctx, addr := va }

theorem pending_appendParks {s : State} {k c : Nat} {p : Pending} {ps : List Pending} (hst : Stands s k c)
    (hp : (s.crs k c).pending = p :: ps) (va : DWord) :
    ((appendParks s k c p va).crs k c).pending = { p with waiting := true } :: ps := by
  rw [appendParks, crs_congr (report_consorts _ _), crs_modCrs_same hst, hp]
  rfl

/-- R126, R132. A pending launch enters its target's ring: the region it closed is closed, and no copy of what it replaced is left. -/
def appendLands (s : State) (k c : Nat) (p : Pending) (pas : List Nat) : State :=
  (((ringPut s p.queue pas p.bytes ((s.qdesc p.queue).wr + 64)).pendingGone k c).closeAtPackage k c p.region p.but).seenBefore
    k c p.upTo p.but

theorem closeAtPackage_frame (s : State) (k c : Nat) (r : BitVec 32) (but : List Nat) :
    (s.closeAtPackage k c r but).ms.mem = s.ms.mem ∧ (s.closeAtPackage k c r but).consorts = s.consorts := by
  rw [State.closeAtPackage]
  split
  · exact ⟨rfl, rfl⟩
  · exact ⟨rfl, rfl⟩

theorem mem_appendLands (s : State) (k c : Nat) (p : Pending) (pas : List Nat) :
    (appendLands s k c p pas).ms.mem = (ringPut s p.queue pas p.bytes ((s.qdesc p.queue).wr + 64)).ms.mem :=
  (closeAtPackage_frame _ k c p.region p.but).1

theorem pending_appendLands {s : State} {k c : Nat} {p : Pending} {ps : List Pending} (hst : Stands s k c)
    (hp : (s.crs k c).pending = p :: ps) (pas : List Nat) : ((appendLands s k c p pas).crs k c).pending = ps := by
  have h : HoldsOnly s (ringPut s p.queue pas p.bytes ((s.qdesc p.queue).wr + 64)) := holdsOnly_ringPut
  obtain ⟨w, hcrs⟩ := h.crs k c
  have hcons : (appendLands s k c p pas).consorts =
      ((ringPut s p.queue pas p.bytes ((s.qdesc p.queue).wr + 64)).pendingGone k c).consorts :=
    (closeAtPackage_frame _ k c p.region p.but).2
  rw [crs_congr hcons, State.pendingGone, crs_modCrs_same ((h.stands k c).2 hst), hcrs, hp]
  rfl

/-- R132. No copy is left that a write before the launch replaced, but those of operations still on their way. -/
theorem stale_seenBefore {s : State} {k c upTo : Nat} {but : List Nat} {b : StaleByte}
    (hb : b ∈ (s.seenBefore k c upTo but).ms.stale) {w : Nat × Nat × Nat × Nat} (hw : w ∈ b.writers) (hk : w.2.1 = k)
    (hc : w.2.2.1 = c) (hlt : w.2.2.2 < upTo) : w.2.2.2 ∈ but := by
  have h := (List.mem_filter.1 hb).2
  rw [Bool.not_eq_true', List.any_eq_false] at h
  simpa [hk, hc, hlt] using h w hw

theorem stands_of_pending {s : State} {k c : Nat} {p : Pending} {ps : List Pending} (hp : (s.crs k c).pending = p :: ps) :
    Stands s k c := stands_of_crs_ne (fun e => by rw [e] at hp; cases hp)

section
variable {s : State} {k c : Nat} {p : Pending} {ps : List Pending} (hp : (s.crs k c).pending = p :: ps) (hw : p.waiting = false)
  (hb : s.storesBefore k c p.upTo = true)
include hp hw hb

theorem append_of_not_mine (hm : s.qdMine p.queue = false) :
    exec (.pendingLaunchAppend k c) s = .next (s.dropPending k c p) := by
  rw [exec_pendingLaunchAppend, execPendingLaunchAppend, hp]
  simp only [hw, hb, hm, Bool.not_true, Bool.not_false, Bool.or_self, Bool.false_eq_true, if_false, if_true]

/-- R126. A target that the first test leaves no running device queue takes nothing. -/
theorem append_of_bad (hm : s.qdMine p.queue = true)
    (hd : let d := (s.testQueue p.queue).qdesc p.queue
      d.enabled = false ∨ d.halted = true ∨ d.malformed = true ∨ d.kind ≠ 0) :
    exec (.pendingLaunchAppend k c) s = .next ((s.testQueue p.queue).dropPending k c p) := by
  have hbad : (!((s.testQueue p.queue).qdesc p.queue).enabled || ((s.testQueue p.queue).qdesc p.queue).halted ||
      ((s.testQueue p.queue).qdesc p.queue).malformed || decide (((s.testQueue p.queue).qdesc p.queue).kind ≠ 0)) = true := by
    simpa only [Bool.or_eq_true, Bool.not_eq_true', decide_eq_true_eq, or_assoc] using hd
  rw [exec_pendingLaunchAppend, execPendingLaunchAppend, hp]
  simp only [hw, hb, hm, hbad, Bool.not_true, Bool.or_self, Bool.false_eq_true, if_false, if_true]

section
variable (hm : s.qdMine p.queue = true) (hen : (s.qdesc p.queue).enabled = true) (hh : (s.qdesc p.queue).halted = false)
  (hmal : (s.qdesc p.queue).malformed = false) (hkind : (s.qdesc p.queue).kind = 0) (hroom : (s.qdesc p.queue).room 64 = true)
include hm hen hh hmal hkind hroom

theorem append_of_bad_storage {cause : Cause} {va : DWord}
    (hr : s.ringPas (s.qdesc p.queue) (s.qdesc p.queue).wr 64 = .bad cause va) :
    exec (.pendingLaunchAppend k c) s = .next (s.dropPending k c p) := by
  rw [exec_pendingLaunchAppend, execPendingLaunchAppend, hp]
  simp only [hw, hb, hm, testQueue_of_not_malformed hmal, hen, hh, hmal, hkind, hroom, hr, Bool.not_true, Bool.or_self,
    Bool.false_eq_true, if_false, ne_eq, not_true_eq_false, decide_false]

theorem append_of_absent_storage {va : DWord}
    (hr : s.ringPas (s.qdesc p.queue) (s.qdesc p.queue).wr 64 = .absent va) :
    exec (.pendingLaunchAppend k c) s = .next (appendParks s k c p va) := by
  rw [exec_pendingLaunchAppend, execPendingLaunchAppend, hp]
  simp only [hw, hb, hm, testQueue_of_not_malformed hmal, hen, hh, hmal, hkind, hroom, hr, Bool.not_true, Bool.or_self,
    Bool.false_eq_true, if_false, ne_eq, not_true_eq_false, decide_false]
  rfl

theorem append_of_storage {pas : List Nat} (hr : s.ringPas (s.qdesc p.queue) (s.qdesc p.queue).wr 64 = .pas pas) :
    exec (.pendingLaunchAppend k c) s = .next (appendLands s k c p pas) := by
  rw [exec_pendingLaunchAppend, execPendingLaunchAppend, hp]
  simp only [hw, hb, hm, testQueue_of_not_malformed hmal, hen, hh, hmal, hkind, hroom, hr, Bool.not_true, Bool.or_self,
    Bool.false_eq_true, if_false, ne_eq, not_true_eq_false, decide_false]
  rfl

/-- R126. The record lands in the ring. -/
theorem append_lands {pas : List Nat} (hr : s.ringPas (s.qdesc p.queue) (s.qdesc p.queue).wr 64 = .pas pas)
    (ha : Apart s pas p.queue) (hl : p.bytes.length = 64) (hs : Memory.wf s.ms.mem) :
    ∃ t : State, exec (.pendingLaunchAppend k c) s = .next t ∧ Lands s t pas p.bytes (s.qdPa p.queue + 0x14) 4 ∧
      t.peek (s.qdPa p.queue + 0x14) 4 = ((s.qdesc p.queue).wr + 64) % 2 ^ 32 ∧ (t.crs k c).pending = ps ∧
      ∀ b ∈ t.ms.stale, ∀ w ∈ b.writers, w.2.1 = k → w.2.2.1 = c → w.2.2.2 < p.upTo → w.2.2.2 ∈ p.but := by
  have hmem := mem_appendLands s k c p pas
  refine ⟨_, append_of_storage hp hw hb hm hen hh hmal hkind hroom hr, ?_, ?_, pending_appendLands (stands_of_pending hp) hp pas, ?_⟩
  · exact lands_of_mem_eq hmem (lands_ringPut hs ha ((ringPas_length hr).trans hl.symm))
  · exact (peek_of_mem_eq hmem _ _).trans (peek_ringPut hs)
  · exact fun b hb w hw hk hc hlt => stale_seenBefore hb hw hk hc hlt

/-- R126, R412. It waits where the ring's storage is absent. -/
theorem append_waits {va : DWord} (hr : s.ringPas (s.qdesc p.queue) (s.qdesc p.queue).wr 64 = .absent va) :
    ∃ t : State, exec (.pendingLaunchAppend k c) s = .next t ∧ (t.crs k c).pending = { p with waiting := true } :: ps ∧
      t.ms = s.ms ∧ ∃ r ∈ t.hub.faults, r.kind = 2 ∧ r.cause = 6 ∧ r.access = 1 ∧ r.course = c ∧ r.addr = va :=
  ⟨_, append_of_absent_storage hp hw hb hm hen hh hmal hkind hroom hr, pending_appendParks (stands_of_pending hp) hp va, rfl,
    _, mem_faults_report _ _, rfl, rfl, rfl, rfl, rfl⟩

end

/-! ### Halting a malformed target (R117) -/

theorem append_halts (hm : s.qdMine p.queue = true) (hmal : (s.qdesc p.queue).malformed = true)
    (hh : (s.qdesc p.queue).halted = false) (hev : s.hub.evEn = false) (hs : Memory.wf s.ms.mem) :
    ∃ t : State, exec (.pendingLaunchAppend k c) s = .next t ∧ Dropped s t k c p ps ∧
      t.peek (s.qdPa p.queue + 0x0D) 1 = (s.qdesc p.queue).flags ||| 2 ∧ t.peek (s.qdPa p.queue + 0x1C) 4 = 0x15 ∧
      ∃ f ∈ t.hub.faults, f.kind = 4 ∧ f.cause = 0x15 ∧ f.addr = BitVec.ofNat 64 p.queue := by
  obtain ⟨hms, -, hold, -, f, hf, hkind, hcause, haddr⟩ := haltQueue_of_disabled hev p.queue 0x15
  have htest := testQueue_of_malformed hmal hh
  have hex := append_of_bad hp hw hb hm (.inr (.inl (by rw [htest]; exact halted_haltQueue hs hev _ _)))
  rw [htest] at hex
  have hmem : ((s.haltQueue p.queue 0x15).dropPending k c p).ms.mem = (haltWrites s p.queue 0x15).ms.mem := by
    rw [dropPending_ms, hms]
  refine ⟨_, hex, dropped_dropPending (stands_of_pending hp) hp hold, ?_, ?_, f, mem_faults_dropPending hf, hkind, hcause, haddr⟩
  · rw [peek_of_mem_eq hmem, peek_haltWrites_flags hs]
  · rw [peek_of_mem_eq hmem]
    exact peek_haltWrites_cause hs _ _

end

/-- What Obligations.LaunchEventResults says of a dropped launch. -/
theorem exists_dropped {s t : State} {k c : Nat} {p : Pending} {ps : List Pending} {also : State → Prop}
    (hex : exec (.pendingLaunchAppend k c) s = .next t) (hd : Dropped s t k c p ps) (ha : also t) :
    ∃ t : State, exec (.pendingLaunchAppend k c) s = .next t ∧ (t.crs k c).pending = ps ∧ also t ∧
      (∃ r ∈ t.hub.faults, r.kind = 4 ∧ r.cause = 0x14 ∧ r.course = c ∧ r.addr = BitVec.ofNat 64 p.queue) ∧
      ((LRecord.ofBytes p.bytes).jc = true → ∃ y ∈ t.work.jcwork, y.addr = (LRecord.ofBytes p.bytes).jcaddr ∧
        y.aspace = (s.cons k).aspace ∧ y.err = true) :=
  ⟨t, hex, hd.pending, ha, hd.fault, hd.counter⟩

end Sys2Proof.Proofs
end

section
/-!
PROOFS. Graph records, batches, arrivals, handler records, join counters and head records (R112 to R118, R127, R128, R131, R133,
R138, R248).
-/

namespace Sys2Proof.Proofs

open Sys2Proof Sys2Proof.Machine Sys2Proof.Statements

/-! ### GRAPH_RECORD_ACCEPT (R128, R248) -/

/-- R248. The bytes of a KIND 5 port's first whole record. -/
def recordBytes (p : Port) (n : Node) : List Byte := (p.part.take (n.recsz / 4)).flatMap (fun w => leBytes 4 w.toNat)

theorem recordBytes_length {p : Port} {n : Node} (hm : n.recsz % 16 = 0) (hw : n.recsz ≤ 4 * p.part.length) :
    (recordBytes p n).length = n.recsz := by
  rw [recordBytes, length_flatMap_leBytes, List.length_take, Nat.min_eq_left (by omega)]
  omega

@[simp] theorem joinBatch_ms (s : State) (n : Node) (pa idx : Nat) : (s.joinBatch n pa idx).ms = s.ms := by
  rw [State.joinBatch, modQrun_ms]

@[simp] theorem joinBatch_consorts (s : State) (n : Node) (pa idx : Nat) : (s.joinBatch n pa idx).consorts = s.consorts := by
  rw [State.joinBatch, modQrun_consorts]

theorem acceptRecord_eq (s : State) (n : Node) (pa : Nat) (pas : List Nat) (bs : List Byte) : s.acceptRecord n pa pas bs =
    (ringPut s n.qid pas bs ((s.qdesc n.qid).wr + n.recsz)).joinBatch n pa (s.qdesc n.qid).wr := rfl

/-- R128. Entering a ring and joining a batch: the batch is the queue's own. -/
theorem acceptRecord_ms (s : State) (n : Node) (pa : Nat) (pas : List Nat) (bs : List Byte) :
    (s.acceptRecord n pa pas bs).ms = (ringPut s n.qid pas bs ((s.qdesc n.qid).wr + n.recsz)).ms := by
  rw [acceptRecord_eq, joinBatch_ms]

theorem holdsOnly_acceptRecord (s : State) (n : Node) (pa : Nat) (pas : List Nat) (bs : List Byte) :
    HoldsOnly s (s.acceptRecord n pa pas bs) := by
  rw [acceptRecord_eq]
  exact holdsOnly_ringPut.trans (.of_consorts_eq (joinBatch_consorts _ _ _ _))

theorem recsz_le_of_portWhole {s : State} {k c q pa : Nat} {bs : List Byte} (h : s.portWhole k c q = true)
    (hn : s.portNode k c q = .bytes bs pa) : (Node.ofBytes bs).recsz ≤ 4 * ((s.crs k c).port q).part.length := by
  rw [State.portWhole, hn] at h
  simp only [Bool.and_eq_true, decide_eq_true_eq] at h
  exact h.2.1

theorem graphRecordAccept_lands {s : State} {k c q pa : Nat} {bs : List Byte} {pas : List Nat} (hq : q < 16) (hst : Stands s k c)
    (hcore : (s.cons k).onCore = true) (hwhole : s.portWhole k c q = true) (hwait : ((s.crs k c).port q).waiting = false)
    (hnode : s.portNode k c q = .bytes bs pa) (htakes : NodeTakes s bs (s.cons k).aspace) (hdone : s.storesDone k c 3 = true)
    (hroom : (s.qdesc (Node.ofBytes bs).qid).room (Node.ofBytes bs).recsz = true)
    (hr : s.ringPas (s.qdesc (Node.ofBytes bs).qid) (s.qdesc (Node.ofBytes bs).qid).wr (Node.ofBytes bs).recsz = .pas pas)
    (ha : Apart s pas (Node.ofBytes bs).qid) (hs : Memory.wf s.ms.mem) :
    ∃ t : State, exec (.graphRecordAccept k c q) s = .next t ∧
      Lands s t pas (recordBytes ((s.crs k c).port q) (Node.ofBytes bs)) (s.qdPa (Node.ofBytes bs).qid + 0x14) 4 ∧
      t.peek (s.qdPa (Node.ofBytes bs).qid + 0x14) 4 = ((s.qdesc (Node.ofBytes bs).qid).wr + (Node.ofBytes bs).recsz) % 2 ^ 32 ∧
      ((t.crs k c).port q).part = ((s.crs k c).port q).part.drop ((Node.ofBytes bs).recsz / 4) := by
  have hmod : (Node.ofBytes bs).recsz % 16 = 0 := by
    obtain ⟨-, -, -, h, -⟩ := htakes
    exact h
  have hex : exec (.graphRecordAccept k c q) s = .next ((s.acceptRecord (Node.ofBytes bs) pa pas
      (recordBytes ((s.crs k c).port q) (Node.ofBytes bs))).modCrs k c (fun x => x.setPort q
        { (s.crs k c).port q with part := ((s.crs k c).port q).part.drop ((Node.ofBytes bs).recsz / 4) })) := by
    rw [exec_graphRecordAccept, execGraphRecordAccept]
    simp only [hcore, hwhole, hwait, hnode, nodeOk_of_takes htakes, hdone, hroom, hr, Bool.not_true, Bool.or_self,
      Bool.false_eq_true, if_false]
    rfl
  have hlen := recordBytes_length hmod (recsz_le_of_portWhole hwhole hnode)
  have hmem {f : Course → Course} {n : Node} {rb : List Byte} : ((s.acceptRecord n pa pas rb).modCrs k c f).ms.mem =
      (ringPut s n.qid pas rb ((s.qdesc n.qid).wr + n.recsz)).ms.mem := by rw [State.modCrs_ms, acceptRecord_ms]
  refine ⟨_, hex, ?_, ?_, ?_⟩
  · exact lands_of_mem_eq hmem (lands_ringPut hs ha ((ringPas_length hr).trans hlen.symm))
  · rw [peek_of_mem_eq hmem, peek_ringPut hs]
  · rw [crs_modCrs_same (((holdsOnly_acceptRecord s _ _ _ _).stands k c).2 hst), port_setPort_same hq]

/-! ### GRAPH_BATCH_TIMEOUT (R128) -/

theorem graphBatchTimeout_closes {s : State} {q : Nat} {b : Batch}
    (h : (s.qrun q).opened.find? (fun b => b.until_.any (fun t => decide (t ≤ s.clock))) = some b) :
    ∃ t : State, exec (.graphBatchTimeout q) s = .next t ∧ (t.qrun q).closed = (s.qrun q).closed ++ [b] ∧
      (∀ y ∈ (t.qrun q).opened, y.node ≠ b.node) ∧ t.ms = s.ms ∧ t.consorts = s.consorts := by
  have hex : exec (.graphBatchTimeout q) s = .next (s.modQrun q (fun r =>
      { r with opened := r.opened.filter (fun x => x.node != b.node), closed := r.closed ++ [b] })) := by
    rw [exec_graphBatchTimeout, execGraphBatchTimeout]
    simp only [h]
  refine ⟨_, hex, ?_, ?_, rfl, rfl⟩
  · rw [qrun_modQrun]
  · rw [qrun_modQrun]
    exact fun y hy => bne_iff_ne.1 (List.mem_filter.1 hy).2

/-! ### MAILBOX_ARRIVAL (R131, R248) -/

theorem forAll_induct {α β : Type} {f : α → β → α} {P : α → Prop} (hf : ∀ s x, P s → P (f s x)) (xs : List β) :
    ∀ s, P s → P (forAll xs s f) := by
  induction xs with
  | nil => exact fun _ h => h
  | cons x xs ih => exact fun s h => ih _ (hf s x h)

theorem partWrite_work (s : State) (pa : Nat) (bs : List Byte) : (s.partWrite pa bs).work = s.work := by
  rw [State.partWrite]
  split
  · rw [hubWrite_work]
  · rfl

/-- R248. The payload of an arrival reaches ports, and no mailbox. -/
theorem payload_work (s : State) (m : Nat) (ws : Option (List Elem)) : (s.payload m ws).work = s.work := by
  rw [State.payload]
  exact forAll_induct (P := fun t : State => t.work = s.work) (fun t x h => (partWrite_work _ _ _).trans h) _ _ rfl

theorem wakeIdle_work (s : State) : s.wakeIdle.work = s.work := by
  rw [State.wakeIdle]
  split <;> rfl

/-- R131, R248. The arrival is taken, and its payload delivered. -/
def arrivalTaken (s : State) (m : Nat) (rest : List Nat) (b : Mailbox) : State :=
  (s.modWork (fun w => { w with arrivals := rest })).wakeIdle.payload m (s.bellWords b)

theorem arrivalTaken_work (s : State) (m : Nat) (rest : List Nat) (b : Mailbox) :
    (arrivalTaken s m rest b).work = { s.work with arrivals := rest } := by
  rw [arrivalTaken, payload_work, wakeIdle_work, State.modWork_work]

/-- A change of a mailbox that keeps its number is the change of what its number finds. -/
theorem find?_modBox {s : State} {m : Nat} {b : Mailbox} {f : Mailbox → Mailbox}
    (hb : s.work.mailboxes.find? (fun b => b.num == m) = some b) (hf : ∀ b, (f b).num = b.num := by intro _; rfl) :
    (s.modBox m f).work.mailboxes.find? (fun b => b.num == m) = some (f b) := by
  rw [State.modBox, State.modWork_work]
  exact (find?_modFirst (fun x => by rw [hf]) _).trans (by rw [hb, Option.map_some])

section
variable {s : State} {m : Nat} {rest : List Nat} {b : Mailbox} (ha : s.work.arrivals = m :: rest)
  (hb : s.work.mailboxes.find? (fun b => b.num == m) = some b)
include ha hb

theorem arrival_counted (hr : b.running = true) : exec .mailboxArrival s =
    .next ((arrivalTaken s m rest b).modBox m (fun b => { b with count := min (2 ^ 32 - 1) (b.count + 1) })) := by
  rw [exec_mailboxArrival, execMailboxArrival, ha]
  simp only [hb, hr, if_true, arrivalTaken]

theorem arrival_starts (hr : b.running = false) : exec .mailboxArrival s =
    .next (((arrivalTaken s m rest b).modBox m (fun b => { b with running := true, count := 1 })).modWork (fun w =>
      { w with appends := w.appends ++
        [{ mbox := m, doorbell := b.doorbell, handler := b.handler, aspace := b.aspace, waiting := false }] })) := by
  rw [exec_mailboxArrival, execMailboxArrival, ha]
  simp only [hb, hr, Bool.false_eq_true, if_false, arrivalTaken]

/-- R131. The arrival starts the handler of an idle mailbox, or is counted. -/
theorem mailboxArrival_results : ∃ t : State, exec .mailboxArrival s = .next t ∧ t.work.arrivals = rest ∧
    (b.running = false → t.work.mailboxes.find? (fun b => b.num == m) = some { b with running := true, count := 1 } ∧
      t.work.appends = s.work.appends ++
        [{ mbox := m, doorbell := b.doorbell, handler := b.handler, aspace := b.aspace, waiting := false }]) ∧
    (b.running = true → t.work.mailboxes.find? (fun b => b.num == m) =
      some { b with count := min (2 ^ 32 - 1) (b.count + 1) } ∧ t.work.appends = s.work.appends) := by
  have hw := arrivalTaken_work s m rest b
  have hb' : (arrivalTaken s m rest b).work.mailboxes.find? (fun b => b.num == m) = some b := by rw [hw, hb]
  have hbox (f : Mailbox → Mailbox) : ((arrivalTaken s m rest b).modBox m f).work.arrivals = rest ∧
      ((arrivalTaken s m rest b).modBox m f).work.appends = s.work.appends := by
    rw [State.modBox, State.modWork_work, hw]
    exact ⟨rfl, rfl⟩
  by_cases hr : b.running = true
  · exact ⟨_, arrival_counted ha hb hr, (hbox _).1, fun h => absurd hr (by rw [h]; decide),
      fun _ => ⟨find?_modBox hb', (hbox _).2⟩⟩
  · rw [Bool.not_eq_true] at hr
    refine ⟨_, arrival_starts ha hb hr, ?_, fun _ => ⟨find?_modBox hb', ?_⟩, fun h => absurd hr (by rw [h]; decide)⟩
    · simp only [State.modWork_work, hbox]
    · simp only [State.modWork_work, hbox]

end

/-! ### HANDLER_APPEND (R133) -/

section
variable {s : State} {m pa : Nat} {a : Append} {bs : List Byte}
  (ha : s.work.appends.find? (fun a => a.mbox == m && !a.waiting) = some a) (hb : s.fetchVa a.aspace a.handler 64 = .bytes bs pa)
include ha hb

/-- R133. A handler record that names no queue: the append fails, and the mailbox is idle. -/
theorem handlerAppend_fails (hq : 4096 ≤ leNat ((bs.drop 0x2C).take 4)) :
    ∃ t : State, exec (.handlerAppend m) s = .next t ∧ (∀ x ∈ t.work.appends, x.mbox ≠ m) ∧
      ∃ r ∈ t.hub.faults, r.kind = 9 ∧ r.cause = 0x14 ∧ r.course = 0xFF ∧ r.addr = a.doorbell := by
  have hm : a.mbox = m := by
    have := List.find?_some ha
    rw [Bool.and_eq_true, beq_iff_eq] at this
    exact this.1
  have hex : exec (.handlerAppend m) s = .next (s.appendFails a) := by
    rw [exec_handlerAppend, execHandlerAppend]
    simp only [ha, hb, hq, true_or, if_true]
  refine ⟨_, hex, fun x hx => ?_, _, mem_faults_report _ _, rfl, rfl, rfl, rfl⟩
  rw [← hm]
  exact bne_iff_ne.1 (List.mem_filter.1 hx).2

/-- R133. The handler record lands in the ring of the queue that it names, and is known as a handler's. -/
theorem handlerAppend_lands {pas : List Nat} {q : Nat} (hq : leNat ((bs.drop 0x2C).take 4) = q) (hlt : q < 4096)
    (hmine : s.qdMine q = true) (hen : (s.qdesc q).enabled = true) (hmal : (s.qdesc q).malformed = false)
    (hkind : (s.qdesc q).kind = 0) (hasp : (s.qdesc q).aspace = a.aspace) (hroom : (s.qdesc q).room 64 = true)
    (hr : s.ringPas (s.qdesc q) (s.qdesc q).wr 64 = .pas pas) (hap : Apart s pas q) (hs : Memory.wf s.ms.mem) :
    ∃ t : State, exec (.handlerAppend m) s = .next t ∧ Lands s t pas bs (s.qdPa q + 0x14) 4 ∧
      t.peek (s.qdPa q + 0x14) 4 = ((s.qdesc q).wr + 64) % 2 ^ 32 ∧ (∀ x ∈ t.work.appends, x.mbox ≠ m) ∧
      { queue := q, idx := (s.qdesc q).wr, mbox := some m, doorbell := a.doorbell : Handler } ∈ t.work.handlers := by
  have hex : exec (.handlerAppend m) s = .next ((ringPut s q pas bs ((s.qdesc q).wr + 64)).modWork (fun w =>
      { w with
        appends := w.appends.filter (fun x => x.mbox != m)
        handlers := w.handlers ++ [{ queue := q, idx := (s.qdesc q).wr, mbox := some m, doorbell := a.doorbell }] })) := by
    rw [exec_handlerAppend, execHandlerAppend]
    simp only [ha, hb, hq, Nat.not_le.2 hlt, hmine, testQueue_of_not_malformed hmal, hen, hmal, hkind, hasp, hroom, hr, Bool.not_true,
      Bool.or_self, Bool.false_eq_true, or_self, if_false, ne_eq, not_true_eq_false, decide_false]
    rfl
  have hmem : ((ringPut s q pas bs ((s.qdesc q).wr + 64)).modWork (fun w =>
      { w with
        appends := w.appends.filter (fun x => x.mbox != m)
        handlers := w.handlers ++ [{ queue := q, idx := (s.qdesc q).wr, mbox := some m, doorbell := a.doorbell }] })).ms.mem =
      (ringPut s q pas bs ((s.qdesc q).wr + 64)).ms.mem := by rw [State.modWork_ms]
  refine ⟨_, hex, ?_, ?_, ?_, ?_⟩
  · exact lands_of_mem_eq hmem (lands_ringPut hs hap ((ringPas_length hr).trans (fetchVa_length hb).symm))
  · rw [peek_of_mem_eq hmem, peek_ringPut hs]
  · rw [State.modWork_work]
    exact fun x hx => bne_iff_ne.1 (List.mem_filter.1 hx).2
  · rw [State.modWork_work]
    exact List.mem_append_right _ (List.mem_singleton.2 rfl)

end

/-! ### JC_RETIRE_DECREMENT (R116, R138) -/

/-- R116. Decrement n is no longer to be made. -/
def counterTaken (s : State) (n : Nat) : State := s.modWork (fun w => { w with jcwork := w.jcwork.eraseIdx n })

section
variable {s : State} {n : Nat} {j : JcWork} (hj : s.work.jcwork[n]? = some j) (hw : j.waiting = false)
include hj hw

/-- R116. A decrement of a misaligned counter changes none. -/
theorem decrement_of_misaligned (ha : j.addr.toNat % 16 ≠ 0) :
    ∃ t : State, exec (.jcRetireDecrement n) s = .next t ∧ t.work.jcwork = s.work.jcwork.eraseIdx n ∧ t.ms.mem = s.ms.mem ∧
      ∃ r ∈ t.hub.faults, r.kind = 10 ∧ r.addr = j.addr := by
  have hex : exec (.jcRetireDecrement n) s = .next ((counterTaken s n).report
      { kind := 10, cause := 0, access := 2, course := 0xFF, aspace := j.aspace, lanes := 0, cref := 0, ctx := 0, addr := j.addr }) := by
    rw [exec_jcRetireDecrement, execJcRetireDecrement]
    simp only [hj, hw, ha, Bool.false_eq_true, if_false, ne_eq, not_false_eq_true, if_true, counterTaken]
  exact ⟨_, hex, rfl, rfl, _, mem_faults_report _ _, rfl, rfl⟩

/-- R116, R138. The decrement of a counter that can be reached. -/
theorem decrement_made {pa : Nat} {ch : Bool} (ha : j.addr.toNat % 16 = 0) (hx : s.xlate j.aspace false j.addr true true = .ok pa ch)
    (hp : s.poisoned pa = false) (hs : Memory.wf s.ms.mem) :
    ∃ t : State, exec (.jcRetireDecrement n) s = .next t ∧ t.work.jcwork = s.work.jcwork.eraseIdx n ∧
      t.peek pa 4 = s.peek pa 4 - 1 ∧ (j.err = true → t.peek (pa + 4) 4 % 2 = 1) ∧
      (j.err = false → t.peek (pa + 4) 4 % 2 = s.peek (pa + 4) 4 % 2) ∧
      (s.peek pa 4 = 0 → t.peek (pa + 4) 4 / 2 % 2 = 1) ∧
      ∀ x : Nat, x < pa ∨ pa + 8 ≤ x → memGet t.ms.mem x = memGet s.ms.mem x := by
  have hex : exec (.jcRetireDecrement n) s = .next ((counterTaken s n).jcPut pa (jcAfter (s.peek pa 8) 1 j.err)) := by
    rw [exec_jcRetireDecrement, execJcRetireDecrement]
    simp only [hj, hw, ha, hx, hp, Bool.false_eq_true, if_false, ne_eq, not_true_eq_false, counterTaken]
  have hpeek (a i : Nat) : (counterTaken s n).peek a i = s.peek a i := rfl
  have hnow := peek_decrement (s := counterTaken s n) hs pa j.err
  simp only [hpeek] at hnow
  obtain ⟨hlo, hhi⟩ := hnow
  refine ⟨_, hex, rfl, hlo, fun he => ?_, fun he => ?_, fun hz => ?_,
    fun x hx => memGet_jcPut_of_out (s := counterTaken s n) hs pa _ hx⟩
  · rw [hhi, he, jcFlags_err]
  · rw [hhi, he, jcFlags_noErr]
  · rw [hhi]
    exact jcFlags_under _ _ _ _ (hz ▸ Nat.one_pos)

end

end Sys2Proof.Proofs
end

section
/-!
PROOFS. The head record of a queue is checked, and refused or accepted (R112 to R115, R118, R123).
-/

namespace Sys2Proof.Proofs

open Sys2Proof Sys2Proof.Machine Sys2Proof.Statements

/-- R118, R131. Where the record at the head of queue q came from. -/
def headOrigin (s : State) (q : Nat) (r : HeadRecord) : Origin :=
  if r.batch.isSome then .batch
  else if s.work.handlers.any (fun h => h.queue == q && h.idx == (s.qdesc q).rd) then .handler
  else if (s.qdesc q).kind = 1 then .hostRing else .device

section
variable {s : State} {q pa : Nat} {r : HeadRecord} {hb : List Byte} (hcan : s.consumable q = true) (hen : (s.qdesc q).enabled = true)
  (hh : (s.qdesc q).halted = false) (hmal : (s.qdesc q).malformed = false) (hkind : (s.qdesc q).kind ≤ 2)
  (hno : s.headLaunch q = none) (hlook : s.lookHead q = .record r)
include hcan hen hh hmal hkind hno hlook

theorem consume_checks : exec (.launchRecordConsume q) s = .next (s.checkHead q r) := by
  rw [exec_launchRecordConsume, execLaunchRecordConsume]
  simp only [hcan, hen, hh, hmal, hno, hlook, Nat.not_lt.2 hkind, Bool.not_true, Option.isSome_none, decide_false, Bool.or_self,
    Bool.false_eq_true, if_false]

variable (hla : (lhAddr r.bytes).toNat % 64 = 0) (hf : s.fetchVa (s.qdesc q).aspace (lhAddr r.bytes) 64 = .bytes hb pa)
include hla hf

theorem consume_accepts (hgood : RecordGood r.bytes hb (headOrigin s q r) r.inline.length)
    (hfits : gangFits (Header.ofBytes hb) (LRecord.ofBytes r.bytes).cpg = true) :
    exec (.launchRecordConsume q) s = .next (s.acceptHead q r (Header.ofBytes hb)) := by
  rw [consume_checks hcan hen hh hmal hkind hno hlook, State.checkHead]
  rw [headOrigin, ← recordOk_iff] at hgood
  simp only [hla, hf, hgood, hfits, ne_eq, not_true_eq_false, if_false, Bool.and_self, if_true]

theorem consume_refuses (hbad : ¬ RecordGood r.bytes hb (headOrigin s q r) r.inline.length) :
    exec (.launchRecordConsume q) s = .next (s.refuseHead q r) := by
  rw [consume_checks hcan hen hh hmal hkind hno hlook, State.checkHead]
  rw [headOrigin, ← recordOk_iff, Bool.not_eq_true] at hbad
  simp only [hla, hf, hbad, ne_eq, not_true_eq_false, if_false, Bool.false_and, Bool.false_eq_true]

end

/-! ### Accepting (R115) -/

/-- R112, R115, R128. The launch that a head record becomes. -/
def acceptedLaunch (s : State) (q : Nat) (r : HeadRecord) (hdr : Header) : Launch :=
  let hand := s.work.handlers.find? (fun h => h.queue == q && h.idx == (s.qdesc q).rd)
  { id := s.nextId, queue := q, aspace := (s.qdesc q).aspace
    lr := match r.batch with
      | some b => (LRecord.ofBytes r.bytes).forBatch (s.peek (b.node + 0x18) 4)
      | none => LRecord.ofBytes r.bytes
    hdr := hdr, inline := r.inline, s0 := r.count, released := 0, live := 0, err := false, node := r.batch.map (·.node)
    mbox := hand.bind (·.mbox), bell := hand.map (·.doorbell), rd := (s.qdesc q).rd, length := r.length }

theorem acceptHead_eq (s : State) (q : Nat) (r : HeadRecord) (hdr : Header) : s.acceptHead q r hdr =
    (s.freshId.1.modQrun q (fun x => { x with head := some s.nextId, blocked := false })).modWork (fun w =>
      { w with
        launches := w.launches ++ [acceptedLaunch s q r hdr]
        handlers := w.handlers.filter (fun h => !(h.queue == q && h.idx == (s.qdesc q).rd)) }) := rfl

theorem acceptHead_results (s : State) (q : Nat) (r : HeadRecord) (hdr : Header) :
    (s.acceptHead q r hdr).work.launches = s.work.launches ++ [acceptedLaunch s q r hdr] ∧
      ((s.acceptHead q r hdr).qrun q).head = some s.nextId ∧ (s.acceptHead q r hdr).ms.mem = s.ms.mem ∧
      (s.acceptHead q r hdr).consorts = s.consorts := by
  rw [acceptHead_eq]
  refine ⟨rfl, ?_, rfl, rfl⟩
  rw [qrun_modWork, qrun_modQrun]

/-! ### Refusing (R114, R123) -/

/-- R114. The descriptor of a queue whose head record of n bytes is consumed and refused, as the device writes it. -/
def refuseWrites (s : State) (q n : Nat) : State :=
  ((s.qdSet q 0x10 4 ((s.qdesc q).rd + n)).qdSet q 0x18 4 (s.qdesc q).rd).qdSet q 0x1C 4 0x14

theorem peek_refuseWrites_rd {s : State} (hs : Memory.wf s.ms.mem) (q n : Nat) :
    (refuseWrites s q n).peek (s.qdPa q + 0x10) 4 = ((s.qdesc q).rd + n) % 2 ^ 32 := by
  have hout {off : Nat} (h : 0x10 + 4 ≤ off) : s.qdPa q + 0x10 + 4 ≤ s.qdPa q + off := by omega
  calc (refuseWrites s q n).peek (s.qdPa q + 0x10) 4
    _ = _ := peek_qdSet_of_out (qdSet_wf (qdSet_wf hs _ _ _ _) _ _ _ _) (.inl (hout (by decide)))
    _ = _ := peek_qdSet_of_out (qdSet_wf hs _ _ _ _) (.inl (hout (by decide)))
    _ = ((s.qdesc q).rd + n) % 2 ^ 32 := peek_qdSet_self hs q 0x10 4 _

theorem peek_refuseWrites_cause {s : State} (hs : Memory.wf s.ms.mem) (q n : Nat) :
    (refuseWrites s q n).peek (s.qdPa q + 0x1C) 4 = 0x14 := peek_qdSet_self (qdSet_wf (qdSet_wf hs _ _ _ _) _ _ _ _) q 0x1C 4 0x14

theorem refuseHead_ms (s : State) (q : Nat) (r : HeadRecord) : (s.refuseHead q r).ms = (refuseWrites s q r.length).ms := by
  rw [State.refuseHead]
  split
  · rw [decrementLater_ms, launchBad_ms, State.modWork_ms, modQrun_ms, refuseWrites]
  · rw [launchBad_ms, State.modWork_ms, modQrun_ms, refuseWrites]

theorem refuseHead_results (s : State) (q : Nat) (r : HeadRecord) :
    (s.refuseHead q r).work.launches = s.work.launches ∧
      (∃ f ∈ (s.refuseHead q r).hub.faults, f.kind = 4 ∧ f.cause = 0x14 ∧ f.addr = BitVec.ofNat 64 q) ∧
      ((LRecord.ofBytes r.bytes).jc = true →
        ∃ j ∈ (s.refuseHead q r).work.jcwork, j.addr = (LRecord.ofBytes r.bytes).jcaddr ∧ j.err = true) := by
  rw [State.refuseHead]
  split
  · exact ⟨rfl, ⟨_, mem_faults_report _ _, rfl, rfl, rfl⟩,
      fun _ => ⟨_, List.mem_append_right _ (List.mem_singleton.2 rfl), rfl, rfl⟩⟩
  · rename_i h
    exact ⟨rfl, ⟨_, mem_faults_report _ _, rfl, rfl, rfl⟩, fun hj => absurd hj h⟩

end Sys2Proof.Proofs
end

section
/-!
PROOFS. A gang is released whole (R115, R124, R131, R142, R144, R146, R150).
-/

namespace Sys2Proof.Proofs

open Sys2Proof Sys2Proof.Machine Sys2Proof.Statements

/-! ### Ranges (R144, R146) -/

theorem fitRanges_length {used : List (Nat × Nat)} {n m : Nat} {ps : List Nat} (h : fitRanges used n m = some ps) : ps.length = m := by
  induction m generalizing used ps with
  | zero =>
    cases h
    rfl
  | succ m ih =>
    rw [fitRanges] at h
    split at h
    · cases h
    · obtain ⟨qs, hqs, rfl⟩ := Option.map_eq_some_iff.1 h
      rw [List.length_cons, ih hqs]

theorem launchFit_length {s : State} {l : Launch} {ranges : List Nat} (h : s.launchFit l = .fits ranges) :
    ranges.length = l.lr.cpg := by
  rw [State.launchFit, State.fit] at h
  split at h
  · cases h
  · split at h
    · cases h
    · rename_i ps hps
      split at h
      · cases h
        exact fitRanges_length hps
      · cases h

/-! ### What goes on while a gang is placed -/

/-- A consort that differs at most in its tokens on overlays, what it needs, and what its courses wait for or have yet to take. -/
def MovedOn (g g' : Consort) : Prop :=
  ∃ rt nd f, (∀ x : Course, ∃ h fs, f x = { x with hold := h, fetchFault := fs }) ∧
    g' = { g with rtokens := rt, need := nd, courses := g.courses.map f }

theorem MovedOn.refl (g : Consort) : MovedOn g g :=
  ⟨g.rtokens, g.need, id, fun x => ⟨x.hold, x.fetchFault, rfl⟩, by rw [List.map_id]⟩

theorem MovedOn.trans {a b c : Consort} (h : MovedOn a b) (g : MovedOn b c) : MovedOn a c := by
  obtain ⟨rt, nd, f, hf, rfl⟩ := h
  obtain ⟨rt', nd', f', hf', rfl⟩ := g
  refine ⟨rt', nd', f' ∘ f, fun x => ?_, by rw [List.map_map]⟩
  obtain ⟨h1, fs1, e1⟩ := hf x
  obtain ⟨h2, fs2, e2⟩ := hf' { x with hold := h1, fetchFault := fs1 }
  exact ⟨h2, fs2, by rw [Function.comp_apply, e1, e2]⟩

/-- Every consort is still there, moved on at most, and the pool of context areas is as it was. -/
structure Onward (s t : State) : Prop where
  consorts : ∀ g ∈ s.consorts, ∃ g' ∈ t.consorts, MovedOn g g'
  pool : t.work.pool = s.work.pool

theorem Onward.refl (s : State) : Onward s s := ⟨fun g hg => ⟨g, hg, .refl g⟩, rfl⟩

theorem Onward.trans {s t u : State} (h : Onward s t) (k : Onward t u) : Onward s u := by
  refine ⟨fun g hg => ?_, k.pool.trans h.pool⟩
  obtain ⟨g1, hg1, m1⟩ := h.consorts g hg
  obtain ⟨g2, hg2, m2⟩ := k.consorts g1 hg1
  exact ⟨g2, hg2, m1.trans m2⟩

theorem Onward.of_consorts_eq {s t : State} (hc : t.consorts = s.consorts) (hp : t.work.pool = s.work.pool) : Onward s t :=
  ⟨fun g hg => ⟨g, by rwa [hc], .refl g⟩, hp⟩

theorem Onward.of_holdsOnly {s t : State} (h : HoldsOnly s t) (hp : t.work.pool = s.work.pool) : Onward s t := by
  obtain ⟨f, hf, e⟩ := h
  refine ⟨fun g hg => ⟨_, by rw [e]; exact List.mem_map_of_mem hg, g.rtokens, g.need, f, fun x => ?_, rfl⟩, hp⟩
  obtain ⟨w, hw⟩ := hf x
  exact ⟨w, x.fetchFault, hw⟩

theorem onward_forAll {α : Type} {f : State → α → State} (hf : ∀ s x, Onward s (f s x)) (xs : List α) (s : State) :
    Onward s (forAll xs s f) := forAll_induct (P := Onward s) (fun t x h => h.trans (hf t x)) xs s (.refl s)

theorem onward_partWrite (s : State) (pa : Nat) (bs : List Byte) : Onward s (s.partWrite pa bs) := by
  rw [State.partWrite]
  split
  · exact .of_holdsOnly (holdsOnly_hubWrite s pa bs) (by rw [hubWrite_work])
  · exact .refl s

theorem onward_qdSet (s : State) (q off n v : Nat) : Onward s (s.qdSet q off n v) :=
  .of_holdsOnly (holdsOnly_qdSet s q off n v) (by rw [qdSet_work])

theorem onward_modQrun (s : State) (q : Nat) (f : QRun → QRun) : Onward s (s.modQrun q f) := .of_consorts_eq (modQrun_consorts s q f) rfl

theorem onward_headReleased (s : State) (l : Launch) : Onward s (s.headReleased l) := by
  rw [State.headReleased]
  split
  · exact ((onward_qdSet _ _ _ _ _).trans (onward_modQrun _ _ _)).trans (onward_partWrite _ _ _)
  · exact (onward_qdSet _ _ _ _ _).trans (onward_modQrun _ _ _)

theorem onward_request (s : State) (h : Sharer) (e : OvEntry) (toks : List (Nat × Nat × Nat)) : Onward s (s.request h e toks).1 := by
  rw [State.request]
  split
  · exact .of_consorts_eq rfl rfl
  · split
    · exact .of_consorts_eq rfl rfl
    · obtain ⟨is, hi⟩ := createLoad_frame s h e toks
      rw [hi]
      exact .of_consorts_eq rfl rfl

theorem onward_loadFailed (s : State) (k : Nat) (ov : BitVec 16) (cause : Cause) (va : DWord) :
    Onward s (s.modCons k (fun q => q.loadFailed ov cause va)) := by
  refine ⟨fun g hg => ?_, by rw [State.modCons_work]⟩
  rw [State.modCons_consorts]
  rcases mem_modFirst_of_mem (p := (·.id == k)) (f := fun q => q.loadFailed ov cause va) hg with hm | hm
  · exact ⟨g, hm, .refl g⟩
  · obtain ⟨rt, nd, f, hf, e⟩ := loadFailed_frame g ov cause va
    refine ⟨_, hm, rt, nd, f, fun x => ?_, e⟩
    obtain ⟨fs, hx⟩ := hf x
    exact ⟨x.hold, fs, hx⟩

theorem onward_ensure (s : State) (k : Nat) (ov : BitVec 16) : Onward s (s.ensure k ov) := by
  rw [State.ensure]
  split
  · exact .refl s
  · split
    · exact onward_request _ _ _ _
    · exact onward_loadFailed _ _ _ _ _
    · exact .refl s

/-! ### A consort at its first start (R115, R147, R148) -/

/-- R115, R142, R144, R148. A consort as a gang's release has placed it. -/
structure StartedAs (l : Launch) (s0 num base ctx : Nat) (g : Consort) : Prop where
  launch : g.launch = l.id
  num : g.num = num
  gang : g.gang = l.released
  place : g.place = .resident
  aspace : g.aspace = l.aspace
  ctx : g.ctx = ctx
  spBase : g.spBase = base
  courses : g.courses.length = l.hdr.courses
  regs : ∀ x ∈ g.courses, x.lpc = Vector.replicate 32 l.lr.cref ∧ x.lane = Vector.replicate 32 .running ∧
    x.s = vset (vset Course.blank.s 0 (BitVec.ofNat 64 s0)) 1 l.lr.frame

section
variable {l : Launch} {s0 num base ctx : Nat} {g : Consort}

theorem startedAs_of_movedOn {g' : Consort} (h : StartedAs l s0 num base ctx g) (m : MovedOn g g') :
    StartedAs l s0 num base ctx g' := by
  obtain ⟨rt, nd, f, hf, rfl⟩ := m
  refine { h with courses := ?_, regs := fun y hy => ?_ }
  · rw [List.length_map]
    exact h.courses
  · obtain ⟨x, hx, rfl⟩ := List.mem_map.1 hy
    obtain ⟨w, fs, e⟩ := hf x
    rw [e]
    exact h.regs x hx

/-- R115, R148. The registers with which each course of the consort starts. -/
theorem StartedAs.lanes (h : StartedAs l s0 num base ctx g) {x : Course} (hx : x ∈ g.courses) :
    (∀ i : Nat, i < 32 → x.lpcAt i = l.lr.cref ∧ x.laneAt i = .running) ∧ vget x.s 0 1 = l.lr.frame ∧
      vget x.s 0 0 = BitVec.ofNat 64 s0 := by
  obtain ⟨hlpc, hlane, hs⟩ := h.regs x hx
  refine ⟨fun i hi => ⟨?_, ?_⟩, ?_, ?_⟩
  · rw [Course.lpcAt, hlpc, vget_replicate _ hi]
  · rw [Course.laneAt, hlane, vget_replicate _ hi]
  · rw [hs, vget_vset_same _ _ _ (by decide)]
  · rw [hs, vget_vset_ne _ _ _ (by decide), vget_vset_same _ _ _ (by decide)]

end

/-- R115, R124. The consort that a start puts on the core. -/
def newConsort (s : State) (l : Launch) (data : List Byte) (s0 num base ctx : Nat) : Consort :=
  { ({ l with s0 := s0 } : Launch).consort num with
    id := s.nextId, ctx := ctx, placedAt := s.clock, onSince := s.clock, spBase := base, scratch := memWrite [] 0 data }

theorem startedAs_newConsort (s : State) (l : Launch) (data : List Byte) (s0 num base ctx : Nat) :
    StartedAs l s0 num base ctx (newConsort s l data s0 num base ctx) := by
  have hc : (newConsort s l data s0 num base ctx).courses = (List.range l.hdr.courses).map (fun c =>
      { Course.blank with
        idx := c, lpc := Vector.replicate 32 l.lr.cref
        s := vset (vset Course.blank.s 0 (BitVec.ofNat 64 s0)) 1 l.lr.frame }) := rfl
  refine ⟨rfl, rfl, rfl, rfl, rfl, rfl, rfl, by rw [hc, List.length_map, List.length_range], fun x hx => ?_⟩
  rw [hc] at hx
  obtain ⟨c, -, rfl⟩ := List.mem_map.1 hx
  exact ⟨rfl, rfl, rfl⟩

/-- The consort is there, beside the others. -/
def withConsort (s : State) (g : Consort) : State := { s with nextId := s.nextId + 1, consorts := s.consorts ++ [g] }

theorem onward_withConsort (s : State) (g : Consort) : Onward s (withConsort s g) :=
  ⟨fun x hx => ⟨x, List.mem_append_left _ hx, .refl x⟩, rfl⟩

theorem startConsort_eq (s : State) (l : Launch) (data : List Byte) (s0 num base ctx : Nat) :
    (s.startConsort l data s0 num base ctx).1 =
      (forAll (newConsort s l data s0 num base ctx).courses (withConsort s (newConsort s l data s0 num base ctx))
        (fun s' c => forAll (newConsort s l data s0 num base ctx).allLines s' (fun s' r => s'.putLine s.nextId c.idx r))).partWrite
        (ctx + 0x99008) [0, 0, 0, 0] := rfl

theorem startConsort_after (s : State) (l : Launch) (data : List Byte) (s0 num base ctx : Nat) :
    Onward (withConsort s (newConsort s l data s0 num base ctx)) (s.startConsort l data s0 num base ctx).1 := by
  rw [startConsort_eq]
  refine Onward.trans (onward_forAll (fun s' c => ?_) _ _) (onward_partWrite _ _ _)
  exact onward_forAll (fun s' r => onward_partWrite _ _ _) _ _

theorem startConsort_places (s : State) (l : Launch) (data : List Byte) (s0 num base ctx : Nat) :
    ∃ g ∈ (s.startConsort l data s0 num base ctx).1.consorts, StartedAs l s0 num base ctx g := by
  obtain ⟨g, hg, m⟩ := (startConsort_after s l data s0 num base ctx).consorts _ (List.mem_append_right _ (List.mem_singleton.2 rfl))
  exact ⟨g, hg, startedAs_of_movedOn (startedAs_newConsort s l data s0 num base ctx) m⟩

/-- R115, R142. Every consort of a gang starts, each with its range and its area. -/
theorem startGang_places (l : Launch) (data : List Byte) (s0 : Nat) (xs : List (Nat × Nat × Nat)) (s : State) :
    Onward s (s.startGang l data s0 xs).1 ∧
      ∀ x ∈ xs, ∃ g ∈ (s.startGang l data s0 xs).1.consorts, StartedAs l s0 x.1 x.2.1 x.2.2 g := by
  induction xs generalizing s with
  | nil => exact ⟨.refl s, fun x hx => absurd hx List.not_mem_nil⟩
  | cons y ys ih =>
    obtain ⟨num, base, ctx⟩ := y
    have hstep : (s.startGang l data s0 ((num, base, ctx) :: ys)).1 =
        ((s.startConsort l data s0 num base ctx).1.startGang l data s0 ys).1 := rfl
    obtain ⟨hon, hall⟩ := ih (s.startConsort l data s0 num base ctx).1
    rw [hstep]
    refine ⟨((onward_withConsort s _).trans (startConsort_after s l data s0 num base ctx)).trans hon, fun x hx => ?_⟩
    rcases List.mem_cons.1 hx with rfl | hx
    · obtain ⟨g, hg, hst⟩ := startConsort_places s l data s0 num base ctx
      obtain ⟨g', hg', m⟩ := hon.consorts g hg
      exact ⟨g', hg', startedAs_of_movedOn hst m⟩
    · exact hall x hx

/-! ### GANG_RELEASE (R142, R150) -/

/-- R131. The number that a gang's first register takes: a mailbox's count, or the record's own. -/
def gangCount (s : State) (l : Launch) : Nat :=
  match l.mbox.bind (fun m => s.work.mailboxes.find? (fun b => b.num == m)) with
  | some b => b.count
  | none => l.s0

theorem gangCount_of_no_mailbox {s : State} {l : Launch} (h : l.mbox = none) : gangCount s l = l.s0 := by
  rw [gangCount, h]
  rfl

/-- R142, R150. The gang's areas have left the pool, and its launch and queue know of it. -/
def gangTaken (s : State) (l : Launch) : State :=
  (s.takeTenant l.aspace).modWork (fun w =>
    { w with
      pool := w.pool.filter (fun a => !(s.freeAreas.take l.lr.cpg).contains a)
      launches := modFirst (fun x => x.id == l.id) (fun x => { x with released := x.released + 1, live := x.live + l.lr.cpg }) w.launches
      mailboxes := w.mailboxes.map (fun b => if l.mbox = some b.num then { b with count := 0 } else b)
      lastServed := w.lastServed.filter (fun x => x.1 != l.hdr.prio) ++ [(l.hdr.prio, l.queue)] })

theorem takeTenant_work (s : State) (t : BitVec 16) : (s.takeTenant t).work = s.work := by
  rw [State.takeTenant]
  split
  · rfl
  · split <;> rfl

theorem gangTaken_pool (s : State) (l : Launch) :
    (gangTaken s l).work.pool = s.work.pool.filter (fun a => !(s.freeAreas.take l.lr.cpg).contains a) := by
  rw [gangTaken, State.modWork_work, takeTenant_work]

/-- Each consort of the gang with its range and its area. -/
def gangPlaces (s : State) (l : Launch) (ranges : List Nat) : List (Nat × Nat × Nat) :=
  (List.range l.lr.cpg).zip (ranges.zip (s.freeAreas.take l.lr.cpg))

theorem mem_gangPlaces {s : State} {l : Launch} {ranges : List Nat} {n base ctx : Nat} (hn : n < l.lr.cpg)
    (hb : ranges[n]? = some base) (hc : (s.freeAreas.take l.lr.cpg)[n]? = some ctx) : (n, base, ctx) ∈ gangPlaces s l ranges := by
  refine List.mem_of_getElem? (i := n) ?_
  rw [gangPlaces, List.getElem?_zip_eq_some]
  refine ⟨by rw [List.getElem?_range hn], ?_⟩
  rw [List.getElem?_zip_eq_some]
  exact ⟨hb, hc⟩

/-- R115, R142. The gang's consorts have started. -/
def gangStarted (s : State) (l : Launch) (ranges : List Nat) (snap : List Byte) : State × List Nat :=
  (gangTaken s l).startGang l (if l.bell.isSome then snap else l.inline) (gangCount s l) (gangPlaces s l ranges)

/-- R142, R167. What they need has been asked for, and the queue is no longer blocked. -/
def gangAsked (s : State) (l : Launch) (ranges : List Nat) (snap : List Byte) : State :=
  (forAll (gangStarted s l ranges snap).2 (gangStarted s l ranges snap).1 (fun s k =>
    forAll (s.cons k).need s (fun s ov => s.ensure k ov))).modQrun l.queue (fun r => { r with blocked := false })

theorem releaseGang_eq (s : State) (l : Launch) (ranges : List Nat) (snap : List Byte) : s.releaseGang l ranges snap =
    if l.lr.ngang ≤ l.released + 1 then (gangAsked s l ranges snap).headReleased l else gangAsked s l ranges snap := rfl

/-- What follows the starts of a gang leaves its consorts where they stand. -/
theorem releaseGang_after (s : State) (l : Launch) (ranges : List Nat) (snap : List Byte) :
    Onward (gangStarted s l ranges snap).1 (s.releaseGang l ranges snap) := by
  have hasked : Onward (gangStarted s l ranges snap).1 (gangAsked s l ranges snap) :=
    (onward_forAll (fun u k => onward_forAll (fun u ov => onward_ensure u k ov) _ _) _ _).trans (onward_modQrun _ _ _)
  rw [releaseGang_eq]
  split
  · exact hasked.trans (onward_headReleased _ _)
  · exact hasked

theorem gangRelease_places {s : State} {q : Nat} {l : Launch} {ranges : List Nat} {snap : List Byte} (hd : s.distributing = true)
    (ho : s.offer q = some l) (hf : s.launchFit l = .fits ranges) (ha : l.lr.cpg ≤ s.freeAreas.length)
    (hn : s.servedNext q l = true) (hs : s.snapshot l = .ok snap) :
    exec (.gangRelease q) s = .next (s.releaseGang l ranges snap) ∧
      (s.releaseGang l ranges snap).work.pool = s.work.pool.filter (fun a => !(s.freeAreas.take l.lr.cpg).contains a) ∧
      ∀ n : Nat, n < l.lr.cpg → ∃ g ∈ (s.releaseGang l ranges snap).consorts, ∃ base ctx, ranges[n]? = some base ∧
        (s.freeAreas.take l.lr.cpg)[n]? = some ctx ∧ StartedAs l (gangCount s l) n base ctx g := by
  obtain ⟨hon, hall⟩ : Onward (gangTaken s l) (gangStarted s l ranges snap).1 ∧ _ := startGang_places l _ _ _ _
  have hafter := releaseGang_after s l ranges snap
  refine ⟨?_, by rw [hafter.pool, hon.pool, gangTaken_pool], fun n hlt => ?_⟩
  · rw [exec_gangRelease, execGangRelease]
    simp only [hd, ho, hf, Nat.not_lt.2 ha, hn, hs, Bool.not_true, Bool.false_eq_true, if_false]
  · have hr : n < ranges.length := by rwa [launchFit_length hf]
    have hc : n < (s.freeAreas.take l.lr.cpg).length := by
      rw [List.length_take]
      omega
    obtain ⟨g, hg, hst⟩ := hall _ (mem_gangPlaces hlt (List.getElem?_eq_getElem hr) (List.getElem?_eq_getElem hc))
    obtain ⟨g', hg', m⟩ := hafter.consorts g hg
    exact ⟨g', hg', _, _, List.getElem?_eq_getElem hr, List.getElem?_eq_getElem hc, startedAs_of_movedOn hst m⟩

end Sys2Proof.Proofs
end

section
/-!
PROOFS. What the device does with queues, gangs, mailboxes and join counters: the obligation, from the events' lemmas.
-/

namespace Sys2Proof.Proofs

open Sys2Proof Sys2Proof.Machine Sys2Proof.Statements

/-- Settles O53, event by event: each event's successor is named by an equation for `exec`, and what memory, the courses and the queues
read there follows from what a write at home can change. -/
theorem launchEventResults : Obligations.LaunchEventResults := by
  intro s
  refine ⟨?jcwait, ?pending, ?graph, ?timeout, ?arrival, ?handler, ?counter, ?head, ?gang⟩
  case jcwait =>
    intro k c pa v w iss hh hk hc
    exact ⟨jcwaitWake_resident hh hk hc, fun n => jcwaitWake_saved hh hk hc⟩
  case pending =>
    intro k c p ps hp hw hb d Drops
    have hst := stands_of_pending hp
    have hsame : HoldsOnly s s := .of_consorts_eq rfl
    have hdrop := dropped_dropPending hst hp hsame
    have hmem : (s.dropPending k c p).ms.mem = s.ms.mem := by rw [dropPending_ms]
    refine ⟨fun pas hm hen hh hmal hkind hroom hr ha hl hs => append_lands hp hw hb hm hen hh hmal hkind hroom hr ha hl hs,
      fun hm hen hh hmal hkind hroom => ⟨fun va hr => append_waits hp hw hb hm hen hh hmal hkind hroom hr, fun cause va hr => ?_⟩,
      ?_, fun hm hmal hs => ⟨fun hh => ?_, fun hh hev => ?_⟩⟩
    · exact exists_dropped (append_of_bad_storage hp hw hb hm hen hh hmal hkind hroom hr) hdrop hmem
    · rintro (hm | ⟨hmal, hbad⟩)
      · exact exists_dropped (append_of_not_mine hp hw hb hm) hdrop hmem
      · by_cases hm : s.qdMine p.queue = true
        · have htest := testQueue_of_not_malformed ((malformed_eq_false_iff _).2 hmal)
          have hex := append_of_bad hp hw hb hm (by
            rw [htest]
            exact hbad.imp_right (Or.imp_right .inr))
          rw [htest] at hex
          exact exists_dropped hex hdrop hmem
        · exact exists_dropped (append_of_not_mine hp hw hb (Bool.eq_false_iff.2 hm)) hdrop hmem
    · have htest := testQueue_of_halted hh
      have hex := append_of_bad hp hw hb hm (.inr (.inl (by rw [htest]; exact hh)))
      rw [htest] at hex
      exact exists_dropped hex hdrop hmem
    · obtain ⟨t, hex, hd, hflags, hcause, hf⟩ := append_halts hp hw hb hm ((malformed_iff _).2 hmal) hh hev hs
      exact exists_dropped hex hd ⟨hflags, hcause, hf⟩
  case graph =>
    intro k c q bs pa pas hq hst hcore hwhole p hwait hnode n d htakes hdone hroom hr ha hs
    exact graphRecordAccept_lands hq hst hcore hwhole hwait hnode htakes hdone hroom hr ha hs
  case timeout => exact fun q b h => graphBatchTimeout_closes h
  case arrival => exact fun m rest b ha hb => mailboxArrival_results ha hb
  case handler =>
    intro m a bs pa pas ha hb q d
    exact ⟨handlerAppend_fails ha hb, fun hlt hmine hen hmal hkind hasp hroom hr hap hs =>
      handlerAppend_lands ha hb rfl hlt hmine hen hmal hkind hasp hroom hr hap hs⟩
  case counter =>
    exact fun n j hj hw => ⟨decrement_of_misaligned hj hw, fun pa ch ha hx hp hs => decrement_made hj hw ha hx hp hs⟩
  case head =>
    intro q r hb pa o d hcan hen hh hmal hkind hno hlook hla hf ho
    have ho' : o = headOrigin s q r := ho
    subst ho'
    refine ⟨fun hgood hfits => ?_, fun hbad hs => ?_⟩
    · obtain ⟨hl, hrun, hmem, hcons⟩ := acceptHead_results s q r (Header.ofBytes hb)
      refine ⟨_, acceptedLaunch s q r (Header.ofBytes hb), consume_accepts hcan hen hh hmal hkind hno hlook hla hf hgood hfits, hl, hrun,
        rfl, rfl, rfl, rfl, rfl, rfl, fun hnone => ?_, hmem, hcons⟩
      rw [acceptedLaunch, hnone]
    · obtain ⟨hl, hfault, hjc⟩ := refuseHead_results s q r
      have hmem : (s.refuseHead q r).ms.mem = (refuseWrites s q r.length).ms.mem := by rw [refuseHead_ms]
      refine ⟨_, consume_refuses hcan hen hh hmal hkind hno hlook hla hf hbad, hl, ?_, ?_, hfault, hjc⟩
      · rw [peek_of_mem_eq hmem, peek_refuseWrites_rd hs]
      · rw [peek_of_mem_eq hmem, peek_refuseWrites_cause hs]
  case gang =>
    intro q l ranges snap hd ho hf ha hn hs areas
    obtain ⟨hex, hpool, hall⟩ := gangRelease_places hd ho hf ha hn hs
    refine ⟨_, hex, hpool, fun n hlt => ?_⟩
    obtain ⟨g, hg, base, ctx, hb, hc, hst⟩ := hall n hlt
    refine ⟨g, hg, hst.launch, hst.num, hst.gang, hst.place, hst.aspace, ?_, ?_, hst.courses, fun x hx => ?_⟩
    · rw [hst.ctx]
      exact hc.symm
    · rw [hst.spBase, hb]
    · obtain ⟨hlanes, hframe, hs0⟩ := hst.lanes hx
      exact ⟨hlanes, hframe, fun hm => by rw [hs0, gangCount_of_no_mailbox hm]⟩

end Sys2Proof.Proofs
end

section
/-!
PROOFS. Reading a field of a word that is a sum of fields, and what each member's own word says to the decoder (R47 to R77).
-/

namespace Sys2Proof.Proofs

open Sys2Proof

/-! ### Fields of a word

A word stands as a constant plus one term x * 2^k per field, the lowest field first. Literal side conditions say where a term stands. -/

section
variable {n k m K A : Nat}

theorem add_mul_mod (h : K % m = 0) (y : Nat) : (A + y * K) % m = A % m := by
  obtain ⟨c, rfl⟩ := Nat.dvd_of_mod_eq_zero h
  rw [Nat.mul_left_comm, Nat.add_mul_mod_self_left]

/-- A term above bits [k, k · m) does not reach them. -/
theorem div_mod_add_above (h : K % (k * m) = 0) (y : Nat) : (A + y * K) / k % m = A / k % m := by
  rw [← Nat.mod_mul_right_div_self, ← Nat.mod_mul_right_div_self, add_mul_mod h]

theorem ofNat_div_add_above (h : K % (k * 2 ^ n) = 0) (y : Nat) :
    BitVec.ofNat n ((A + y * K) / k) = BitVec.ofNat n (A / k) := by
  apply BitVec.eq_of_toNat_eq
  rw [BitVec.toNat_ofNat, BitVec.toNat_ofNat, div_mod_add_above h]

/-- Dividing past a term, in two steps. -/
theorem div_add_below (h : k % K = 0) (hK : 0 < K) (y : Nat) : (A + y * K) / k = (A / K + y) / (k / K) := by
  obtain ⟨c, rfl⟩ := Nat.dvd_of_mod_eq_zero h
  rw [Nat.mul_div_cancel_left _ hK, ← Nat.div_div_eq_div_mul, Nat.add_mul_div_right _ _ hK]

/-- A field that stands where the rest has zeros is gone once divided past. -/
theorem add_toNat_div (hk : k % 2 ^ n = 0) (hA : A % 2 ^ n = 0) (x : BitVec n) : (A + x.toNat) / k = A / k := by
  obtain ⟨c, rfl⟩ := Nat.dvd_of_mod_eq_zero hk
  obtain ⟨q, rfl⟩ := Nat.dvd_of_mod_eq_zero hA
  rw [← Nat.div_div_eq_div_mul, ← Nat.div_div_eq_div_mul, Nat.mul_add_div (Nat.two_pow_pos n), Nat.div_eq_of_lt x.isLt,
    Nat.mul_div_cancel_left _ (Nat.two_pow_pos n), Nat.add_zero]

theorem ofNat_add_toNat (hA : A % 2 ^ n = 0) (x : BitVec n) : BitVec.ofNat n (A + x.toNat) = x := by
  apply BitVec.eq_of_toNat_eq
  rw [BitVec.toNat_ofNat, Nat.add_mod, hA, Nat.zero_add, Nat.mod_mod, Nat.mod_eq_of_lt x.isLt]

end

/-! ### An instruction without its LIMM (R75) -/

/-- R75. An instruction without the LIMM that may stand before it. -/
def bare (i : Instr) : Instr :=
  match i with
  | .brnz c o _ => .brnz c o none | .brz c o _ => .brz c o none | .jmp i _ => .jmp i none | .call i _ => .call i none
  | .mmov m s _ => .mmov m s none | .saddi d a i _ => .saddi d a i none | .sandi d a i _ => .sandi d a i none
  | .sori d a i _ => .sori d a i none | .sxori d a i _ => .sxori d a i none | .sshli d a i _ => .sshli d a i none
  | .sshrli d a i _ => .sshrli d a i none | .smovi d i _ => .smovi d i none | .scmpeqi d a i _ => .scmpeqi d a i none
  | .sld d a i _ => .sld d a i none | .sst d a i _ => .sst d a i none | .sldw d a i _ => .sldw d a i none
  | .sstw d a i _ => .sstw d a i none | .iaddi d a i _ => .iaddi d a i none | .andi d a i _ => .andi d a i none
  | .ori d a i _ => .ori d a i none | .xori d a i _ => .xori d a i none | .shli d a i _ => .shli d a i none
  | .shrli d a i _ => .shrli d a i none | .shrai d a i _ => .shrai d a i none | .movi d t i _ => .movi d t i none
  | .ld d a s k _ => .ld d a s k none | .st d a s k _ => .st d a s k none | .lds d a s k _ => .lds d a s k none
  | .sts d a s k _ => .sts d a s k none | .atom d a s o _ => .atom d a s o none | .red d a s o _ => .red d a s o none
  | .atoms d a s o _ => .atoms d a s o none | .reds d a s o _ => .reds d a s o none | .bar b _ => .bar b none
  | .bararr b _ => .bararr b none | .armw v o _ => .armw v o none | .arwait v o _ => .arwait v o none
  | .aradd v o _ => .aradd v o none
  | i => i

theorem bare_px? (i : Instr) : (bare i).px? = none := by cases i <;> rfl

theorem encodeWord_bare (i : Instr) : encodeWord (bare i) = encodeWord i := by cases i <;> rfl

theorem bare_of_px?_eq_none {i : Instr} (h : i.px? = none) : bare i = i := by
  cases i <;> first | rfl | (cases h; rfl)

theorem withPx_bare {i : Instr} {p : BitVec 25} (h : i.px? = some p) : (bare i).withPx p = some i := by
  cases i <;> cases h <;> rfl

/-- R75. What a LIMM must be zero for may stand without it. -/
theorem fieldsOk_bare {i : Instr} (h : i.fieldsOk = true) : (bare i).fieldsOk = true := by
  cases i
  case mmov | sshli | sshrli | bar | bararr => exact Bool.and_eq_true_iff.2 ⟨(Bool.and_eq_true_iff.1 h).1, rfl⟩
  all_goals exact h

/-- R75. Widening gives the instruction its imm25 and changes nothing else of it. -/
theorem withPx_eq_some {i j : Instr} {p : BitVec 25} (h : i.withPx p = some j) :
    j.shape = .word ∧ j.px? = some p ∧ encodeWord j = encodeWord i := by
  cases i <;> cases h <;> exact ⟨rfl, rfl, rfl⟩

/-- R75. Whether a LIMM widens a member does not depend on its imm25. -/
theorem withPx_eq_none {i : Instr} {p q : BitVec 25} (h : i.withPx p = none) : i.withPx q = none := by
  cases i <;> first | rfl | cases h

/-! ### What the words say (R53, R56, R77) -/

theorem encodeWord_of_event {i : Instr} (h : i.shape = .event) : encodeWord i = 0 := by
  cases i <;> first | contradiction | rfl

/-- R53. A 16-bit form fits a halfword with bit 0 clear, and its halfword names it. -/
theorem rawShort_encodeWord {i : Instr} (h : i.shape = .short) :
    encodeWord i < 65536 ∧ encodeWord i % 2 = 0 ∧ rawShort (encodeWord i) = some i := by
  cases i <;> first | contradiction | skip
  all_goals
    refine ⟨?_, ?_, ?_⟩
    · rw [← Nat.div_eq_zero_iff_lt (by decide)]
      change (_ + _) / _ = 0
      simp only [div_add_below, add_toNat_div, Nat.reduceMod, Nat.reduceDiv, Nat.reducePow, Nat.reduceLT]
    · change (_ + _) % _ = 0
      simp only [add_mul_mod, Nat.reduceMod]
    · change rawShort (_ + _) = _
      simp only [rawShort, div_mod_add_above, ofNat_div_add_above, div_add_below, add_toNat_div, ofNat_add_toNat, Nat.reduceMul, Nat.reduceMod, Nat.reduceDiv,
        Nat.reducePow, Nat.reduceLT, Nat.div_one]

/-- R56, R77. Word w is a 32-bit one and names i, but for a LIMM. -/
structure Names (w : Nat) (i : Instr) : Prop where
  fits : w / 4294967296 = 0
  odd : w % 2 = 1
  raw : rawWord w = some (bare i)

section
variable {i : Instr} {w : Nat}

/-- R77. Majors 0x00 to 0x0D: control, scalar and integer instructions. -/
theorem names_of_major_lt (hs : i.shape = .word) (hw : encodeWord i = w) (hc : w % 128 < 28) : Names w i := by
  cases i
  case nop | yield | prbclr | exit => subst hw; exact ⟨rfl, rfl, rfl⟩
  all_goals first | contradiction | (change _ + _ = w at hw; subst hw)
  all_goals simp only [add_mul_mod, Nat.reduceMod, Nat.reduceLT] at hc
  all_goals
    refine ⟨?_, ?_, ?_⟩
    · simp only [div_add_below, add_toNat_div, Nat.reduceMod, Nat.reduceDiv, Nat.reducePow, Nat.reduceLT]
    · simp only [add_mul_mod, Nat.reduceMod]
    · simp only [rawWord, div_mod_add_above, Nat.reduceMul, Nat.reduceMod, Nat.reduceDiv]
      simp only [rawSys, rawBr, rawCtl, rawMask, rawWaitc, rawSalu, rawSalui, rawSmem, rawIalu, rawIalu2, rawIalui, rawIalus, rawIcmp,
        div_mod_add_above, ofNat_div_add_above, div_add_below, add_toNat_div, ofNat_add_toNat, Nat.reduceMul, Nat.reduceMod, Nat.reduceDiv,
        Nat.reducePow, Nat.reduceLT, Nat.div_one]
      rfl

/-- R77. Majors 0x0E to 0x16: floating point, conversions and what lanes exchange. -/
theorem names_of_major_mid (hs : i.shape = .word) (hw : encodeWord i = w) (hc : 28 ≤ w % 128 ∧ w % 128 < 46) : Names w i := by
  cases i
  case nop | yield | prbclr | exit => subst hw; contradiction
  all_goals first | contradiction | (change _ + _ = w at hw; subst hw)
  all_goals simp only [add_mul_mod, Nat.reduceMod, Nat.reduceLT, Nat.reduceLeDiff, and_true, and_false] at hc
  all_goals
    refine ⟨?_, ?_, ?_⟩
    · simp only [div_add_below, add_toNat_div, Nat.reduceMod, Nat.reduceDiv, Nat.reducePow, Nat.reduceLT]
    · simp only [add_mul_mod, Nat.reduceMod]
    · simp only [rawWord, div_mod_add_above, Nat.reduceMul, Nat.reduceMod, Nat.reduceDiv]
      simp only [rawFalu, rawFalus, rawFfma, rawFcmp, rawFspec, rawCvt, rawXlane, rawMisc, rawRng,
        ofNat_div_add_above, div_add_below, add_toNat_div, ofNat_add_toNat, Nat.reduceMul, Nat.reduceMod, Nat.reduceDiv,
        Nat.reducePow, Nat.reduceLT, Nat.div_one]
      rfl

/-- R77. Majors from 0x17 on: memory and the engines. -/
theorem names_of_major_ge (hs : i.shape = .word) (hw : encodeWord i = w) (hc : 46 ≤ w % 128) : Names w i := by
  cases i
  case nop | yield | prbclr | exit => subst hw; contradiction
  all_goals first | contradiction | (change _ + _ = w at hw; subst hw)
  all_goals simp only [add_mul_mod, Nat.reduceMod, Nat.reduceLeDiff] at hc
  all_goals
    refine ⟨?_, ?_, ?_⟩
    · simp only [div_add_below, add_toNat_div, Nat.reduceMod, Nat.reduceDiv, Nat.reducePow, Nat.reduceLT]
    · simp only [add_mul_mod, Nat.reduceMod]
    · simp only [rawWord, div_mod_add_above, Nat.reduceMul, Nat.reduceMod, Nat.reduceDiv]
      simp only [rawLd, rawSt, rawLds, rawSts, rawAtom, rawAtoms, rawFence, rawBar, rawCpy, rawBin, rawTfet, rawMma, rawMloop, rawAcc, rawCtab,
        rawAcn, rawVsel, rawLaunch, rawOvl, rawQue,
        div_mod_add_above, ofNat_div_add_above, div_add_below, add_toNat_div, ofNat_add_toNat, Nat.reduceMul, Nat.reduceMod, Nat.reduceDiv,
        Nat.reducePow, Nat.reduceLT, Nat.div_one]
      rfl

end

/-- R56, R77. A 32-bit member's word names it. -/
theorem names_encodeWord {i : Instr} (h : i.shape = .word) : Names (encodeWord i) i := by
  by_cases h1 : encodeWord i % 128 < 28
  · exact names_of_major_lt h rfl h1
  · by_cases h2 : encodeWord i % 128 < 46
    · exact names_of_major_mid h rfl ⟨Nat.not_lt.1 h1, h2⟩
    · exact names_of_major_ge h rfl (Nat.not_lt.1 h2)

end Sys2Proof.Proofs
end

section
/-!
PROOFS. Decoding undoes encoding, and encoding undoes decoding (R47 to R78).
-/

namespace Sys2Proof.Proofs

open Sys2Proof Sys2Proof.Statements

/-! ### Halfwords and words (R47) -/

section
variable {w : Nat}

theorem toNat_ofNat16_mod_two (w : Nat) : (BitVec.ofNat 16 w).toNat % 2 = w % 2 := by
  rw [BitVec.toNat_ofNat]
  omega

theorem word2_split2 (h : w / 4294967296 = 0) : word2 (.ofNat 16 w) (.ofNat 16 (w / 65536)) = w := by
  rw [word2, BitVec.toNat_ofNat, BitVec.toNat_ofNat]
  omega

theorem split2_word2 (a b : BitVec 16) : split2 (word2 a b) = [a, b] := by
  have ha := a.isLt
  have hlo : (word2 a b) % 2 ^ 16 = a.toNat := by rw [word2]; omega
  have hhi : (word2 a b) / 65536 = b.toNat := by rw [word2]; omega
  rw [split2, hhi, BitVec.ofNat_toNat, BitVec.setWidth_eq]
  congr 1
  exact BitVec.eq_of_toNat_eq (by rw [BitVec.toNat_ofNat, hlo])

theorem word2_div (a b : BitVec 16) : word2 a b / 4294967296 = 0 := by
  have := a.isLt
  have := b.isLt
  rw [word2]
  omega

theorem word2_mod_two (a b : BitVec 16) : word2 a b % 2 = a.toNat % 2 := by
  rw [word2]
  omega

theorem limmWord_form (p : BitVec 25) : limmWord p / 4294967296 = 0 ∧ limmWord p % 2 = 1 ∧ limmWord p / 2 % 64 = 1 := by
  rw [limmWord]
  omega

theorem ofNat_limmWord (p : BitVec 25) : BitVec.ofNat 25 (limmWord p / 128) = p := by
  rw [limmWord, Nat.add_mul_div_right _ _ (by decide)]
  exact ofNat_add_toNat rfl p

theorem limmWord_ofNat (hf : w / 4294967296 = 0) (ho : w % 2 = 1) (hm : w / 2 % 64 = 1) : limmWord (.ofNat 25 (w / 128)) = w := by
  rw [limmWord, BitVec.toNat_ofNat]
  omega

theorem toNat_ofNat32 (h : w / 4294967296 = 0) : (BitVec.ofNat 32 w).toNat = w := by
  rw [BitVec.toNat_ofNat]
  omega

end

/-! ### The encodings by shape (R47, R53, R56, R75) -/

section
variable {i : Instr}

theorem encode_of_short (h : i.shape = .short) : encode i = [.ofNat 16 (encodeWord i)] := by
  simp only [encode, h]

theorem encode_of_px?_eq_none (h : i.shape = .word) (hp : i.px? = none) : encode i = split2 (encodeWord i) := by
  simp only [encode, h, hp]

theorem encode_of_px?_eq_some {p : BitVec 25} (h : i.shape = .word) (hp : i.px? = some p) :
    encode i = split2 (limmWord p) ++ split2 (encodeWord i) := by
  simp only [encode, h, hp]

theorem encode_limm (p : BitVec 25) (fw : BitVec 32) : encode (.limm p fw) =
    split2 (limmWord p) ++ (if fw.toNat % 2 = 0 then [.ofNat 16 fw.toNat] else split2 fw.toNat) := rfl

theorem wf_of_shape_ne_pair (h : i.shape ≠ .pair) : i.wf = i.fieldsOk := by
  cases i <;> first | rfl | exact absurd rfl h

theorem eq_limm_of_pair (h : i.shape = .pair) : ∃ p fw, i = .limm p fw := by
  cases i <;> first | contradiction | exact ⟨_, _, rfl⟩

end

/-! ### Words and members (R56, R58) -/

section
variable {i : Instr} {w : Nat}

theorem Names.major_ne (h : Names w i) : w / 2 % 64 ≠ 1 := by
  intro hm
  have hr := h.raw
  rw [rawWord, hm] at hr
  cases hr

/-- A word that decodes is the one its member encodes to. -/
theorem decodeWord_eq_some_iff : decodeWord w = some i ↔ rawWord w = some i ∧ i.fieldsOk = true ∧ encodeWord i = w := by
  rw [decodeWord]
  cases rawWord w with
  | none => exact ⟨fun h => (nomatch h), fun h => (nomatch h.1)⟩
  | some j =>
    dsimp only
    rw [Option.ite_none_right_eq_some, Option.some.injEq, Bool.and_eq_true, beq_iff_eq]
    constructor
    · rintro ⟨⟨hf, he⟩, rfl⟩
      exact ⟨rfl, hf, he⟩
    · rintro ⟨rfl, hf, he⟩
      exact ⟨⟨hf, he⟩, rfl⟩

theorem decodeWord_encodeWord (h : i.shape = .word) (hf : i.fieldsOk = true) : decodeWord (encodeWord i) = some (bare i) :=
  decodeWord_eq_some_iff.2 ⟨(names_encodeWord h).raw, fieldsOk_bare hf, encodeWord_bare i⟩

/-- R56, R58. An odd word other than a LIMM that decodes is that of a 32-bit member that no LIMM has widened. -/
theorem shape_of_decodeWord (ho : w % 2 = 1) (hm : w / 2 % 64 ≠ 1) (h : decodeWord w = some i) : i.shape = .word ∧ i.px? = none := by
  obtain ⟨hr, -, rfl⟩ := decodeWord_eq_some_iff.1 h
  cases hs : i.shape with
  | word =>
    rw [(names_encodeWord hs).raw, Option.some.injEq] at hr
    exact ⟨rfl, hr ▸ bare_px? i⟩
  | short => exact absurd (rawShort_encodeWord hs).2.1 (by omega)
  | event => exact absurd (encodeWord_of_event hs) (by omega)
  | pair =>
    obtain ⟨p, fw, rfl⟩ := eq_limm_of_pair hs
    exact absurd (limmWord_form p).2.2 hm

/-- R53 to R55. A halfword names the 16-bit form that encodes to it. -/
theorem rawShort_eq_some (hw : w < 65536) (he : w % 2 = 0) (h : rawShort w = some i) :
    i.shape = .short ∧ i.fieldsOk = true ∧ encodeWord i = w := by
  rw [rawShort] at h
  split at h <;> cases h
  all_goals
    refine ⟨rfl, rfl, ?_⟩
    change _ + _ = w
    simp only [BitVec.toNat_ofNat]
    omega

end

/-! ### What the decoder reads from halfwords (R47, R53, R56, R75) -/

section
variable {i j : Instr} {w : Nat} {p : BitVec 25} {rest : List (BitVec 16)}

theorem decode_short (hw : w < 65536) (he : w % 2 = 0) (h : rawShort w = some i) :
    decode (.ofNat 16 w :: rest) = .instr i 1 := by
  have hn : (BitVec.ofNat 16 w).toNat = w := by
    rw [BitVec.toNat_ofNat]
    omega
  simp only [decode, hn, he, if_true, decodeShort, h]

theorem decode_word (h : Names w i) (hd : decodeWord w = some j) : decode (split2 w ++ rest) = .instr j 2 := by
  simp only [split2, List.cons_append, List.nil_append, decode, toNat_ofNat16_mod_two, h.odd, word2_split2 h.fits, h.major_ne, hd,
    if_false, Nat.one_ne_zero]

theorem decode_limm (p : BitVec 25) : decode (split2 (limmWord p) ++ rest) = decodeAfterLimm p rest := by
  obtain ⟨hf, ho, hm⟩ := limmWord_form p
  simp only [split2, List.cons_append, List.nil_append, decode, toNat_ofNat16_mod_two, ho, word2_split2 hf, hm, if_true, if_false,
    Nat.one_ne_zero, ofNat_limmWord]

theorem decodeAfterLimm_short (hw : w < 65536) (he : w % 2 = 0) :
    decodeAfterLimm p (.ofNat 16 w :: rest) = .instr (.limm p (.ofNat 32 w)) 3 := by
  have hn : (BitVec.ofNat 16 w).toNat = w := by
    rw [BitVec.toNat_ofNat]
    omega
  simp only [decodeAfterLimm, hn, he, if_true]

theorem decodeAfterLimm_limm (hf : w / 4294967296 = 0) (ho : w % 2 = 1) (hm : w / 2 % 64 = 1) :
    decodeAfterLimm p (split2 w ++ rest) = .instr (.limm p (.ofNat 32 w)) 4 := by
  simp only [split2, List.cons_append, List.nil_append, decodeAfterLimm, toNat_ofNat16_mod_two, ho, word2_split2 hf, hm, if_true,
    if_false, Nat.one_ne_zero]

theorem decodeAfterLimm_narrow (hf : w / 4294967296 = 0) (ho : w % 2 = 1) (hm : w / 2 % 64 ≠ 1) (hd : decodeWord w = some j)
    (hp : j.withPx p = none) : decodeAfterLimm p (split2 w ++ rest) = .instr (.limm p (.ofNat 32 w)) 4 := by
  simp only [split2, List.cons_append, List.nil_append, decodeAfterLimm, toNat_ofNat16_mod_two, ho, word2_split2 hf, hm, hd, hp,
    if_false, Nat.one_ne_zero]

theorem decodeAfterLimm_widened (h : Names w i) (hd : decodeWord w = some j) (hp : j.withPx p = some i) (hf : i.fieldsOk = true) :
    decodeAfterLimm p (split2 w ++ rest) = .instr i 4 := by
  simp only [split2, List.cons_append, List.nil_append, decodeAfterLimm, toNat_ofNat16_mod_two, h.odd, word2_split2 h.fits, h.major_ne,
    hd, hp, hf, if_true, if_false, Nat.one_ne_zero]

end

/-- R75. A LIMM pair decodes from its halfwords. -/
theorem decode_encode_limm {p : BitVec 25} {fw : BitVec 32} {rest : List (BitVec 16)} (h : limmFollower fw.toNat = true) :
    decode (encode (.limm p fw) ++ rest) = .instr (.limm p fw) (Instr.len (.limm p fw)) := by
  have hfw : BitVec.ofNat 32 fw.toNat = fw := by rw [BitVec.ofNat_toNat, BitVec.setWidth_eq]
  have hf : fw.toNat / 4294967296 = 0 := Nat.div_eq_of_lt fw.isLt
  rw [Instr.len, encode_limm, List.append_assoc, decode_limm]
  rw [limmFollower] at h
  by_cases he : fw.toNat % 2 = 0
  · rw [if_pos he] at h ⊢
    rw [List.singleton_append, decodeAfterLimm_short (of_decide_eq_true h) he, hfw]
    rfl
  · have ho : fw.toNat % 2 = 1 := by omega
    rw [if_neg he] at h ⊢
    by_cases hm : fw.toNat / 2 % 64 = 1
    · rw [decodeAfterLimm_limm hf ho hm, hfw]
      rfl
    · rw [if_neg hm] at h
      cases hd : decodeWord fw.toNat with
      | none =>
        rw [hd] at h
        cases h
      | some j =>
        rw [hd, Option.isNone_iff_eq_none] at h
        rw [decodeAfterLimm_narrow hf ho hm hd (withPx_eq_none h), hfw]
        rfl

/-- Settles O1, shape by shape: a word names its member, and a LIMM before it gives the member its imm25. -/
theorem encodeThenDecode : Obligations.EncodeThenDecode := by
  intro i rest hwf henc
  cases hs : i.shape with
  | event => exact absurd hs henc
  | pair =>
    obtain ⟨p, fw, rfl⟩ := eq_limm_of_pair hs
    exact decode_encode_limm hwf
  | short =>
    obtain ⟨hlt, heven, hraw⟩ := rawShort_encodeWord hs
    rw [Instr.len, encode_of_short hs, List.singleton_append, decode_short hlt heven hraw]
    rfl
  | word =>
    have hn := names_encodeWord hs
    have hf : i.fieldsOk = true := by rwa [wf_of_shape_ne_pair (by rw [hs]; decide)] at hwf
    have hd := decodeWord_encodeWord hs hf
    cases hp : i.px? with
    | none =>
      rw [bare_of_px?_eq_none hp] at hd
      rw [Instr.len, encode_of_px?_eq_none hs hp, decode_word hn hd]
      rfl
    | some p =>
      rw [Instr.len, encode_of_px?_eq_some hs hp, List.append_assoc, decode_limm, decodeAfterLimm_widened hn hd (withPx_bare hp) hf]
      rfl

/-! ### From halfwords to an instruction and back (R58, R78) -/

/-- Instruction i of n halfwords is well formed, has an encoding and encodes to the first n of hs. -/
def IsEncodingOf (hs : List (BitVec 16)) (i : Instr) (n : Nat) : Prop :=
  i.wf = true ∧ encoded i ∧ n = i.len ∧ encode i = hs.take n

section
variable {i : Instr} {p : BitVec 25} {a b c d : BitVec 16} {rest : List (BitVec 16)}

theorem isEncodingOf_append {l : List (BitVec 16)} (hwf : i.wf = true) (hs : encoded i) (h : encode i = l) :
    IsEncodingOf (l ++ rest) i l.length :=
  ⟨hwf, hs, by rw [Instr.len, h], by rw [h, List.take_left]⟩

theorem wf_of_word (hs : i.shape = .word) (hf : i.fieldsOk = true) : i.wf = true := by
  rwa [wf_of_shape_ne_pair (by rw [hs]; decide)]

theorem encoded_of_word (hs : i.shape = .word) : encoded i := by
  rw [encoded, hs]
  decide

theorem isEncodingOf_short (he : a.toNat % 2 = 0) (h : rawShort a.toNat = some i) : IsEncodingOf (a :: rest) i 1 := by
  obtain ⟨hs, hf, hw⟩ := rawShort_eq_some a.isLt he h
  refine isEncodingOf_append (l := [a]) ?_ ?_ ?_
  · rwa [wf_of_shape_ne_pair (by rw [hs]; decide)]
  · rw [encoded, hs]
    decide
  · rw [encode_of_short hs, hw, BitVec.ofNat_toNat, BitVec.setWidth_eq]

theorem isEncodingOf_word (ho : a.toNat % 2 = 1) (hm : word2 a b / 2 % 64 ≠ 1) (h : decodeWord (word2 a b) = some i) :
    IsEncodingOf (a :: b :: rest) i 2 := by
  obtain ⟨hs, hp⟩ := shape_of_decodeWord (by rwa [word2_mod_two]) hm h
  obtain ⟨-, hf, hw⟩ := decodeWord_eq_some_iff.1 h
  exact isEncodingOf_append (l := [a, b]) (wf_of_word hs hf) (encoded_of_word hs)
    (by rw [encode_of_px?_eq_none hs hp, hw, split2_word2])

/-- R75. A LIMM and a 16-bit instruction. -/
theorem isEncodingOf_limm_short (hl : split2 (limmWord p) = [a, b]) (he : c.toNat % 2 = 0) :
    IsEncodingOf (a :: b :: c :: rest) (.limm p (.ofNat 32 c.toNat)) 3 := by
  have hc := c.isLt
  have hn : (BitVec.ofNat 32 c.toNat).toNat = c.toNat := toNat_ofNat32 (by omega)
  refine isEncodingOf_append (l := [a, b, c]) ?_ Shape.noConfusion ?_
  · rw [Instr.wf, hn, limmFollower, if_pos he]
    exact decide_eq_true hc
  · rw [encode_limm, hn, if_pos he, hl, BitVec.ofNat_toNat, BitVec.setWidth_eq]
    rfl

/-- R75. A LIMM and a word that it does not widen. -/
theorem isEncodingOf_limm_word (hl : split2 (limmWord p) = [a, b]) (ho : c.toNat % 2 = 1)
    (hf : limmFollower (word2 c d) = true) : IsEncodingOf (a :: b :: c :: d :: rest) (.limm p (.ofNat 32 (word2 c d))) 4 := by
  have hn := toNat_ofNat32 (word2_div c d)
  refine isEncodingOf_append (l := [a, b, c, d]) ?_ Shape.noConfusion ?_
  · rwa [Instr.wf, hn]
  · rw [encode_limm, hn, if_neg (by rw [word2_mod_two]; omega), hl, split2_word2]
    rfl

/-- R75. A LIMM and the word that it widens. -/
theorem isEncodingOf_widened {j : Instr} (hl : split2 (limmWord p) = [a, b]) (hd : decodeWord (word2 c d) = some j)
    (hp : j.withPx p = some i) (hf : i.fieldsOk = true) : IsEncodingOf (a :: b :: c :: d :: rest) i 4 := by
  obtain ⟨hs, hpx, hw⟩ := withPx_eq_some hp
  obtain ⟨-, -, hj⟩ := decodeWord_eq_some_iff.1 hd
  exact isEncodingOf_append (l := [a, b, c, d]) (wf_of_word hs hf) (encoded_of_word hs)
    (by rw [encode_of_px?_eq_some hs hpx, hl, hw, hj, split2_word2]; rfl)

/-- R75, R78. What decodes behind a LIMM. -/
theorem isEncodingOf_afterLimm {n : Nat} (hl : split2 (limmWord p) = [a, b]) (h : decodeAfterLimm p rest = .instr i n) :
    IsEncodingOf (a :: b :: rest) i n := by
  cases rest with
  | nil => cases h
  | cons c rest =>
    unfold decodeAfterLimm at h
    dsimp only at h
    split at h
    next he =>
      cases h
      exact isEncodingOf_limm_short hl he
    next he =>
      have ho : c.toNat % 2 = 1 := by omega
      cases rest with
      | nil => cases h
      | cons d rest =>
        dsimp only at h
        split at h
        next hm =>
          cases h
          refine isEncodingOf_limm_word hl ho ?_
          rw [limmFollower, word2_mod_two, if_neg he, if_pos hm]
        next hm =>
          split at h
          next => cases h
          next j hd =>
            split at h
            next hp =>
              cases h
              refine isEncodingOf_limm_word hl ho ?_
              rw [limmFollower, word2_mod_two, if_neg he, if_neg hm, hd]
              exact Option.isNone_iff_eq_none.2 (withPx_eq_none hp)
            next hp =>
              split at h
              next hf =>
                cases h
                exact isEncodingOf_widened hl hd hp hf
              next => cases h

end

/-- Settles O2, along the decoder's branches: each reads halfwords that its instruction encodes to. -/
theorem decodeThenEncode : Obligations.DecodeThenEncode := by
  intro hs i n h
  change IsEncodingOf hs i n
  cases hs with
  | nil => cases h
  | cons a rest =>
    unfold decode at h
    dsimp only at h
    split at h
    next he =>
      rw [decodeShort] at h
      split at h
      next j hr =>
        cases h
        exact isEncodingOf_short he hr
      next => cases h
    next he =>
      have ho : a.toNat % 2 = 1 := by omega
      cases rest with
      | nil => cases h
      | cons b rest =>
        dsimp only at h
        split at h
        next hm =>
          refine isEncodingOf_afterLimm ?_ h
          rw [limmWord_ofNat (word2_div a b) (by rwa [word2_mod_two]) hm, split2_word2]
        next hm =>
          split at h
          next j hd =>
            cases h
            exact isEncodingOf_word ho hm hd
          next => cases h

end Sys2Proof.Proofs
end

section
/-!
PROOFS. Two typed register sources: the type that their tags give (R52).
-/

namespace Sys2Proof.Proofs

open Sys2Proof Sys2Proof.Machine Sys2Proof.Statements

/-! ### Tags (R52) -/

section
variable {t u ty : BitVec 4} {ts accept : List (BitVec 4)} {rawOk : Bool}

theorem typeOf_cons_of_ne (h : t ≠ 0) : typeOf (t :: ts) = t := by
  rw [typeOf, List.find?_cons_of_pos (p := (· != 0)) (bne_iff_ne.2 h), Option.getD_some]

theorem typeOf_cons_raw : typeOf (0 :: ts) = typeOf ts := by
  rw [typeOf, List.find?_cons_of_neg (p := (· != 0)) (by decide), typeOf]

theorem tagFault_raw (h : t = 0) (hr : rawOk = false) : tagFault ty accept rawOk t = true := by rw [tagFault, if_pos h, hr, Bool.not_false]

theorem tagFault_raw_ok (h : t = 0) (hr : rawOk = true) : tagFault ty accept rawOk t = false := by
  rw [tagFault, if_pos h, hr, Bool.not_true]

theorem tagFault_self (h : t ≠ 0) : tagFault t accept rawOk t = !accept.contains t := by
  rw [tagFault, if_neg h, bne_self_eq_false, Bool.false_or]

theorem tagFault_of_mem (h : t ≠ 0) (hm : t ∈ accept) : tagFault t accept rawOk t = false := by
  rw [tagFault_self h, List.contains_iff_mem.2 hm, Bool.not_true]

theorem tagFault_of_not_mem (h : t ≠ 0) (hm : t ∉ accept) : tagFault t accept rawOk t = true := by
  rw [tagFault_self h, Bool.eq_false_iff.2 (fun e => hm (List.contains_iff_mem.1 e)), Bool.not_false]

theorem tagFault_of_ne (h : t ≠ 0) (hne : t ≠ ty) : tagFault ty accept rawOk t = true := by
  rw [tagFault, if_neg h, bne_iff_ne.2 hne, Bool.true_or]

end

/-! ### Reading two registers (R52, R404) -/

section
variable {s : State} {a b d : BitVec 7} {accept : List (BitVec 4)} {rawOk : Bool}

theorem srcVal_reg (h : isPort a = false) (es : List Elem) : s.srcVal a es = s.me.getV a.toNat := by
  rw [State.srcVal, h, if_neg Bool.false_ne_true]

theorem portMisuse_regs {srcs : List (BitVec 7)} (hr : ∀ v ∈ srcs, isPort v = false) (hd : isPort d = false) :
    s.portMisuse srcs (some d) = none := by
  have hn : srcs.find? (fun v => isPort v && !(s.me.port (portOf v)).isSource) = none :=
    List.find?_eq_none.2 (fun v hv => by rw [hr v hv]; exact Bool.false_ne_true)
  rw [State.portMisuse, hn]
  dsimp only
  rw [hd, Bool.false_and, if_neg Bool.false_ne_true]

/-- R247. Taking two registers takes no port's elements and cannot stall. -/
theorem takeSrcs_two_regs (ha : isPort a = false) (hb : isPort b = false) (hd : isPort d = false) (n : Nat) :
    s.takeSrcs [a, b] (some d) n = .ok (s, [([], s.me.getV a.toNat), ([], s.me.getV b.toNat)]) := by
  have hr : ∀ v ∈ [a, b], isPort v = false := by
    intro v hv
    rcases List.mem_pair.1 hv with rfl | rfl <;> assumption
  simp only [State.takeSrcs, portMisuse_regs hr hd, popAll_regs s hr, Option.filter_some, hd, Bool.false_and, Bool.false_eq_true,
    if_false, List.map_cons, List.map_nil, List.zip_cons_cons, List.zip_nil_right, srcVal_reg ha, srcVal_reg hb]

theorem fault_typed {ty : BitVec 4} {x : VReg} (v : BitVec 7) (h : x.tag.toNat < 12) :
    (Src.typed v).fault ty accept rawOk ([], x) = tagFault ty accept rawOk x.tag := by
  rw [Src.fault, badSource, mixedTags, Bool.false_or, decide_eq_false (Nat.not_le.2 h), Bool.false_or, Src.typed]

/-- R52, R404. The first register at fault ends the reading; with none the type is the one that the two tags give. -/
theorem vecRead_two_regs {x y : VReg} {ty : BitVec 4} (ha : isPort a = false) (hb : isPort b = false) (hd : isPort d = false)
    (hx : s.me.getV a.toNat = x) (hy : s.me.getV b.toNat = y) (hxt : x.tag.toNat < 12) (hyt : y.tag.toNat < 12)
    (ht : typeOf [x.tag, y.tag] = ty) :
    s.vecRead [Src.typed a, Src.typed b] (some d) false accept rawOk noCheck =
      if tagFault ty accept rawOk x.tag then .error (s.fail .format a.toNat)
      else if tagFault ty accept rawOk y.tag then .error (s.fail .format b.toNat)
      else .ok (s, ty, [x, y]) := by
  have hp : s.lacksFp16 [Src.typed a, Src.typed b] (some d) false = false := rfl
  have hv : [Src.typed a, Src.typed b].map (·.v) = [a, b] := rfl
  rw [State.vecRead, hp, if_neg Bool.false_ne_true, hv, takeSrcs_two_regs ha hb hd, hx, hy]
  change (match [(Src.typed a, ([], x)), (Src.typed b, ([], y))].find? (fun z => z.1.fault (typeOf [x.tag, y.tag]) accept rawOk z.2) with
    | some z => Except.error (s.fail .format z.1.v.toNat)
    | none => Except.ok (s, typeOf [x.tag, y.tag], [x, y])) = _
  rw [ht, List.find?_cons, fault_typed a hxt, List.find?_cons, fault_typed b hyt]
  cases tagFault ty accept rawOk x.tag with
  | true => rfl
  | false =>
    cases tagFault ty accept rawOk y.tag with
    | true => rfl
    | false => rfl

end

/-- Settles O12, by the type that the two tags give: the first tag, or the second behind a RAW one. -/
theorem typedSourcesChooseType : Obligations.TypedSourcesChooseType := by
  intro s a b d accept rawOk ha hb hd x y r at_ hx hy
  have hread {ty : BitVec 4} (ht : typeOf [x.tag, y.tag] = ty) : r =
      if tagFault ty accept rawOk x.tag then .error (s.fail .format a.toNat)
      else if tagFault ty accept rawOk y.tag then .error (s.fail .format b.toNat)
      else .ok (s, ty, [x, y]) := vecRead_two_regs ha hb hd rfl rfl hx hy ht
  have hA {ty : BitVec 4} (ht : typeOf [x.tag, y.tag] = ty) (h : tagFault ty accept rawOk x.tag = true) : at_ a :=
    (hread ht).trans (if_pos h)
  have hB {ty : BitVec 4} (ht : typeOf [x.tag, y.tag] = ty) (h : tagFault ty accept rawOk x.tag = false)
      (h' : tagFault ty accept rawOk y.tag = true) : at_ b := by
    change r = _
    rw [hread ht, h, if_neg Bool.false_ne_true, if_pos h']
  have hok {ty : BitVec 4} (ht : typeOf [x.tag, y.tag] = ty) (h : tagFault ty accept rawOk x.tag = false)
      (h' : tagFault ty accept rawOk y.tag = false) : r = .ok (s, ty, [x, y]) := by
    rw [hread ht, h, if_neg Bool.false_ne_true, h', if_neg Bool.false_ne_true]
  have hfirst (h : x.tag ≠ 0) : typeOf [x.tag, y.tag] = x.tag := typeOf_cons_of_ne h
  have hsecond (h : x.tag = 0) (h' : y.tag ≠ 0) : typeOf [x.tag, y.tag] = y.tag := by
    rw [h, typeOf_cons_raw, typeOf_cons_of_ne h']
  refine ⟨fun h hn => hA (hfirst h) (tagFault_of_not_mem h hn), fun h hr => hA rfl (tagFault_raw h hr),
    fun h hm e => hok (hfirst h) (tagFault_of_mem h hm) (by rw [e]; exact tagFault_of_mem h hm),
    fun h hm h' hn => hB (hfirst h) (tagFault_of_mem h hm) (tagFault_of_ne h' hn),
    fun h hm h' hr => hB (hfirst h) (tagFault_of_mem h hm) (tagFault_raw h' hr),
    fun h hm h' hr => hok (hfirst h) (tagFault_of_mem h hm) (tagFault_raw_ok h' hr),
    fun h hr h' hm => hok (hsecond h h') (tagFault_raw_ok h hr) (tagFault_of_mem h' hm),
    fun h hr h' hn => hB (hsecond h h') (tagFault_raw_ok h hr) (tagFault_of_not_mem h' hn),
    fun h hr h' => hok (by rw [h, h']; rfl) (tagFault_raw_ok h hr) (tagFault_raw_ok h' hr)⟩

end Sys2Proof.Proofs
end

section
/-!
PROOFS. What a result leaves of the issuing course: a register, a channel or a port gains it and the rest stands (R49, R195, R247).
-/

namespace Sys2Proof.Proofs

open Sys2Proof Sys2Proof.Machine Sys2Proof.Statements

/-- An issuing course exists. -/
theorem stands_of_issuing {s : State} (h : s.issuing = true) : Stands s s.iss.k s.iss.c := by
  rw [State.issuing] at h
  cases hq : s.consorts.find? (·.id == s.iss.k) with
  | none =>
    rw [hq] at h
    cases h
  | some q =>
    rw [hq] at h
    exact ⟨by rw [hq]; rfl, by rwa [cons_of_find? hq]⟩

section
variable {s : State} {k c q : Nat} {es : List Elem}

theorem portPush_channel (h : ((s.crs k c).port q).kind = 3) : s.portPush k c q es = s.modCons k (fun r =>
    { r with channels := vset r.channels ((s.crs k c).port q).chan.toNat (vget r.channels [] ((s.crs k c).port q).chan.toNat ++ es) }) :=
  if_pos h

theorem portPush_part (h : ((s.crs k c).port q).kind ≠ 3) : s.portPush k c q es = s.modCrs k c (fun x =>
    x.setPort q { (s.crs k c).port q with part := ((s.crs k c).port q).part ++ es.map (·.val) }) :=
  if_neg h

end

section
variable {s : State} {d : BitVec 7} {t : BitVec 4} {f : Nat → Word} (hst : Stands s s.iss.k s.iss.c)
include hst

theorem me_writeDst_reg (hd : isPort d = false) : (s.writeDst d t f).me = s.me.putV d.toNat t s.iss.set f := by
  rw [State.me, (writeDst_only s d t f).iss, State.writeDst, hd, if_neg Bool.false_ne_true, State.modMe, crs_modCrs_same hst, State.me]

theorem me_writeDst_channel (hd : isPort d = true) (hk : (s.me.port (portOf d)).kind = 3) : (s.writeDst d t f).me = s.me := by
  rw [State.me, (writeDst_only s d t f).iss, State.writeDst, if_pos hd, portPush_channel hk, State.crs, cons_modCons_same hst.1]
  rfl

/-- A sink port that is no channel holds the result itself. -/
theorem writeDst_port (hd : isPort d = true) (hk : (s.me.port (portOf d)).kind ≠ 3) :
    (s.writeDst d t f).me.v = s.me.v ∧ (s.writeDst d t f).mine.channels = s.mine.channels := by
  rw [State.me, State.mine, (writeDst_only s d t f).iss, State.writeDst, if_pos hd, portPush_part hk, crs_modCrs_same hst,
    channels_modCrs hst]
  exact ⟨rfl, rfl⟩

end

/-- Settles O14, by what the destination names: a register, a channel or another sink. -/
theorem resultWritesIssueSetOnly : Obligations.ResultWritesIssueSetOnly := by
  intro s d t f hi u
  have hst := stands_of_issuing hi
  have honly := writeDst_only s d t f
  obtain ⟨hreg, hport⟩ := receives_writeDst hst d t f
  have hme : u.me = u.crs s.iss.k s.iss.c := by rw [State.me, honly.iss]
  have hmine : u.mine = u.cons s.iss.k := by rw [State.mine, honly.iss]
  refine ⟨fun hd => ?_, fun hd _ hk => ?_, fun hd _ hk => ?_, honly.ms, honly.core, honly.work, honly.hub⟩
  · obtain ⟨htag, hother, hlanes⟩ := hreg hd
    have hput : u.me = s.me.putV d.toNat t s.iss.set f := me_writeDst_reg hst hd
    rw [hme]
    exact ⟨htag, hlanes, hother, by rw [← hme, hput]; exact ⟨rfl, rfl, rfl, rfl⟩⟩
  · obtain ⟨-, hch, -⟩ := hport hd
    exact ⟨by rw [hmine]; exact hch hk, me_writeDst_channel hst hd hk⟩
  · have hk3 : (s.me.port (portOf d)).kind ≠ 3 := by rw [hk]; decide
    obtain ⟨-, -, hpart⟩ := hport hd
    refine ⟨?_, writeDst_port hst hd hk3⟩
    rw [hme, hpart hk3, List.map_map]
    rfl

end Sys2Proof.Proofs
end

section
/-!
PROOFS. The 16-bit forms: one write over d, and the member's result on a word (R54, R55).
-/

namespace Sys2Proof.Proofs

open Sys2Proof Sys2Proof.Machine Sys2Proof.Statements

/-! ### Changes of one course in a row -/

theorem modFirst_modFirst {α : Type} {p : α → Bool} {f g : α → α} (hf : ∀ x, p (f x) = p x) (xs : List α) :
    modFirst p g (modFirst p f xs) = modFirst p (fun x => g (f x)) xs := by
  induction xs with
  | nil => rfl
  | cons x xs ih =>
    rw [modFirst, modFirst]
    split
    next hx => rw [modFirst, hf, if_pos hx]
    next hx => rw [modFirst, if_neg hx, ih]

theorem modCons_modCons {s : State} {k : Nat} {f g : Consort → Consort} (hf : ∀ q, (f q).id = q.id) :
    (s.modCons k f).modCons k g = s.modCons k (fun q => g (f q)) :=
  congrArg (fun qs => { s with consorts := qs }) (modFirst_modFirst (fun q => congrArg (· == k) (hf q)) s.consorts)

theorem consort_modCrs_modCrs {q : Consort} {c : Nat} {f g : Course → Course} (hf : ∀ x, (f x).idx = x.idx) :
    (q.modCrs c f).modCrs c g = q.modCrs c (fun x => g (f x)) :=
  congrArg (fun xs => { q with courses := xs }) (modFirst_modFirst (fun x => congrArg (· == c) (hf x)) q.courses)

theorem modCrs_modCrs {s : State} {k c : Nat} {f g : Course → Course} (hf : ∀ x, (f x).idx = x.idx) :
    (s.modCrs k c f).modCrs k c g = s.modCrs k c (fun x => g (f x)) := by
  rw [State.modCrs, State.modCrs, modCons_modCons (f := (·.modCrs c f)) (fun _ => rfl), State.modCrs]
  simp only [consort_modCrs_modCrs hf]

/-- R195. A change of the issuing course, then on past the instruction. -/
theorem done_modMe {s : State} {f : Course → Course} (hf : ∀ x, (f x).idx = x.idx) : (s.modMe f).done = moved s f := by
  simp only [State.done, State.advance, State.modMe, State.modCrs_iss, moved]
  have hset : ∀ x, ((f x).setLpc s.iss.set (fun _ => refAdd s.iss.at_ s.iss.len)).idx = x.idx := hf
  rw [modCrs_modCrs hf, modCrs_modCrs hset]

/-! ### Tags -/

section
variable {t u : BitVec 4}

theorem mem_anyTag : ∀ {t : BitVec 4}, t.toNat < 12 → t ∈ anyTag := by decide

theorem mem_wordInts (h : t = 4 ∨ t = 5) : t ∈ wordInts := List.mem_pair.2 h

theorem intPair_of_int (h : u = 4 ∨ u = 5) : intPair t u = true := List.contains_iff_mem.2 (mem_wordInts h)

end

/-! ### The forms over d and s, and over d alone (R55) -/

section
variable {s : State} {d : BitVec 6} {n : BitVec 5} {accept : List (BitVec 4)} {ok : BitVec 4 → BitVec 4 → Bool}
  {f : BitVec 4 → Word → Word → Word}

theorem short_some (hd : (s.me.getV d.toNat).tag ∈ accept) (hs : ok (s.me.getV d.toNat).tag (s.me.getV n.toNat).tag = true) :
    s.short d (some n) accept ok f = moved s (·.putV d.toNat (s.me.getV d.toNat).tag s.iss.set
      (fun l => f (s.me.getV d.toNat).tag ((s.me.getV d.toNat).at l) ((s.me.getV n.toNat).at l))) := by
  simp only [State.short, List.contains_iff_mem.2 hd, hs, Bool.not_true, Bool.false_eq_true, if_false]
  exact done_modMe (fun _ => rfl)

theorem short_none (hd : (s.me.getV d.toNat).tag ∈ accept) :
    s.short d none accept ok f = moved s (·.putV d.toNat (s.me.getV d.toNat).tag s.iss.set
      (fun l => f (s.me.getV d.toNat).tag ((s.me.getV d.toNat).at l) 0)) := by
  simp only [State.short, List.contains_iff_mem.2 hd, Bool.not_true, Bool.false_eq_true, if_false]
  exact done_modMe (fun _ => rfl)

end

/-! ### The results on a word (R228 to R231) -/

section
variable (x y : Word)

theorem word_add : x + y = BitVec.ofNat 32 (x.toNat + y.toNat) := by
  rw [BitVec.ofNat_add, BitVec.ofNat_toNat, BitVec.ofNat_toNat, BitVec.setWidth_eq, BitVec.setWidth_eq]

theorem word_mul : x * y = BitVec.ofNat 32 (x.toNat * y.toNat) := by
  rw [BitVec.ofNat_mul, BitVec.ofNat_toNat, BitVec.ofNat_toNat, BitVec.setWidth_eq, BitVec.setWidth_eq]

theorem word_sub : x - y = BitVec.ofInt 32 ((x.toNat : Int) - y.toNat) := by
  have := y.isLt
  apply BitVec.eq_of_toNat_eq
  rw [BitVec.toNat_sub, BitVec.toNat_ofInt]
  omega

theorem valueShl_eq (n : Nat) : valueShl x n = if 32 ≤ n then 0 else BitVec.ofNat 32 (x.toNat * 2 ^ n) := by
  rw [valueShl]
  congr 1
  apply BitVec.eq_of_toNat_eq
  rw [BitVec.toNat_shiftLeft, Nat.shiftLeft_eq, BitVec.toNat_ofNat]

theorem valueShrl_eq (n : Nat) : valueShrl x n = if 32 ≤ n then 0 else BitVec.ofNat 32 (x.toNat / 2 ^ n) := by
  rw [valueShrl]
  congr 1
  apply BitVec.eq_of_toNat_eq
  rw [BitVec.toNat_ushiftRight, Nat.shiftRight_eq_div_pow, BitVec.toNat_ofNat,
    Nat.mod_eq_of_lt (Nat.lt_of_le_of_lt (Nat.div_le_self _ _) x.isLt)]

/-- R55. A count past the width leaves the sign in every bit. -/
theorem valueShra_eq (n : Nat) : valueShra x n =
    BitVec.ofInt 32 (if 32 ≤ n then (if x.msb then -1 else 0) else x.toInt / (2 ^ n : Nat)) := by
  rw [valueShra, BitVec.sshiftRight, Int.shiftRight_eq_div_pow]
  congr 1
  by_cases h : 32 ≤ n
  · have hlo := x.le_toInt
    have hhi := x.toInt_lt
    rw [if_pos h, Nat.min_eq_right (by omega)]
    by_cases hn : x.toInt < 0
    · rw [BitVec.msb_eq_toInt, if_pos (decide_eq_true hn)]
      omega
    · rw [BitVec.msb_eq_toInt, if_neg (by simpa using hn)]
      omega
  · rw [if_neg h, Nat.min_eq_left (by omega)]

theorem ofInt_sextInt (n : BitVec 5) : BitVec.ofInt 32 (sextInt 5 n.toNat) = n.signExtend 32 := by
  rw [BitVec.signExtend, sextInt, BitVec.toInt, Nat.mod_eq_of_lt n.isLt]
  congr 1
  split <;> split <;> omega

end

/-! ### The instructions (R55) -/

/-- R55. Where an instruction fits and its tags are accepted, it writes g of d's and s's words over d and moves on. -/
def WritesShort (s : State) (d : BitVec 6) (n : BitVec 5) (i : Instr) (ok : Prop) (g : Word → Word → Word) : Prop :=
  Fits s i → ok → exec i s = .next (moved s (·.putV d.toNat (s.me.getV d.toNat).tag s.iss.set
    (fun l => g ((s.me.getV d.toNat).at l) ((s.me.getV n.toNat).at l))))

section
variable {s : State} {d : BitVec 6} {n : BitVec 5} {i : Instr}

theorem writesShort_of_short {e : State → State} {accept : List (BitVec 4)} {ok : BitVec 4 → BitVec 4 → Bool}
    {f g : Word → Word → Word} {P : Prop} (he : exec i s = s.gate i e) (hf : e s = s.short d (some n) accept ok (fun _ => f))
    (hd : P → (s.me.getV d.toNat).tag ∈ accept) (hs : P → ok (s.me.getV d.toNat).tag (s.me.getV n.toNat).tag = true)
    (hfg : ∀ x y, f x y = g x y) : WritesShort s d n i P g := by
  rintro ⟨-, hover⟩ hP
  rw [he, gate_none _ hover, hf, short_some (hd hP) (hs hP), funext (fun x => funext (hfg x))]

theorem writesShort_int {f g : Word → Word → Word}
    (he : exec i s = s.gate i (fun s => s.short d (some n) wordInts intPair (fun _ => f))) (hfg : ∀ x y, f x y = g x y) :
    WritesShort s d n i (((s.me.getV d.toNat).tag = 4 ∨ (s.me.getV d.toNat).tag = 5) ∧
      ((s.me.getV n.toNat).tag = 4 ∨ (s.me.getV n.toNat).tag = 5)) g :=
  writesShort_of_short he rfl (fun h => mem_wordInts h.1) (fun h => intPair_of_int h.2) hfg

theorem writesShort_float {g : BitVec 2 → Bool → Fmt → Nat → Nat → Nat} (he : exec i s = s.gate i (fun s => s.floatShort d n g)) :
    WritesShort s d n i ((s.me.getV d.toNat).tag = 1 ∧ (s.me.getV n.toNat).tag = 1)
      (fun p q => BitVec.ofNat 32 (g s.rm s.ftz F32 p.toNat q.toNat)) :=
  writesShort_of_short he rfl (fun h => List.mem_singleton.2 h.1) (fun h => beq_iff_eq.2 h.2) (fun _ _ => rfl)

theorem writesShort_mov : WritesShort s d n (.movShort d n) ((s.me.getV d.toNat).tag.toNat < 12 ∧
    ((s.me.getV n.toNat).tag = (s.me.getV d.toNat).tag ∨ (s.me.getV n.toNat).tag = 0)) (fun _ q => q) := by
  refine writesShort_of_short (exec_movShort d n s) rfl (fun h => mem_anyTag h.1) (fun h => ?_) (fun _ _ => rfl)
  exact Bool.or_eq_true_iff.2 (h.2.imp beq_iff_eq.2 beq_iff_eq.2)

theorem writesShort_movi : WritesShort s d n (.moviShort d n) ((s.me.getV d.toNat).tag = 4 ∨ (s.me.getV d.toNat).tag = 5)
    (fun _ _ => n.signExtend 32) := by
  rintro ⟨-, hover⟩ hd
  rw [exec_moviShort, execMoviShort, gate_none _ hover, short_none (mem_wordInts hd), ofInt_sextInt]

end

/-- Settles O19: a form that accepts its tags writes d once, and each of its words is the stated one. -/
theorem shortFormResults : Obligations.ShortFormResults := by
  intro s d n dv sv R ints floats F
  have hR {i : Instr} {ok : Prop} {g : Word → Word → Word} (h : WritesShort s d n i ok g) : R i ok g := h
  clear_value R
  exact ⟨hR writesShort_mov, hR (writesShort_int (exec_iaddShort d n s) word_add),
    hR (writesShort_int (exec_isubShort d n s) word_sub),
    hR (writesShort_int (exec_iandShort d n s) (fun _ _ => rfl)),
    hR (writesShort_int (exec_iorShort d n s) (fun _ _ => rfl)),
    hR (writesShort_int (exec_ixorShort d n s) (fun _ _ => rfl)),
    hR (writesShort_int (exec_shlShort d n s) (fun x y => valueShl_eq x y.toNat)),
    hR (writesShort_int (exec_shrlShort d n s) (fun x y => valueShrl_eq x y.toNat)),
    hR (writesShort_int (exec_shraShort d n s) (fun x y => valueShra_eq x y.toNat)),
    hR (writesShort_int (exec_imulShort d n s) word_mul), hR writesShort_movi,
    hR (writesShort_float (exec_faddShort d n s)), hR (writesShort_float (exec_fsubShort d n s)),
    hR (writesShort_float (exec_fmulShort d n s)), hR (writesShort_float (exec_fminShort d n s)),
    hR (writesShort_float (exec_fmaxShort d n s))⟩

end Sys2Proof.Proofs
end

section
/-!
PROOFS. A step at a course that fetches an instruction (R47, R76, R192, R202, R207).
-/

namespace Sys2Proof.Proofs

open Sys2Proof Sys2Proof.Machine Sys2Proof.Statements

/-! ### What a change of a consort or a course keeps, whether it exists or not -/

section
variable {s : State} {k c k' c' : Nat}

theorem crs_modCons {f : Consort → Consort} (hf : ∀ q, (f q).id = q.id := by intro _; rfl)
    (hc : ∀ q, (f q).courses = q.courses := by intro _; rfl) :
    (s.modCons k f).crs k' c' = s.crs k' c' := by
  by_cases hk : k = k'
  · subst hk
    cases e : s.consorts.find? (·.id == k) with
    | none => rw [State.modCons, modFirst_of_find?_eq_none e]
    | some q => rw [State.crs, cons_modCons_same (by rw [e]; rfl) hf, Consort.crs, hc, State.crs, Consort.crs]
  · rw [State.crs, cons_modCons_ne hk hf, State.crs]

theorem crs_modCrs_field {β : Type} {f : Course → Course} {g : Course → β} (hf : ∀ x, (f x).idx = x.idx) (hg : ∀ x, g (f x) = g x) :
    g ((s.modCrs k c f).crs k c) = g (s.crs k c) := by
  by_cases h : Stands s k c
  · rw [crs_modCrs_same h hf, hg]
  · rw [crs_modCrs_of_not_stands h]

end

/-! ### The instruction that a course fetches, and its issue -/

section
variable {s : State} {k c : Nat} {set laps : BitVec 32} {i : Instr} {n : Nat}

theorem refused_touch {ov : BitVec 16} {named : List Nat} : ((s.touch k c ov named).crs k c).refused = (s.crs k c).refused := by
  have hmarks {f : Course → Course} (hf : ∀ x, (f x).idx = x.idx) (hr : ∀ x, (f x).refused = x.refused) :
      (((s.modCons k (fun q => { q with need := [] })).modCrs k c f).crs k c).refused = (s.crs k c).refused := by
    rw [crs_modCrs_field hf hr, crs_modCons]
  unfold State.touch
  split
  · exact hmarks (fun _ => rfl) (fun _ => rfl)
  · exact hmarks (fun _ => rfl) (fun _ => rfl)

/-- R405. Starting an instruction leaves the lanes that REFUSE has let go. -/
theorem refused_start {len : Nat} {enc : BitVec 32} {named : List Nat} :
    (s.start k c set laps len enc named).me.refused = (s.crs k c).refused :=
  refused_touch.trans (crs_modCrs_field (f := fun x => ({ x with lapped := laps } : Course).dropFaults set) (fun _ => rfl) (fun _ => rfl))

theorem maskOf_of_false {p : Nat → Bool} (h : ∀ l, p l = false) : maskOf p = 0 := by
  rw [funext h]
  rfl

/-- R413. Where REFUSE has let no lane of the issue set go, every lane executes the instruction. -/
theorem withRefused_of_none {f : State → Host.Outcome State Fault Refusal}
    (h : s.me.refused.any (fun r => bit s.iss.set r.lane && r.ref == s.iss.at_) = false) : s.withRefused f = f s := by
  refine if_pos (maskOf_of_false (fun l => Bool.eq_false_iff.2 (fun hl => ?_)))
  obtain ⟨hbit, hany⟩ := Bool.and_eq_true_iff.1 hl
  obtain ⟨r, hr, e⟩ := List.any_eq_true.1 hany
  obtain ⟨hlane, href⟩ := Bool.and_eq_true_iff.1 e
  exact List.any_eq_false.1 h r hr (Bool.and_eq_true_iff.2 ⟨by rwa [beq_iff_eq.1 hlane], href⟩)

theorem fetch_of_resident {inst : Inst} (hset : (s.crs k c).issueSet = some (set, laps))
    (hinst : s.instFor (s.cons k) (refOv ((s.crs k c).lpcAt (lowest set))) = some inst) (hst : inst.st = .resident)
    (hd : decode (inst.window (((s.crs k c).lpcAt (lowest set)).toNat % 65536)) = .instr i n) : s.fetch k c = .instr i n := by
  rw [State.crs] at hset hinst hd
  simp only [State.fetch, hset, hinst, hst, hd, if_true]

theorem issue_of_fetch (hset : (s.crs k c).issueSet = some (set, laps)) (hdue : (s.crs k c).errorDue = false)
    (hfaults : (s.crs k c).faultsOf set = []) (hfetch : s.fetch k c = .instr i n)
    (href : (s.crs k c).refused.any (fun r => bit set r.lane && r.ref == (s.crs k c).lpcAt (lowest set)) = false) :
    s.issue k c = exec i (s.start k c set laps n (Instr.enc i) (Instr.lines i)) := by
  simp only [State.issue, hset, hdue, hfaults, hfetch, Bool.false_eq_true, if_false]
  exact withRefused_of_none (by rw [refused_start]; exact href)

end

/-! ### An issue that a port failure discards (R202, R207) -/

section
variable {s : State} {k c : Nat}

theorem caught_of_no_failure (h : ∀ rest : List Input, s.inputs ≠ .row .portCheckFail :: rest) : s.caught k c = false := by
  rw [State.caught]
  split
  next rest e => exact absurd e (h rest)
  next => rfl

theorem crs_issueInVain_ne {n m : Nat} (h : ¬ (n = k ∧ m = c)) : (s.issueInVain k c).crs n m = s.crs n m := by
  change (s.modCrs k c _).crs n m = _
  by_cases hst : Stands s k c
  · exact crs_modCrs_ne hst (fun e => h ⟨e.1.symm, e.2.symm⟩)
  · exact crs_modCrs_of_not_stands hst

theorem crs_issueInVain (h : Stands s k c) : (s.issueInVain k c).crs k c =
    { s.crs k c with unchecked := some { since := s.clock, pops := s.channelPops k c } } :=
  crs_modCrs_same (f := fun x => { x with unchecked := some { since := s.clock, pops := s.channelPops k c } }) h

theorem ready_of_unchecked {u : Unchecked} (h : (s.crs k c).unchecked = some u) : s.ready k c = false := by
  simp only [State.ready, h, Option.isNone_some, Bool.and_false, Bool.false_and]

end

/-- Settles O4: the fetch is the decoder on the encoding, and the issue set starts that instruction. -/
theorem stepRunsDecodedInstruction : Obligations.StepRunsDecodedInstruction := by
  refine ⟨fun s k c set laps i inst rest hnext hset hdue hfaults hinst hst hwf henc hwin href => ?_,
    fun s k c => ⟨caught_of_no_failure, rfl, rfl, rfl, rfl, rfl, rfl, fun n m hne => ?_, fun q hq hc => ?_⟩⟩
  · have hd : decode (inst.window (((s.crs k c).lpcAt (lowest set)).toNat % 65536)) = .instr i i.len := by
      rw [hwin]
      exact encodeThenDecode i rest hwf henc
    have hissue := issue_of_fetch hset hdue hfaults (fetch_of_resident hset hinst hst hd) href
    simp only [step, hnext, State.act, hissue]
    cases exec i (s.start k c set laps i.len (Instr.enc i) (Instr.lines i)) with
    | next t => simp only [Bool.and_eq_true, Option.isNone_iff_eq_none]
    | fault | refused => rfl
  · exact crs_issueInVain_ne hne
  · have hst : Stands s k c := ⟨by rw [hq]; rfl, by rwa [cons_of_find? hq]⟩
    have hcrs := crs_issueInVain hst
    exact ⟨ready_of_unchecked (by rw [hcrs]), _, rfl, hcrs⟩

end Sys2Proof.Proofs
end

section
/-!
PROOFS. Bits and values of the floating-point formats: what a format represents rounds to itself, and how NaNs and zeros compare
(R83 to R87).
-/

namespace Sys2Proof.Proofs

open Sys2Proof Sys2Proof.Machine Sys2Proof.Statements

/-! ### Sign, exponent and fraction (R83) -/

section
variable {f : Fmt} {x : Nat}

theorem field_bit (x p : Nat) : field x p p = x / 2 ^ p % 2 := by rw [field, Nat.add_sub_cancel_left, pow_one]

/-- R83. An element is its sign bit, its exponent field and its fraction. -/
theorem sign_add_fields (hx : x < 2 ^ (1 + f.eb + f.mb)) :
    f.sign (f.neg x) + (x / 2 ^ f.mb % 2 ^ f.eb * 2 ^ f.mb + x % 2 ^ f.mb) = x := by
  have hhi : x / 2 ^ f.mb / 2 ^ f.eb = x / 2 ^ (f.eb + f.mb) := by rw [Nat.div_div_eq_div_mul, Nat.mul_comm, pow_add]
  have hlow := Nat.div_add_mod' x (2 ^ f.mb)
  have hexp := Nat.div_add_mod' (x / 2 ^ f.mb) (2 ^ f.eb)
  have hsplit : x / 2 ^ (f.eb + f.mb) * 2 ^ (f.eb + f.mb) + x / 2 ^ f.mb % 2 ^ f.eb * 2 ^ f.mb = x / 2 ^ f.mb * 2 ^ f.mb := by
    rw [← hhi, pow_add 2 f.eb, ← Nat.mul_assoc, ← Nat.add_mul, hexp]
  have hbit : x / 2 ^ (f.eb + f.mb) < 2 := by
    rwa [Nat.div_lt_iff_lt_mul (Nat.two_pow_pos _), ← pow_succ', Nat.add_comm, ← Nat.add_assoc]
  have hneg : f.sign (f.neg x) = x / 2 ^ (f.eb + f.mb) * 2 ^ (f.eb + f.mb) := by
    rw [Fmt.sign, Fmt.neg, field_bit, Nat.mod_eq_of_lt hbit]
    obtain h | h := Nat.le_one_iff_eq_zero_or_eq_one.1 (Nat.le_of_lt_succ hbit)
    · simp [h]
    · simp [h]
  omega

theorem neg_sign (f : Fmt) (neg : Bool) : f.neg (f.sign neg) = neg := by
  cases neg with
  | false => simp [Fmt.neg, Fmt.sign, field_bit]
  | true => simp [Fmt.neg, Fmt.sign, field_bit, Nat.div_self (Nat.two_pow_pos _)]

theorem val_sign (h : 0 < f.eb) (neg : Bool) : f.val (f.sign neg) = .num neg 0 (1 - (f.bias : Int) - f.mb) := by
  have hneg : (field (f.sign neg) (f.eb + f.mb) (f.eb + f.mb) == 1) = neg := neg_sign f neg
  have hfr : f.sign neg % 2 ^ f.mb = 0 := by
    cases neg with
    | false => exact Nat.zero_mod _
    | true => exact Nat.mod_eq_zero_of_dvd (Nat.pow_dvd_pow 2 (Nat.le_add_left ..))
  have hex : f.sign neg / 2 ^ f.mb % 2 ^ f.eb = 0 := by
    cases neg with
    | false => simp [Fmt.sign]
    | true => rw [Fmt.sign, if_pos rfl, pow_add, Nat.mul_div_cancel _ (Nat.two_pow_pos _), Nat.mod_self]
  have hmax : f.emax ≠ 0 := by
    have : 2 ^ 1 ≤ 2 ^ f.eb := Nat.pow_le_pow_right (by decide) h
    rw [Fmt.emax]
    omega
  simp only [Fmt.val, hneg, hex, hfr, if_neg (Ne.symm hmax), if_true]

/-- R87. A magnitude that already stands at the format's last place is not rounded. -/
theorem round_at_last_place {rm : BitVec 2} {neg : Bool} {m : Nat} {e : Int} (hm : m ≠ 0)
    (he : max ((Nat.log2 m : Int) + e) (1 - (f.bias : Int)) - f.mb = e)
    (hlt : (e + f.mb + f.bias - 1).toNat * 2 ^ f.mb + m < f.emax * 2 ^ f.mb) :
    f.round rm (.num neg m e) = f.sign neg + ((e + f.mb + f.bias - 1).toNat * 2 ^ f.mb + m) := by
  simp only [Fmt.round, if_neg hm, he, Int.sub_self, Int.neg_zero, Int.le_refl, if_true, Int.toNat_zero, pow_zero, Nat.mul_one,
    if_neg (Nat.not_le.2 hlt)]

/-- R84, R87. A zero or a subnormal value rounds to its own bits. -/
theorem round_subnormal {rm : BitVec 2} {neg : Bool} {fr : Nat} (hfr : fr < 2 ^ f.mb) (hmax : 0 < f.emax) :
    f.round rm (.num neg fr (1 - (f.bias : Int) - f.mb)) = f.sign neg + fr := by
  by_cases hzero : fr = 0
  · rw [hzero, Fmt.round, if_pos rfl, Nat.add_zero]
  · have hlog : Nat.log2 fr < f.mb := (Nat.log2_lt hzero).2 hfr
    have hbe : (1 - (f.bias : Int) - f.mb + f.mb + f.bias - 1).toNat = 0 := by omega
    have hlt : 0 * 2 ^ f.mb + fr < f.emax * 2 ^ f.mb := by
      rw [Nat.zero_mul, Nat.zero_add]
      exact Nat.lt_of_lt_of_le hfr (Nat.le_mul_of_pos_left _ hmax)
    rw [round_at_last_place hzero (by omega) (by rwa [hbe]), hbe, Nat.zero_mul, Nat.zero_add]

/-- R84, R87. A normal value rounds to its own bits. -/
theorem round_normal {rm : BitVec 2} {neg : Bool} {ex fr : Nat} (hfr : fr < 2 ^ f.mb) (hpos : 0 < ex) (hmax : ex < f.emax) :
    f.round rm (.num neg (2 ^ f.mb + fr) ((ex : Int) - f.bias - f.mb)) = f.sign neg + (ex * 2 ^ f.mb + fr) := by
  have hlog : Nat.log2 (2 ^ f.mb + fr) = f.mb := by
    rw [Nat.log2_eq_iff (by omega), pow_succ]
    omega
  have hbe : ((ex : Int) - f.bias - f.mb + f.mb + f.bias - 1).toNat = ex - 1 := by omega
  have hmag : (ex - 1) * 2 ^ f.mb + (2 ^ f.mb + fr) = ex * 2 ^ f.mb + fr := by
    rw [← Nat.add_assoc, ← Nat.succ_mul, Nat.succ_eq_add_one, Nat.sub_add_cancel hpos]
  have hnext : (ex + 1) * 2 ^ f.mb ≤ f.emax * 2 ^ f.mb := Nat.mul_le_mul_right _ hmax
  rw [Nat.add_mul, Nat.one_mul] at hnext
  rw [round_at_last_place (by omega) (by rw [hlog]; omega) (by rw [hbe, hmag]; omega), hbe, hmag]

/-- R84, R87. Rounding undoes reading, but for a NaN's payload. -/
theorem round_val {rm : BitVec 2} (hx : x < 2 ^ (1 + f.eb + f.mb)) :
    f.round rm (f.val x) = if f.val x = .nan then f.nan else x := by
  have hbits := sign_add_fields hx
  have hfr : x % 2 ^ f.mb < 2 ^ f.mb := Nat.mod_lt _ (Nat.two_pow_pos _)
  have hex : x / 2 ^ f.mb % 2 ^ f.eb < f.emax + 1 := by
    rw [Fmt.emax, Nat.sub_add_cancel (Nat.two_pow_pos _)]
    exact Nat.mod_lt _ (Nat.two_pow_pos _)
  rw [Fmt.neg] at hbits
  rw [Fmt.val]
  generalize x / 2 ^ f.mb % 2 ^ f.eb = ex at *
  generalize x % 2 ^ f.mb = fr at *
  generalize (field x (f.eb + f.mb) (f.eb + f.mb) == 1) = neg at *
  by_cases hmax : ex = f.emax
  · rw [if_pos hmax]
    by_cases hzero : fr = 0
    · rw [if_pos hzero, if_neg nofun, Fmt.round, ← hbits, hmax, hzero, Nat.add_zero]
    · rw [if_neg hzero, if_pos rfl, Fmt.round]
  · rw [if_neg hmax]
    by_cases hsub : ex = 0
    · rw [if_pos hsub, if_neg nofun, round_subnormal hfr (by omega), ← hbits, hsub, Nat.zero_mul, Nat.zero_add]
    · rw [if_neg hsub, if_neg nofun, round_normal hfr (by omega) (by omega), hbits]

end

/-- Settles O20: in every format, whatever its field widths. -/
theorem representableValuesRoundToThemselves : Obligations.RepresentableValuesRoundToThemselves :=
  fun _ _ _ _ hx => round_val hx

/-! ### Order (R84, R85) -/

/-- R85. Only a NaN is unordered. -/
theorem cmp_eq_un_iff (a b : Machine.Num) : a.cmp b = .un ↔ a = .nan ∨ b = .nan := by
  cases a with
  | nan => simp [Machine.Num.cmp]
  | inf n =>
    cases b with
    | nan => simp [Machine.Num.cmp]
    | inf n' => cases n <;> cases n' <;> simp [Machine.Num.cmp]
    | num n' m e => cases n <;> simp [Machine.Num.cmp]
  | num n m e =>
    cases b with
    | nan => simp [Machine.Num.cmp]
    | inf n' => cases n' <;> simp [Machine.Num.cmp]
    | num n' m' e' =>
      simp only [Machine.Num.cmp, reduceCtorEq, or_self, iff_false]
      split
      · nofun
      · split <;> nofun

theorem scaled_zero (neg : Bool) (e low : Int) : scaled neg 0 e low = 0 := by simp [scaled]

/-- R85. Zeros of either sign are equal. -/
theorem cmp_zeros (n n' : Bool) (e e' : Int) : (Machine.Num.num n 0 e).cmp (.num n' 0 e') = .eq := by
  simp [Machine.Num.cmp, scaled_zero]

section
variable {f : Fmt} {mx : Bool} {x y : Nat}

/-- R84, R85. A NaN on the left gives the other operand, or the canonical NaN where that is one too. -/
theorem minmax_nan_left (hx : f.val x = .nan) : f.minmax mx x y = if f.val y = .nan then f.nan else y := by
  simp only [Fmt.minmax, (cmp_eq_un_iff _ (f.val y)).2 (Or.inl hx), if_pos hx]

theorem minmax_nan_right (hx : f.val x ≠ .nan) (hy : f.val y = .nan) : f.minmax mx x y = x := by
  simp only [Fmt.minmax, (cmp_eq_un_iff _ _).2 (Or.inr hy), if_neg hx]

/-- R85. Of two zeros the minimum is a negative one and the maximum a positive one, where there is one. -/
theorem minmax_signs (h : 0 < f.eb) (n n' : Bool) :
    f.minmax mx (f.sign n) (f.sign n') = if n == mx then f.sign n' else f.sign n := by
  have hneg : (field (f.sign n) (f.eb + f.mb) (f.eb + f.mb) == 1) = n := neg_sign f n
  simp only [Fmt.minmax, val_sign h, cmp_zeros, hneg]

end

/-- Settles O21, by the order of two values: unordered with a NaN, equal for zeros. -/
theorem minMaxAndCompareRules : Obligations.MinMaxAndCompareRules := by
  intro f x y hf _ _
  have heb : 0 < f.eb := by rcases hf with rfl | rfl | rfl <;> decide
  refine ⟨fun mx hx hy => ?_, fun mx hx hy => ?_, fun mx hx hy => minmax_nan_right hx hy, minmax_signs heb true false,
    minmax_signs heb false true, minmax_signs heb true false, minmax_signs heb false true, ?_, (cmp_eq_un_iff _ _).symm⟩
  · rw [minmax_nan_left hx, if_pos hy]
  · rw [minmax_nan_left hx, if_neg hy]
  · rw [val_sign heb, val_sign heb, cmp_zeros]

end Sys2Proof.Proofs
end

section
/-!
PROOFS. Words of elements and instructions with a vector result: each element of the result by itself (R83, R89, R195, R236).
-/

namespace Sys2Proof.Proofs

open Sys2Proof Sys2Proof.Machine Sys2Proof.Statements

/-! ### Elements of a word (R83, R89) -/

/-- The number whose digits to the base 2^w are f 0, f 1, … f (n - 1), each modulo the base. -/
def digitSum (w n : Nat) (f : Nat → Nat) : Nat := (List.range n).foldr (fun k acc => f k % 2 ^ w * 2 ^ (w * k) + acc) 0

theorem packElems_eq (w n : Nat) (f : Nat → Nat) : packElems w n f = BitVec.ofNat 32 (digitSum w n f) := rfl

section
variable {w : Nat} {f : Nat → Nat}

theorem foldr_add_start (g : Nat → Nat) (ks : List Nat) (a : Nat) :
    ks.foldr (fun k acc => g k + acc) a = ks.foldr (fun k acc => g k + acc) 0 + a := by
  induction ks with
  | nil => exact (Nat.zero_add a).symm
  | cons k ks ih => rw [List.foldr_cons, List.foldr_cons, ih, Nat.add_assoc]

theorem digitSum_succ (n : Nat) : digitSum w (n + 1) f = digitSum w n f + f n % 2 ^ w * 2 ^ (w * n) := by
  rw [digitSum, List.range_succ, List.foldr_append, foldr_add_start (fun k => f k % 2 ^ w * 2 ^ (w * k))]
  rfl

theorem digitSum_lt (n : Nat) : digitSum w n f < 2 ^ (w * n) := by
  induction n with
  | zero => exact Nat.two_pow_pos _
  | succ n ih =>
    have hd : f n % 2 ^ w + 1 ≤ 2 ^ w := Nat.mod_lt _ (Nat.two_pow_pos w)
    have hp := Nat.mul_le_mul_right (2 ^ (w * n)) hd
    rw [Nat.add_mul, Nat.one_mul, ← pow_add, Nat.add_comm w] at hp
    rw [digitSum_succ, Nat.mul_succ]
    omega

theorem digit_digitSum {n k : Nat} (hk : k < n) : digitSum w n f / 2 ^ (w * k) % 2 ^ w = f k % 2 ^ w := by
  induction n with
  | zero => exact absurd hk (Nat.not_lt_zero k)
  | succ n ih =>
    rw [digitSum_succ]
    by_cases hn : k = n
    · rw [hn, Nat.add_mul_div_right _ _ (Nat.two_pow_pos _), Nat.div_eq_of_lt (digitSum_lt n), Nat.zero_add, Nat.mod_mod]
    · have hpow : 2 ^ (w * n) = 2 ^ w * 2 ^ (w * (n - k - 1)) * 2 ^ (w * k) := by
        rw [← pow_add, ← pow_add, Nat.add_comm w, ← Nat.mul_succ, ← Nat.mul_add]
        congr 2
        omega
      rw [hpow, ← Nat.mul_assoc, Nat.add_mul_div_right _ _ (Nat.two_pow_pos _), Nat.mul_left_comm, Nat.add_mul_mod_self_left]
      exact ih (by omega)

theorem elem_packElems {n k : Nat} (hn : w * n ≤ 32) (hk : k < n) : elem w (packElems w n f) k = f k % 2 ^ w := by
  have hlt : digitSum w n f < 2 ^ 32 := Nat.lt_of_lt_of_le (digitSum_lt n) (Nat.pow_le_pow_right (by decide) hn)
  rw [elem, packElems_eq, BitVec.toNat_ofNat, Nat.mod_eq_of_lt hlt, digit_digitSum hk]

/-- An operation on each element gives each element of the result. -/
theorem elementwise_map1 (g : Nat → Nat) (x : Word) : Elementwise w (map1 w g x) (fun k => g (elem w x k)) := by
  intro k hk
  rw [map1, elem_packElems (Nat.mul_div_le 32 w) hk, Int.natCast_mod]

end

/-! ### Instructions with a vector result (R195, R224) -/

section
variable {s s1 : State} {i : Instr} {d : BitVec 7} {t : BitVec 4} {vs : List VReg}

/-- An instruction that reads its operands and completes yields what it computes from them. -/
theorem yields_vec {e : State → State} {srcs : List Src} {fp rawOk : Bool} {accept : List (BitVec 4)}
    {u : BitVec 4 → BitVec 4} {f : BitVec 4 → List VReg → Nat → Word} {P : Nat → Word → Prop} (hexec : exec i s = s.gate i e)
    (he : e s = s.vec srcs d fp accept rawOk (fun t vs => (u t, f t vs))) (hover : s.overCount i = none)
    (hread : s.vecRead srcs (some d) fp accept rawOk noCheck = .ok (s1, t, vs))
    (hP : ∀ l : Nat, l < 32 → bit s.iss.set l = true → P l (f t vs l)) : Yields s s1 i d (u t) P := by
  refine ⟨f t vs, ?_, hP⟩
  have hread' : s.vecRead srcs (some d) fp accept rawOk (fun _ => none) = .ok (s1, t, vs) := hread
  rw [hexec, gate_none e hover, he, State.vec, hread']

/-- R233, R236. A floating-point member of one source, element by element. -/
theorem yields_float1 {a : BitVec 7} {x : VReg} {g : BitVec 2 → Bool → Fmt → Nat → Nat}
    (hexec : exec i s = s.gate i (fun s => s.float1 d a g)) (hover : s.overCount i = none)
    (hread : s.vecRead [Src.typed a] (some d) true floatTags false noCheck = .ok (s1, t, [x])) :
    Yields s s1 i d t (fun l r => Elementwise (elemBits t) r (fun k => g s.rm s.ftz (fmtOf t) (elem (elemBits t) (x.at l) k))) :=
  yields_vec (u := fun t => t) (f := fun t vs l => map1 (elemBits t) (g s.rm s.ftz (fmtOf t)) ((arg vs 0).at l)) hexec rfl hover
    hread (fun _ _ _ => elementwise_map1 _ _)

end

/-! ### The special functions (R109, R236) -/

/-- Settles O23: the operation on each element, and the branches of the algorithms that special operands take. -/
theorem specialFunctionResults : Obligations.SpecialFunctionResults := by
  refine ⟨fun s s1 d a t x => ?_, fun g => by cases g <;> rfl, fun n e => ⟨rfl, rfl, rfl, rfl, rfl, rfl, rfl, rfl, rfl⟩,
    rfl, rfl, rfl, rfl, rfl, rfl, fun m e hm => ⟨?_, ?_⟩⟩
  · exact ⟨yields_float1 (exec_rcp d a s), yields_float1 (exec_rsq d a s), yields_float1 (exec_exp2 d a s),
      yields_float1 (exec_log2 d a s), yields_float1 (exec_sin d a s), yields_float1 (exec_cos d a s)⟩
  · rw [SpecFn.eval, if_neg hm, if_pos rfl]
  · rw [SpecFn.eval, if_neg hm, if_pos rfl]

end Sys2Proof.Proofs
end

section
/-!
PROOFS. Rounding to an integer and the range of an integer element (R87, R89, R105).
-/

namespace Sys2Proof.Proofs

open Sys2Proof Sys2Proof.Machine Sys2Proof.Statements

/-! ### Rounding a magnitude to an integer (R87) -/

/-- The magnitude of ±m × 2^e rounded to an integer. -/
def roundedMag (rm : BitVec 2) (neg : Bool) (m : Nat) (e : Int) : Nat :=
  if 0 ≤ e then m * 2 ^ e.toNat
  else m / 2 ^ (-e).toNat + (if roundsUp rm neg (m / 2 ^ (-e).toNat % 2 == 1) (m % 2 ^ (-e).toNat) (2 ^ (-e).toNat) then 1 else 0)

theorem roundInt_eq (rm : BitVec 2) (neg : Bool) (m : Nat) (e : Int) :
    roundInt rm neg m e = if neg then -(roundedMag rm neg m e : Int) else roundedMag rm neg m e := rfl

section
variable {neg odd : Bool} {r u : Nat}

theorem roundsUp_zero (rm : BitVec 2) : roundsUp rm neg odd 0 u = false := if_pos rfl

theorem roundsUp_nearest (hr : r ≠ 0) : roundsUp 0 neg odd r u = true ↔ u < 2 * r ∨ 2 * r = u ∧ odd = true := by
  rw [roundsUp, if_neg hr, if_pos rfl]
  split
  next h => simp [h]
  next h => simp [h]

theorem roundsUp_toward_zero (hr : r ≠ 0) : roundsUp 1 neg odd r u = false := if_neg hr

theorem roundsUp_up (hr : r ≠ 0) : roundsUp 2 neg odd r u = !neg := if_neg hr

theorem roundsUp_down (hr : r ≠ 0) : roundsUp 3 neg odd r u = neg := if_neg hr

end

theorem mode_cases : ∀ rm : BitVec 2, rm = 0 ∨ rm = 1 ∨ rm = 2 ∨ rm = 3 := by decide

section
variable {rm : BitVec 2} {neg : Bool} {m : Nat} {e : Int}

/-- A value of exponent 0 or above is an integer, and every mode gives it back. -/
theorem roundsTo_of_nonneg (he : 0 ≤ e) : RoundsTo rm neg m e (m * 2 ^ e.toNat) := by
  have hu : (-e).toNat = 0 := by omega
  simp only [RoundsTo, hu, pow_zero, Nat.cast_one, Int.mul_one]
  generalize m * 2 ^ e.toNat = v
  split_ifs <;> omega

/-- Below the point, the quotient by the unit is the integer below; what is left over decides as the mode says. -/
theorem roundsTo_of_neg (he : e < 0) :
    RoundsTo rm neg m e (m / 2 ^ (-e).toNat +
      (if roundsUp rm neg (m / 2 ^ (-e).toNat % 2 == 1) (m % 2 ^ (-e).toNat) (2 ^ (-e).toNat) then 1 else 0)) := by
  have hexp : e.toNat = 0 := by omega
  have hdiv := Nat.div_add_mod' m (2 ^ (-e).toNat)
  have hrem := Nat.mod_lt m (Nat.two_pow_pos (-e).toNat)
  simp only [RoundsTo, hexp, pow_zero, Nat.mul_one]
  generalize 2 ^ (-e).toNat = u at *
  generalize m / u = q at *
  generalize m % u = r at *
  have hbelow : ((q + 0 : Nat) : Int) * u = m - r := by rw [← hdiv]; push_cast; ring
  have habove : ((q + 1 : Nat) : Int) * u = m - r + u := by rw [← hdiv]; push_cast; ring
  by_cases hr : r = 0
  · rw [hr, roundsUp_zero, if_neg Bool.false_ne_true, hbelow]
    split_ifs <;> omega
  · obtain rfl | rfl | rfl | rfl := mode_cases rm
    · have hnear := roundsUp_nearest (neg := neg) (odd := q % 2 == 1) (u := u) hr
      rw [beq_iff_eq] at hnear
      rw [if_pos rfl]
      by_cases h : u < 2 * r ∨ 2 * r = u ∧ q % 2 = 1
      · rw [if_pos (hnear.2 h), habove]
        omega
      · rw [if_neg (mt hnear.1 h), hbelow]
        omega
    · rw [roundsUp_toward_zero hr, if_neg Bool.false_ne_true, hbelow, if_neg (by decide), if_pos rfl]
      omega
    · rw [roundsUp_up hr, if_neg (by decide), if_neg (by decide), if_pos rfl]
      cases neg <;> simp only [Bool.not_false, Bool.not_true, Bool.false_eq_true, if_true, if_false, hbelow, habove] <;> omega
    · rw [roundsUp_down hr, if_neg (by decide), if_neg (by decide), if_neg (by decide)]
      cases neg <;> simp only [Bool.false_eq_true, if_true, if_false, hbelow, habove] <;> omega

theorem roundsTo_roundedMag : RoundsTo rm neg m e (roundedMag rm neg m e) := by
  rw [roundedMag]
  split
  · exact roundsTo_of_nonneg ‹_›
  · exact roundsTo_of_neg (by omega)

end

/-! ### The range of an integer element (R89, R105) -/

theorem clampInt_eq (n : Nat) (v : Int) :
    clampInt n v = max (-((2 ^ (n - 1) : Nat) : Int)) (min (((2 ^ (n - 1) : Nat) : Int) - 1) v) := by
  have := Nat.two_pow_pos (n - 1)
  rw [clampInt]
  split_ifs <;> omega

theorem clampNat_eq (n : Nat) (v : Int) : clampNat n v = max 0 (min (((2 ^ n : Nat) : Int) - 1) v) := by
  have := Nat.two_pow_pos n
  rw [clampNat]
  split_ifs <;> omega

/-- R89. A number within the range of w bits is the value of its own two's complement bits. -/
theorem sextInt_wrapBits {w : Nat} {v : Int} (hw : 0 < w) (hlo : -(2 ^ (w - 1) : Nat) ≤ v) (hhi : v < (2 ^ (w - 1) : Nat)) :
    sextInt w (wrapBits w v) = v := by
  have hpow : 2 ^ w = 2 * 2 ^ (w - 1) := by rw [← pow_succ', Nat.sub_add_cancel hw]
  have hmod : v % (2 ^ w : Nat) = if v < 0 then v + (2 ^ w : Nat) else v := by
    split
    · rw [← Int.add_emod_right, Int.emod_eq_of_lt (by omega) (by omega)]
    · exact Int.emod_eq_of_lt (by omega) (by omega)
  rw [sextInt, wrapBits, hmod, Nat.mod_eq_of_lt (by split <;> omega)]
  split_ifs <;> omega

theorem elemBits_pos : ∀ t : BitVec 4, 0 < elemBits t := by decide

theorem elemBits_le : ∀ t : BitVec 4, elemBits t ≤ 32 := by decide

/-- R105. Clamping to an element's range saturates at its least and its greatest integer. -/
theorem intVal_clampTo (t : BitVec 4) (v : Int) : intVal t (clampTo t v) = max (leastOf t) (min (mostOf t) v) := by
  by_cases ht : t = 5
  · rw [intVal, clampTo, leastOf, mostOf, if_pos ht, if_pos ht, if_pos ht, if_pos ht, clampNat_eq]
    omega
  · have := Nat.two_pow_pos (elemBits t - 1)
    rw [intVal, clampTo, leastOf, mostOf, if_neg ht, if_neg ht, if_neg ht, if_neg ht, clampInt_eq,
      sextInt_wrapBits (elemBits_pos t) (by omega) (by omega)]

/-- R105. An infinity saturates: the model's stand-in for it lies beyond every element's range. -/
theorem intVal_clampTo_inf (t : BitVec 4) (neg : Bool) :
    intVal t (clampTo t (if neg then -(2 ^ 40) else 2 ^ 40)) = if neg then leastOf t else mostOf t := by
  have hbits : 2 ^ (elemBits t - 1) ≤ 2 ^ 31 := Nat.pow_le_pow_right (by decide) (by have := elemBits_le t; omega)
  have hpos := Nat.two_pow_pos (elemBits t - 1)
  rw [intVal_clampTo, leastOf, mostOf]
  split_ifs <;> omega

end Sys2Proof.Proofs
end

section
/-!
PROOFS. What reading sources keeps of the issuing course, and a run of registers written at once (R240, R246, R247).
-/

namespace Sys2Proof.Proofs

open Sys2Proof Sys2Proof.Machine Sys2Proof.Statements

/-! ### Popping sources keeps the registers (R247) -/

/-- Course c of consort k stands in t if it does in s, with the same vector and scalar registers. -/
def KeepsRegs (s t : State) (k c : Nat) : Prop :=
  (Stands s k c → Stands t k c) ∧ (t.crs k c).v = (s.crs k c).v ∧ (t.crs k c).s = (s.crs k c).s

section
variable {s t u : State} {k c : Nat}

theorem KeepsRegs.refl (s : State) (k c : Nat) : KeepsRegs s s k c := ⟨id, rfl, rfl⟩

theorem KeepsRegs.trans (h : KeepsRegs s t k c) (g : KeepsRegs t u k c) : KeepsRegs s u k c := by
  obtain ⟨hst, hv, hs⟩ := h
  obtain ⟨gst, gv, gs⟩ := g
  exact ⟨fun e => gst (hst e), gv.trans hv, gs.trans hs⟩

theorem keepsRegs_portDrop (s : State) (k c q n : Nat) : KeepsRegs s (s.portDrop k c q n) k c := by
  rw [State.portDrop]
  split
  · exact ⟨fun h => stands_modCons h, congrArg Course.v crs_modCons, congrArg Course.s crs_modCons⟩
  · exact ⟨fun h => modCrs_stands h, crs_modCrs_field (g := Course.v) (fun _ => rfl) (fun _ => rfl),
      crs_modCrs_field (g := Course.s) (fun _ => rfl) (fun _ => rfl)⟩

theorem keepsRegs_popOne {v : BitVec 7} {n : Nat} {es : List Elem} (h : s.popOne v n = some (t, es)) :
    OnlyConsorts s t ∧ KeepsRegs s t s.iss.k s.iss.c := by
  rw [State.popOne] at h
  split at h
  · dsimp only at h
    split at h
    · cases h
    · cases h
      exact ⟨portDrop_only _ _ _ _ _, keepsRegs_portDrop _ _ _ _ _⟩
  · cases h
    exact ⟨.refl s, .refl s _ _⟩

theorem keepsRegs_popAll {n : Nat} {vs : List (BitVec 7)} {ess : List (List Elem)} (h : s.popAll n vs = some (t, ess)) :
    KeepsRegs s t s.iss.k s.iss.c := by
  induction vs generalizing s ess with
  | nil =>
    cases h
    exact .refl _ _ _
  | cons v vs ih =>
    rw [State.popAll] at h
    cases hone : s.popOne v n with
    | none =>
      rw [hone] at h
      cases h
    | some r =>
      obtain ⟨s1, es⟩ := r
      obtain ⟨honly, hkeep⟩ := keepsRegs_popOne hone
      rw [hone] at h
      cases hrest : s1.popAll n vs with
      | none => simp [hrest] at h
      | some r =>
        simp only [hrest, Option.some.injEq, Prod.mk.injEq] at h
        obtain ⟨rfl, -⟩ := h
        have := ih hrest
        rw [honly.iss] at this
        exact hkeep.trans this

theorem keepsRegs_takeSrcs {srcs : List (BitVec 7)} {dst : Option (BitVec 7)} {n : Nat} {xs : List (List Elem × VReg)}
    (h : s.takeSrcs srcs dst n = .ok (t, xs)) : KeepsRegs s t s.iss.k s.iss.c := by
  rw [State.takeSrcs] at h
  split at h
  · cases h
  · split at h
    · cases h
    · split at h
      · cases h
      · next hpop _ _ =>
        cases h
        exact keepsRegs_popAll hpop

/-- R93, R247. Reading sources that every tag suits is taking them, none of them at fault. -/
theorem takeSrcs_of_readSrcs {srcs : List (BitVec 7)} {dst : Option (BitVec 7)} {n : Nat} {vs : List VReg}
    (h : s.readSrcs srcs dst n = .ok (t, vs)) :
    ∃ xs, s.takeSrcs srcs dst n = .ok (t, xs) ∧ xs.map (·.2) = vs ∧ ∀ z ∈ srcs.zip xs, badSource z.2 = false := by
  rw [State.readSrcs] at h
  cases htake : s.takeSrcs srcs dst n with
  | error e =>
    rw [htake] at h
    cases h
  | ok r =>
    obtain ⟨s1, xs⟩ := r
    simp only [htake] at h
    split at h
    · cases h
    · next hgood =>
      cases h
      exact ⟨xs, rfl, rfl, fun z hz => Bool.eq_false_iff.2 (List.find?_eq_none.1 hgood z hz)⟩

/-- R52, R223. Sources that are taken, of the type that their tags give and none of them at fault, are read. -/
theorem vecRead_of_takeSrcs {srcs : List Src} {d : Option (BitVec 7)} {fp rawOk : Bool} {accept : List (BitVec 4)} {ty : BitVec 4}
    {check : List VReg → Option (Cause × Nat)} {xs : List (List Elem × VReg)} (hfp : s.lacksFp16 srcs d fp = false)
    (htake : s.takeSrcs (srcs.map (·.v)) d 1 = .ok (t, xs))
    (hty : typeOf (((srcs.zip xs).filter (fun x => x.1.role.isNone)).map (·.2.2.tag)) = ty)
    (hgood : ∀ z ∈ srcs.zip xs, z.1.fault ty accept rawOk z.2 = false) (hcheck : check (xs.map (·.2)) = none) :
    s.vecRead srcs d fp accept rawOk check = .ok (t, ty, xs.map (·.2)) := by
  have hnone : (srcs.zip xs).find? (fun z => z.1.fault ty accept rawOk z.2) = none :=
    List.find?_eq_none.2 (fun z hz => Bool.eq_false_iff.1 (hgood z hz))
  simp only [State.vecRead, hfp, Bool.false_eq_true, if_false, htake, hty, hnone, hcheck]

end

/-! ### A run of registers (R240) -/

/-- Registers n to n + m - 1 written in the lanes of set, register n + j by f j. -/
def putRun (c : Course) (n m : Nat) (t : BitVec 4) (set : BitVec 32) (f : Nat → Nat → Word) : Course :=
  forAll (List.range m) c (fun c j => c.putV (n + j) t set (f j))

section
variable {c : Course} {n m : Nat} {t : BitVec 4} {set : BitVec 32} {f : Nat → Nat → Word}

theorem putRun_succ : putRun c n (m + 1) t set f = (putRun c n m t set f).putV (n + m) t set (f m) := by
  rw [putRun, forAll, List.range_succ, List.foldl_append]
  rfl

/-- A part of a course that no vector register is in stays. -/
theorem putRun_field {β : Type} (g : Course → β) (hg : ∀ c n t m f, g (Course.putV c n t m f) = g c) :
    g (putRun c n m t set f) = g c := by
  induction m with
  | zero => rfl
  | succ m ih => rw [putRun_succ, hg, ih]

theorem getV_putRun_outside {v : Nat} (hv : v < n ∨ n + m ≤ v) : (putRun c n m t set f).getV v = c.getV v := by
  induction m with
  | zero => rfl
  | succ m ih => rw [putRun_succ, getV_putV_ne (by omega), ih (by omega)]

theorem getV_putRun {j : Nat} (hj : j < m) (hn : n + m ≤ 112) : (putRun c n m t set f).getV (n + j) =
    { tag := t, lanes := vof 32 (fun l => if bit set l then f j l else (c.getV (n + j)).at l) } := by
  induction m with
  | zero => exact absurd hj (Nat.not_lt_zero j)
  | succ m ih =>
    rw [putRun_succ]
    by_cases h : j = m
    · rw [h, getV_putV_same (by omega), getV_putRun_outside (Or.inr (Nat.le_refl _))]
    · rw [getV_putV_ne (by omega), ih (by omega) (by omega)]

end

/-! ### Completing with a change of the course (R195) -/

section
variable {s : State} (hst : Stands s s.iss.k s.iss.c)
include hst

theorem me_moved {f : Course → Course} (hf : ∀ x, (f x).idx = x.idx) :
    (moved s f).me = { (f s.me).setLpc s.iss.set (fun _ => refAdd s.iss.at_ s.iss.len) with stall := none } :=
  crs_modCrs_same hst hf

/-- A run of registers is written, and every other register, the ports and the channels stay. -/
theorem moved_putRun {n m : Nat} {t : BitVec 4} {set : BitVec 32} {f : Nat → Nat → Word} (hn : n + m ≤ 112) :
    let u := moved s (fun c => putRun c n m t set f)
    (∀ j : Nat, j < m → (u.me.getV (n + j)).tag = t ∧
      ∀ l : Nat, l < 32 → bit set l = true → (u.me.getV (n + j)).at l = f j l) ∧
    (∀ v : Nat, v < n ∨ n + m ≤ v → u.me.getV v = s.me.getV v) ∧ u.me.s = s.me.s ∧ u.me.ports = s.me.ports ∧
    u.mine.channels = s.mine.channels := by
  intro u
  have hme : u.me = _ := me_moved hst (fun c => putRun_field Course.idx (fun _ _ _ _ _ => rfl))
  have hget (v : Nat) : u.me.getV v = (putRun s.me n m t set f).getV v := by
    rw [hme]
    rfl
  refine ⟨fun j hj => ?_, fun v hv => ?_, ?_, ?_, channels_modCrs hst⟩
  · rw [hget, getV_putRun hj hn]
    refine ⟨rfl, fun l hl hbit => ?_⟩
    rw [VReg.at, vget_vof _ _ hl, if_pos hbit]
  · rw [hget, getV_putRun_outside hv]
  · rw [hme]
    exact putRun_field Course.s (fun _ _ _ _ _ => rfl)
  · rw [hme]
    exact putRun_field Course.ports (fun _ _ _ _ _ => rfl)

end

end Sys2Proof.Proofs
end

section
/-!
PROOFS. Conversions and the codebook decoder (R105, R106, R238 to R240).
-/

namespace Sys2Proof.Proofs

open Sys2Proof Sys2Proof.Machine Sys2Proof.Statements

/-! ### One element converted (R105) -/

theorem isFloatTag_eq : ∀ t : BitVec 4, isFloatTag t = (t = 1 || t = 2 || t = 3) := by decide

section
variable {m : BitVec 2} {ftz : Bool} {st dt : BitVec 4} {x : Nat}

theorem cvtElem_float_float (hs : isFloatTag st = true) (hd : isFloatTag dt = true) :
    cvtElem m ftz st dt x = (fmtOf dt).write m ftz ((fmtOf st).read ftz x) := by
  simp only [cvtElem, hs, hd, if_true]

theorem cvtElem_of_nan (hs : isFloatTag st = true) (hd : isFloatTag dt = false) (hv : (fmtOf st).read ftz x = .nan) :
    cvtElem m ftz st dt x = 0 := by
  simp only [cvtElem, hs, hd, hv, if_true, Bool.false_eq_true, if_false]

theorem intVal_cvtElem_of_inf {neg : Bool} (hs : isFloatTag st = true) (hd : isFloatTag dt = false)
    (hv : (fmtOf st).read ftz x = .inf neg) :
    intVal dt (cvtElem m ftz st dt x) = if neg then leastOf dt else mostOf dt := by
  simp only [cvtElem, hs, hd, hv, if_true, Bool.false_eq_true, if_false]
  exact intVal_clampTo_inf dt neg

theorem intVal_cvtElem_of_num {neg : Bool} {a : Nat} {e : Int} (hs : isFloatTag st = true) (hd : isFloatTag dt = false)
    (hv : (fmtOf st).read ftz x = .num neg a e) : intVal dt (cvtElem m ftz st dt x) =
      max (leastOf dt) (min (mostOf dt) (if neg then -(roundedMag m neg a e : Int) else roundedMag m neg a e)) := by
  simp only [cvtElem, hs, hd, hv, if_true, Bool.false_eq_true, if_false, roundInt_eq, intVal_clampTo]

theorem cvtElem_int_float (hs : isFloatTag st = false) (hd : isFloatTag dt = true) :
    cvtElem m ftz st dt x = (fmtOf dt).write m ftz (.num (decide (intVal st x < 0)) (intVal st x).natAbs 0) := by
  simp only [cvtElem, hs, hd, if_true, Bool.false_eq_true, if_false, Machine.Num.ofInt]
  split
  next h => rw [h]; rfl
  next h => rfl

theorem intVal_cvtElem_int_int (hs : isFloatTag st = false) (hd : isFloatTag dt = false) :
    intVal dt (cvtElem m ftz st dt x) = max (leastOf dt) (min (mostOf dt) (intVal st x)) := by
  simp only [cvtElem, hs, hd, Bool.false_eq_true, if_false, intVal_clampTo]

end

/-! ### CVT, PACK and UNPACK (R238, R239) -/

section
variable {s s1 : State} {d a b : BitVec 7} {t : BitVec 4} {x y : VReg}

/-- R238. Source element k becomes result element k; the result elements beyond the source's are zero. -/
theorem elem_cvtWord {m : BitVec 2} {ftz : Bool} {st dt : BitVec 4} {p : Word} {k : Nat} (hk : k < 32 / elemBits dt) :
    elem (elemBits dt) (cvtWord m ftz st dt p) k =
      if k < 32 / elemBits st then cvtElem m ftz st dt (elem (elemBits st) p k) % 2 ^ elemBits dt else 0 := by
  rw [cvtWord, elem_packElems (Nat.mul_div_le 32 _) hk]
  split
  · rfl
  · exact Nat.zero_mod _

theorem elem_widenWord {ftz hi : Bool} {p : Word} {k : Nat} (hk : k < 32 / elemBits (widerTag t)) :
    elem (elemBits (widerTag t)) (widenWord ftz hi t p) k =
      cvtElem 0 ftz t (widerTag t) (elem (elemBits t) p (k + (if hi then 32 / elemBits (widerTag t) else 0))) %
        2 ^ elemBits (widerTag t) :=
  elem_packElems (Nat.mul_div_le 32 _) hk

theorem toNat_packWord (p q : Word) : (packWord p q).toNat = p.toNat % 2 ^ 16 + q.toNat % 2 ^ 16 * 2 ^ 16 := by
  rw [packWord, BitVec.toNat_ofNat]
  omega

theorem yields_cvt {tt : BitVec 4} {m : BitVec 2} (hover : s.overCount (.cvt d a tt m) = none)
    (hread : s.vecRead [Src.typed a] (some d) false (cvtSources tt) false noCheck = .ok (s1, t, [x])) :
    Yields s s1 (.cvt d a tt m) d tt (fun l r => ∀ k : Nat, k < 32 / elemBits tt → elem (elemBits tt) r k =
      if k < 32 / elemBits t then cvtElem m s.ftz t tt (elem (elemBits t) (x.at l) k) % 2 ^ elemBits tt else 0) :=
  yields_vec (u := fun _ => tt) (f := fun st vs l => cvtWord m s.ftz st tt ((arg vs 0).at l)) (exec_cvt d a tt m s) rfl hover hread
    (fun _ _ _ _ hk => elem_cvtWord hk)

theorem yields_pack (hover : s.overCount (.pack d a b) = none)
    (hread : s.vecRead [Src.typed a, Src.typed b] (some d) false packTags false noCheck = .ok (s1, t, [x, y])) :
    Yields s s1 (.pack d a b) d t (fun l r => r.toNat = (x.at l).toNat % 2 ^ 16 + (y.at l).toNat % 2 ^ 16 * 2 ^ 16) :=
  yields_vec (u := fun t => t) (f := fun _ vs l => packWord ((arg vs 0).at l) ((arg vs 1).at l)) (exec_pack d a b s) rfl hover hread
    (fun _ _ _ => toNat_packWord _ _)

theorem exec_unpack (hi : Bool) (d a : BitVec 7) (s : State) : exec (if hi then .unpackhi d a else .unpacklo d a) s =
    s.gate (if hi then .unpackhi d a else .unpacklo d a) (fun s => s.unpack d a hi) := by
  cases hi with
  | false => exact exec_unpacklo d a s
  | true => exact exec_unpackhi d a s

theorem yields_unpack {hi : Bool} (hover : s.overCount (if hi then .unpackhi d a else .unpacklo d a) = none)
    (hread : s.vecRead [Src.typed a] (some d) false packTags false noCheck = .ok (s1, t, [x])) :
    Yields s s1 (if hi then .unpackhi d a else .unpacklo d a) d (widerTag t) (fun l r =>
      ∀ k : Nat, k < 32 / elemBits (widerTag t) → elem (elemBits (widerTag t)) r k = cvtElem 0 s.ftz t (widerTag t)
        (elem (elemBits t) (x.at l) (k + (if hi then 32 / elemBits (widerTag t) else 0))) % 2 ^ elemBits (widerTag t)) :=
  yields_vec (u := widerTag) (f := fun t vs l => widenWord s.ftz hi t ((arg vs 0).at l)) (exec_unpack hi d a s) rfl hover hread
    (fun _ _ _ _ hk => elem_widenWord hk)

end

/-! ### QDEC (R106, R240) -/

/-- The values that QDEC's codes have under a tag. -/
def codebook (s : State) (t : BitVec 4) : Nat → Machine.Num := if t = 10 then s.qpVal s.core.ctgen else q16nVal

section
variable {s s1 : State} {g : BitVec 5} {a b : BitVec 7} {p q : VReg}

/-- QDEC reads its two sources where the codes have a codebook and the factor is an F32. -/
theorem vecRead_codes {check : List VReg → Option (Cause × Nat)} (hread : s.readSrcs [a, b] none 1 = .ok (s1, [p, q]))
    (hp : p.tag = 9 ∨ p.tag = 10) (hq : q.tag = 1) (hcheck : check [p, q] = none) :
    s.vecRead [Src.typed a, Src.of b [1]] none false [9, 10] false check = .ok (s1, p.tag, [p, q]) := by
  obtain ⟨xs, htake, hvals, hgood⟩ := takeSrcs_of_readSrcs hread
  obtain ⟨⟨es, p'⟩, xs', rfl, hp', hxs'⟩ := List.map_eq_cons_iff.1 hvals
  obtain ⟨⟨es', q'⟩, xs'', rfl, hq', hxs''⟩ := List.map_eq_cons_iff.1 hxs'
  obtain rfl := List.map_eq_nil_iff.1 hxs''
  obtain rfl : p' = p := hp'
  obtain rfl : q' = q := hq'
  have hne : p'.tag ≠ 0 := by rcases hp with h | h <;> rw [h] <;> decide
  have hacc : p'.tag ∈ [9, 10] := List.mem_pair.2 hp
  have hfa : (Src.typed a).fault p'.tag [9, 10] false (es, p') = false := by
    rw [Src.fault, hgood (a, es, p') (by simp), Bool.false_or]
    exact tagFault_of_mem hne hacc
  have hfb : (Src.of b [1]).fault p'.tag [9, 10] false (es', q') = false := by
    rw [Src.fault, hgood (b, es', q') (by simp), Bool.false_or]
    simp [Src.of, hq]
  refine vecRead_of_takeSrcs (srcs := [Src.typed a, Src.of b [1]]) rfl htake (typeOf_cons_of_ne hne) (fun z hz => ?_) hcheck
  rcases List.mem_pair.1 hz with rfl | rfl
  exacts [hfa, hfb]

theorem exec_qdec_of_read (hover : s.overCount (.qdec g a b) = none) (hread : s.readSrcs [a, b] none 1 = .ok (s1, [p, q]))
    (hp : p.tag = 9 ∨ p.tag = 10 ∧ s.mine.hdr.ctabbed = true) (hq : q.tag = 1) :
    exec (.qdec g a b) s = .next (moved s1 (fun c => putRun c (4 * g.toNat) 4 2 s.iss.set
      (fun j l => qdecWord (codebook s p.tag) (p.at l) (q.at l) j))) := by
  have hp' : p.tag = 9 ∨ p.tag = 10 := hp.imp_right And.left
  have hcheck : ¬ (p.tag = 10 ∧ (!s.mine.hdr.ctabbed) = true) := by
    rintro ⟨h10, hct⟩
    rcases hp with h9 | ⟨-, h⟩
    · exact absurd (h9.symm.trans h10) (by decide)
    · simp [h] at hct
  rw [exec_qdec, execQdec, gate_none _ hover, State.qdec]
  dsimp only
  rw [vecRead_codes hread hp' hq (if_neg hcheck)]
  exact congrArg _ (done_modMe (fun c => putRun_field Course.idx (fun _ _ _ _ _ => rfl)))

end

/-- R106, R240. Register j of the group holds elements 2j and 2j + 1, each the product rounded once to BF16. -/
theorem elem_qdecWord {val : Nat → Machine.Num} {x factor : Word} {j k : Nat} (hk : k < 2) : elem 16 (qdecWord val x factor j) k =
    BF16.round 0 ((val (elem 4 x (2 * j + k))).mul (F32.val factor.toNat)) % 2 ^ 16 :=
  elem_packElems (by decide) hk

/-! ### The obligation -/

/-- Settles O24: the cases of one element, the forms of a vector result, and for QDEC the four registers in a run. -/
theorem conversionResults : Obligations.ConversionResults := by
  refine ⟨fun m ftz st dt x _ _ => ?_, fun s s1 d a b g tt m t x y => ⟨fun _ => yields_cvt, yields_pack, fun _ => yields_unpack,
    fun hfits hg p q hread hp hq => ?_⟩⟩
  · dsimp only
    rw [← isFloatTag_eq, ← isFloatTag_eq]
    refine ⟨cvtElem_float_float, fun hs hd => ?_, cvtElem_int_float, intVal_cvtElem_int_int⟩
    cases hv : (fmtOf st).read ftz x with
    | nan => exact cvtElem_of_nan hs hd hv
    | inf neg => exact intVal_cvtElem_of_inf hs hd hv
    | num neg a e => exact ⟨roundedMag m neg a e, roundsTo_roundedMag, intVal_cvtElem_of_num hs hd hv⟩
  · obtain ⟨hiss, hover⟩ := hfits
    obtain ⟨xs, htake, -, -⟩ := takeSrcs_of_readSrcs hread
    obtain ⟨hst, hv, hs⟩ := keepsRegs_takeSrcs htake
    have honly := takeSrcs_only.2 _ htake
    have hme : s1.me = s1.crs s.iss.k s.iss.c := by rw [State.me, honly.iss]
    have hst1 : Stands s1 s1.iss.k s1.iss.c := by
      rw [honly.iss]
      exact hst (stands_of_issuing hiss)
    obtain ⟨hrun, hother, hscal, hports, hchan⟩ := moved_putRun hst1 (n := 4 * g.toNat) (m := 4) (t := 2) (set := s.iss.set)
      (f := fun j l => qdecWord (codebook s p.tag) (p.at l) (q.at l) j) (by omega)
    refine ⟨_, exec_qdec_of_read hover hread hp hq, fun l hl hbit j hj k hk => ?_, fun j hj => (hrun j hj).1, fun v hout => ?_, ?_,
      honly.ms, hports, hchan⟩
    · rw [(hrun j hj).2 l hl hbit]
      exact elem_qdecWord hk
    · rw [hother v hout, hme, Course.getV, hv]
      rfl
    · rw [hscal, hme, hs]
      rfl

end Sys2Proof.Proofs
end

section
/-!
PROOFS. What an instruction that completes leaves of its course and of memory (R47, R49, R195, R247, R379 to R384).
-/

namespace Sys2Proof.Proofs

open Sys2Proof Sys2Proof.Machine Sys2Proof.Statements

/-! ### Consorts that a change leaves alike -/

section
variable {s t : State} {k k' c : Nat}

/-- A part of a consort that a change of one keeps is as it was in every consort. -/
theorem cons_modCons_field {β : Type} {f : Consort → Consort} (g : Consort → β) (hg : ∀ q, g (f q) = g q)
    (hf : ∀ q, (f q).id = q.id := by intro _; rfl) : g ((s.modCons k f).cons k') = g (s.cons k') := by
  by_cases hk : k = k'
  · subst hk
    cases e : s.consorts.find? (·.id == k) with
    | none => rw [State.modCons, modFirst_of_find?_eq_none e]
    | some q => rw [cons_modCons_same (by rw [e]; rfl) hf, hg]
  · rw [cons_modCons_ne hk hf]

/-- Changing a course leaves every scratchpad. -/
theorem scratch_modCrs {f : Course → Course} : ((s.modCrs k c f).cons k').scratch = (s.cons k').scratch :=
  cons_modCons_field Consort.scratch (fun _ => rfl)

theorem done_eq_moved (s : State) : s.done = moved s (fun c => c) := modCrs_modCrs (fun _ => rfl)

theorem scratch_done : (s.done.cons k').scratch = (s.cons k').scratch := by
  rw [done_eq_moved]
  exact scratch_modCrs

theorem channels_done : (s.done.cons k').channels = (s.cons k').channels := by
  rw [done_eq_moved]
  exact cons_modCons_field Consort.channels (fun _ => rfl)

/-- Writing a destination leaves every scratchpad. -/
theorem scratch_writeDst (d : BitVec 7) (tag : BitVec 4) (f : Nat → Word) :
    ((s.writeDst d tag f).cons k').scratch = (s.cons k').scratch := by
  rw [State.writeDst]
  split
  · rw [State.portPush]
    split
    · exact cons_modCons_field Consort.scratch (fun _ => rfl)
    · exact scratch_modCrs
  · exact scratch_modCrs

/-- A course that waits for something else keeps its consort's scratchpad. -/
theorem HoldsOnly.scratch (h : HoldsOnly s t) (k : Nat) : (t.cons k).scratch = (s.cons k).scratch := by
  obtain ⟨xs, e⟩ := h.cons k
  rw [e]

section
variable {g : Consort → Consort} (ht : t.consorts = s.consorts.map g) (hid : ∀ q, (g q).id = q.id)
include ht hid

/-- A part of a consort that a change of all of them keeps is as it was. -/
theorem cons_map_field {β : Type} (p : Consort → β) (hp : ∀ q, p (g q) = p q) : p (t.cons k) = p (s.cons k) := by
  rw [State.cons, ht, find?_consorts_map k hid, State.cons]
  cases s.consorts.find? (·.id == k) with
  | none => rfl
  | some q => exact hp q

theorem stands_map (hc : ∀ q, (g q).courses = q.courses) : Stands t k c ↔ Stands s k c := by
  rw [Stands, Stands, ht, find?_consorts_map k hid, Option.isSome_map, cons_map_field ht hid Consort.courses hc]

end

end

/-! ### The course past its instruction (R47) -/

/-- R47. A course of which the issue set has moved past the instruction, its stall over. -/
def pastIssue (s : State) (x : Course) : Course :=
  { x.setLpc s.iss.set (fun _ => refAdd s.iss.at_ s.iss.len) with stall := none }

theorem me_done {s : State} (hst : Stands s s.iss.k s.iss.c) : s.done.me = pastIssue s s.me := by
  rw [done_eq_moved, me_moved hst (fun _ => rfl), pastIssue]

theorem lanesPast_of_me {s t : State} {x : Course} (ht : t.me = pastIssue s x) (hlpc : x.lpc = s.me.lpc) (hs : x.s = s.me.s)
    (hm : x.m = s.me.m) (hl : x.lane = s.me.lane) : LanesPast s t := by
  rw [LanesPast, ht]
  refine ⟨fun l h => (lpcAt_setLpc x _ _ h).trans ?_, hs, hm, hl⟩
  rw [Course.lpcAt, hlpc, Course.lpcAt]

/-- A destination's write touches the vector registers and the ports of the course, and nothing else of it. -/
theorem me_writeDst {s : State} (hst : Stands s s.iss.k s.iss.c) (d : BitVec 7) (tag : BitVec 4) (f : Nat → Word) :
    ∃ vs ps, (s.writeDst d tag f).me = { s.me with v := vs, ports := ps } := by
  by_cases hd : isPort d = true
  · by_cases hk : (s.me.port (portOf d)).kind = 3
    · exact ⟨s.me.v, s.me.ports, me_writeDst_channel hst hd hk⟩
    · rw [State.me, (writeDst_only s d tag f).iss, State.writeDst, if_pos hd, portPush_part hk, crs_modCrs_same hst]
      exact ⟨s.me.v, _, rfl⟩
  · exact ⟨_, s.me.ports, me_writeDst_reg hst (Bool.eq_false_iff.2 hd)⟩

/-! ### Completing with a result -/

section
variable {s : State} (hst : Stands s s.iss.k s.iss.c) (d : BitVec 7) (tag : BitVec 4) (f : Nat → Word)
include hst

theorem lanesPast_writeDst_done : LanesPast s (s.writeDst d tag f).done := by
  have hiss := (writeDst_only s d tag f).iss
  have h := stands_writeDst hst d tag f
  rw [← hiss] at h
  obtain ⟨vs, ps, hme⟩ := me_writeDst hst d tag f
  refine lanesPast_of_me (x := (s.writeDst d tag f).me) ?_ ?_ ?_ ?_ ?_
  · rw [me_done h, pastIssue, pastIssue, hiss]
  all_goals rw [hme]

theorem receives_writeDst_done : Receives s (s.writeDst d tag f).done s.iss.k s.iss.c d tag s.iss.set f := by
  have hiss := (writeDst_only s d tag f).iss
  have h := stands_writeDst hst d tag f
  have hme : (s.writeDst d tag f).done.crs s.iss.k s.iss.c =
      pastIssue (s.writeDst d tag f) ((s.writeDst d tag f).crs s.iss.k s.iss.c) := by
    rw [← hiss] at h
    have := me_done h
    rwa [State.me, State.me, State.done_iss, hiss] at this
  refine Receives.congr (receives_writeDst hst d tag f) ?_ ?_ ?_
  · rw [hme]
    rfl
  · rw [hme]
    rfl
  · exact channels_done

end

/-! ### Releases (R379 to R384) -/

section
variable {s : State} {k c scope : Nat}

/-- R395. Discarding copies touches no course and no scratchpad. -/
theorem discard_consorts (s : State) (k c : Nat) (classes : BitVec 6) (but : List Nat) :
    (s.discard k c classes but).consorts =
      s.consorts.map (fun q => { q with sstale := q.sstale.filter (fun b => !published k c classes but b) }) := rfl

theorem stands_discard {classes : BitVec 6} {but : List Nat} {k' c' : Nat} :
    Stands (s.discard k c classes but) k' c' ↔ Stands s k' c' :=
  stands_map (discard_consorts s k c classes but) (fun _ => rfl) (fun _ => rfl)

theorem crs_discard {classes : BitVec 6} {but : List Nat} {k' c' : Nat} :
    (s.discard k c classes but).crs k' c' = s.crs k' c' :=
  cons_map_field (discard_consorts s k c classes but) (fun _ => rfl) (fun q => q.crs c') (fun _ => rfl)

theorem scratch_discard {classes : BitVec 6} {but : List Nat} {k' : Nat} :
    ((s.discard k c classes but).cons k').scratch = (s.cons k').scratch :=
  cons_map_field (discard_consorts s k c classes but) (fun _ => rfl) Consort.scratch (fun _ => rfl)

@[simp] theorem releaseNow_iss : (s.releaseNow k c scope).iss = s.iss := rfl
@[simp] theorem releaseNow_mem : (s.releaseNow k c scope).ms.mem = s.ms.mem := rfl
@[simp] theorem releaseNow_work : (s.releaseNow k c scope).work = s.work := rfl

theorem stands_releaseNow {k' c' : Nat} (h : Stands s k' c') : Stands (s.releaseNow k c scope) k' c' :=
  modCrs_stands (stands_discard.2 h)

/-- R380. A release begins the next region. -/
theorem crs_releaseNow (h : Stands s k c) :
    (s.releaseNow k c scope).crs k c = { s.crs k c with region := (s.crs k c).region + 1 } := by
  have hd {r : BitVec 32} {but : List Nat} : ((s.closeRegion k c scope r but).discard k c 0x3F but).crs k c = s.crs k c := crs_discard
  rw [← hd]
  exact crs_modCrs_same (s := ((s.closeRegion k c scope (s.crs k c).region (s.flying k c)).discard k c 0x3F (s.flying k c)).nextEpoch k c)
    (stands_discard.2 h)

theorem scratch_releaseNow {k' : Nat} : ((s.releaseNow k c scope).cons k').scratch = (s.cons k').scratch :=
  scratch_modCrs.trans scratch_discard

end

section
variable {s t : State} {scope : Nat} (h : HoldsOnly s t)
include h

/-- R138, R379. The course of an instruction that is a release and that has changed memory: only its region is another, and what
it may be waiting for. -/
theorem me_release_done (hst : Stands s s.iss.k s.iss.c) (hiss : t.iss = s.iss) : ∃ w, (t.releaseNow s.iss.k s.iss.c scope).done.me =
    pastIssue s { s.me with hold := w, region := s.me.region + 1 } := by
  have htst : Stands t s.iss.k s.iss.c := (h.stands _ _).2 hst
  obtain ⟨w, hw⟩ := h.crs s.iss.k s.iss.c
  have hme : (t.releaseNow s.iss.k s.iss.c scope).me = { s.me with hold := w, region := s.me.region + 1 } := by
    rw [State.me, releaseNow_iss, hiss, crs_releaseNow htst, hw]
    rfl
  refine ⟨w, ?_⟩
  rw [me_done (by rw [releaseNow_iss, hiss]; exact stands_releaseNow htst), hme, pastIssue, releaseNow_iss, hiss, pastIssue]

theorem scratch_release_done (k : Nat) : ((t.releaseNow s.iss.k s.iss.c scope).done.cons k).scratch = (s.cons k).scratch :=
  scratch_done.trans (scratch_releaseNow.trans (h.scratch k))

end

end Sys2Proof.Proofs
end

section
/-!
PROOFS. LNCH and EMIT (R126 to R128, R136, R137).
-/

namespace Sys2Proof.Proofs

open Sys2Proof Sys2Proof.Machine Sys2Proof.Statements

/-- R260. A trap of the whole issue set at an access takes its cause with the layout of an access. -/
theorem takes260_of_exec {s : State} {j : Instr} {cause : Cause} {va : DWord} {wr : Bool}
    (h : exec j s = .next (s.trapWhole cause (info260 (lowest s.iss.set) wr false va.toNat))) : Takes260 s j cause va wr := by
  rw [Takes260, h, info260, Bool.toNat_false, Nat.zero_mul, Nat.add_zero]

/-! ### LNCH (R126, R136) -/

theorem launchOk_iff (s : State) (q : DWord) (aspace : BitVec 16) : s.launchOk q aspace = true ↔ MayLaunch s q aspace := by
  simp only [State.launchOk, MayLaunch, Bool.and_eq_true, decide_eq_true_eq, beq_iff_eq, Bool.not_eq_true', malformed_eq_false_iff,
    and_assoc]

/-- R258. Holding a translation touches no more than the translations held. -/
theorem hold_frame (s : State) (aspace : BitVec 16) (va : DWord) :
    ∃ es, s.hold aspace va = s.modMs (fun m => { m with tlb := es }) := by
  rw [State.hold]
  split
  · split
    · exact ⟨s.ms.tlb, rfl⟩
    · exact ⟨_, rfl⟩
  · exact ⟨s.ms.tlb, rfl⟩

/-- R126. The pending launch of the record at pa. -/
def pendingLaunch (s : State) (queue pa : Nat) : Pending :=
  { bytes := s.readBytes 0 pa 64, queue := queue, upTo := s.nextId, region := s.me.region, but := s.flying s.iss.k s.iss.c
    waiting := false }

/-- R126, R379. The course with a pending launch more, and its region ended. -/
def withPending (s : State) (va : DWord) (p : Pending) : State :=
  (((s.hold s.mine.aspace va).modMe (fun x => { x with pending := x.pending ++ [p] })).nextEpoch s.iss.k s.iss.c).nextRegion
    s.iss.k s.iss.c

section
variable {s : State} {va : DWord} {p : Pending}

theorem withPending_frame : (withPending s va p).iss = s.iss ∧ (withPending s va p).ms.mem = s.ms.mem ∧
    (withPending s va p).hub = s.hub ∧ (withPending s va p).work = s.work := by
  obtain ⟨es, h⟩ := hold_frame s s.mine.aspace va
  rw [withPending, h]
  exact ⟨rfl, rfl, rfl, rfl⟩

theorem scratch_withPending (k : Nat) : ((withPending s va p).cons k).scratch = (s.cons k).scratch := by
  obtain ⟨es, h⟩ := hold_frame s s.mine.aspace va
  rw [withPending, h]
  exact scratch_modCrs.trans (scratch_modCrs (s := s.modMs (fun m => { m with tlb := es })))

variable (hst : Stands s s.iss.k s.iss.c)
include hst

theorem me_withPending : Stands (withPending s va p) s.iss.k s.iss.c ∧
    (withPending s va p).me = { s.me with pending := s.me.pending ++ [p], region := s.me.region + 1 } := by
  obtain ⟨es, h⟩ := hold_frame s s.mine.aspace va
  have hst1 : Stands (s.modMs (fun m => { m with tlb := es })) s.iss.k s.iss.c := hst
  have hst2 := modCrs_stands (k := s.iss.k) (c := s.iss.c) (f := fun x => { x with pending := x.pending ++ [p] }) hst1
  have hcrs := crs_modCrs_same hst1 (f := fun x => { x with pending := x.pending ++ [p] })
  rw [State.me, withPending_frame.1, withPending, h]
  refine ⟨modCrs_stands (k := s.iss.k) (c := s.iss.c) hst2, ?_⟩
  refine (crs_modCrs_same (s := (((s.modMs (fun m => { m with tlb := es })).modMe
    (fun x => { x with pending := x.pending ++ [p] })).nextEpoch s.iss.k s.iss.c)) hst2).trans ?_
  exact congrArg (fun x : Course => { x with region := x.region + 1 }) hcrs

end

section
variable {s : State} {a b : BitVec 6} (ho : s.overCount (.lnch a b) = none)
include ho

theorem lnch_of_misaligned (h : (s.getS a.toNat).toNat % 64 ≠ 0) :
    exec (.lnch a b) s = .next (s.trapWhole .misalign (info260 (lowest s.iss.set) false false (s.getS a.toNat).toNat)) := by
  rw [exec_lnch, execLnch, gate_none _ ho, State.lnch]
  exact congrArg Host.Outcome.next (if_pos h)

variable (ha : (s.getS a.toNat).toNat % 64 = 0)
include ha

theorem lnch_of_refused (h : ¬ MayLaunch s (s.getS b.toNat) s.mine.aspace) :
    exec (.lnch a b) s = .next (s.fail .badHandle b.toNat) := by
  rw [← launchOk_iff, Bool.not_eq_true] at h
  rw [exec_lnch, execLnch, gate_none _ ho, State.lnch]
  simp only [ha, h, ne_eq, not_true_eq_false, if_false, Bool.not_false, if_true]

variable (hq : MayLaunch s (s.getS b.toNat) s.mine.aspace)
include hq

theorem lnch_of_full (h : 4 ≤ s.me.pending.length) : exec (.lnch a b) s = .next (s.stallFor .launch) := by
  rw [exec_lnch, execLnch, gate_none _ ho, State.lnch]
  simp only [ha, (launchOk_iff _ _ _).2 hq, h, ne_eq, not_true_eq_false, if_false, Bool.not_true, Bool.false_eq_true, if_true]

theorem lnch_keeps (h : s.me.pending.length < 4) {pa : Nat} {ch : Bool} (hr : s.recordFate (s.getS a.toNat) = .ok pa ch)
    (hat : s.atomPending s.iss.k s.iss.c [pa] 64 = false) : exec (.lnch a b) s =
      .next (withPending s (s.getS a.toNat) (pendingLaunch s (s.getS b.toNat).toNat pa)).done := by
  rw [exec_lnch, execLnch, gate_none _ ho, State.lnch]
  simp only [ha, (launchOk_iff _ _ _).2 hq, Nat.not_le.2 h, hr, hat, ne_eq, not_true_eq_false, if_false, Bool.not_true,
    Bool.false_eq_true]
  rfl

end

/-- R126, R136. What LNCH leaves where its record joins the pending-launch queue. -/
theorem withPending_done {s : State} (hst : Stands s s.iss.k s.iss.c) (va : DWord) (p : Pending) :
    let t := (withPending s va p).done
    t.me.pending = s.me.pending ++ [p] ∧ t.me.region = s.me.region + 1 ∧ LanesPast s t ∧ t.me.v = s.me.v ∧ SameMemory s t := by
  obtain ⟨hiss, hmem, hhub, hwork⟩ := withPending_frame (s := s) (va := va) (p := p)
  obtain ⟨hst', hme⟩ := me_withPending (va := va) (p := p) hst
  have h : (withPending s va p).done.me =
      pastIssue s { s.me with pending := s.me.pending ++ [p], region := s.me.region + 1 } := by
    rw [me_done (by rw [hiss]; exact hst'), hme, pastIssue, hiss, pastIssue]
  refine ⟨by rw [h]; rfl, by rw [h]; rfl, lanesPast_of_me h rfl rfl rfl rfl, by rw [h]; rfl, fun x => ?_, fun k x => ?_, hhub, hwork⟩
  · rw [State.done_ms, hmem]
  · rw [scratch_done, scratch_withPending]

/-! ### EMIT (R128, R137) -/

theorem nodeOk_iff (s : State) (bs : List Byte) (aspace : BitVec 16) :
    s.nodeOk (Node.ofBytes bs) aspace = true ↔ NodeTakes s bs aspace := by
  refine ⟨fun h => ?_, nodeOk_of_takes⟩
  simp only [State.nodeOk, Bool.and_eq_true, Bool.not_eq_true', malformed_eq_false_iff, beq_iff_eq, decide_eq_true_eq, and_assoc] at h
  obtain ⟨hv, hres, rest⟩ := h
  have hodd : leNat ((bs.drop 12).take 2) % 2 = 1 := beq_iff_eq.1 hv
  simp only [Node.ofBytes, Bool.or_eq_false_iff, bne_eq_false_iff_eq] at hres
  obtain ⟨⟨hlow, hr1⟩, hr2⟩ := hres
  have hzero : leNat ((bs.drop 12).take 2) / 2 = 0 := hlow
  have hone : leNat ((bs.drop 12).take 2) = 1 := by omega
  exact ⟨hone, hr1, hr2, rest⟩

/-- R311. Where no other class may see older bytes, a scratchpad reads as it is. -/
theorem spSee_of_fresh {q : Consort} (h : q.sstale = []) (tick cls a n : Nat) : q.spSee tick cls a n = memRead q.scratch a n := by
  simp [Consort.spSee, Consort.spView, h, memRead]

theorem memRead_length (m : List Host.Cell) (a n : Nat) : (memRead m a n).length = n := by
  rw [memRead, List.length_map, List.length_range]

theorem node_of_openBatch {bs : List Batch} {pa : Nat} {fresh : Batch} (h : fresh.node = pa) :
    ((bs.find? (fun b => b.node == pa)).getD fresh).node = pa := by
  cases e : bs.find? (fun b => b.node == pa) with
  | none => exact h
  | some b => exact beq_iff_eq.1 (List.find?_some e :)

/-- R128. A record that joins its node's batch stands in it, open or closed. -/
theorem mem_joinBatch (s : State) (n : Node) (pa idx : Nat) :
    ∃ y ∈ ((s.joinBatch n pa idx).qrun n.qid).opened ++ ((s.joinBatch n pa idx).qrun n.qid).closed, y.node = pa ∧ idx ∈ y.idxs := by
  rw [State.joinBatch, qrun_modQrun (fun _ => by exact (apply_ite QRun.q _ _ _).trans (ite_self _))]
  dsimp only
  generalize hg : Option.getD _ _ = b
  have hb : b.node = pa := by
    rw [← hg]
    exact node_of_openBatch rfl
  refine ⟨{ b with idxs := b.idxs ++ [idx] }, ?_, hb, List.mem_append_right _ List.mem_cons_self⟩
  split
  · exact List.mem_append_right _ (List.mem_append_right _ List.mem_cons_self)
  · exact List.mem_append_left _ (List.mem_append_right _ List.mem_cons_self)

theorem qrun_of_work_eq {s t : State} (h : t.work = s.work) (q : Nat) : t.qrun q = s.qrun q := by
  rw [State.qrun, State.qrun, h]

/-- R137. A node whose bytes can be read is acted on as what the course sees of it. -/
theorem withNode_of_bytes {s : State} {va : DWord} {bs : List Byte} {pa : Nat} (f : Nat → Node → State)
    (h : s.fetchVa s.mine.aspace va 64 = .bytes bs pa) : s.withNode va f = f pa (Node.ofBytes (s.readBytes 0 pa 64)) := by
  delta State.withNode
  rw [h]

/-- R137. EMIT past the checks of its operands: it releases, finds room and writes. -/
def emitAt (s : State) (n : Node) (pa off : Nat) : State :=
  let d := s.qdesc n.qid
  if !s.releaseReady s.iss.k s.iss.c 3 then s.stallFor .other
  else if !d.room n.recsz then s.stallFor .launch
  else match s.ringPas d d.wr n.recsz with
    | .absent va => s.parkAll va 0 1
    | .bad cause va => s.trapWhole cause (info260 (lowest s.iss.set) true false va.toNat)
    | .pas pas => ((s.acceptRecord n pa pas (s.mine.spSee s.tick 0 off n.recsz)).releaseNow s.iss.k s.iss.c 3).done

section
variable {s : State} {n : Node} (pa off : Nat)

theorem emitAt_of_waiting (h : s.releaseReady s.iss.k s.iss.c 3 = false) : emitAt s n pa off = s.stallFor .other := by
  rw [emitAt]
  simp only [h, Bool.not_false, if_true]

variable (hrel : s.releaseReady s.iss.k s.iss.c 3 = true)
include hrel

theorem emitAt_of_full (h : (s.qdesc n.qid).room n.recsz = false) : emitAt s n pa off = s.stallFor .launch := by
  rw [emitAt]
  simp only [hrel, h, Bool.not_true, Bool.false_eq_true, if_false, Bool.not_false, if_true]

variable (hroom : (s.qdesc n.qid).room n.recsz = true)
include hroom

theorem emitAt_of_bad_storage {cause : Cause} {va : DWord} (h : s.ringPas (s.qdesc n.qid) (s.qdesc n.qid).wr n.recsz = .bad cause va) :
    emitAt s n pa off = s.trapWhole cause (info260 (lowest s.iss.set) true false va.toNat) := by
  rw [emitAt]
  simp only [hrel, hroom, h, Bool.not_true, Bool.false_eq_true, if_false]

theorem emitAt_of_storage {pas : List Nat} (h : s.ringPas (s.qdesc n.qid) (s.qdesc n.qid).wr n.recsz = .pas pas) : emitAt s n pa off =
    ((s.acceptRecord n pa pas (s.mine.spSee s.tick 0 off n.recsz)).releaseNow s.iss.k s.iss.c 3).done := by
  rw [emitAt]
  simp only [hrel, hroom, h, Bool.not_true, Bool.false_eq_true, if_false]

end

section
variable {s : State} {a b : BitVec 6} (ho : s.overCount (.emit a b) = none)
include ho

theorem emit_of_misaligned (h : (s.getS a.toNat).toNat % 64 ≠ 0) : exec (.emit a b) s = .next (s.fail .badHandle a.toNat) := by
  rw [exec_emit, execEmit, gate_none _ ho, State.emit]
  exact congrArg Host.Outcome.next (if_pos h)

variable {bs : List Byte} {pa : Nat} {nb : List Byte} (ha : (s.getS a.toNat).toNat % 64 = 0)
  (hf : s.fetchVa s.mine.aspace (s.getS a.toNat) 64 = .bytes bs pa) (hnb : s.readBytes 0 pa 64 = nb)
include ha hf hnb

theorem emit_of_bad_node (h : ¬ NodeTakes s nb s.mine.aspace) : exec (.emit a b) s = .next (s.fail .badHandle a.toNat) := by
  rw [← nodeOk_iff, Bool.not_eq_true] at h
  rw [exec_emit, execEmit, gate_none _ ho, State.emit]
  simp only [ha, withNode_of_bytes _ hf, hnb, h, ne_eq, not_true_eq_false, if_false, Bool.not_false, if_true]

variable (hn : NodeTakes s nb s.mine.aspace)
include hn

theorem emit_of_off (h : (s.getS b.toNat).toNat % 16 ≠ 0 ∨
      s.mine.spOff (s.getS b.toNat).toNat (Node.ofBytes nb).recsz = true) :
    exec (.emit a b) s = .next (s.switchOff s.iss.set) := by
  have hoff : (decide ((s.getS b.toNat).toNat % 16 ≠ 0) || s.mine.spOff (s.getS b.toNat).toNat (Node.ofBytes nb).recsz) = true := by
    rwa [Bool.or_eq_true, decide_eq_true_eq]
  rw [exec_emit, execEmit, gate_none _ ho, State.emit]
  simp only [ha, withNode_of_bytes _ hf, hnb, nodeOk_of_takes hn, hoff, not_true_eq_false, if_false, Bool.not_true,
    Bool.false_eq_true, if_true, ne_eq]

variable (hal : (s.getS b.toNat).toNat % 16 = 0) (hin : s.mine.spOff (s.getS b.toNat).toNat (Node.ofBytes nb).recsz = false)
include hal hin

theorem emit_of_poison (h : s.mine.spPoisoned (s.getS b.toNat).toNat (Node.ofBytes nb).recsz = true) :
    exec (.emit a b) s = .next (s.trapWhole .poison (info260 (lowest s.iss.set) false false (s.getS b.toNat).toNat)) := by
  rw [exec_emit, execEmit, gate_none _ ho, State.emit]
  simp only [ha, withNode_of_bytes _ hf, hnb, nodeOk_of_takes hn, hal, hin, h, ne_eq, not_true_eq_false, if_false, Bool.not_true,
    Bool.false_eq_true, decide_false, Bool.or_self, if_true]

variable (hcl : s.mine.spPoisoned (s.getS b.toNat).toNat (Node.ofBytes nb).recsz = false)
include hcl

theorem emit_of_operands : exec (.emit a b) s = .next (emitAt s (Node.ofBytes nb) pa (s.getS b.toNat).toNat) := by
  rw [exec_emit, execEmit, gate_none _ ho, State.emit]
  simp only [ha, withNode_of_bytes _ hf, hnb, nodeOk_of_takes hn, hal, hin, hcl, ne_eq, not_true_eq_false, if_false, Bool.not_true,
    Bool.false_eq_true, decide_false, Bool.or_self]
  rfl

end

section
variable {s : State} (hst : Stands s s.iss.k s.iss.c) {n : Node} {pa off : Nat} {pas : List Nat}
include hst

/-- R127, R128, R137. What EMIT leaves where its record enters the node's ring. -/
theorem emitted (hr : s.ringPas (s.qdesc n.qid) (s.qdesc n.qid).wr n.recsz = .pas pas) (hap : Apart s pas n.qid)
    (hwf : Memory.wf s.ms.mem) (hfresh : s.mine.sstale = []) :
    let d := s.qdesc n.qid
    let t := ((s.acceptRecord n pa pas (s.mine.spSee s.tick 0 off n.recsz)).releaseNow s.iss.k s.iss.c 3).done
    Lands s t pas (memRead s.mine.scratch off n.recsz) (s.qdPa n.qid + 0x14) 4 ∧
      t.peek (s.qdPa n.qid + 0x14) 4 = (d.wr + n.recsz) % 2 ^ 32 ∧
      (∃ y ∈ (t.qrun n.qid).opened ++ (t.qrun n.qid).closed, y.node = pa ∧ d.wr ∈ y.idxs) ∧
      t.me.region = s.me.region + 1 ∧ LanesPast s t ∧ t.me.v = s.me.v ∧ ∀ m : Nat, (t.cons m).scratch = (s.cons m).scratch := by
  intro d t
  have hold := holdsOnly_acceptRecord s n pa pas (memRead s.mine.scratch off n.recsz)
  have ht : t = ((s.acceptRecord n pa pas (memRead s.mine.scratch off n.recsz)).releaseNow s.iss.k s.iss.c 3).done := by
    rw [← spSee_of_fresh hfresh s.tick 0]
  have hmem : t.ms.mem = (ringPut s n.qid pas (memRead s.mine.scratch off n.recsz) (d.wr + n.recsz)).ms.mem := by
    rw [ht, State.done_ms, releaseNow_mem, acceptRecord_ms]
  obtain ⟨w, hme⟩ := me_release_done hold hst rfl (scope := 3)
  rw [← ht] at hme
  refine ⟨lands_of_mem_eq hmem (lands_ringPut hwf hap ((ringPas_length hr).trans (memRead_length _ _ _).symm)), ?_, ?_, by rw [hme]; rfl,
    lanesPast_of_me hme rfl rfl rfl rfl, by rw [hme]; rfl, fun m => ?_⟩
  · rw [peek_of_mem_eq hmem, peek_ringPut hwf]
  · have hwork : t.work = (((s.homeWrite (pas.zip (s.mine.spSee s.tick 0 off n.recsz))).qdSet n.qid 0x14 4
        (d.wr + n.recsz)).joinBatch n pa d.wr).work := State.done_work _
    rw [qrun_of_work_eq hwork]
    exact mem_joinBatch _ n pa d.wr
  · rw [ht]
    exact scratch_release_done hold m

end

end Sys2Proof.Proofs
end

section
/-!
PROOFS. The instructions of join counters: JCNEW, JCDEC and JCWAIT (R134, R138).
-/

namespace Sys2Proof.Proofs

open Sys2Proof Sys2Proof.Machine Sys2Proof.Statements

/-! ### Finding the counter -/

section
variable {s : State} {va : DWord} {wr : Bool} {f : Nat → State}

theorem withCounter_of_denied (h : s.xlate s.mine.aspace s.mine.hdr.checked va true wr = .denied) :
    s.withCounter va wr f = s.trapWhole .xlateDenied (info260 (lowest s.iss.set) wr false va.toNat) := by
  rw [State.withCounter, h]

variable {pa : Nat} {ch : Bool} (h : s.xlate s.mine.aspace s.mine.hdr.checked va true wr = .ok pa ch)
include h

theorem withCounter_of_poison (hp : s.poisoned pa = true) :
    s.withCounter va wr f = s.trapWhole .poison (info260 (lowest s.iss.set) wr false va.toNat) := by
  rw [State.withCounter, h]
  exact if_pos hp

theorem withCounter_of_ok (hp : s.poisoned pa = false) : s.withCounter va wr f = f pa := by
  rw [State.withCounter, h]
  simp only [hp, Bool.false_eq_true, if_false]

end

/-! ### JCNEW and JCDEC -/

/-- R134, R138. The counter's value after JCDEC (dec) or JCNEW of an amount. -/
def counterWord (dec : Bool) (word amount : Nat) : Nat := if dec then jcAfter word amount false else amount

/-- R138. A join counter after a decrement by an amount: COUNT, and its upper word. -/
theorem peek_decrementBy {s : State} (hs : Memory.wf s.ms.mem) (pa amount : Nat) :
    let t := s.jcPut pa (jcAfter (s.peek pa 8) amount false)
    t.peek pa 4 = s.peek pa 4 - amount ∧ t.peek (pa + 4) 4 = jcFlags (s.peek pa 4) (s.peek (pa + 4) 4) amount false := by
  have hlo : s.peek pa 4 < 2 ^ 32 := peek_lt _ _ 4
  have hhi : s.peek (pa + 4) 4 < 2 ^ 32 := peek_lt _ _ 4
  have hadd : s.peek pa 8 = s.peek pa 4 + 2 ^ 32 * s.peek (pa + 4) 4 := peek_add _ pa 4 4
  have hmod : s.peek pa 8 % 2 ^ 32 = s.peek pa 4 := by omega
  have hdiv : s.peek pa 8 / 2 ^ 32 = s.peek (pa + 4) 4 := by omega
  have hf := jcFlags_lt (s.peek pa 4) _ amount false hhi
  intro t
  rw [peek_jcPut_lo hs, peek_jcPut_hi hs, jcAfter_eq, hmod, hdiv]
  constructor <;> omega

theorem exec_counter (s : State) (dec : Bool) (a b : BitVec 6) : exec (if dec then .jcdec a b else .jcnew a b) s =
    s.gate (if dec then .jcdec a b else .jcnew a b) (fun s => s.jcChange a b (counterWord dec)) := by
  cases dec <;> rfl

section
variable {s : State} {dec : Bool} {a b : BitVec 6} (ho : s.overCount (if dec then .jcdec a b else .jcnew a b) = none)
include ho

theorem counter_of_misaligned (h : (s.getS a.toNat).toNat % 16 ≠ 0) :
    Takes260 s (if dec then .jcdec a b else .jcnew a b) .misalign (s.getS a.toNat) true := by
  refine takes260_of_exec ?_
  rw [exec_counter, gate_none _ ho, State.jcChange]
  exact congrArg Host.Outcome.next (if_pos h)

variable (ha : (s.getS a.toNat).toNat % 16 = 0)
include ha

theorem counter_of_large (h : 2 ^ 32 ≤ (s.getS b.toNat).toNat) :
    exec (if dec then .jcdec a b else .jcnew a b) s = .next (s.fail .badHandle b.toNat) := by
  rw [exec_counter, gate_none _ ho, State.jcChange]
  simp only [ha, h, ne_eq, not_true_eq_false, if_false, if_true]

variable (hb : (s.getS b.toNat).toNat < 2 ^ 32)
include hb

theorem counter_of_aligned : exec (if dec then .jcdec a b else .jcnew a b) s = .next (s.withCounter (s.getS a.toNat) true (fun pa =>
    if !s.releaseReady s.iss.k s.iss.c 3 then s.stallFor .other
    else ((s.jcPut pa (counterWord dec (s.peek pa 8) (s.getS b.toNat).toNat)).releaseNow s.iss.k s.iss.c 3).done)) := by
  rw [exec_counter, gate_none _ ho, State.jcChange]
  simp only [ha, Nat.not_le.2 hb, ne_eq, not_true_eq_false, if_false]

theorem counter_of_denied (h : s.xlate s.mine.aspace s.mine.hdr.checked (s.getS a.toNat) true true = .denied) :
    Takes260 s (if dec then .jcdec a b else .jcnew a b) .xlateDenied (s.getS a.toNat) true :=
  takes260_of_exec (by rw [counter_of_aligned ho ha hb, withCounter_of_denied h])

variable {pa : Nat} {ch : Bool} (hx : s.xlate s.mine.aspace s.mine.hdr.checked (s.getS a.toNat) true true = .ok pa ch)
include hx

theorem counter_of_poison (h : s.poisoned pa = true) :
    Takes260 s (if dec then .jcdec a b else .jcnew a b) .poison (s.getS a.toNat) true :=
  takes260_of_exec (by rw [counter_of_aligned ho ha hb, withCounter_of_poison hx h])

variable (hp : s.poisoned pa = false)
include hp

theorem counter_of_waiting (h : s.releaseReady s.iss.k s.iss.c 3 = false) :
    exec (if dec then .jcdec a b else .jcnew a b) s = .next (s.stallFor .other) := by
  rw [counter_of_aligned ho ha hb, withCounter_of_ok hx hp, h]
  rfl

theorem counter_of_ready (h : s.releaseReady s.iss.k s.iss.c 3 = true) : exec (if dec then .jcdec a b else .jcnew a b) s =
    .next ((s.jcPut pa (counterWord dec (s.peek pa 8) (s.getS b.toNat).toNat)).releaseNow s.iss.k s.iss.c 3).done := by
  rw [counter_of_aligned ho ha hb, withCounter_of_ok hx hp, h]
  rfl

end

/-- R134, R138. The counter that JCNEW or JCDEC leaves. -/
theorem peek_counterWord {s : State} (hs : Memory.wf s.ms.mem) (dec : Bool) (pa : Nat) {x : Nat} (hx : x < 2 ^ 32) :
    let t := s.jcPut pa (counterWord dec (s.peek pa 8) x)
    (dec = false → t.peek pa 4 = x ∧ t.peek (pa + 4) 4 = 0) ∧
      (dec = true → t.peek pa 4 = s.peek pa 4 - x ∧ t.peek (pa + 4) 4 =
        (if s.peek pa 4 < x ∧ s.peek (pa + 4) 4 / 2 % 2 = 0 then s.peek (pa + 4) 4 + 2 else s.peek (pa + 4) 4)) := by
  refine ⟨?_, ?_⟩
  · rintro rfl
    rw [peek_jcPut_lo hs, peek_jcPut_hi hs, counterWord, if_neg Bool.false_ne_true]
    omega
  · rintro rfl
    obtain ⟨hlo, hhi⟩ := peek_decrementBy hs pa x
    refine ⟨hlo, hhi.trans ?_⟩
    rw [jcFlags]
    exact if_neg (fun h => Bool.false_ne_true h.1)

/-- R134, R138, R379. What JCNEW and JCDEC leave of their course. -/
theorem counter_done {s : State} (hst : Stands s s.iss.k s.iss.c) (pa word : Nat) :
    let t := ((s.jcPut pa word).releaseNow s.iss.k s.iss.c 3).done
    t.me.region = s.me.region + 1 ∧ LanesPast s t ∧ t.me.v = s.me.v := by
  have hold : HoldsOnly s (s.jcPut pa word) := holdsOnly_hubWrite s pa (leBytes 8 word)
  obtain ⟨w, hme⟩ := me_release_done hold hst rfl (scope := 3)
  exact ⟨by rw [hme]; rfl, lanesPast_of_me hme rfl rfl rfl rfl, by rw [hme]; rfl⟩

theorem counter_changes {s : State} (hst : Stands s s.iss.k s.iss.c) (hs : Memory.wf s.ms.mem) (dec : Bool) (pa : Nat) {x : Nat}
    (hx : x < 2 ^ 32) :
    let t := ((s.jcPut pa (counterWord dec (s.peek pa 8) x)).releaseNow s.iss.k s.iss.c 3).done
    (dec = false → t.peek pa 4 = x ∧ t.peek (pa + 4) 4 = 0) ∧
      (dec = true → t.peek pa 4 = s.peek pa 4 - x ∧ t.peek (pa + 4) 4 =
        (if s.peek pa 4 < x ∧ s.peek (pa + 4) 4 / 2 % 2 = 0 then s.peek (pa + 4) 4 + 2 else s.peek (pa + 4) 4)) ∧
      (∀ y : Nat, y < pa ∨ pa + 8 ≤ y → memGet t.ms.mem y = memGet s.ms.mem y) ∧
      t.me.region = s.me.region + 1 ∧ LanesPast s t ∧ t.me.v = s.me.v := by
  intro t
  have hmem : t.ms.mem = (s.jcPut pa (counterWord dec (s.peek pa 8) x)).ms.mem := by rw [State.done_ms, releaseNow_mem]
  obtain ⟨hnew, hdec⟩ := peek_counterWord hs dec pa hx
  rw [peek_of_mem_eq hmem, peek_of_mem_eq hmem, hmem]
  exact ⟨hnew, hdec, fun y hy => memGet_jcPut_of_out hs pa _ hy, counter_done hst pa _⟩

/-! ### JCWAIT -/

/-- R377. Stores of the issuing course to the counter are on their way. -/
theorem storesTo_iff (s : State) (k c pa n : Nat) : s.storesTo k c pa n = true ↔
    ∃ st ∈ s.ms.stores, st.k = k ∧ st.c = c ∧ ∃ x ∈ st.cells, pa ≤ x.1 ∧ x.1 < pa + n := by
  simp only [State.storesTo, List.any_eq_true, Bool.and_eq_true, beq_iff_eq, decide_eq_true_eq, and_assoc]

section
variable {s s1 : State} {v : BitVec 7} {a : BitVec 6} {tg : BitVec 4} (ho : s.overCount (.jcwait v a) = none)
  (hv : s.vecRead [] (some v) false [] true noCheck = .ok (s1, tg, []))
include ho hv

/-- JCWAIT past the readiness of its destination, which reads nothing from a port. -/
theorem exec_jcwait_eq : exec (.jcwait v a) s = .next (
    if (s.getS a.toNat).toNat % 16 ≠ 0 then s.misaligned (s.getS a.toNat) false
    else s.withCounter (s.getS a.toNat) false (fun pa =>
      if !s.loadsDone s.iss.k s.iss.c || s.storesTo s.iss.k s.iss.c pa 8 then s.stallFor .other
      else if s.peek pa 4 = 0 then s.jcDone v (BitVec.ofNat 32 (s.peek (pa + 4) 4))
      else s.modMe (fun c => { c with hold := .jcwait pa v none s.iss, stall := none }))) := by
  have hs1 : s1 = s := vecRead_only.2 _ _ (fun _ h => absurd h List.not_mem_nil) hv
  subst hs1
  rw [exec_jcwait, execJcwait, gate_none _ ho, State.jcwait, hv]

theorem jcwait_of_misaligned (h : (s.getS a.toNat).toNat % 16 ≠ 0) :
    Takes260 s (.jcwait v a) .misalign (s.getS a.toNat) false :=
  takes260_of_exec (by rw [exec_jcwait_eq ho hv, if_pos h]; rfl)

variable (ha : (s.getS a.toNat).toNat % 16 = 0)
include ha

theorem jcwait_of_denied (h : s.xlate s.mine.aspace s.mine.hdr.checked (s.getS a.toNat) true false = .denied) :
    Takes260 s (.jcwait v a) .xlateDenied (s.getS a.toNat) false :=
  takes260_of_exec (by rw [exec_jcwait_eq ho hv, if_neg (not_not.2 ha), withCounter_of_denied h])

variable {pa : Nat} {ch : Bool} (hx : s.xlate s.mine.aspace s.mine.hdr.checked (s.getS a.toNat) true false = .ok pa ch)
  (hp : s.poisoned pa = false)
include hx hp

/-- R138. JCWAIT at its counter. -/
theorem jcwait_of_counter : exec (.jcwait v a) s = .next (
    if !s.loadsDone s.iss.k s.iss.c || s.storesTo s.iss.k s.iss.c pa 8 then s.stallFor .other
    else if s.peek pa 4 = 0 then s.jcDone v (BitVec.ofNat 32 (s.peek (pa + 4) 4))
    else s.modMe (fun c => { c with hold := .jcwait pa v none s.iss, stall := none })) := by
  rw [exec_jcwait_eq ho hv, if_neg (not_not.2 ha), withCounter_of_ok hx hp]

theorem jcwait_of_accesses (h : s.loadsDone s.iss.k s.iss.c = false ∨ s.storesTo s.iss.k s.iss.c pa 8 = true) :
    exec (.jcwait v a) s = .next (s.stallFor .other) := by
  rw [jcwait_of_counter ho hv ha hx hp, if_pos]
  rwa [Bool.or_eq_true, Bool.not_eq_true']

variable (hl : s.loadsDone s.iss.k s.iss.c = true) (hs : s.storesTo s.iss.k s.iss.c pa 8 = false)
include hl hs

theorem jcwait_of_zero (h : s.peek pa 4 = 0) :
    exec (.jcwait v a) s = .next (s.jcDone v (BitVec.ofNat 32 (s.peek (pa + 4) 4))) := by
  rw [jcwait_of_counter ho hv ha hx hp, hl, hs, if_pos h]
  rfl

theorem jcwait_of_nonzero (h : s.peek pa 4 ≠ 0) :
    exec (.jcwait v a) s = .next (s.modMe (fun c => { c with hold := .jcwait pa v none s.iss, stall := none })) := by
  rw [jcwait_of_counter ho hv ha hx hp, hl, hs, if_neg h]
  rfl

end

section
variable {s : State} (hst : Stands s s.iss.k s.iss.c) (v : BitVec 7) (w : Word)
include hst

/-- R138, R379. What JCWAIT leaves where COUNT is zero. -/
theorem jcDone_leaves : Receives s (s.jcDone v w) s.iss.k s.iss.c v 5 s.iss.set (fun _ => w) ∧
    (s.jcDone v w).me.region = s.me.region + 1 ∧ LanesPast s (s.jcDone v w) ∧ SameMemory s (s.jcDone v w) := by
  have hiss : (s.jcDone v w).iss = s.iss := (writeDst_only s v 5 (fun _ => w)).iss
  have hcrs := crs_jcDone hst v w
  obtain ⟨vs, ps, hdst⟩ := me_writeDst hst v 5 (fun _ => w)
  rw [State.me, (writeDst_only s v 5 _).iss] at hdst
  have hme : (s.jcDone v w).me = pastJcwait s.iss s.clock v { s.me with v := vs, ports := ps } := by
    rw [State.me, hiss, hcrs, hdst]
  refine ⟨Receives.congr (receives_writeDst hst v 5 (fun _ => w)) (by rw [hcrs]; rfl) (by rw [hcrs]; rfl) (channels_jcDone hst v w),
    by rw [hme]; rfl, lanesPast_of_me hme rfl rfl rfl rfl, fun x => by rw [jcDone_ms], fun k x => ?_,
    (writeDst_only s v 5 (fun _ => w)).hub, (writeDst_only s v 5 (fun _ => w)).work⟩
  rw [jcDone_eq, scratch_modCrs, scratch_modCrs, scratch_modCrs, scratch_modCrs, scratch_writeDst]

/-- R138. What JCWAIT leaves where the course waits. -/
theorem jcwait_holds (pa : Nat) :
    let t := s.modMe (fun c => { c with hold := .jcwait pa v none s.iss, stall := none })
    t.me.hold = .jcwait pa v none s.iss ∧ t.me.lpc = s.me.lpc ∧ t.me.v = s.me.v ∧ SameMemory s t := by
  intro t
  have hme : t.me = { s.me with hold := .jcwait pa v none s.iss, stall := none } := crs_modCrs_same hst
  rw [hme]
  exact ⟨rfl, rfl, rfl, fun _ => rfl, fun k x => congrArg (memGet · x) scratch_modCrs, rfl, rfl⟩

end

end Sys2Proof.Proofs
end

section
/-!
PROOFS. Registering and releasing mailboxes (R130, R139), and the instructions of ports (R247 to R249).
-/

namespace Sys2Proof.Proofs

open Sys2Proof Sys2Proof.Machine Sys2Proof.Statements

/-! ### Mailboxes (R130, R139) -/

/-- R139. A mailbox number that is free. -/
def MailboxFree (s : State) (n : Nat) : Prop := n < 1024 ∧ ∀ m ∈ s.work.mailboxes, m.num ≠ n

/-- R139. The mailbox registered on the doorbell at an address of an address space. -/
def mailboxAt (s : State) (bell : DWord) (aspace : BitVec 16) : Option Mailbox :=
  s.work.mailboxes.find? (fun m => m.doorbell == bell && m.aspace == aspace)

/-- R139. A mailbox registered under a number. -/
def registered (s : State) (n : Nat) (bell handler : DWord) (aspace : BitVec 16) : State :=
  s.freshId.1.modWork (fun w => { w with mailboxes := w.mailboxes ++
    [{ num := n, uid := s.nextId, doorbell := bell, handler := handler, aspace := aspace, running := false, count := 0 }] })

/-- R139. Looking for the lowest free mailbox number. -/
def lowestFree (s : State) : Option Nat := (List.range 1024).find? (fun n => !s.work.mailboxes.any (fun b => b.num == n))

section
variable {s : State}

theorem free_iff {n : Nat} (h : n < 1024) : (!s.work.mailboxes.any (fun b => b.num == n)) = true ↔ MailboxFree s n := by
  simp only [MailboxFree, h, true_and, Bool.not_eq_true', List.any_eq_false, beq_iff_eq, ne_eq]

theorem lowestFree_eq_none (h : ∀ n : Nat, ¬ MailboxFree s n) : lowestFree s = none :=
  List.find?_eq_none.2 (fun n hn => fun hf => h n ((free_iff (List.mem_range.1 hn)).1 hf))

theorem lowestFree_eq_some {n : Nat} (hf : MailboxFree s n) (hlow : ∀ m : Nat, m < n → ¬ MailboxFree s m) :
    lowestFree s = some n := by
  have hlt : n < 1024 := hf.1
  refine List.find?_range_eq_some.2 ⟨(free_iff hlt).2 hf, List.mem_range.2 hlt, fun m hm => ?_⟩
  rw [Bool.not_eq_true', ← Bool.not_eq_true]
  exact fun h => hlow m hm ((free_iff (hm.trans hlt)).1 h)

variable {bell handler : DWord} {aspace : BitVec 16}

theorem mailbox_of_unknown (h0 : handler = 0) (h : mailboxAt s bell aspace = none) :
    s.mailbox bell handler aspace = (s, 0xFFFFFFFF) := by
  unfold mailboxAt at h
  rw [State.mailbox]
  simp only [h, h0, if_true]

theorem mailbox_of_known {m : Mailbox} (h0 : handler = 0) (h : mailboxAt s bell aspace = some m) :
    s.mailbox bell handler aspace = (s.releaseMailbox m.num, BitVec.ofNat 32 m.num) := by
  unfold mailboxAt at h
  rw [State.mailbox]
  simp only [h, h0, if_true]

theorem mailbox_of_taken (h0 : handler ≠ 0) (h : (mailboxAt s bell aspace).isSome = true) :
    s.mailbox bell handler aspace = (s, 0xFFFFFFFF) := by
  obtain ⟨m, hm⟩ := Option.isSome_iff_exists.1 h
  unfold mailboxAt at hm
  rw [State.mailbox]
  simp only [hm, h0, if_false]

theorem mailbox_of_full (h0 : handler ≠ 0) (h : mailboxAt s bell aspace = none) (hl : lowestFree s = none) :
    s.mailbox bell handler aspace = (s, 0xFFFFFFFF) := by
  unfold mailboxAt at h
  unfold lowestFree at hl
  rw [State.mailbox]
  simp only [h, h0, hl, if_false]

/-- R139. The lowest free mailbox is registered. -/
theorem mailbox_of_free {n : Nat} (h0 : handler ≠ 0) (h : mailboxAt s bell aspace = none) (hl : lowestFree s = some n) :
    s.mailbox bell handler aspace = (registered s n bell handler aspace, BitVec.ofNat 32 n) := by
  unfold mailboxAt at h
  unfold lowestFree at hl
  rw [State.mailbox]
  simp only [h, h0, hl, if_false]
  rfl

/-- R139. Nothing is registered on a doorbell that has its mailbox, nor where no mailbox is free. -/
theorem mailbox_of_refused (h0 : handler ≠ 0)
    (h : (mailboxAt s bell aspace).isSome = true ∨ ∀ n : Nat, ¬ MailboxFree s n) :
    s.mailbox bell handler aspace = (s, 0xFFFFFFFF) := by
  rcases h with h | h
  · exact mailbox_of_taken h0 h
  · cases e : mailboxAt s bell aspace with
    | some m => exact mailbox_of_taken h0 (e ▸ rfl)
    | none => exact mailbox_of_full h0 e (lowestFree_eq_none h)

/-- R139. Registering or releasing a mailbox changes what the hub keeps of mailboxes, and identities. -/
theorem mailbox_frame (s : State) (bell handler : DWord) (aspace : BitVec 16) :
    ∃ w i, (s.mailbox bell handler aspace).1 = { s with work := w, nextId := i } := by
  cases h : mailboxAt s bell aspace with
  | some m =>
    by_cases h0 : handler = 0
    · rw [mailbox_of_known h0 h]
      exact ⟨_, s.nextId, rfl⟩
    · rw [mailbox_of_taken h0 (h ▸ rfl)]
      exact ⟨s.work, s.nextId, rfl⟩
  | none =>
    by_cases h0 : handler = 0
    · rw [mailbox_of_unknown h0 h]
      exact ⟨s.work, s.nextId, rfl⟩
    · cases hl : lowestFree s with
      | none =>
        rw [mailbox_of_full h0 h hl]
        exact ⟨s.work, s.nextId, rfl⟩
      | some n =>
        rw [mailbox_of_free h0 h hl]
        exact ⟨_, s.nextId + 1, rfl⟩

theorem mem_mailboxes_releaseMailbox (s : State) (n : Nat) (x : Mailbox) :
    x ∈ (s.releaseMailbox n).work.mailboxes ↔ x ∈ s.work.mailboxes ∧ x.num ≠ n := by
  refine List.mem_filter.trans ?_
  rw [bne_iff_ne]

end

/-! ### MBOX -/

section
variable {s s1 : State} {v : BitVec 7} {a b : BitVec 6} {tg : BitVec 4} (ho : s.overCount (.mbox v a b) = none)
  (hv : s.vecRead [] (some v) false [] true noCheck = .ok (s1, tg, []))
include ho hv

/-- MBOX past the readiness of its destination. -/
theorem exec_mbox_eq : exec (.mbox v a b) s = .next (
    if (s.getS a.toNat).toNat % 64 ≠ 0 then s.misaligned (s.getS a.toNat) false
    else if (s.getS b.toNat).toNat % 64 ≠ 0 then s.misaligned (s.getS b.toNat) false
    else s.answer v (fun s => s.mailbox (s.getS a.toNat) (s.getS b.toNat) s.mine.aspace)) := by
  rw [exec_mbox, execMbox, gate_none _ ho, State.mbox, hv]

theorem mbox_of_misaligned_doorbell (h : (s.getS a.toNat).toNat % 64 ≠ 0) :
    Takes260 s (.mbox v a b) .misalign (s.getS a.toNat) false :=
  takes260_of_exec (by rw [exec_mbox_eq ho hv, if_pos h]; rfl)

variable (ha : (s.getS a.toNat).toNat % 64 = 0)
include ha

theorem mbox_of_misaligned_handler (h : (s.getS b.toNat).toNat % 64 ≠ 0) :
    Takes260 s (.mbox v a b) .misalign (s.getS b.toNat) false :=
  takes260_of_exec (by rw [exec_mbox_eq ho hv, if_neg (not_not.2 ha), if_pos h]; rfl)

theorem mbox_of_aligned (hb : (s.getS b.toNat).toNat % 64 = 0) : exec (.mbox v a b) s =
    .next ((s.mailbox (s.getS a.toNat) (s.getS b.toNat) s.mine.aspace).1.writeDst v 5
      (fun _ => (s.mailbox (s.getS a.toNat) (s.getS b.toNat) s.mine.aspace).2)).done := by
  have hs1 : s1 = s := vecRead_only.2 _ _ (fun _ h => absurd h List.not_mem_nil) hv
  have hv' : s.vecRead [] (some v) false [] true (fun _ => none) = .ok (s1, tg, []) := hv
  rw [exec_mbox_eq ho hv, if_neg (not_not.2 ha), if_neg (not_not.2 hb), State.answer, hv', hs1]

end

/-- R139. What MBOX leaves, whatever it answers. -/
theorem mailbox_answered {s : State} (hst : Stands s s.iss.k s.iss.c) (v : BitVec 7) (bell handler : DWord) (aspace : BitVec 16) :
    let u := s.mailbox bell handler aspace
    let t := (u.1.writeDst v 5 (fun _ => u.2)).done
    LanesPast s t ∧ t.ms = s.ms ∧ Receives s t s.iss.k s.iss.c v 5 s.iss.set (fun _ => u.2) ∧ t.work = u.1.work := by
  intro u t
  obtain ⟨w, i, hu⟩ : ∃ w i, u.1 = { s with work := w, nextId := i } := mailbox_frame s bell handler aspace
  have ht : t = (({ s with work := w, nextId := i } : State).writeDst v 5 (fun _ => u.2)).done := by rw [← hu]
  have hst' : Stands ({ s with work := w, nextId := i } : State) s.iss.k s.iss.c := hst
  have hwork : t.work = u.1.work := (State.done_work _).trans (writeDst_only u.1 v 5 (fun _ => u.2)).work
  have hms : t.ms = s.ms := by
    rw [ht, State.done_ms, (writeDst_only _ v 5 (fun _ => u.2)).ms]
  refine ⟨?_, hms, ?_, hwork⟩
  · rw [ht]
    exact lanesPast_writeDst_done (s := { s with work := w, nextId := i }) hst' v 5 (fun _ => u.2)
  · rw [ht]
    exact receives_writeDst_done (s := { s with work := w, nextId := i }) hst' v 5 (fun _ => u.2)

/-! ### QBIND -/

theorem bindingWordOk_iff (w : DWord) : bindingWordOk w = true ↔ BindWord w := by
  have hf : field w.toNat 10 8 = w.toNat / 2 ^ 8 % 8 := rfl
  simp only [bindingWordOk, BindWord, hf, Bool.and_eq_true, decide_eq_true_eq, beq_iff_eq]
  split_ifs <;> omega

/-- R249. Is a mailbox number registered in an address space? -/
theorem registered_iff (s : State) (n : Nat) (aspace : BitVec 16) :
    s.work.mailboxes.any (fun m => m.num == n && m.aspace == aspace) = true ↔
      ∃ m ∈ s.work.mailboxes, m.num = n ∧ m.aspace = aspace := by
  simp only [List.any_eq_true, Bool.and_eq_true, beq_iff_eq]

/-- R249. A port that a binding word and an argument bind. -/
def boundPort (w arg : DWord) : Port :=
  { Port.unbound with bound := true, kind := w.setWidth 3, chan := BitVec.ofNat 3 (field w.toNat 10 8), arg := arg }

/-- R249. A node that KIND 5 may bind, where its bytes can be read. -/
def NodeAt (s : State) (va : DWord) : Prop :=
  va.toNat % 64 = 0 ∧ ∃ bs pa, s.fetchVa s.mine.aspace va 64 = .bytes bs pa ∧ (Node.ofBytes (s.readBytes 0 pa 64)).valid = true

section
variable {s : State} {p4 : BitVec 4} {a b : BitVec 6} (ho : s.overCount (.qbind p4 a b) = none)
include ho

theorem exec_qbind_eq : exec (.qbind p4 a b) s = .next (s.qbind p4.toNat a b) := by
  rw [exec_qbind, execQbind, gate_none _ ho]

theorem qbind_of_bound (h : (s.me.port p4.toNat).bound = true) :
    exec (.qbind p4 a b) s = .next (s.fail .badHandle (112 + p4.toNat)) := by
  rw [exec_qbind_eq ho, State.qbind]
  exact congrArg Host.Outcome.next (if_pos h)

variable (hf : (s.me.port p4.toNat).bound = false)
include hf

theorem qbind_of_bad_word (h : ¬ BindWord (s.getS a.toNat)) : exec (.qbind p4 a b) s = .next (s.fail .badHandle a.toNat) := by
  rw [← bindingWordOk_iff, Bool.not_eq_true] at h
  rw [exec_qbind_eq ho, State.qbind]
  simp only [hf, h, Bool.false_eq_true, if_false, Bool.not_false, if_true]

variable (hw : BindWord (s.getS a.toNat))
include hw

theorem qbind_of_argument (hk : (s.getS a.toNat).toNat % 8 < 4) (h : s.getS b.toNat ≠ 0) :
    exec (.qbind p4 a b) s = .next (s.fail .badHandle b.toNat) := by
  rw [exec_qbind_eq ho, State.qbind]
  simp only [hf, (bindingWordOk_iff _).2 hw, hk, h, Bool.false_eq_true, if_false, Bool.not_true, ne_eq, not_false_eq_true, and_self,
    if_true]

theorem qbind_of_no_mailbox (hk : (s.getS a.toNat).toNat % 8 = 4)
    (h : ∀ m ∈ s.work.mailboxes, ¬ (m.num = (s.getS b.toNat).toNat ∧ m.aspace = s.mine.aspace)) :
    exec (.qbind p4 a b) s = .next (s.fail .badHandle b.toNat) := by
  have hn : s.work.mailboxes.any (fun m => m.num == (s.getS b.toNat).toNat && m.aspace == s.mine.aspace) = false := by
    rw [← Bool.not_eq_true, registered_iff]
    exact fun ⟨m, hm, e⟩ => h m hm e
  rw [exec_qbind_eq ho, State.qbind]
  simp only [hf, (bindingWordOk_iff _).2 hw, hk, hn, Bool.false_eq_true, if_false, Bool.not_true, Nat.lt_irrefl, false_and,
    Bool.not_false, and_self, if_true]

/-- R249. KIND 5: the argument is a node's address. -/
theorem qbind_of_node (hk : (s.getS a.toNat).toNat % 8 = 5) : exec (.qbind p4 a b) s = .next (
    if (s.getS b.toNat).toNat % 64 ≠ 0 then s.fail .badHandle b.toNat
    else s.withNode (s.getS b.toNat) (fun _ n =>
      if n.valid then (s.modMe (·.bind p4.toNat (s.getS a.toNat) (s.getS b.toNat))).done else s.fail .badHandle b.toNat)) := by
  rw [exec_qbind_eq ho, State.qbind]
  simp only [hf, (bindingWordOk_iff _).2 hw, hk, Bool.false_eq_true, if_false, Bool.not_true, Nat.reduceLT, Nat.reduceEqDiff, false_and,
    if_true]

theorem qbind_of_misaligned_node (hk : (s.getS a.toNat).toNat % 8 = 5) (h : (s.getS b.toNat).toNat % 64 ≠ 0) :
    exec (.qbind p4 a b) s = .next (s.fail .badHandle b.toNat) := by
  rw [qbind_of_node ho hf hw hk, if_pos h]

theorem qbind_of_invalid_node (hk : (s.getS a.toNat).toNat % 8 = 5) (hal : (s.getS b.toNat).toNat % 64 = 0) {bs : List Byte} {pa : Nat}
    (hb : s.fetchVa s.mine.aspace (s.getS b.toNat) 64 = .bytes bs pa) (h : (Node.ofBytes (s.readBytes 0 pa 64)).valid = false) :
    exec (.qbind p4 a b) s = .next (s.fail .badHandle b.toNat) := by
  rw [qbind_of_node ho hf hw hk, if_neg (not_not.2 hal), withNode_of_bytes _ hb, h]
  rfl

/-- R249. QBIND binds where each check of its KIND passes. -/
theorem qbind_binds (h4 : (s.getS a.toNat).toNat % 8 < 4 → s.getS b.toNat = 0)
    (hm : (s.getS a.toNat).toNat % 8 = 4 → ∃ m ∈ s.work.mailboxes, m.num = (s.getS b.toNat).toNat ∧ m.aspace = s.mine.aspace)
    (hn : (s.getS a.toNat).toNat % 8 = 5 → NodeAt s (s.getS b.toNat)) :
    exec (.qbind p4 a b) s = .next (moved s (·.bind p4.toNat (s.getS a.toNat) (s.getS b.toNat))) := by
  have hmoved : (s.modMe (·.bind p4.toNat (s.getS a.toNat) (s.getS b.toNat))).done =
      moved s (·.bind p4.toNat (s.getS a.toNat) (s.getS b.toNat)) := done_modMe (fun _ => rfl)
  by_cases h5 : (s.getS a.toNat).toNat % 8 = 5
  · obtain ⟨hal, bs, pa, hb, hv⟩ := hn h5
    rw [qbind_of_node ho hf hw h5, if_neg (not_not.2 hal), withNode_of_bytes _ hb, hv, ← hmoved]
    rfl
  · have harg : ¬ ((s.getS a.toNat).toNat % 8 < 4 ∧ s.getS b.toNat ≠ 0) := fun h => h.2 (h4 h.1)
    have hbox : ¬ ((s.getS a.toNat).toNat % 8 = 4 ∧
        (!s.work.mailboxes.any (fun m => m.num == (s.getS b.toNat).toNat && m.aspace == s.mine.aspace)) = true) := by
      rintro ⟨hk, hno⟩
      rw [(registered_iff _ _ _).2 (hm hk)] at hno
      exact Bool.false_ne_true hno
    rw [exec_qbind_eq ho, State.qbind, ← hmoved]
    simp only [hf, (bindingWordOk_iff _).2 hw, harg, hbox, h5, Bool.false_eq_true, if_false, Bool.not_true]

end

section
variable {s : State} (hst : Stands s s.iss.k s.iss.c) {q : Nat} (g : Course → Port)
include hst

/-- What an instruction that sets a port, and nothing else of its course, leaves. -/
theorem moved_setPort (hq : q < 16) :
    let t := moved s (fun x => x.setPort q (g x))
    t.me.port q = g s.me ∧ (∀ n : Nat, n ≠ q → t.me.port n = s.me.port n) ∧ LanesPast s t ∧ t.me.v = s.me.v ∧
      t.mine.channels = s.mine.channels ∧ SameMemory s t := by
  intro t
  have hme : t.me = pastIssue s (s.me.setPort q (g s.me)) := me_moved hst (fun _ => rfl)
  refine ⟨?_, fun n hn => ?_, lanesPast_of_me hme rfl rfl rfl rfl, ?_, channels_modCrs hst, fun _ => rfl,
    fun k x => congrArg (memGet · x) scratch_modCrs, rfl, rfl⟩
  · rw [hme]
    exact port_setPort_same hq
  · rw [hme]
    exact vget_vset_ne _ _ _ hn.symm
  · rw [hme]
    rfl

end

/-! ### QFREE and QSTAT -/

section
variable {s : State} {p4 : BitVec 4}

theorem qfree_of_busy (h : s.portBusy s.iss.k s.iss.c p4.toNat = true) : exec (.qfree p4) s = .next (s.stallFor .other) :=
  congrArg Host.Outcome.next (if_pos h)

/-- R249. A port that QFREE leaves. -/
def freedPort (p : Port) : Port := { Port.unbound with dropped := p.dropped }

theorem qfree_frees (h : s.portBusy s.iss.k s.iss.c p4.toNat = false) :
    exec (.qfree p4) s = .next (moved s (fun x => x.setPort p4.toNat (freedPort (x.port p4.toNat)))) := by
  have hm : (s.modMe (fun x => x.setPort p4.toNat (freedPort (x.port p4.toNat)))).done = moved s _ := done_modMe (fun _ => rfl)
  rw [← hm, exec_qfree, execQfree, h]
  rfl

end

section
variable {s : State} {v : BitVec 7} {a : BitVec 6} (ho : s.overCount (.qstat v a) = none)
include ho

theorem qstat_of_no_port (h : 16 ≤ (s.getS a.toNat).toNat) : exec (.qstat v a) s = .next (s.fail .badHandle a.toNat) := by
  rw [exec_qstat, execQstat, gate_none _ ho]
  exact congrArg Host.Outcome.next (if_pos h)

theorem qstat_reports (h : (s.getS a.toNat).toNat < 16) :
    exec (.qstat v a) s = .next (s.writeDst v 5 (fun _ => s.portStat (s.getS a.toNat).toNat)).done := by
  rw [exec_qstat, execQstat, gate_none _ ho]
  exact congrArg Host.Outcome.next (if_neg (Nat.not_le.2 h))

end

end Sys2Proof.Proofs
end

section
/-!
PROOFS. The instructions of launches, queues and ports: the obligation, from their lemmas.
-/

namespace Sys2Proof.Proofs

open Sys2Proof Sys2Proof.Machine Sys2Proof.Statements

/-- Settles O52, instruction by instruction: an equation for `exec` in each case, and what the successor it names leaves of the course
and of memory. -/
theorem launchInstructionResults : Obligations.LaunchInstructionResults := by
  intro s a b v p4 hi k c A B
  have hst := stands_of_issuing hi
  refine ⟨fun ho h => takes260_of_exec (lnch_of_misaligned ho h), emit_of_misaligned, ?lnch, ?emit, ?counter, ?jcwaitFaults, ?mboxFaults,
    ?jcwait, ?mbox, ?qbind, qfree_of_busy, ?qfree, ?qstat⟩
  case lnch =>
    intro ho ha
    refine ⟨lnch_of_refused ho ha, lnch_of_full ho ha, fun pa ch hq hroom hr hat => ?_⟩
    obtain ⟨hpend, hregion, hpast, hv, hmem⟩ := withPending_done hst A (pendingLaunch s B.toNat pa)
    exact ⟨_, _, lnch_keeps ho ha hq hroom hr hat, rfl, rfl, hpend, rfl, rfl, rfl, hregion, hpast, hv, hmem⟩
  case emit =>
    intro bs pa pas ho ha hf n takes d
    refine ⟨emit_of_bad_node ho ha hf rfl, emit_of_off ho ha hf rfl, fun hn hal hin hp => ?_, fun hn hal hin hcl => ?_⟩
    · refine takes260_of_exec ?_
      rw [emit_of_poison ho ha hf rfl hn hal hin hp, BitVec.ofNat_toNat, BitVec.setWidth_eq]
    · have hex := emit_of_operands ho ha hf rfl hn hal hin hcl
      refine ⟨fun hrel => ?_, fun hrel hroom => ?_, fun cause va hrel hroom hr => takes260_of_exec ?_,
        fun hrel hroom hr hap hwf hfresh => ⟨_, ?_, emitted hst hr hap hwf hfresh⟩⟩
      · rw [hex, emitAt_of_waiting _ _ hrel]
      · rw [hex, emitAt_of_full _ _ hrel hroom]
      · rw [hex, emitAt_of_bad_storage _ _ hrel hroom hr]
      · rw [hex, emitAt_of_storage _ _ hrel hroom hr]
  case counter =>
    intro dec pa ch j
    refine ⟨counter_of_misaligned, fun ho ha hb => ⟨counter_of_denied ho ha hb, counter_of_poison ho ha hb⟩, fun ho ha =>
      ⟨counter_of_large ho ha, fun hb hx hp => ⟨counter_of_waiting ho ha hb hx hp, fun hrel hwf => ?_⟩⟩⟩
    exact ⟨_, counter_of_ready ho ha hb hx hp hrel, counter_changes hst hwf dec pa hb⟩
  case jcwaitFaults => exact fun s1 tg ho hv => ⟨jcwait_of_misaligned ho hv, jcwait_of_denied ho hv⟩
  case mboxFaults => exact fun s1 tg ho hv => ⟨mbox_of_misaligned_doorbell ho hv, mbox_of_misaligned_handler ho hv⟩
  case jcwait =>
    intro pa ch s1 tg ho hv ha hx hp own
    have hown : s.storesTo k c pa 8 = true ↔ own := storesTo_iff s k c pa 8
    refine ⟨fun h => jcwait_of_accesses ho hv ha hx hp (h.imp_right hown.2), fun hl hn hz => ?_, fun hl hn hnz => ?_⟩
    all_goals have hs : s.storesTo k c pa 8 = false := Bool.eq_false_iff.2 (fun h => hn (hown.1 h))
    · exact ⟨_, jcwait_of_zero ho hv ha hx hp hl hs hz, jcDone_leaves hst v _⟩
    · exact ⟨_, jcwait_of_nonzero ho hv ha hx hp hl hs hnz, jcwait_holds hst v pa⟩
  case mbox =>
    intro s1 tg ho hv ha hb old free
    obtain ⟨hpast, hms, hres, hwork⟩ := mailbox_answered hst v A B s.mine.aspace
    refine ⟨_, mbox_of_aligned ho hv ha hb, hpast, hms, fun h0 hold => ?_, fun m h0 hold => ?_, fun h0 hno => ?_,
      fun n h0 hold hfree hlow => ?_⟩
    · have hbox := mailbox_of_unknown h0 hold
      rw [hbox] at hres hwork ⊢
      exact ⟨hres, hwork⟩
    · have hbox := mailbox_of_known h0 hold
      rw [hbox] at hres hwork ⊢
      refine ⟨hres, fun x => ?_⟩
      rw [hwork]
      exact mem_mailboxes_releaseMailbox s m.num x
    · have hbox := mailbox_of_refused h0 hno
      rw [hbox] at hres hwork ⊢
      exact ⟨hres, hwork⟩
    · have hbox := mailbox_of_free h0 hold (lowestFree_eq_some hfree hlow)
      rw [hbox] at hres hwork ⊢
      refine ⟨hres, ?_⟩
      rw [hwork]
      rfl
  case qbind =>
    intro q j ho
    refine ⟨qbind_of_bound ho, qbind_of_bad_word ho, fun hf hw => qbind_of_argument ho hf hw, fun hf hw =>
      ⟨qbind_of_no_mailbox ho hf hw, qbind_of_misaligned_node ho hf hw, fun bs pa h5 hal hb => qbind_of_invalid_node ho hf hw h5 hal hb⟩,
      fun bs pa hf hw h4 hm hn => ?_⟩
    obtain ⟨hport, hother, hpast, hv, -, hmem⟩ := moved_setPort hst (fun _ => boundPort A B) p4.isLt
    have hnode (h5 : A.toNat % 8 = 5) : NodeAt s B := ⟨(hn h5).1, bs, pa, (hn h5).2⟩
    have hkind : ((boundPort A B).kind).toNat = A.toNat % 8 := BitVec.toNat_setWidth 3 A
    have hchan : ((boundPort A B).chan).toNat = A.toNat / 2 ^ 8 % 8 := (BitVec.toNat_ofNat _ _).trans (Nat.mod_mod _ _)
    exact ⟨_, qbind_binds ho hf hw h4 hm hnode, congrArg Port.bound hport, (congrArg (·.kind.toNat) hport).trans hkind,
      (congrArg (·.chan.toNat) hport).trans hchan, congrArg Port.arg hport, congrArg Port.elems hport, congrArg Port.dropped hport,
      hother, hpast, hv, hmem⟩
  case qfree =>
    intro h
    obtain ⟨hport, hother, hpast, hv, hch, hmem⟩ := moved_setPort hst (fun x => freedPort (x.port p4.toNat)) p4.isLt
    exact ⟨_, qfree_frees h, congrArg Port.bound hport, congrArg Port.elems hport, (congrArg Port.dropped hport).trans rfl,
      hother, hpast, hv, hch, hmem⟩
  case qstat =>
    exact fun ho => ⟨qstat_of_no_port ho, fun h => ⟨_, qstat_reports ho h, fun _ _ _ => rfl⟩⟩

end Sys2Proof.Proofs
end

section
/-!
PROOFS. Kicks (R117, R123, R125, R429, R443).
-/

namespace Sys2Proof.Proofs

open Sys2Proof Sys2Proof.Machine Sys2Proof.Statements

/-! ### Waking the module (R443) -/

theorem wakeIdle_frame (s : State) : ∃ p x, s.wakeIdle = s.modHub (fun h => { h with pstate := p, cclk := x }) := by
  rw [State.wakeIdle]
  split
  · exact ⟨_, _, rfl⟩
  · exact ⟨s.hub.pstate, s.hub.cclk, rfl⟩

@[simp] theorem wakeIdle_ms (s : State) : s.wakeIdle.ms = s.ms := by
  obtain ⟨p, x, h⟩ := wakeIdle_frame s
  rw [h, State.modHub_ms]

theorem wakeIdle_pstate (s : State) : s.wakeIdle.hub.pstate ≠ 2 := by
  rw [State.wakeIdle]
  split
  · simp only [State.modHub_hub]
    decide
  · assumption

theorem qdPa_wakeIdle (s : State) (q : Nat) : s.wakeIdle.qdPa q = s.qdPa q := by
  obtain ⟨p, x, h⟩ := wakeIdle_frame s
  rw [h]
  rfl

theorem qdesc_wakeIdle (s : State) (q : Nat) : s.wakeIdle.qdesc q = s.qdesc q := by
  obtain ⟨p, x, h⟩ := wakeIdle_frame s
  rw [h]
  rfl

theorem faults_wakeIdle (s : State) : s.wakeIdle.hub.faults = s.hub.faults := by
  obtain ⟨p, x, h⟩ := wakeIdle_frame s
  rw [h]
  rfl

/-! ### The write index (R125) -/

/-- R125. Is w newer than k? -/
def newerIndex (k w : Nat) : Bool := decide (0 < (2 ^ 32 + w - k) % 2 ^ 32 ∧ (2 ^ 32 + w - k) % 2 ^ 32 < 2 ^ 31)

theorem kickMax_eq {k w : Nat} (hk : k < 2 ^ 32) (hw : w < 2 ^ 32) : kickMax k w = if newerIndex k w then w else k := by
  rw [kickMax, idxSub, Nat.mod_eq_of_lt hk, Nat.mod_eq_of_lt hw, newerIndex]
  simp only [decide_eq_true_eq]
  split_ifs <;> omega

theorem wr_lt (s : State) (q : Nat) : (s.qdesc q).wr < 2 ^ 32 := peek_lt s _ 4

/-- R125. The WRIDX that a kick leaves. -/
def kickIndex (s : State) (q : Nat) (w : BitVec 32) : Nat :=
  if newerIndex (s.qdesc q).wr w.toNat then w.toNat else (s.qdesc q).wr

theorem kickIndex_lt (s : State) (q : Nat) (w : BitVec 32) : kickIndex s q w < 2 ^ 32 := by
  rw [kickIndex]
  split
  · exact w.isLt
  · exact wr_lt s q

/-- R125. The descriptor with a kick's WRIDX. -/
def kicked (s : State) (q : Nat) (w : BitVec 32) : State := s.qdSet q 0x14 4 (kickIndex s q w)

theorem kicked_eq (s : State) (q : Nat) (w : BitVec 32) : s.qdSet q 0x14 4 (kickMax (s.qdesc q).wr w.toNat) = kicked s q w := by
  rw [kicked, kickIndex, kickMax_eq (wr_lt s q) w.isLt]

section
variable {s : State} (hs : Memory.wf s.ms.mem) (q : Nat) (w : BitVec 32)
include hs

theorem peek_kicked : (kicked s q w).peek (s.qdPa q + 0x14) 4 = kickIndex s q w :=
  (peek_qdSet_self hs q 0x14 4 _).trans (Nat.mod_eq_of_lt (kickIndex_lt s q w))

theorem memGet_kicked_of_out {a : Nat} (h : a < s.qdPa q + 0x14 ∨ s.qdPa q + 0x18 ≤ a) :
    memGet (kicked s q w).ms.mem a = memGet s.ms.mem a :=
  memGet_hubWrite_of_out hs (by rwa [leBytes_length])

/-- R125. A kick moves WRIDX, and no other field of the descriptor. -/
theorem qdesc_kicked : (kicked s q w).qdesc q = { s.qdesc q with wr := (kicked s q w).peek (s.qdPa q + 0x14) 4 } := by
  have hout {o n : Nat} (h : o + n ≤ 0x14 ∨ 0x18 ≤ o) : (kicked s q w).peek (s.qdPa q + o) n = s.peek (s.qdPa q + o) n :=
    peek_qdSet_of_out hs (by omega)
  have hpa : (kicked s q w).qdPa q = s.qdPa q := rfl
  have hbase : (kicked s q w).peek (s.qdPa q) 8 = s.peek (s.qdPa q) 8 := hout (o := 0) (.inl (by decide))
  simp only [State.qdesc, hpa, hbase, hout (o := 8) (n := 4) (.inl (by decide)), hout (o := 12) (n := 1) (.inl (by decide)),
    hout (o := 13) (n := 1) (.inl (by decide)), hout (o := 14) (n := 2) (.inl (by decide)), hout (o := 16) (n := 4) (.inl (by decide)),
    hout (o := 32) (n := 32) (.inr (by decide))]

theorem halted_kicked : ((kicked s q w).qdesc q).halted = (s.qdesc q).halted := by
  rw [qdesc_kicked hs, QDesc.halted, QDesc.halted]

theorem malformed_kicked : ((kicked s q w).qdesc q).malformed = (s.qdesc q).malformed := by
  rw [qdesc_kicked hs, QDesc.malformed, QDesc.malformed, QDesc.enabled, QDesc.enabled]

end

/-! ### HOST_KICK -/

section
variable {s : State} {q : Nat} (hq : q < 4096) (w : BitVec 32)
include hq

theorem hostKick_high : exec (.hostKick q true w) s = .next s := by
  rw [exec_hostKick, execHostKick]
  simp only [Nat.not_le.2 hq, if_false, if_true]

variable (hpa : paExists (s.qdPa q) = true)
include hpa

theorem hostKick_of_other (h : (s.qdesc q).enabled = false ∨ (s.qdesc q).kind ≠ 1) :
    exec (.hostKick q false w) s = .next (s.modHub (fun h => { h with kerr := true })) := by
  have hbad : (!(s.qdesc q).enabled || decide ((s.qdesc q).kind ≠ 1)) = true := by
    rwa [Bool.or_eq_true, Bool.not_eq_true', decide_eq_true_eq]
  rw [exec_hostKick, execHostKick]
  simp only [Nat.not_le.2 hq, hpa, hbad, if_false, if_true, Bool.not_true, Bool.false_eq_true]

variable (hen : (s.qdesc q).enabled = true) (hkind : (s.qdesc q).kind = 1)
include hen hkind

/-- R117, R123, R125. A kick of an enabled host ring. -/
theorem hostKick_of_ring : exec (.hostKick q false w) s = .next (
    if (s.qdesc q).malformed then ((kicked s q w).testQueue q).wakeIdle
    else if w.toNat % 64 ≠ 0 then (if (s.qdesc q).halted then kicked s q w else (kicked s q w).haltQueue q 0x15).wakeIdle
    else (kicked s q w).wakeIdle) := by
  have hgood : (!(s.qdesc q).enabled || decide ((s.qdesc q).kind ≠ 1)) = false := by
    rw [hen, hkind]
    rfl
  rw [exec_hostKick, execHostKick]
  simp only [Nat.not_le.2 hq, hpa, hgood, kicked_eq, if_false, Bool.not_true, Bool.false_eq_true]

theorem hostKick_moves (hmal : (s.qdesc q).malformed = false) (h : w.toNat % 64 = 0 ∨ (s.qdesc q).halted = true) :
    exec (.hostKick q false w) s = .next (kicked s q w).wakeIdle := by
  rw [hostKick_of_ring hq w hpa hen hkind, hmal, if_neg Bool.false_ne_true]
  by_cases ha : w.toNat % 64 = 0
  · rw [if_neg (not_not.2 ha)]
  · rw [if_pos ha, h.resolve_left ha, if_pos rfl]

theorem hostKick_halts (hs : Memory.wf s.ms.mem) (hh : (s.qdesc q).halted = false)
    (h : (s.qdesc q).malformed = true ∨ w.toNat % 64 ≠ 0) :
    exec (.hostKick q false w) s = .next ((kicked s q w).haltQueue q 0x15).wakeIdle := by
  rw [hostKick_of_ring hq w hpa hen hkind]
  by_cases hmal : (s.qdesc q).malformed = true
  · rw [if_pos hmal, testQueue_of_malformed ((malformed_kicked hs q w).trans hmal) ((halted_kicked hs q w).trans hh)]
  · rw [if_neg hmal, if_pos (h.resolve_left hmal), hh, if_neg Bool.false_ne_true]

end

/-- R123. Halting a queue leaves its WRIDX. -/
theorem peek_haltWrites_wr {s : State} (hs : Memory.wf s.ms.mem) (q ec : Nat) :
    (haltWrites s q ec).peek (s.qdPa q + 0x14) 4 = s.peek (s.qdPa q + 0x14) 4 := by
  have hbelow {off : Nat} (h : 0x14 + 4 ≤ off) : s.qdPa q + 0x14 + 4 ≤ s.qdPa q + off := by omega
  have habove : s.qdPa q + 0x0D + 1 ≤ s.qdPa q + 0x14 := by omega
  calc (haltWrites s q ec).peek (s.qdPa q + 0x14) 4
    _ = _ := peek_qdSet_of_out (qdSet_wf (qdSet_wf hs _ _ _ _) _ _ _ _) (.inl (hbelow (by decide)))
    _ = _ := peek_qdSet_of_out (qdSet_wf hs _ _ _ _) (.inl (hbelow (by decide)))
    _ = s.peek (s.qdPa q + 0x14) 4 := peek_qdSet_of_out hs (.inr habove)

/-- R123, R125. What a kick that halts its queue leaves, where no host event is written. -/
theorem kicked_halted {s : State} (hs : Memory.wf s.ms.mem) (hev : s.hub.evEn = false) (q : Nat) (w : BitVec 32) :
    let t := ((kicked s q w).haltQueue q 0x15).wakeIdle
    (t.qdesc q).halted = true ∧ t.peek (s.qdPa q + 0x1C) 4 = 0x15 ∧ t.peek (s.qdPa q + 0x14) 4 = kickIndex s q w ∧
      ∃ r ∈ t.hub.faults, r.kind = 4 ∧ r.cause = 0x15 ∧ r.addr = BitVec.ofNat 64 q := by
  intro t
  have hs1 : Memory.wf (kicked s q w).ms.mem := qdSet_wf hs _ _ _ _
  obtain ⟨hms, -, -, -, hfault⟩ := haltQueue_of_disabled (s := kicked s q w) hev q 0x15
  have hmem : t.ms.mem = (haltWrites (kicked s q w) q 0x15).ms.mem := by
    rw [wakeIdle_ms, hms]
  refine ⟨?_, ?_, ?_, ?_⟩
  · rw [qdesc_wakeIdle]
    exact halted_haltQueue hs1 hev q 0x15
  · rw [peek_of_mem_eq hmem]
    exact peek_haltWrites_cause hs1 q 0x15
  · rw [peek_of_mem_eq hmem]
    exact (peek_haltWrites_wr hs1 q 0x15).trans (peek_kicked hs q w)
  · rwa [faults_wakeIdle]

/-- R125, R443. What a kick that its queue takes leaves. -/
theorem kicked_woken {s : State} (hs : Memory.wf s.ms.mem) (q : Nat) (w : BitVec 32) :
    let t := (kicked s q w).wakeIdle
    t.peek (s.qdPa q + 0x14) 4 = kickIndex s q w ∧
      (∀ a : Nat, a < s.qdPa q + 0x14 ∨ s.qdPa q + 0x18 ≤ a → memGet t.ms.mem a = memGet s.ms.mem a) ∧ t.hub.pstate ≠ 2 := by
  intro t
  have hms : t.ms = (kicked s q w).ms := wakeIdle_ms _
  refine ⟨?_, fun a ha => ?_, wakeIdle_pstate _⟩
  · rw [peek_of_mem_eq (congrArg _ hms), peek_kicked hs]
  · rw [hms, memGet_kicked_of_out hs q w ha]

end Sys2Proof.Proofs
end

section
/-!
PROOFS. Bytes that land from outside, BAR2 (R131, R132, R428, R438, R443) and MBOXHOST (R139, R429).
-/

namespace Sys2Proof.Proofs

open Sys2Proof Sys2Proof.Machine Sys2Proof.Statements
open Host (Cell)

/-! ### The windows of BAR2 (R438) -/

theorem find?_eq_some_iff_getD {α : Type} {xs : List α} {p : α → Bool} {d w : α} : xs.find? p = some w ↔
    ∃ j, ((j < xs.length ∧ p (xs.getD j d) = true) ∧ ∀ i : Nat, i < j → ¬ (i < xs.length ∧ p (xs.getD i d) = true)) ∧
      xs.getD j d = w := by
  rw [List.find?_eq_some_iff_getElem]
  constructor
  · rintro ⟨hp, j, hj, rfl, hlow⟩
    refine ⟨j, ⟨⟨hj, by rwa [List.getD_eq_getElem _ _ hj]⟩, fun i hi ⟨hlt, h⟩ => ?_⟩, List.getD_eq_getElem _ _ hj⟩
    rw [List.getD_eq_getElem _ _ hlt] at h
    simpa [h] using hlow i hi
  · rintro ⟨j, ⟨⟨hj, hp⟩, hlow⟩, rfl⟩
    refine ⟨hp, j, hj, (List.getD_eq_getElem _ _ hj).symm, fun i hi => ?_⟩
    have h := hlow i hi
    rw [List.getD_eq_getElem _ _ (hi.trans hj)] at h
    rw [Bool.not_eq_true', ← Bool.not_eq_true]
    exact fun hp => h ⟨hi.trans hj, hp⟩

theorem windowCovers_iff (w : DWord × DWord) (off n : Nat) : windowCovers w off n = true ↔
    w.1.getLsbD 0 = true ∧ field w.1.toNat 47 16 * 65536 ≤ off ∧
      off + n ≤ field w.1.toNat 47 16 * 65536 + field w.2.toNat 47 16 * 65536 := by
  simp only [windowCovers, Bool.and_eq_true, decide_eq_true_eq, and_assoc]

/-- R428, R438. An access is accepted by the lowest open window that covers it, where all of it is memory of the module. -/
theorem windowFor_eq_some_iff (s : State) (off n : Nat) (w : DWord × DWord) :
    s.windowFor off n = some w ↔ ∃ j, Opened s off n j ∧ vget s.hub.windows (0, 0) j = w := by
  have hmem : (List.range n).all (fun i => paExists (off + i) && !isHost (off + i)) = true ↔
      ∀ i : Nat, i < n → paExists (off + i) = true ∧ isHost (off + i) = false := by
    simp only [List.all_eq_true, List.mem_range, Bool.and_eq_true, Bool.not_eq_true']
  rw [State.windowFor]
  split
  · rename_i h
    rw [find?_eq_some_iff_getD (d := (0, 0))]
    simp only [Vector.length_toList, windowCovers_iff]
    exact exists_congr (fun j => and_congr_left' (and_iff_right (hmem.1 h)).symm)
  · rename_i h
    exact ⟨fun e => (nomatch e), fun ⟨j, hj, _⟩ => absurd (hmem.2 hj.1) h⟩

theorem windowFor_eq_none {s : State} {off n : Nat} (h : ∀ j : Nat, ¬ Opened s off n j) : s.windowFor off n = none :=
  Option.eq_none_iff_forall_ne_some.2 (fun w e => by
    obtain ⟨j, hj, -⟩ := (windowFor_eq_some_iff s off n w).1 e
    exact h j hj)

/-! ### Landing from outside (R131, R132, R443) -/

/-- R283. Bytes that have landed, and what they ring. -/
def landed (s : State) (aspace : BitVec 16) (cells : List Cell) : State :=
  ((s.modMs (fun m => { m with stale := m.stale.filter (fun b => !cells.any (fun x => x.1 == b.pa)) })).homeWrite cells).modWork
    (fun w => { w with arrivals := w.arrivals ++ s.rung aspace (cells.map (·.1)) })

@[simp] theorem landed_hub (s : State) (aspace : BitVec 16) (cells : List Cell) : (landed s aspace cells).hub = s.hub := rfl
@[simp] theorem landed_outbox (s : State) (aspace : BitVec 16) (cells : List Cell) : (landed s aspace cells).outbox = s.outbox := rfl

theorem landFromOutside_of_silent {s : State} {aspace : BitVec 16} {cells : List Cell} (h : s.rung aspace (cells.map (·.1)) = []) :
    s.landFromOutside aspace cells = landed s aspace cells := by
  rw [State.landFromOutside]
  simp only [h, List.isEmpty_nil, if_true]
  rw [landed, h]

theorem landFromOutside_of_rings {s : State} {aspace : BitVec 16} {cells : List Cell} (h : s.rung aspace (cells.map (·.1)) ≠ []) :
    s.landFromOutside aspace cells = (landed s aspace cells).wakeIdle := by
  have he : (s.rung aspace (cells.map (·.1))).isEmpty = false := by
    rwa [← Bool.not_eq_true, List.isEmpty_iff]
  rw [State.landFromOutside]
  simp only [he, Bool.false_eq_true, if_false]
  rfl

/-- R443. Landing leaves the hub, but for its power state. -/
theorem landFromOutside_frame (s : State) (aspace : BitVec 16) (cells : List Cell) :
    ∃ p x, s.landFromOutside aspace cells = (landed s aspace cells).modHub (fun h => { h with pstate := p, cclk := x }) := by
  by_cases h : s.rung aspace (cells.map (·.1)) = []
  · rw [landFromOutside_of_silent h]
    exact ⟨s.hub.pstate, s.hub.cclk, rfl⟩
  · rw [landFromOutside_of_rings h]
    exact wakeIdle_frame _

section
variable {s t : State} {aspace : BitVec 16} {pas : List Nat} {bs : List Byte} (ht : t = s.landFromOutside aspace (pas.zip bs))
  (hl : pas.length = bs.length)
include ht hl

/-- R131, R132. Each byte stands at its address, no copy is left of what it replaced, and each mailbox it rings has its arrival. -/
theorem landFromOutside_lands (hn : pas.Nodup) (hs : Memory.wf s.ms.mem) : Lands s t pas bs 0 0 ∧ (∀ x ∈ t.ms.stale, x.pa ∉ pas) ∧
    t.work.arrivals = s.work.arrivals ++ s.rung aspace pas := by
  have hfst : (pas.zip bs).map (·.1) = pas := map_fst_zip_of_length_eq hl
  obtain ⟨p, x, h⟩ := landFromOutside_frame s aspace (pas.zip bs)
  rw [← ht] at h
  have hmem : t.ms.mem = memCells s.ms.mem (pas.zip bs) := by rw [h]; rfl
  have hstale : t.ms.stale = s.ms.stale.filter (fun b => !(pas.zip bs).any (fun x => x.1 == b.pa)) := by rw [h]; rfl
  have hwork : t.work.arrivals = s.work.arrivals ++ s.rung aspace ((pas.zip bs).map (·.1)) := by rw [h]; rfl
  refine ⟨⟨fun i a hi => ?_, fun a ha _ => ?_⟩, fun b hb hpa => ?_, by rw [hwork, hfst]⟩
  · rw [hmem]
    exact memGet_memCells_zip hs hn hl hi
  · rw [hmem]
    exact memGet_memCells_of_not_mem hs (by rwa [hfst])
  · rw [hstale] at hb
    have hkeep := (List.mem_filter.1 hb).2
    rw [Bool.not_eq_true', List.any_eq_false] at hkeep
    rw [← hfst] at hpa
    obtain ⟨y, hy, e⟩ := List.mem_map.1 hpa
    exact hkeep y hy (beq_iff_eq.2 e)

/-- R443. An arrival from outside ends power state Idle; without one the hub stays. -/
theorem landFromOutside_hub : (s.rung aspace pas = [] ∨ s.hub.pstate ≠ 2 → t.hub = s.hub) ∧
    (s.rung aspace pas ≠ [] → t.hub.pstate ≠ 2) := by
  have hfst : (pas.zip bs).map (·.1) = pas := map_fst_zip_of_length_eq hl
  rw [ht]
  refine ⟨fun h => ?_, fun h => ?_⟩
  · by_cases hr : s.rung aspace pas = []
    · rw [landFromOutside_of_silent (by rwa [hfst]), landed_hub]
    · rw [landFromOutside_of_rings (by rwa [hfst]), State.wakeIdle, if_neg (by rw [landed_hub]; exact h.resolve_left hr), landed_hub]
  · rw [landFromOutside_of_rings (by rwa [hfst])]
    exact wakeIdle_pstate _

end

/-! ### BAR2 (R428, R438) -/

section
variable {s : State} {off : Nat}

theorem bar2Write_refused {data : List Byte} (h : ∀ j : Nat, ¬ Opened s off data.length j) :
    exec (.hostBar2Write off data) s = .next s.refused2 := by
  rw [exec_hostBar2Write, execHostBar2Write, windowFor_eq_none h]

theorem cellsFrom_eq_zip (pa : Nat) (bs : List Byte) : cellsFrom pa bs = ((List.range bs.length).map (pa + ·)).zip bs := by
  rw [cellsFrom, List.zip_map_left]
  rfl

theorem bar2Write_lands {data : List Byte} {j : Nat} (h : Opened s off data.length j) : exec (.hostBar2Write off data) s =
    .next (s.landFromOutside ((vget s.hub.windows (0, 0) j).2.setWidth 16) (((List.range data.length).map (off + ·)).zip data)) := by
  rw [exec_hostBar2Write, execHostBar2Write, (windowFor_eq_some_iff s off _ _).2 ⟨j, h, rfl⟩, ← cellsFrom_eq_zip]
  rfl

theorem bar2Read_refused {n : Nat} (h : ∀ j : Nat, ¬ Opened s off n j) : exec (.hostBar2Read off n) s =
    .next { s.refused2 with outbox := s.outbox ++ [.readReply (List.replicate n 0xFF)] } := by
  rw [exec_hostBar2Read, execHostBar2Read, windowFor_eq_none h]

theorem bar2Read_answers {n j : Nat} (h : Opened s off n j) : exec (.hostBar2Read off n) s =
    .next { s with outbox := s.outbox ++ [.readReply (memRead s.ms.mem off n)] } := by
  rw [exec_hostBar2Read, execHostBar2Read, (windowFor_eq_some_iff s off _ _).2 ⟨j, h, rfl⟩]

end

/-! ### MBOXHOST (R139, R429) -/

/-- R429. The MBOXHOST block of the management window, or that of BAR0. -/
def mboxBlock (mgmt : Bool) (s : State) : MboxHost := if mgmt then s.hub.mboxMgmt else s.hub.mboxBar0

/-- R139, R429. An answer that stands in its block's result word. -/
def mboxResult (mgmt : Bool) (b : MboxHost) (u : State × Word) : State :=
  u.1.modHub (fun h => if mgmt then { h with mboxMgmt := { b with result := u.2 } } else { h with mboxBar0 := { b with result := u.2 } })

theorem mboxhost_of_aligned {mgmt : Bool} {s : State} (hd : (mboxBlock mgmt s).doorbell.toNat % 64 = 0)
    (hh : (mboxBlock mgmt s).handler.toNat % 64 = 0) : exec (.mboxhost mgmt) s = .next (mboxResult mgmt (mboxBlock mgmt s)
      (s.mailbox (mboxBlock mgmt s).doorbell (mboxBlock mgmt s).handler (mboxBlock mgmt s).aspace)) := by
  have hok : ¬ ((mboxBlock mgmt s).doorbell.toNat % 64 ≠ 0 ∨ (mboxBlock mgmt s).handler.toNat % 64 ≠ 0) := by
    rw [hd, hh]
    simp
  have hex : exec (.mboxhost mgmt) s = .next (mboxResult mgmt (mboxBlock mgmt s)
      (if (mboxBlock mgmt s).doorbell.toNat % 64 ≠ 0 ∨ (mboxBlock mgmt s).handler.toNat % 64 ≠ 0 then (s, 0xFFFFFFFF)
        else s.mailbox (mboxBlock mgmt s).doorbell (mboxBlock mgmt s).handler (mboxBlock mgmt s).aspace)) := by
    rw [exec_mboxhost]
    rfl
  rw [hex, if_neg hok]

/-- R139. What MBOXHOST leaves, whatever it answers. -/
theorem mboxResult_leaves (mgmt : Bool) (s : State) (bell handler : DWord) (aspace : BitVec 16) :
    let u := s.mailbox bell handler aspace
    let t := mboxResult mgmt (mboxBlock mgmt s) u
    t.ms = s.ms ∧ (mboxBlock mgmt t).doorbell = (mboxBlock mgmt s).doorbell ∧ (mboxBlock mgmt t).handler = (mboxBlock mgmt s).handler ∧
      (mboxBlock mgmt t).result = u.2 ∧ t.work = u.1.work := by
  intro u t
  obtain ⟨w, i, hu⟩ : ∃ w i, u.1 = { s with work := w, nextId := i } := mailbox_frame s bell handler aspace
  have hms : t.ms = s.ms := by
    change u.1.ms = s.ms
    rw [hu]
  cases mgmt
  · exact ⟨hms, rfl, rfl, rfl, rfl⟩
  · exact ⟨hms, rfl, rfl, rfl, rfl⟩

end Sys2Proof.Proofs
end

section
/-!
PROOFS. Numbers and slices in byte strings, and memory read after a run of bytes is written (R19, R433).
-/

namespace Sys2Proof.Proofs

open Sys2Proof Sys2Proof.Machine Sys2Proof.Statements
open Host (Cell)

/-! ### Slices of byte strings -/

section
variable {α : Type} {xs ys : List α} {o n : Nat}

theorem slice_append_left (h : o + n ≤ xs.length) : ((xs ++ ys).drop o).take n = (xs.drop o).take n := by
  rw [List.drop_append_of_le_length (by omega), List.take_append_of_le_length (by rw [List.length_drop]; omega)]

theorem slice_append_right (h : xs.length ≤ o) : ((xs ++ ys).drop o).take n = (ys.drop (o - xs.length)).take n := by
  rw [List.drop_append, List.drop_eq_nil_of_le h, List.nil_append]

/-- A slice past the first o entries of a list that begins with as many. -/
theorem slice_past {k : Nat} (h : xs.length = o) : ((xs ++ ys).drop (o + k)).take n = (ys.drop k).take n := by
  rw [slice_append_right (by omega), h, Nat.add_sub_cancel_left]

theorem slice_front (h : xs.length = n) : ((xs ++ ys).drop 0).take n = xs := by
  rw [List.drop_zero, List.take_left' h]

theorem slice_take {m : Nat} (h : o + n ≤ m) : ((xs.take m).drop o).take n = (xs.drop o).take n := by
  rw [List.drop_take, List.take_take, Nat.min_eq_left (by omega)]

/-- A slice of a slice. -/
theorem slice_slice {p m : Nat} (h : o + n ≤ m) : ((((xs.drop p).take m).drop o).take n) = (xs.drop (p + o)).take n := by
  rw [slice_take h, List.drop_drop]

end

section
variable {xs ys : List Byte} {o n : Nat}

theorem numAt_append_left (h : o + n ≤ xs.length) : numAt (xs ++ ys) o n = numAt xs o n := congrArg leNat (slice_append_left h)

theorem numAt_append_right (h : xs.length ≤ o) : numAt (xs ++ ys) o n = numAt ys (o - xs.length) n :=
  congrArg leNat (slice_append_right h)

theorem numAt_take {m : Nat} (h : o + n ≤ m) : numAt (xs.take m) o n = numAt xs o n := congrArg leNat (slice_take h)

theorem numAt_slice {p m : Nat} (h : o + n ≤ m) : numAt ((xs.drop p).take m) o n = numAt xs (p + o) n := congrArg leNat (slice_slice h)

end

/-! ### Numbers as bytes (R19) -/

theorem numAt_leBytes (n x : Nat) : numAt (leBytes n x) 0 n = x % 256 ^ n := by
  rw [numAt, List.drop_zero, List.take_of_length_le (by rw [leBytes_length]), leNat_leBytes]

/-- A number that stands first in a byte string. -/
theorem numAt_leBytes_append {n x : Nat} {bs : List Byte} (h : x < 256 ^ n) : numAt (leBytes n x ++ bs) 0 n = x := by
  rw [numAt_append_left (by rw [leBytes_length, Nat.zero_add]), numAt_leBytes, Nat.mod_eq_of_lt h]

theorem leBytes_leNat (bs : List Byte) : leBytes bs.length (leNat bs) = bs := by
  induction bs with
  | nil => rfl
  | cons b bs ih =>
    have hb := b.isLt
    have hdiv : (b.toNat + 256 * leNat bs) / 256 = leNat bs := by omega
    rw [List.length_cons, leBytes, leNat, hdiv, ih]
    congr 1
    exact BitVec.eq_of_toNat_eq (by rw [BitVec.toNat_ofNat]; omega)

theorem leNat_eq_zero_iff (bs : List Byte) : leNat bs = 0 ↔ ∀ b ∈ bs, b = 0 := by
  induction bs with
  | nil => simp [leNat]
  | cons b bs ih =>
    have hb : b.toNat = 0 ↔ b = 0 := (BitVec.toNat_inj (y := 0)).trans Iff.rfl
    rw [leNat, List.forall_mem_cons, ← ih, ← hb]
    omega

/-- n bytes from an offset are all zero where their number is. -/
theorem numAt_eq_zero_iff {bs : List Byte} {o n : Nat} (h : o + n ≤ bs.length) :
    numAt bs o n = 0 ↔ ∀ i : Nat, i < n → bs.getD (o + i) 0 = 0 := by
  have hlen : ((bs.drop o).take n).length = n := by
    rw [List.length_take, List.length_drop]
    omega
  have hget {i : Nat} (hi : i < n) : bs.getD (o + i) 0 = ((bs.drop o).take n)[i]'(hlen.symm ▸ hi) := by
    rw [List.getElem_take, List.getElem_drop, List.getD_eq_getElem _ _ (by omega)]
  rw [numAt, leNat_eq_zero_iff]
  constructor
  · intro h i hi
    rw [hget hi]
    exact h _ (List.getElem_mem _)
  · intro h b hb
    obtain ⟨i, hi, rfl⟩ := List.mem_iff_getElem.1 hb
    rw [hlen] at hi
    rw [← hget hi]
    exact h i hi

/-- Entry i of a list of doublewords as bytes. -/
theorem numAt_flatMap_leBytes {cs : List DWord} {i : Nat} {x : DWord} (h : cs[i]? = some x) :
    numAt (cs.flatMap (fun c => leBytes 8 c.toNat)) (8 * i) 8 = x.toNat := by
  induction cs generalizing i with
  | nil => cases h
  | cons c cs ih =>
    rw [List.flatMap_cons]
    cases i with
    | zero =>
      cases h
      exact numAt_leBytes_append x.isLt
    | succ i =>
      rw [numAt_append_right (by rw [leBytes_length]; omega), leBytes_length, Nat.mul_succ, Nat.add_sub_cancel]
      exact ih h

theorem length_flatMap_dwords (cs : List DWord) : (cs.flatMap (fun c => leBytes 8 c.toNat)).length = 8 * cs.length := by
  induction cs with
  | nil => rfl
  | cons c cs ih => rw [List.flatMap_cons, List.length_append, leBytes_length, ih, List.length_cons, Nat.mul_succ, Nat.add_comm]

/-! ### Memory after a run of bytes -/

section
variable {m : List Cell} (hm : Memory.wf m)
include hm

theorem memGet_memWrite_of_out {a x : Nat} {bs : List Byte} (h : x < a ∨ a + bs.length ≤ x) :
    memGet (memWrite m a bs) x = memGet m x := by
  induction bs generalizing m a with
  | nil => rfl
  | cons b bs ih =>
    rw [List.length_cons] at h
    rw [memWrite, ih (memSet_wf hm a b) (by omega), memGet_after hm.1, if_neg (by omega)]

theorem memGet_memWrite_self {a i : Nat} {bs : List Byte} (h : i < bs.length) : memGet (memWrite m a bs) (a + i) = bs[i] := by
  induction bs generalizing m a i with
  | nil => cases h
  | cons b bs ih =>
    rw [memWrite]
    cases i with
    | zero =>
      refine (memGet_memWrite_of_out (memSet_wf hm a b) (.inl (Nat.lt_add_one a))).trans ?_
      exact (memGet_after hm.1 a a b).trans (if_pos rfl)
    | succ i =>
      have hi : i < bs.length := Nat.lt_of_succ_lt_succ h
      have hadd : a + (i + 1) = a + 1 + i := by omega
      exact (congrArg _ hadd).trans (ih (memSet_wf hm a b) hi)

end

/-- A number within the bytes that the device has just written. -/
theorem peek_hubWrite_numAt {s : State} (hs : Memory.wf s.ms.mem) (pa : Nat) {bs : List Byte} {o n : Nat} (h : o + n ≤ bs.length) :
    (s.hubWrite pa bs).peek (pa + o) n = numAt bs o n := by
  rw [State.peek, numAt]
  refine congrArg leNat (List.ext_getElem ?_ (fun i hi hi' => ?_))
  · rw [memRead_length, List.length_take, List.length_drop]
    omega
  · rw [memRead_length] at hi
    rw [List.getElem_take, List.getElem_drop]
    simp only [memRead, List.getElem_map, List.getElem_range, Nat.add_assoc]
    exact memGet_hubWrite_self hs (by omega)

end Sys2Proof.Proofs
end

section
/-!
PROOFS. The commands of BAR4 (R432, R433, R440, R443).
-/

namespace Sys2Proof.Proofs

open Sys2Proof Sys2Proof.Machine Sys2Proof.Statements

/-! ### Responses (R432, R433) -/

theorem response_length {req : List Byte} (h : 16 ≤ req.length) (status : Nat) (data : List Byte) :
    (response req status data).length = 64 + data.length := by
  simp only [response, List.length_append, leBytes_length, List.length_take, List.length_drop, List.length_replicate]
  omega

/-- R433. The header of a response, and its data. -/
theorem response_eq {req : List Byte} (h : 16 ≤ req.length) (status : Nat) (data : List Byte) : response req status data =
    leBytes 4 status ++ (leBytes 4 data.length ++ ((req.drop 8).take 8 ++ (List.replicate 48 0 ++ data))) := by
  rw [response, slice_append_left (by omega), List.append_assoc, List.append_assoc, List.append_assoc]

/-- R432, R433. Answering a request, in a state that has given nothing out since s. -/
theorem answers_answerHost {s u : State} {req data : List Byte} {status : Nat} (hout : u.outbox = s.outbox) (hreq : 16 ≤ req.length)
    (hst : status < 2 ^ 32) (hd : data.length ≤ 4032) : Answers s (u.answerHost req status data) req status data := by
  have hlen := response_length hreq status data
  have htag : ((req.drop 8).take 8).length = 8 := by
    rw [List.length_take, List.length_drop]
    omega
  refine ⟨response req status data, congrArg (· ++ _) hout, ?_, ?_, ?_, ?_, ?_, rfl⟩
  · rw [response_eq hreq, numAt_leBytes_append hst]
  · rw [response_eq hreq, numAt_append_right (by rw [leBytes_length]), leBytes_length]
    exact numAt_leBytes_append (by omega)
  · rw [response_eq hreq, slice_past (o := 4) (k := 4) (leBytes_length _ _), slice_past (o := 4) (k := 0) (leBytes_length _ _),
      slice_front htag]
  · rw [response, List.drop_left']
    simp only [List.length_append, leBytes_length, List.length_take, List.length_drop, List.length_replicate]
    omega
  · change ((response req status data ++ List.replicate 4096 0).take 4096).take (response req status data).length = _
    rw [List.take_take, Nat.min_eq_left (by omega), List.take_left']
    rfl

section
variable (s : State) (req data : List Byte) (status : Nat)

@[simp] theorem answerHost_ms : (s.answerHost req status data).ms = s.ms := rfl
@[simp] theorem answerHost_work : (s.answerHost req status data).work = s.work := rfl
@[simp] theorem answerHost_leaf : (s.answerHost req status data).hub.leaf = s.hub.leaf := rfl
@[simp] theorem answerHost_powerCap : (s.answerHost req status data).hub.powerCap = s.hub.powerCap := rfl
@[simp] theorem answerHost_flash : (s.answerHost req status data).hub.flash = s.hub.flash := rfl
@[simp] theorem answerHost_qdesc (q : Nat) : (s.answerHost req status data).qdesc q = s.qdesc q := rfl

end

/-! ### Which instruction serves a request (R433) -/

/-- R433. The instruction of a request by its CMD, and for a queue's command by its operation. -/
noncomputable def commandOf (req : List Byte) : Instr :=
  if numAt req 0 4 = 1 then .attestationQuote req
  else if numAt req 0 4 = 2 then
    (if numAt req 0x44 4 = 1 then .queueEnable req else if numAt req 0x44 4 = 2 then .queueDisable req else .queueDefine req)
  else if numAt req 0 4 = 3 then .setPowerCap req
  else if numAt req 0 4 = 4 then .readErrorCounters req
  else if numAt req 0 4 = 5 then .writeFlash req
  else .unknownCommand req

section
variable {s : State} {req : List Byte} {need : Nat} {f : State → State}

theorem served_of_unbooted (h : s.hub.bootok = false) : s.served req need f = s.answerHost req 3 [] := by
  rw [State.served, h]
  rfl

theorem served_of_params (h : s.hub.bootok = true) (hlo : need ≤ numAt req 4 4) (hhi : numAt req 4 4 ≤ 4032) :
    s.served req need f = f s := by
  have hlen : ¬ (reqLen req < need ∨ 4032 < reqLen req) := by
    rw [reqLen]
    omega
  rw [State.served, h, if_neg hlen]
  rfl

/-! ### Each command's answer -/

theorem exec_command_quote (hc : numAt req 0 4 = 1) : exec (commandOf req) s = .next (s.served req 32 (fun s =>
    if 2 ^ 30 ≤ s.hub.leaf.toNat then s.answerHost req 4 []
    else (s.modHub (fun h => { h with leaf := h.leaf + 1 })).answerHost req 0
      (s.quote ((req.drop 0x40 ++ List.replicate 32 0).take 32)))) := by
  rw [commandOf, if_pos hc, exec_attestationQuote, execAttestationQuote, reqCmd, if_neg (not_not.2 hc)]

/-- R433. The change of the descriptor of queue q that a queue's command makes, where its parameters are good. -/
def queueChange (req : List Byte) (s : State) (q : Nat) : Option State :=
  if numAt req 0x44 4 = 1 then some (s.qdSet q 0x0D 1 ((s.qdesc q).flags ||| 1))
  else if numAt req 0x44 4 = 2 then some (s.qdSet q 0x0D 1 ((s.qdesc q).flags &&& 0xFE))
  else if numAt req 0x44 4 = 0 ∧ defineOk (defineBytes req) then some (s.hubWrite (s.qdPa q) (defineBytes req))
  else none

theorem exec_command_queue (hc : numAt req 0 4 = 2) : ∃ n, n ≤ 72 ∧
    exec (commandOf req) s = .next (s.queueCommand req n (queueChange req)) := by
  have hne : numAt req 0 4 ≠ 1 := by omega
  rw [commandOf, if_neg hne, if_pos hc]
  by_cases h1 : numAt req 0x44 4 = 1
  · have hgo : ¬ (reqCmd req ≠ 2 ∨ reqWord req 0x44 4 ≠ 1) := by
      rw [reqCmd, reqWord]
      omega
    have hchange : queueChange req = fun s q => some (s.qdSet q 0x0D 1 ((s.qdesc q).flags ||| 1)) := by
      funext s q
      rw [queueChange, if_pos h1]
    exact ⟨8, by decide, by rw [if_pos h1, exec_queueEnable, execQueueEnable, if_neg hgo, hchange]⟩
  · by_cases h2 : numAt req 0x44 4 = 2
    · have hgo : ¬ (reqCmd req ≠ 2 ∨ reqWord req 0x44 4 ≠ 2) := by
        rw [reqCmd, reqWord]
        omega
      have hchange : queueChange req = fun s q => some (s.qdSet q 0x0D 1 ((s.qdesc q).flags &&& 0xFE)) := by
        funext s q
        rw [queueChange, if_neg h1, if_pos h2]
      exact ⟨8, by decide, by rw [if_neg h1, if_pos h2, exec_queueDisable, execQueueDisable, if_neg hgo, hchange]⟩
    · have hgo : ¬ (reqCmd req ≠ 2 ∨ reqWord req 0x44 4 = 1 ∨ reqWord req 0x44 4 = 2) := by
        rw [reqCmd, reqWord]
        omega
      have hchange : queueChange req = fun s q =>
          if numAt req 0x44 4 = 0 ∧ defineOk (defineBytes req) then some (s.hubWrite (s.qdPa q) (defineBytes req)) else none := by
        funext s q
        rw [queueChange, if_neg h1, if_neg h2]
      exact ⟨72, le_rfl, by rw [if_neg h1, if_neg h2, exec_queueDefine, execQueueDefine, if_neg hgo, hchange, reqWord]⟩

theorem exec_command_power (hc : numAt req 0 4 = 3) : exec (commandOf req) s = .next (s.served req 4 (fun s =>
    if numAt req 0x40 4 < 1500 ∨ s.tdp < numAt req 0x40 4 then s.answerHost req 2 []
    else (s.modHub (fun h => { h with powerCap := numAt req 0x40 4 })).answerHost req 0 (leBytes 4 (numAt req 0x40 4)))) := by
  have h1 : numAt req 0 4 ≠ 1 := by omega
  have h2 : numAt req 0 4 ≠ 2 := by omega
  rw [commandOf, if_neg h1, if_neg h2, if_pos hc, exec_setPowerCap, execSetPowerCap, reqCmd, if_neg (not_not.2 hc)]
  rfl

/-- R433. The data of READ_ERROR_COUNTERS. -/
def counterData (cs : List DWord) : List Byte := leBytes 4 cs.length ++ leBytes 4 0 ++ cs.flatMap (fun c => leBytes 8 c.toNat)

theorem exec_command_counters (hc : numAt req 0 4 = 4) : exec (commandOf req) s = .next (s.served req 4 (fun s =>
    if 5 ≤ numAt req 0x40 4 then s.answerHost req 2 []
    else s.answerHost req 0 (counterData ((s.hub.counters.getD (numAt req 0x40 4) []).take 503)))) := by
  have h1 : numAt req 0 4 ≠ 1 := by omega
  have h2 : numAt req 0 4 ≠ 2 := by omega
  have h3 : numAt req 0 4 ≠ 3 := by omega
  rw [commandOf, if_neg h1, if_neg h2, if_neg h3, if_pos hc, exec_readErrorCounters, execReadErrorCounters, reqCmd,
    if_neg (not_not.2 hc)]
  rfl

theorem exec_command_flash (hc : numAt req 0 4 = 5) : exec (commandOf req) s = .next (
    if numAt req 0x48 4 = 0 ∨ 4016 < numAt req 0x48 4 ∨ numAt req 4 4 < 16 + numAt req 0x48 4 ∨ 4032 < numAt req 4 4 then
      s.answerHost req 2 []
    else (s.modHub (fun h => { h with
      flash := memWrite h.flash (numAt req 0x40 8)
        (((req.drop 0x50) ++ List.replicate (numAt req 0x48 4) 0).take (numAt req 0x48 4)) })).answerHost req 0 []) := by
  have h1 : numAt req 0 4 ≠ 1 := by omega
  have h2 : numAt req 0 4 ≠ 2 := by omega
  have h3 : numAt req 0 4 ≠ 3 := by omega
  have h4 : numAt req 0 4 ≠ 4 := by omega
  rw [commandOf, if_neg h1, if_neg h2, if_neg h3, if_neg h4, if_pos hc, exec_writeFlash, execWriteFlash]
  simp only [reqCmd, reqWord, reqLen, hc, ne_eq, not_true_eq_false, if_false]
  exact (apply_ite Host.Outcome.next _ _ _).symm

theorem exec_command_unknown (hc : numAt req 0 4 = 0 ∨ 5 < numAt req 0 4) :
    exec (commandOf req) s = .next (s.answerHost req (if s.hub.bootok then 1 else 3) []) := by
  have h1 : numAt req 0 4 ≠ 1 := by omega
  have h2 : numAt req 0 4 ≠ 2 := by omega
  have h3 : numAt req 0 4 ≠ 3 := by omega
  have h4 : numAt req 0 4 ≠ 4 := by omega
  have h5 : numAt req 0 4 ≠ 5 := by omega
  have hgo : ¬ (1 ≤ reqCmd req ∧ reqCmd req ≤ 5) := by
    rw [reqCmd]
    omega
  rw [commandOf, if_neg h1, if_neg h2, if_neg h3, if_neg h4, if_neg h5, exec_unknownCommand, execUnknownCommand, if_neg hgo]

/-- R433. While BOOTOK is 0 no command but 5 is served. -/
theorem command_of_unbooted (hb : s.hub.bootok = false) (hc : numAt req 0 4 ≠ 5) :
    exec (commandOf req) s = .next (s.answerHost req 3 []) := by
  obtain h | h | h | h | h : numAt req 0 4 = 1 ∨ numAt req 0 4 = 2 ∨ numAt req 0 4 = 3 ∨ numAt req 0 4 = 4 ∨
      numAt req 0 4 = 0 ∨ 5 < numAt req 0 4 := by omega
  · rw [exec_command_quote h, served_of_unbooted hb]
  · obtain ⟨n, -, hex⟩ := exec_command_queue (s := s) h
    rw [hex, State.queueCommand, served_of_unbooted hb]
  · rw [exec_command_power h, served_of_unbooted hb]
  · rw [exec_command_counters h, served_of_unbooted hb]
  · rw [exec_command_unknown h, hb]
    rfl

end

/-! ### ATTESTATION_QUOTE (R440) -/

section
variable {s : State} {req : List Byte} (hc : numAt req 0 4 = 1) (hb : s.hub.bootok = true) (hlo : 32 ≤ numAt req 4 4)
  (hhi : numAt req 4 4 ≤ 4032)
include hc hb hlo hhi

theorem quote_spent (h : 2 ^ 30 ≤ s.hub.leaf.toNat) : exec (commandOf req) s = .next (s.answerHost req 4 []) := by
  rw [exec_command_quote hc, served_of_params hb hlo hhi, if_pos h]

theorem quote_given (hreq : req.length = 4096) (h : s.hub.leaf.toNat < 2 ^ 30) : exec (commandOf req) s =
    .next ((s.modHub (fun h => { h with leaf := h.leaf + 1 })).answerHost req 0 (s.quote ((req.drop 0x40).take 32))) := by
  have hnonce : (req.drop 0x40 ++ List.replicate 32 (0 : Byte)).take 32 = (req.drop 0x40).take 32 :=
    List.take_append_of_le_length (by rw [List.length_drop]; omega)
  rw [exec_command_quote hc, served_of_params hb hlo hhi, if_neg (Nat.not_le.2 h), hnonce]

end

/-- R440. The fields of a quote. -/
theorem quote_fields (s : State) {nonce : List Byte} (h : nonce.length = 32) :
    (s.quote nonce).take 32 = nonce ∧ numAt (s.quote nonce) 0x20 4 = s.hub.devid.toNat ∧
      numAt (s.quote nonce) 0x24 4 = s.hub.leaf.toNat ∧ (s.hub.fwDigest.length = 32 → s.hub.cfgDigest.length = 32 →
        ((s.quote nonce).drop 0x28).take 32 = s.hub.fwDigest ∧ ((s.quote nonce).drop 0x48).take 32 = s.hub.cfgDigest) := by
  obtain ⟨sig, hq⟩ : ∃ sig, s.quote nonce = (nonce ++ (leBytes 4 s.hub.devid.toNat ++ (leBytes 4 s.hub.leaf.toNat ++
      (s.hub.fwDigest ++ (s.hub.cfgDigest ++ sig))))).take 4032 := by
    refine ⟨Config.signature s.hub.leaf.toNat
      (nonce ++ leBytes 4 s.hub.devid.toNat ++ leBytes 4 s.hub.leaf.toNat ++ s.hub.fwDigest ++ s.hub.cfgDigest), ?_⟩
    rw [State.quote]
    simp only [List.append_assoc]
  have hdev : s.hub.devid.toNat < 256 ^ 4 := s.hub.devid.isLt.trans (by decide)
  rw [hq]
  refine ⟨?_, ?_, ?_, fun hf hg => ⟨?_, ?_⟩⟩
  · rw [List.take_take, Nat.min_eq_left (by decide), List.take_left' h]
  · rw [numAt_take (by decide), numAt_append_right (by rw [h]), h]
    exact numAt_leBytes_append hdev
  · rw [numAt_take (by decide), numAt_append_right (by rw [h]; decide), h, numAt_append_right (by rw [leBytes_length]), leBytes_length]
    exact numAt_leBytes_append s.hub.leaf.isLt
  · rw [slice_take (by decide), slice_past (o := 32) (k := 8) h, slice_past (o := 4) (k := 4) (leBytes_length _ _),
      slice_past (o := 4) (k := 0) (leBytes_length _ _), slice_front hf]
  · rw [slice_take (by decide), slice_past (o := 32) (k := 40) h, slice_past (o := 4) (k := 36) (leBytes_length _ _),
      slice_past (o := 4) (k := 32) (leBytes_length _ _), slice_past (o := 32) (k := 0) hf, slice_front hg]

theorem quote_length (s : State) (nonce : List Byte) : (s.quote nonce).length ≤ 4032 := by
  rw [State.quote, List.length_take]
  exact Nat.min_le_left _ _

end Sys2Proof.Proofs
end

section
/-!
PROOFS. The commands of BAR4 that act on queues, power, counters and flash (R117, R433, R443).
-/

namespace Sys2Proof.Proofs

open Sys2Proof Sys2Proof.Machine Sys2Proof.Statements

/-! ### Commands on a queue's descriptor (R117, R433) -/

section
variable {s : State} {req : List Byte} (hc : numAt req 0 4 = 2) (hb : s.hub.bootok = true) (hlo : 72 ≤ numAt req 4 4)
  (hhi : numAt req 4 4 ≤ 4032)
include hc hb hlo hhi

theorem queue_of_large (h : 4096 ≤ numAt req 0x40 4) : exec (commandOf req) s = .next (s.answerHost req 2 []) := by
  obtain ⟨n, hn, hex⟩ := exec_command_queue (s := s) hc
  rw [hex, State.queueCommand, served_of_params hb (hn.trans hlo) hhi]
  exact congrArg Host.Outcome.next (if_pos h)

variable (hq : numAt req 0x40 4 < 4096) (hpa : paExists (s.qdPa (numAt req 0x40 4)) = true)
include hq hpa

theorem queue_of_change {t : State} (h : queueChange req s (numAt req 0x40 4) = some t) :
    exec (commandOf req) s = .next (t.answerHost req 0 []) := by
  obtain ⟨n, hn, hex⟩ := exec_command_queue (s := s) hc
  rw [hex, State.queueCommand, served_of_params hb (hn.trans hlo) hhi]
  simp only [reqWord, Nat.not_le.2 hq, hpa, h, if_false, Bool.not_true, Bool.false_eq_true]

theorem queue_of_no_change (h : queueChange req s (numAt req 0x40 4) = none) :
    exec (commandOf req) s = .next (s.answerHost req 2 []) := by
  obtain ⟨n, hn, hex⟩ := exec_command_queue (s := s) hc
  rw [hex, State.queueCommand, served_of_params hb (hn.trans hlo) hhi]
  simp only [reqWord, Nat.not_le.2 hq, hpa, h, if_false, Bool.not_true, Bool.false_eq_true]

end

/-! ### QUEUE_DEFINE -/

section
variable {req : List Byte} (hreq : req.length = 4096)
include hreq

/-- R433. The bytes of a descriptor that a define writes, part by part. -/
theorem defineBytes_eq : defineBytes req = (req.drop 0x48).take 13 ++
    ([0] ++ ((req.drop 0x56).take 2 ++ (List.replicate 8 0 ++ (req.drop 0x60).take 40))) := by
  have hd : ((req.drop 0x48) ++ List.replicate 64 (0 : Byte)).take 64 = (req.drop 0x48).take 64 :=
    List.take_append_of_le_length (by rw [List.length_drop]; omega)
  have hlast : ((req.drop 0x48).take 64).drop 24 = (req.drop 0x60).take 40 := by
    rw [List.drop_take, List.drop_drop]
  have hfirst : ((req.drop 0x48).take 64).take 13 = (req.drop 0x48).take 13 := by
    rw [List.take_take]
    rfl
  rw [defineBytes]
  simp only [hd, hlast, hfirst, slice_slice (show 14 + 2 ≤ 64 by decide), List.append_assoc, Nat.reduceAdd]

theorem defineBytes_lengths : ((req.drop 0x48).take 13).length = 13 ∧ ((req.drop 0x56).take 2).length = 2 ∧
    ((req.drop 0x60).take 40).length = 40 := by
  simp only [List.length_take, List.length_drop, hreq]
  decide

theorem defineBytes_length : (defineBytes req).length = 64 := by
  obtain ⟨h1, h2, h3⟩ := defineBytes_lengths hreq
  rw [defineBytes_eq hreq, List.length_append, List.length_append, List.length_append, List.length_append, h1, h2, h3,
    List.length_replicate, List.length_singleton]

/-- R433. A field of the descriptor below FLAGS is the request's. -/
theorem numAt_defineBytes_low {o n : Nat} (h : o + n ≤ 13) : numAt (defineBytes req) o n = numAt req (0x48 + o) n := by
  rw [defineBytes_eq hreq, numAt_append_left (by rw [(defineBytes_lengths hreq).1]; exact h), numAt_slice h]

/-- R433. A field of the descriptor above WRIDX is the request's. -/
theorem numAt_defineBytes_high {o n : Nat} (h : o + n ≤ 40) : numAt (defineBytes req) (24 + o) n = numAt req (0x60 + o) n := by
  obtain ⟨h1, h2, h3⟩ := defineBytes_lengths hreq
  have hoff : 24 + o = 13 + (1 + (2 + (8 + o))) := by omega
  rw [defineBytes_eq hreq, numAt, hoff, slice_past h1, slice_past (o := 1) rfl, slice_past h2, slice_past List.length_replicate]
  exact numAt_slice h

theorem numAt_defineBytes_flags : numAt (defineBytes req) 13 1 = 0 := by
  rw [defineBytes_eq hreq, numAt, slice_past (o := 13) (k := 0) (defineBytes_lengths hreq).1, slice_front (n := 1) rfl]
  rfl

theorem numAt_defineBytes_aspace : numAt (defineBytes req) 14 2 = numAt req 0x56 2 := by
  obtain ⟨h1, h2, h3⟩ := defineBytes_lengths hreq
  rw [defineBytes_eq hreq, numAt, slice_past (o := 13) (k := 1) h1, slice_past (o := 1) (k := 0) rfl, slice_front h2, numAt]

theorem numAt_defineBytes_indices : numAt (defineBytes req) 16 8 = 0 := by
  obtain ⟨h1, h2, h3⟩ := defineBytes_lengths hreq
  rw [defineBytes_eq hreq, numAt, slice_past (o := 13) (k := 3) h1, slice_past (o := 1) (k := 2) rfl, slice_past (o := 2) (k := 0) h2,
    slice_front List.length_replicate]
  rfl

/-- R117, R433. The fields of a define are in range. -/
theorem defineOk_iff : defineOk (defineBytes req) = true ↔ (∃ e : Nat, 6 ≤ e ∧ e ≤ 30 ∧ numAt req 0x50 4 = 2 ^ e) ∧
    numAt req 0x48 8 % 256 = 0 ∧ numAt req 0x54 1 ≤ 2 ∧ ∀ i : Nat, i < 32 → req.getD (0x68 + i) 0 = 0 := by
  have hsize : (∃ i, 6 ≤ i ∧ i < 6 + 25 ∧ numAt req 0x50 4 = 2 ^ i) ↔ ∃ e : Nat, 6 ≤ e ∧ e ≤ 30 ∧ numAt req 0x50 4 = 2 ^ e :=
    exists_congr (fun e => and_congr_right' (and_congr_left' Nat.lt_succ_iff))
  have hzero : numAt req 0x68 32 = 0 ↔ ∀ i : Nat, i < 32 → req.getD (0x68 + i) 0 = 0 := numAt_eq_zero_iff (by omega)
  have h8 := numAt_defineBytes_low hreq (o := 8) (n := 4) (by decide)
  have h0 := numAt_defineBytes_low hreq (o := 0) (n := 8) (by decide)
  have h12 := numAt_defineBytes_low hreq (o := 12) (n := 1) (by decide)
  have h32 := numAt_defineBytes_high hreq (o := 8) (n := 32) (by decide)
  rw [defineOk, h8, h0, h12, h32, ← hsize, ← hzero]
  simp only [Bool.and_eq_true, pow2In_iff, beq_iff_eq, decide_eq_true_eq, and_assoc, Nat.reduceAdd]

/-- R433. What QUEUE_DEFINE leaves of its descriptor, and of other memory. -/
theorem defined_fields {s t : State} {pa : Nat} (ht : t.ms.mem = (s.hubWrite pa (defineBytes req)).ms.mem) (hs : Memory.wf s.ms.mem) :
    t.peek pa 8 = numAt req 0x48 8 ∧ t.peek (pa + 8) 4 = numAt req 0x50 4 ∧ t.peek (pa + 12) 1 = numAt req 0x54 1 ∧
      t.peek (pa + 13) 1 = 0 ∧ t.peek (pa + 14) 2 = numAt req 0x56 2 ∧ t.peek (pa + 16) 8 = 0 ∧
      ∀ a : Nat, a < pa ∨ pa + 64 ≤ a → memGet t.ms.mem a = memGet s.ms.mem a := by
  have hlen := defineBytes_length hreq
  have hpeek {o n : Nat} (h : o + n ≤ 64) : t.peek (pa + o) n = numAt (defineBytes req) o n :=
    (peek_of_mem_eq ht _ _).trans (peek_hubWrite_numAt hs pa (by rwa [hlen]))
  refine ⟨(hpeek (o := 0) (by decide)).trans (numAt_defineBytes_low hreq (by decide)),
    (hpeek (by decide)).trans (numAt_defineBytes_low hreq (by decide)),
    (hpeek (by decide)).trans (numAt_defineBytes_low hreq (by decide)), (hpeek (by decide)).trans (numAt_defineBytes_flags hreq),
    (hpeek (by decide)).trans (numAt_defineBytes_aspace hreq), (hpeek (by decide)).trans (numAt_defineBytes_indices hreq),
    fun a ha => ?_⟩
  rw [ht, memGet_hubWrite_of_out hs (by rwa [hlen])]

end

section
variable {s : State} {req : List Byte} {q : Nat}

theorem queueChange_define (hop : numAt req 0x44 4 = 0) (hok : defineOk (defineBytes req) = true) :
    queueChange req s q = some (s.hubWrite (s.qdPa q) (defineBytes req)) := by
  have h1 : numAt req 0x44 4 ≠ 1 := by omega
  have h2 : numAt req 0x44 4 ≠ 2 := by omega
  rw [queueChange, if_neg h1, if_neg h2, if_pos ⟨hop, hok⟩]

theorem queueChange_of_bad (h : numAt req 0x44 4 = 0 ∧ defineOk (defineBytes req) = false ∨ 3 ≤ numAt req 0x44 4) :
    queueChange req s q = none := by
  have h1 : numAt req 0x44 4 ≠ 1 := by omega
  have h2 : numAt req 0x44 4 ≠ 2 := by omega
  have h0 : ¬ (numAt req 0x44 4 = 0 ∧ defineOk (defineBytes req) = true) := by
    rintro ⟨hz, hok⟩
    rcases h with ⟨-, h⟩ | h
    · exact Bool.false_ne_true (h.symm.trans hok)
    · omega
  rw [queueChange, if_neg h1, if_neg h2, if_neg h0]

/-! ### QUEUE_ENABLE and QUEUE_DISABLE -/

/-- R433. FLAGS after an enable, or a disable. -/
def switchedFlags (req : List Byte) (flags : Nat) : Nat := if numAt req 0x44 4 = 1 then flags ||| 1 else flags &&& 0xFE

theorem queueChange_switch (h : numAt req 0x44 4 = 1 ∨ numAt req 0x44 4 = 2) :
    queueChange req s q = some (s.qdSet q 0x0D 1 (switchedFlags req (s.qdesc q).flags)) := by
  rw [queueChange, switchedFlags]
  rcases h with h | h
  · rw [if_pos h, if_pos h]
  · have h1 : numAt req 0x44 4 ≠ 1 := by omega
    rw [if_neg h1, if_pos h, if_neg h1]

theorem enabled_eq_testBit (d : QDesc) : d.enabled = d.flags.testBit 0 := by
  rw [QDesc.enabled, Nat.testBit_zero]
  rfl

theorem halted_eq_testBit (d : QDesc) : d.halted = d.flags.testBit 1 := by
  rw [QDesc.halted, Nat.testBit_eq_decide_div_mod_eq]
  rfl

theorem testBit_switchedFlags (req : List Byte) (flags : Nat) :
    (switchedFlags req flags).testBit 0 = (numAt req 0x44 4 == 1) ∧ (switchedFlags req flags).testBit 1 = flags.testBit 1 := by
  have hlow : (0xFE : Nat).testBit 0 = false := by decide
  have hhigh : (0xFE : Nat).testBit 1 = true := by decide
  have hone : (1 : Nat).testBit 1 = false := by decide
  rw [switchedFlags]
  split
  · rename_i h
    rw [Nat.testBit_or, Nat.testBit_or, hone, h, Bool.or_false]
    exact ⟨Bool.or_true _, rfl⟩
  · rename_i h
    rw [Nat.testBit_and, Nat.testBit_and, hlow, hhigh, Bool.and_false, Bool.and_true]
    exact ⟨(beq_eq_false_iff_ne.2 h).symm, rfl⟩

theorem switchedFlags_lt (req : List Byte) {flags : Nat} (h : flags < 2 ^ 8) : switchedFlags req flags < 2 ^ 8 := by
  rw [switchedFlags]
  split
  · exact Nat.or_lt_two_pow h (by decide)
  · exact Nat.and_lt_two_pow _ (by decide)

/-- R433. What QUEUE_ENABLE and QUEUE_DISABLE leave. -/
theorem switched_queue (hs : Memory.wf s.ms.mem) (req : List Byte) :
    let t := s.qdSet q 0x0D 1 (switchedFlags req (s.qdesc q).flags)
    (t.qdesc q).enabled = (numAt req 0x44 4 == 1) ∧ (t.qdesc q).halted = (s.qdesc q).halted ∧
      ∀ a : Nat, a ≠ s.qdPa q + 13 → memGet t.ms.mem a = memGet s.ms.mem a := by
  intro t
  have hflags : (t.qdesc q).flags = switchedFlags req (s.qdesc q).flags :=
    (peek_qdSet_self hs q 0x0D 1 _).trans (Nat.mod_eq_of_lt (switchedFlags_lt req (peek_lt s _ 1)))
  obtain ⟨h0, h1⟩ := testBit_switchedFlags req (s.qdesc q).flags
  refine ⟨?_, ?_, fun a ha => memGet_hubWrite_of_out hs (by rw [leBytes_length]; omega)⟩
  · rw [enabled_eq_testBit, hflags, h0]
  · rw [halted_eq_testBit, hflags, h1, halted_eq_testBit]

end

/-! ### SET_POWER_CAP, READ_ERROR_COUNTERS and WRITE_FLASH -/

section
variable {s : State} {req : List Byte} (hb : s.hub.bootok = true) (hlo : 4 ≤ numAt req 4 4) (hhi : numAt req 4 4 ≤ 4032)
include hb hlo hhi

theorem power_of_bad (hc : numAt req 0 4 = 3) (h : ¬ (1500 ≤ numAt req 0x40 4 ∧ numAt req 0x40 4 ≤ s.tdp)) :
    exec (commandOf req) s = .next (s.answerHost req 2 []) := by
  have hbad : numAt req 0x40 4 < 1500 ∨ s.tdp < numAt req 0x40 4 := by omega
  rw [exec_command_power hc, served_of_params hb hlo hhi, if_pos hbad]

theorem power_capped (hc : numAt req 0 4 = 3) (hreq : req.length = 4096) (h : 1500 ≤ numAt req 0x40 4 ∧ numAt req 0x40 4 ≤ s.tdp) :
    exec (commandOf req) s = .next ((s.modHub (fun h => { h with powerCap := numAt req 0x40 4 })).answerHost req 0
      ((req.drop 0x40).take 4)) := by
  have hgood : ¬ (numAt req 0x40 4 < 1500 ∨ s.tdp < numAt req 0x40 4) := by omega
  have hlen : ((req.drop 0x40).take 4).length = 4 := by
    rw [List.length_take, List.length_drop, hreq]
    rfl
  have hbytes := leBytes_leNat ((req.drop 0x40).take 4)
  rw [hlen] at hbytes
  rw [exec_command_power hc, served_of_params hb hlo hhi, if_neg hgood]
  exact congrArg (fun d => Host.Outcome.next ((s.modHub (fun h => { h with powerCap := numAt req 0x40 4 })).answerHost req 0 d)) hbytes

theorem counters_of_bad (hc : numAt req 0 4 = 4) (h : 5 ≤ numAt req 0x40 4) :
    exec (commandOf req) s = .next (s.answerHost req 2 []) := by
  rw [exec_command_counters hc, served_of_params hb hlo hhi, if_pos h]

theorem counters_read (hc : numAt req 0 4 = 4) {cs : List DWord} (hcs : s.hub.counters[numAt req 0x40 4]? = some cs)
    (h : numAt req 0x40 4 < 5) (hn : cs.length ≤ 503) : exec (commandOf req) s = .next (s.answerHost req 0 (counterData cs)) := by
  have hget : (s.hub.counters.getD (numAt req 0x40 4) []).take 503 = cs := by
    rw [List.getD_eq_getElem?_getD, hcs, Option.getD_some, List.take_of_length_le hn]
  rw [exec_command_counters hc, served_of_params hb hlo hhi, if_neg (Nat.not_le.2 h), hget]

end

/-- R433. The fields of the data of READ_ERROR_COUNTERS. -/
theorem counterData_fields {cs : List DWord} (hn : cs.length ≤ 503) : numAt (counterData cs) 0 4 = cs.length ∧
    (counterData cs).length = 8 + 8 * cs.length ∧
    ∀ (i : Nat) (x : DWord), cs[i]? = some x → numAt (counterData cs) (8 + 8 * i) 8 = x.toNat := by
  have hhead : (leBytes 4 cs.length ++ leBytes 4 0).length = 8 := by
    rw [List.length_append, leBytes_length, leBytes_length]
  refine ⟨?_, ?_, fun i x hx => ?_⟩
  · rw [counterData, List.append_assoc]
    exact numAt_leBytes_append (by omega)
  · rw [counterData, List.length_append, hhead, length_flatMap_dwords]
  · rw [counterData, numAt, slice_past hhead]
    exact numAt_flatMap_leBytes hx

section
variable {s : State} {req : List Byte} (hc : numAt req 0 4 = 5)
include hc

theorem flash_refused (h : numAt req 0x48 4 = 0 ∨ 4016 < numAt req 0x48 4) : exec (commandOf req) s = .next (s.answerHost req 2 []) := by
  rw [exec_command_flash hc, if_pos (h.imp_right .inl)]

/-- R433. The bytes of a request that WRITE_FLASH writes. -/
def flashBytes (req : List Byte) (n : Nat) : List Byte := (req.drop 0x50).take n

theorem flash_written (hreq : req.length = 4096) (h1 : 1 ≤ numAt req 0x48 4) (h2 : numAt req 0x48 4 ≤ 4016)
    (h3 : 16 + numAt req 0x48 4 ≤ numAt req 4 4) (h4 : numAt req 4 4 ≤ 4032) : exec (commandOf req) s =
    .next ((s.modHub (fun h => { h with flash := memWrite h.flash (numAt req 0x40 8) (flashBytes req (numAt req 0x48 4)) })).answerHost
      req 0 []) := by
  have hgood : ¬ (numAt req 0x48 4 = 0 ∨ 4016 < numAt req 0x48 4 ∨ numAt req 4 4 < 16 + numAt req 0x48 4 ∨ 4032 < numAt req 4 4) := by
    omega
  have hbytes : ((req.drop 0x50) ++ List.replicate (numAt req 0x48 4) (0 : Byte)).take (numAt req 0x48 4) =
      flashBytes req (numAt req 0x48 4) := List.take_append_of_le_length (by rw [List.length_drop]; omega)
  rw [exec_command_flash hc, if_neg hgood, hbytes]

end

/-- R433. Flash after WRITE_FLASH. -/
theorem memGet_flashBytes {m : List Host.Cell} (hm : Memory.wf m) {req : List Byte} (hreq : req.length = 4096) (off : Nat) {n : Nat}
    (hn : n ≤ 4016) : (∀ i : Nat, i < n → memGet (memWrite m off (flashBytes req n)) (off + i) = req.getD (0x50 + i) 0) ∧
      ∀ a : Nat, a < off ∨ off + n ≤ a → memGet (memWrite m off (flashBytes req n)) a = memGet m a := by
  have hlen : (flashBytes req n).length = n := by
    rw [flashBytes, List.length_take, List.length_drop]
    omega
  refine ⟨fun i hi => ?_, fun a ha => memGet_memWrite_of_out hm (by rwa [hlen])⟩
  rw [memGet_memWrite_self hm (by rwa [hlen]), List.getD_eq_getElem _ _ (by omega)]
  simp only [flashBytes, List.getElem_take, List.getElem_drop]

end Sys2Proof.Proofs
end

section
/-!
PROOFS. Puts received and sent (R441).
-/

namespace Sys2Proof.Proofs

open Sys2Proof Sys2Proof.Machine Sys2Proof.Statements

/-! ### PUT_RECEIVE -/

/-- R441. A put follows its source's last one. -/
def PutFollows (s : State) (src : BitVec 20) (port : Nat) (seq : BitVec 32) : Prop :=
  ∀ p, s.hub.lastSeq src port = some p → 0 < (seq - p).toNat ∧ (seq - p).toNat < 2 ^ 31

/-- R441. A put's sequence number stands for its source and port. -/
def noted (s : State) (src : BitVec 20) (port : Nat) (seq : BitVec 32) : State :=
  s.modHub (fun h => { h with seqs := h.seqs.filter (fun x => !(x.1 == src && x.2.1 == port)) ++ [(src, port, seq)] })

theorem xlateRange_noted (s : State) (src : BitVec 20) (port : Nat) (seq : BitVec 32) (aspace : BitVec 16) (chk : Bool) (va : DWord)
    (rd wr : Bool) (n : Nat) : (noted s src port seq).xlateRange aspace chk va rd wr n = s.xlateRange aspace chk va rd wr n := by
  have hx (a : DWord) : (noted s src port seq).xlate aspace chk a rd wr = s.xlate aspace chk a rd wr := rfl
  induction n with
  | zero => rfl
  | succ n ih => simp only [State.xlateRange, ih, hx]

/-- R131, R441. A put in its order performs at home, or is refused. -/
def performed (s : State) (aspace : BitVec 16) (src : BitVec 20) (port : Nat) (seq : BitVec 32) (va : DWord) (data : List Byte) :
    Host.Outcome State Fault Refusal :=
  match (noted s src port seq).xlateRange aspace false va false true data.length with
  | .error _ => .next { ((noted s src port seq).modHub Hub.countPut) with outbox := s.outbox ++ [.nack src seq] }
  | .ok pas => .next ((noted s src port seq).landFromOutside aspace ((pas.map (·.1)).zip data))

theorem rung_noted (s : State) (src : BitVec 20) (port : Nat) (seq : BitVec 32) (aspace : BitVec 16) (pas : List Nat) :
    (noted s src port seq).rung aspace pas = s.rung aspace pas := by
  have hlook (va : DWord) : (noted s src port seq).lookup aspace va = s.lookup aspace va := rfl
  have hwork : (noted s src port seq).work = s.work := rfl
  simp only [State.rung, hlook, hwork]

section
variable {s : State} {port : Nat} {dst src : BitVec 20} {aspace : BitVec 16} {va : DWord} {seq : BitVec 32} {data : List Byte}
  (hport : port < 32) (hne : data ≠ []) (hlen : data.length ≤ 8192)
include hport hne hlen

theorem put_sendable : ¬ (32 ≤ port ∨ data.isEmpty = true ∨ 8192 < data.length) := by
  rw [List.isEmpty_iff]
  rintro (h | h | h)
  · omega
  · exact hne h
  · omega

theorem put_of_other_device (h : dst ≠ s.hub.devid) :
    exec (.putReceive port dst src aspace va seq data) s = .next (s.modHub Hub.countPut) := by
  rw [exec_putReceive, execPutReceive]
  simp only [put_sendable hport hne hlen, h, if_false, ne_eq, not_false_eq_true, if_true]

variable (hdst : dst = s.hub.devid)
include hdst

theorem put_of_out_of_order (h : ¬ PutFollows s src port seq) :
    exec (.putReceive port dst src aspace va seq data) s = .refused .notEnabled := by
  have hdev : ¬ dst ≠ s.hub.devid := not_not.2 hdst
  unfold PutFollows at h
  push Not at h
  obtain ⟨p, hl, hnot⟩ := h
  have hold : (decide (0 < (seq - p).toNat) && decide ((seq - p).toNat < 2 ^ 31)) = false := by
    rw [Bool.and_eq_false_imp, decide_eq_true_eq, decide_eq_false_iff_not, Nat.not_lt]
    exact hnot
  rw [exec_putReceive, execPutReceive]
  simp only [put_sendable hport hne hlen, hdev, hl, hold, if_false, Bool.not_false, if_true]
  rfl

/-- R441. A put in its order, past its checks. -/
theorem put_in_order (h : PutFollows s src port seq) : exec (.putReceive port dst src aspace va seq data) s =
    performed s aspace src port seq va data := by
  have hdev : ¬ dst ≠ s.hub.devid := not_not.2 hdst
  rw [exec_putReceive, execPutReceive]
  cases hl : s.hub.lastSeq src port with
  | none =>
    simp only [put_sendable hport hne hlen, hdev, if_false, Bool.not_true, Bool.false_eq_true]
    rfl
  | some p =>
    obtain ⟨hpos, hlt⟩ := h p hl
    have hnew : (decide (0 < (seq - p).toNat) && decide ((seq - p).toNat < 2 ^ 31)) = true := by
      rw [decide_eq_true hpos, decide_eq_true hlt, Bool.and_self]
    simp only [put_sendable hport hne hlen, hdev, hnew, if_false, Bool.not_true, Bool.false_eq_true]
    rfl

end

section
variable {s : State} {port : Nat} {src : BitVec 20} {aspace : BitVec 16} {va : DWord} {seq : BitVec 32} {data : List Byte}

theorem performed_of_error {e : Xlat × DWord} (h : s.xlateRange aspace false va false true data.length = .error e) :
    performed s aspace src port seq va data =
      .next { ((noted s src port seq).modHub Hub.countPut) with outbox := s.outbox ++ [.nack src seq] } := by
  rw [performed, xlateRange_noted, h]

theorem performed_of_ok {pas : List (Nat × Bool)} (h : s.xlateRange aspace false va false true data.length = .ok pas) :
    performed s aspace src port seq va data =
      .next ((noted s src port seq).landFromOutside aspace ((pas.map (·.1)).zip data)) := by
  rw [performed, xlateRange_noted, h]

/-- R131, R441. What a put that performs leaves. -/
theorem put_lands {t : State} {pas : List (Nat × Bool)} (ht : t = (noted s src port seq).landFromOutside aspace ((pas.map (·.1)).zip data))
    (h : s.xlateRange aspace false va false true data.length = .ok pas) (hn : (pas.map (·.1)).Nodup) (hs : Memory.wf s.ms.mem) :
    Lands s t (pas.map (·.1)) data 0 0 ∧ (src, port, seq) ∈ t.hub.seqs ∧ (∀ x ∈ t.ms.stale, x.pa ∉ pas.map (·.1)) ∧
      t.hub.putDropped = s.hub.putDropped ∧ t.outbox = s.outbox ∧
      t.work.arrivals = s.work.arrivals ++ s.rung aspace (pas.map (·.1)) := by
  have hl : (pas.map (·.1)).length = data.length := by rw [List.length_map, xlateRange_length h]
  have hs' : Memory.wf (noted s src port seq).ms.mem := hs
  obtain ⟨⟨hat, hout⟩, hstale, harr⟩ := landFromOutside_lands ht hl hn hs'
  obtain ⟨p, x, hframe⟩ := landFromOutside_frame (noted s src port seq) aspace ((pas.map (·.1)).zip data)
  rw [← ht] at hframe
  rw [rung_noted] at harr
  refine ⟨⟨hat, hout⟩, ?_, hstale, ?_, ?_, harr⟩
  · rw [hframe, State.modHub_hub, landed_hub]
    exact List.mem_append_right _ (List.mem_singleton.2 rfl)
  · rw [hframe, State.modHub_hub, landed_hub, noted, State.modHub_hub]
  · rw [hframe, State.modHub_outbox, landed_outbox, noted, State.modHub_outbox]

end

/-! ### PUT_SEND -/

section
variable {s : State} {ring : Nat} {r : SendRing} {ib d : List Byte} {p1 p2 : Nat} (hr : s.hub.sends[ring]? = some r) (hsize : r.size ≠ 0)
  (hi : s.fetchVa r.aspace r.windex 4 = .bytes ib p1) (hne : leNat ib ≠ r.rd % 2 ^ 32)
  (hd : s.fetchVa r.aspace (r.base + BitVec.ofNat 64 (64 * (r.rd % r.size))) 64 = .bytes d p2)
include hr hsize hi hne hd

/-- R441. The send ring past its descriptor. -/
def sent (s : State) (ring : Nat) (r : SendRing) : State :=
  s.modHub (fun h => { h with sends := h.sends.set ring { r with rd := r.rd + 1 } })

/-- R441. The data of a send descriptor. -/
def sendData (s : State) (r : SendRing) (d : List Byte) : Fetched :=
  s.fetchVa r.aspace (BitVec.ofNat 64 (Config.sendField 6 d)) (Config.sendField 4 d % 8193)

theorem putSend_sends {bs : List Byte} {p3 : Nat} (hb : sendData s r d = .bytes bs p3) (h0 : bs ≠ []) : exec (.putSend ring) s =
    .next { sent s ring r with outbox := s.outbox ++ [.put (BitVec.ofNat 20 (Config.sendField 0 d)) (BitVec.ofNat 20 (Config.sendField 1 d))
      (BitVec.ofNat 16 (Config.sendField 2 d)) (BitVec.ofNat 64 (Config.sendField 3 d)) (BitVec.ofNat 32 (Config.sendField 5 d)) bs] } := by
  have hgo : ¬ (r.size = 0 ∨ leNat ib = r.rd % 2 ^ 32) := not_or.2 ⟨hsize, hne⟩
  have he : bs.isEmpty = false := by
    rwa [← Bool.not_eq_true, List.isEmpty_iff]
  unfold sendData at hb
  rw [exec_putSend, execPutSend]
  simp only [hr, hi, hgo, hd, hb, he, if_false, Bool.false_eq_true]
  rfl

theorem putSend_silent (h : ∀ bs p3, sendData s r d = .bytes bs p3 → bs = []) : exec (.putSend ring) s = .next (sent s ring r) := by
  have hgo : ¬ (r.size = 0 ∨ leNat ib = r.rd % 2 ^ 32) := not_or.2 ⟨hsize, hne⟩
  unfold sendData at h
  rw [exec_putSend, execPutSend]
  simp only [hr, hi, hgo, hd, if_false]
  cases hb : s.fetchVa r.aspace (BitVec.ofNat 64 (Config.sendField 6 d)) (Config.sendField 4 d % 8193) with
  | bytes bs p3 =>
    have hnil : bs.isEmpty = true := by
      rw [h bs p3 hb]
      rfl
    simp only [hnil, if_true]
    rfl
  | absent e va => rfl
  | denied va => rfl
  | poison va => rfl

end

end Sys2Proof.Proofs
end

section
/-!
PROOFS. What each command of BAR4 tells the host (R432, R433, R440), and the obligation on the host, BAR2, BAR4 and the links.
-/

namespace Sys2Proof.Proofs

open Sys2Proof Sys2Proof.Machine Sys2Proof.Statements

/-! ### What a command tells the host -/

/-- R432, R433. A request is answered, with its status and data, and leaves a state that P holds of. -/
def Tells (s : State) (req : List Byte) (status : Nat) (data : List Byte) (P : State → Prop) : Prop :=
  ∃ t : State, exec (commandOf req) s = .next t ∧ Answers s t req status data ∧ P t

theorem hubWrite_outbox (s : State) (pa : Nat) (bs : List Byte) : (s.hubWrite pa bs).outbox = s.outbox := rfl

section
variable {s : State} {req : List Byte} (hreq : req.length = 4096)
include hreq

theorem tells_of_answer {u : State} {data : List Byte} {status : Nat} {P : State → Prop}
    (hex : exec (commandOf req) s = .next (u.answerHost req status data)) (hout : u.outbox = s.outbox) (hst : status < 2 ^ 32)
    (hd : data.length ≤ 4032) (hP : P (u.answerHost req status data)) : Tells s req status data P :=
  ⟨_, hex, answers_answerHost hout (by omega) hst hd, hP⟩

/-- A request that is answered with its status, and does nothing else. -/
theorem tells_only {status : Nat} (hst : status < 2 ^ 32) (hex : exec (commandOf req) s = .next (s.answerHost req status [])) :
    Tells s req status [] (fun t => t.ms = s.ms ∧ t.work = s.work ∧ t.hub.leaf = s.hub.leaf) :=
  tells_of_answer hreq hex rfl hst (Nat.zero_le _) ⟨answerHost_ms .., answerHost_work .., answerHost_leaf ..⟩

theorem tells_quote (hc : numAt req 0 4 = 1) (hb : s.hub.bootok = true) (hlo : 32 ≤ numAt req 4 4) (hhi : numAt req 4 4 ≤ 4032)
    (h : s.hub.leaf.toNat < 2 ^ 30) : ∃ data : List Byte, Tells s req 0 data (fun t => t.hub.leaf = s.hub.leaf + 1 ∧ t.ms = s.ms) ∧
      data.take 32 = (req.drop 0x40).take 32 ∧ numAt data 0x20 4 = s.hub.devid.toNat ∧ numAt data 0x24 4 = s.hub.leaf.toNat ∧
      (s.hub.fwDigest.length = 32 → s.hub.cfgDigest.length = 32 →
        (data.drop 0x28).take 32 = s.hub.fwDigest ∧ (data.drop 0x48).take 32 = s.hub.cfgDigest) := by
  have hnonce : ((req.drop 0x40).take 32).length = 32 := by
    rw [List.length_take, List.length_drop, hreq]
    rfl
  exact ⟨_, tells_of_answer hreq (quote_given hc hb hlo hhi hreq h) (State.modHub_outbox _ _) (by decide) (quote_length _ _)
    ⟨answerHost_leaf .., answerHost_ms ..⟩, quote_fields s hnonce⟩

section
variable (hc : numAt req 0 4 = 2) (hb : s.hub.bootok = true) (hlo : 72 ≤ numAt req 4 4) (hhi : numAt req 4 4 ≤ 4032)
  (hq : numAt req 0x40 4 < 4096) (hpa : paExists (s.qdPa (numAt req 0x40 4)) = true) (hs : Memory.wf s.ms.mem)
include hc hb hlo hhi hq hpa hs

theorem tells_define (hop : numAt req 0x44 4 = 0) (hok : defineOk (defineBytes req) = true) :
    let pa := s.qdPa (numAt req 0x40 4)
    Tells s req 0 [] (fun t => t.peek pa 8 = numAt req 0x48 8 ∧ t.peek (pa + 8) 4 = numAt req 0x50 4 ∧
      t.peek (pa + 12) 1 = numAt req 0x54 1 ∧ t.peek (pa + 13) 1 = 0 ∧ t.peek (pa + 14) 2 = numAt req 0x56 2 ∧
      t.peek (pa + 16) 8 = 0 ∧ ∀ a : Nat, a < pa ∨ pa + 64 ≤ a → memGet t.ms.mem a = memGet s.ms.mem a) :=
  tells_of_answer hreq (queue_of_change hc hb hlo hhi hq hpa (queueChange_define hop hok)) (hubWrite_outbox ..) (by decide) (Nat.zero_le _)
    (defined_fields hreq (by rw [answerHost_ms]) hs)

theorem tells_switch (hop : numAt req 0x44 4 = 1 ∨ numAt req 0x44 4 = 2) :
    Tells s req 0 [] (fun t => (t.qdesc (numAt req 0x40 4)).enabled = (numAt req 0x44 4 == 1) ∧
      (t.qdesc (numAt req 0x40 4)).halted = (s.qdesc (numAt req 0x40 4)).halted ∧
      ∀ a : Nat, a ≠ s.qdPa (numAt req 0x40 4) + 13 → memGet t.ms.mem a = memGet s.ms.mem a) :=
  tells_of_answer hreq (queue_of_change hc hb hlo hhi hq hpa (queueChange_switch hop)) (hubWrite_outbox ..) (by decide) (Nat.zero_le _)
    (by simpa only [answerHost_qdesc, answerHost_ms] using switched_queue hs req)

end

theorem tells_power_cap (hb : s.hub.bootok = true) (hlo : 4 ≤ numAt req 4 4) (hhi : numAt req 4 4 ≤ 4032) (hc : numAt req 0 4 = 3)
    (h : 1500 ≤ numAt req 0x40 4 ∧ numAt req 0x40 4 ≤ s.tdp) :
    Tells s req 0 ((req.drop 0x40).take 4) (fun t => t.hub.powerCap = numAt req 0x40 4) :=
  tells_of_answer hreq (power_capped hb hlo hhi hc hreq h) rfl (by decide)
    ((List.length_take_le _ _).trans (by decide)) rfl

theorem tells_counters (hb : s.hub.bootok = true) (hlo : 4 ≤ numAt req 4 4) (hhi : numAt req 4 4 ≤ 4032) (hc : numAt req 0 4 = 4)
    {cs : List DWord} (hcs : s.hub.counters[numAt req 0x40 4]? = some cs) (h : numAt req 0x40 4 < 5) (hn : cs.length ≤ 503) :
    ∃ data : List Byte, Tells s req 0 data (fun t => t.ms = s.ms) ∧ numAt data 0 4 = cs.length ∧
      data.length = 8 + 8 * cs.length ∧ ∀ (i : Nat) (x : DWord), cs[i]? = some x → numAt data (8 + 8 * i) 8 = x.toNat := by
  obtain ⟨hcount, hlen, hentry⟩ := counterData_fields hn
  exact ⟨_, tells_of_answer hreq (counters_read hb hlo hhi hc hcs h hn) rfl (by decide) (by omega) rfl, hcount, hlen, hentry⟩

section
variable (hc : numAt req 0 4 = 5)
include hc

theorem tells_flash_refused (h : numAt req 0x48 4 = 0 ∨ 4016 < numAt req 0x48 4) :
    Tells s req 2 [] (fun t => t.hub.flash = s.hub.flash) :=
  tells_of_answer hreq (flash_refused hc h) rfl (by decide) (Nat.zero_le _) rfl

theorem tells_flash_written (h1 : 1 ≤ numAt req 0x48 4) (h2 : numAt req 0x48 4 ≤ 4016) (h3 : 16 + numAt req 0x48 4 ≤ numAt req 4 4)
    (h4 : numAt req 4 4 ≤ 4032) (hs : Memory.wf s.hub.flash) : Tells s req 0 [] (fun t =>
      (∀ i : Nat, i < numAt req 0x48 4 → memGet t.hub.flash (numAt req 0x40 8 + i) = req.getD (0x50 + i) 0) ∧
      (∀ a : Nat, a < numAt req 0x40 8 ∨ numAt req 0x40 8 + numAt req 0x48 4 ≤ a → memGet t.hub.flash a = memGet s.hub.flash a) ∧
      t.ms = s.ms) := by
  obtain ⟨hat, hout⟩ := memGet_flashBytes hs hreq (numAt req 0x40 8) h2
  exact tells_of_answer hreq (flash_written hc hreq h1 h2 h3 h4) (State.modHub_outbox _ _) (by decide) (Nat.zero_le _)
    (by simpa only [answerHost_flash, answerHost_ms] using ⟨hat, hout, rfl⟩)

end

end

/-! ### The obligation -/

/-- Settles O58, act by act: the successor that `exec` names in each case, and what memory, the hub and the answers read there. -/
theorem hostResults : Obligations.HostResults := by
  intro s
  refine ⟨?kick, ?bar2Write, ?bar2Read, ?mboxhost, ?commands, ?putReceive, ?putSend⟩
  case kick =>
    intro q w hq
    refine ⟨hostKick_high hq w, ?_⟩
    intro hpa hs d newer
    refine ⟨fun h => ⟨_, hostKick_of_other hq w hpa h, rfl, rfl, rfl⟩, fun hen hkind hmal h => ?_, fun hen hkind hh h hev => ?_⟩
    · exact ⟨_, hostKick_moves hq w hpa hen hkind hmal h, kicked_woken hs q w⟩
    · exact ⟨_, hostKick_halts hq w hpa hen hkind hs hh h, kicked_halted hs hev q w⟩
  case bar2Write =>
    intro off data
    refine ⟨fun h => ⟨_, bar2Write_refused h, rfl, rfl, rfl⟩, ?_⟩
    intro j h hs pas
    have hl : pas.length = data.length := by rw [List.length_map, List.length_range]
    have hn : pas.Nodup := List.nodup_range.map (fun _ _ => Nat.add_left_cancel)
    obtain ⟨t, ht⟩ : ∃ t, t = s.landFromOutside ((vget s.hub.windows (0, 0) j).2.setWidth 16) (pas.zip data) := ⟨_, rfl⟩
    obtain ⟨hlands, hstale, harr⟩ := landFromOutside_lands ht hl hn hs
    exact ⟨t, (bar2Write_lands h).trans (congrArg Host.Outcome.next ht.symm), hlands, hstale, harr, landFromOutside_hub ht hl⟩
  case bar2Read =>
    exact fun off n => ⟨fun h => ⟨_, bar2Read_refused h, rfl, rfl, rfl⟩, fun ⟨j, h⟩ => ⟨_, bar2Read_answers h, rfl, rfl, rfl⟩⟩
  case mboxhost =>
    intro mgmt b old free hd hh
    let u : State × Word := s.mailbox (mboxBlock mgmt s).doorbell (mboxBlock mgmt s).handler (mboxBlock mgmt s).aspace
    obtain ⟨hms, hbell, hhandler, hres, hwork⟩ := mboxResult_leaves mgmt s (mboxBlock mgmt s).doorbell (mboxBlock mgmt s).handler
      (mboxBlock mgmt s).aspace
    refine ⟨_, mboxhost_of_aligned hd hh, hms, hbell, hhandler, fun n h0 hold hfree hlow => ?_, fun h0 hno => ?_, fun h0 hold => ?_,
      fun m h0 hold => ?_⟩
    · have hbox : u = (registered s n _ _ _, BitVec.ofNat 32 n) := mailbox_of_free h0 hold (lowestFree_eq_some hfree hlow)
      have hn : (BitVec.ofNat 32 n).toNat = n := BitVec.toNat_ofNat _ _ |>.trans (Nat.mod_eq_of_lt (hfree.1.trans (by decide)))
      refine ⟨(congrArg BitVec.toNat (hres.trans (congrArg Prod.snd hbox))).trans hn, ?_⟩
      rw [hwork.trans (congrArg (·.1.work) hbox)]
      rfl
    · have hbox : u = (s, 0xFFFFFFFF) := mailbox_of_refused h0 hno
      exact ⟨hres.trans (congrArg Prod.snd hbox), hwork.trans (congrArg (·.1.work) hbox)⟩
    · have hbox : u = (s, 0xFFFFFFFF) := mailbox_of_unknown h0 hold
      exact ⟨hres.trans (congrArg Prod.snd hbox), hwork.trans (congrArg (·.1.work) hbox)⟩
    · have hbox : u = (s.releaseMailbox m.num, BitVec.ofNat 32 m.num) := mailbox_of_known h0 hold
      refine ⟨hres.trans (congrArg Prod.snd hbox), fun x => ?_⟩
      rw [hwork.trans (congrArg (·.1.work) hbox)]
      exact mem_mailboxes_releaseMailbox s m.num x
  case commands =>
    intro req hreq cmd len at40 op off n j tells only
    have honly (status : Nat) (hst : status < 2 ^ 32) (hex : exec (commandOf req) s = .next (s.answerHost req status [])) : only status :=
      tells_only hreq hst hex
    refine ⟨fun hc hb => honly 3 (by decide) (command_of_unbooted hb hc), fun hb hc => ?_,
      fun hc hb hlo hhi h => honly 4 (by decide) (quote_spent hc hb hlo hhi h), fun hc hb hlo hhi h => tells_quote hreq hc hb hlo hhi h,
      fun hc hb hlo hhi h => honly 2 (by decide) (queue_of_large hc hb hlo hhi h), ?queue, fun hc hb hlo hhi =>
      ⟨tells_power_cap hreq hb hlo hhi hc, fun h => honly 2 (by decide) (power_of_bad hb hlo hhi hc h)⟩, fun hc hb hlo hhi =>
      ⟨fun h => honly 2 (by decide) (counters_of_bad hb hlo hhi hc h), fun cs => tells_counters hreq hb hlo hhi hc⟩,
      fun hc => ⟨fun ⟨h1, h2, h3, h4⟩ => tells_flash_written hreq hc h1 h2 h3 h4, tells_flash_refused hreq hc⟩⟩
    · have hex := exec_command_unknown (s := s) hc
      rw [hb] at hex
      exact honly 1 (by decide) hex
    case queue =>
      intro hc hb hlo hhi hq hpa hs pa ok
      have hok : defineOk (defineBytes req) = true ↔ ok := defineOk_iff hreq
      have hbad (h : op = 0 ∧ defineOk (defineBytes req) = false ∨ 3 ≤ op) : only 2 :=
        honly 2 (by decide) (queue_of_no_change hc hb hlo hhi hq hpa (queueChange_of_bad h))
      exact ⟨fun h0 h => tells_define hreq hc hb hlo hhi hq hpa hs h0 (hok.2 h),
        fun h0 h => hbad (.inl ⟨h0, Bool.eq_false_iff.2 (fun e => h (hok.1 e))⟩), fun h => hbad (.inr h),
        tells_switch hreq hc hb hlo hhi hq hpa hs⟩
  case putReceive =>
    intro port dst src aspace va seq data hport hne hlen j
    refine ⟨fun h => ⟨_, put_of_other_device hport hne hlen h, rfl, rfl, rfl⟩, ?_⟩
    intro last follows
    refine ⟨fun hdst h => put_of_out_of_order hport hne hlen hdst h, fun hdst h => ?_⟩
    have hex := put_in_order (aspace := aspace) (va := va) hport hne hlen hdst h
    exact ⟨fun e he => ⟨_, hex.trans (performed_of_error he), rfl, rfl, rfl⟩,
      fun pas hp hn hs => ⟨_, hex.trans (performed_of_ok hp), put_lands rfl hp hn hs⟩⟩
  case putSend =>
    intro ring r ib d p1 p2 hr hsize hi hne hd
    by_cases hsend : ∀ bs p3, sendData s r d = .bytes bs p3 → bs = []
    · exact ⟨_, putSend_silent hr hsize hi hne hd hsend, rfl, rfl, fun bs p3 hb h0 => absurd (hsend bs p3 hb) h0, fun _ => rfl⟩
    · push Not at hsend
      obtain ⟨bs, p3, hb, h0⟩ := hsend
      refine ⟨_, putSend_sends hr hsize hi hne hd hb h0, rfl, rfl, fun bs' p3' hb' _ => ?_, fun hnil => absurd (hnil bs p3 hb) h0⟩
      obtain ⟨rfl, -⟩ := Fetched.bytes.inj (hb.symm.trans hb')
      rfl

end Sys2Proof.Proofs
end

section
/-!
PROOFS. Lanes that go where references send them: lane masks, laps, links and the way to the overlay manager (R64, R175 to R178, R193).
-/

namespace Sys2Proof.Proofs

open Sys2Proof Sys2Proof.Machine Sys2Proof.Statements

/-! ### Lane masks (R192) -/

theorem maskOf_eq_packElems (p : Nat → Bool) : maskOf p = packElems 1 32 (fun l => (p l).toNat) := by
  rw [maskOf, packElems]
  congr 2
  funext l acc
  cases p l <;> simp

/-- A lane is in the mask of the lanes that p picks where p picks it. -/
theorem bit_maskOf (p : Nat → Bool) {l : Nat} (h : l < 32) : bit (maskOf p) l = p l := by
  have he : elem 1 (maskOf p) l = (p l).toNat % 2 ^ 1 := by
    rw [maskOf_eq_packElems, elem_packElems (by decide) h]
  rw [elem, Nat.one_mul, pow_one] at he
  rw [bit, BitVec.getLsbD, Nat.testBit_eq_decide_div_mod_eq, he]
  cases p l <;> rfl

/-- Masks of the same lanes are one. -/
theorem mask_ext {a b : BitVec 32} (h : ∀ l : Nat, l < 32 → bit a l = bit b l) : a = b := BitVec.eq_of_getLsbD_eq h

@[simp] theorem bit_zero (l : Nat) : bit 0 l = false := BitVec.getLsbD_zero

theorem maskOf_eq {p : Nat → Bool} {a : BitVec 32} (h : ∀ l : Nat, l < 32 → (bit a l = true ↔ p l = true)) : maskOf p = a :=
  mask_ext (fun l hl => (bit_maskOf p hl).trans (Bool.eq_iff_iff.2 (h l hl).symm))

theorem mem_lanesOf {m : BitVec 32} {l : Nat} : l ∈ lanesOf m ↔ l < 32 ∧ bit m l = true := by
  rw [lanesOf, List.mem_filter, List.mem_range]

/-- The lowest lane of a mask that has lanes is one of them. -/
theorem bit_lowest {m : BitVec 32} (h : m ≠ 0) : bit m (lowest m) = true := by
  rw [lowest]
  cases hl : lanesOf m with
  | nil =>
    refine absurd (mask_ext (fun l hlt => ?_)) h
    have hno : l ∉ lanesOf m := by rw [hl]; exact List.not_mem_nil
    rw [mem_lanesOf, not_and] at hno
    rw [Bool.eq_false_iff.2 (hno hlt), bit_zero]
  | cons l ls =>
    have hm : l ∈ lanesOf m := by rw [hl]; exact List.mem_cons_self
    exact (mem_lanesOf.1 hm).2

/-! ### Laps (R177, R193) -/

/-- R177. The lanes that go below the instruction are lapped. -/
theorem bit_lapTo (c : Course) (set own : BitVec 32) {l : Nat} (h : l < 32) :
    bit (c.lapTo set own false).lapped l = true ↔ bit c.lapped l = true ∨ bit set l = true ∧ (c.lpcAt l).toNat < own.toNat := by
  have hbit : bit (c.lapTo set own false).lapped l =
      (bit c.lapped l || bit (maskOf (fun l => bit set l && decide ((c.lpcAt l).toNat < own.toNat))) l) := BitVec.getLsbD_or
  rw [hbit, bit_maskOf _ h, Bool.or_eq_true, Bool.and_eq_true, decide_eq_true_eq]

/-! ### Lanes that go on elsewhere (R175 to R178) -/

/-- From s to t the lanes of go took the references f, lapped where these are below the instruction and, if linked, with the reference
after it in v0; the other registers, masks and lane states are as they were, and so is all that is no consort. -/
structure Went (s t : State) (linked : Bool) (go : BitVec 32) (f : Nat → BitVec 32) : Prop where
  lpc : ∀ l : Nat, l < 32 → t.me.lpcAt l = if bit go l then f l else s.me.lpcAt l
  lapped : ∀ l : Nat, l < 32 →
    (bit t.me.lapped l = true ↔ bit s.me.lapped l = true ∨ bit go l = true ∧ (f l).toNat < s.iss.own.toNat)
  link : linked = true → ∀ l : Nat, l < 32 → bit go l = true → (t.me.getV 0).at l = refAdd s.iss.own 2
  regs : ∀ n : Nat, n ≠ 0 ∨ linked = false → t.me.getV n = s.me.getV n
  vectors : linked = false → t.me.v = s.me.v
  scalars : t.me.s = s.me.s
  masks : t.me.m = s.me.m
  lanes : t.me.lane = s.me.lane
  only : OnlyConsorts s t
  stands : Stands t t.iss.k t.iss.c

/-- R64. The course with the link of a call, if it has one. -/
def linkedBy (own : BitVec 32) (linked : Bool) (go : BitVec 32) (x : Course) : Course :=
  if linked then x.putV 0 5 go (fun _ => refAdd own 2) else x

theorem linkedBy_frame (own : BitVec 32) (linked : Bool) (go : BitVec 32) (x : Course) :
    ∃ vs, linkedBy own linked go x = { x with v := vs } := by
  cases linked
  · exact ⟨x.v, rfl⟩
  · exact ⟨_, rfl⟩

theorem getV_linkedBy {own go : BitVec 32} {linked : Bool} {x : Course} {n : Nat} (h : n ≠ 0 ∨ linked = false) :
    (linkedBy own linked go x).getV n = x.getV n := by
  cases linked with
  | false => rfl
  | true => exact getV_putV_ne (h.resolve_right Bool.noConfusion)

section
variable {s t : State} {linked : Bool} {go : BitVec 32} {f : Nat → BitVec 32}

/-- R177. The course with those lanes gone. -/
def goneTo (own : BitVec 32) (linked : Bool) (go : BitVec 32) (f : Nat → BitVec 32) (x : Course) : Course :=
  ((linkedBy own linked go x).setLpc go f).lapTo go own false

/-- Two courses agree in where their lanes stand and in their registers, masks and lane states. -/
def AgreeOnLanes (x y : Course) : Prop :=
  y.lpc = x.lpc ∧ y.lapped = x.lapped ∧ y.v = x.v ∧ y.s = x.s ∧ y.m = x.m ∧ y.lane = x.lane

/-- What the issuing course has become tells where its lanes went. -/
theorem went_of_me (honly : OnlyConsorts s t) (hst : Stands t s.iss.k s.iss.c)
    (hme : AgreeOnLanes (goneTo s.iss.own linked go f s.me) t.me) : Went s t linked go f := by
  obtain ⟨hpc, hlap, hv, hs, hm, hlane⟩ := hme
  obtain ⟨vs, hvs⟩ := linkedBy_frame s.iss.own linked go s.me
  have hx : goneTo s.iss.own linked go f s.me = (({ s.me with v := vs } : Course).setLpc go f).lapTo go s.iss.own false := by
    rw [goneTo, hvs]
  have hget (n : Nat) : t.me.getV n = (linkedBy s.iss.own linked go s.me).getV n := by
    rw [Course.getV, hv]
    rfl
  refine ⟨fun l hl => ?_, fun l hl => ?_, fun hlink l hl hgo => ?_, fun n hn => (hget n).trans (getV_linkedBy hn), fun hno => ?_, ?_, ?_,
    ?_, honly, by rwa [honly.iss]⟩
  · rw [Course.lpcAt, hpc, hx]
    exact lpcAt_setLpc s.me go f hl
  · rw [hlap, hx]
    refine (bit_lapTo _ go s.iss.own hl).trans ?_
    rw [lpcAt_setLpc _ _ _ hl]
    exact or_congr_right (and_congr_right (fun hgo => by rw [if_pos hgo]))
  · rw [hget, hlink, linkedBy, if_pos rfl, getV_putV_same (by decide), VReg.at, vget_vof _ _ hl, if_pos hgo]
  · rw [hv, hno]
    rfl
  · rw [hs, hx]
    rfl
  · rw [hm, hx]
    rfl
  · rw [hlane, hx]
    rfl

end

/-- R64. The state with the link of a call, if it has one. -/
def linkIf (s : State) (linked : Bool) (go : BitVec 32) : State := if linked then s.link go else s

/-- R175 to R177, R407. The lanes of go gone where f says. -/
def sentTo (s : State) (linked : Bool) (go : BitVec 32) (f : Nat → BitVec 32) : State :=
  ((linkIf s linked go).moveSome go f false).leaveHandler go f

/-- R407. Leaving the trap handler changes the handler mask or nothing. -/
theorem leaveHandler_cases (s : State) (go : BitVec 32) (f : Nat → BitVec 32) :
    s.leaveHandler go f = s ∨ ∃ m, s.leaveHandler go f = s.modMe (fun c => { c with hmask := c.hmask &&& m }) := by
  rw [State.leaveHandler]
  split
  · exact .inl rfl
  · exact .inr ⟨_, rfl⟩

theorem hdr_modMe (s : State) (f : Course → Course) : (s.modMe f).mine.hdr = s.mine.hdr :=
  cons_modCons_field Consort.hdr (fun _ => rfl)

/-- Sending lanes changes the issuing course alone. -/
theorem sentTo_frame (s : State) (linked : Bool) (go : BitVec 32) (f : Nat → BitVec 32) :
    OnlyConsorts s (sentTo s linked go f) ∧ (sentTo s linked go f).mine.hdr = s.mine.hdr := by
  have hlink : OnlyConsorts s (linkIf s linked go) ∧ (linkIf s linked go).mine.hdr = s.mine.hdr := by
    cases linked
    · exact ⟨.refl s, rfl⟩
    · exact ⟨modMe_only s _, hdr_modMe s _⟩
  obtain ⟨honly, hhdr⟩ := hlink
  have hmove : OnlyConsorts s ((linkIf s linked go).moveSome go f false) := honly.trans (modMe_only _ _)
  have hmhdr : ((linkIf s linked go).moveSome go f false).mine.hdr = s.mine.hdr := (hdr_modMe _ _).trans hhdr
  rw [sentTo]
  rcases leaveHandler_cases ((linkIf s linked go).moveSome go f false) go f with e | ⟨m, e⟩ <;> rw [e]
  · exact ⟨hmove, hmhdr⟩
  · exact ⟨hmove.trans (modMe_only _ _), (hdr_modMe _ _).trans hmhdr⟩

section
variable {s : State} (hst : Stands s s.iss.k s.iss.c)
include hst

theorem me_modMe {f : Course → Course} (hf : ∀ x, (f x).idx = x.idx := by intro _; rfl) : (s.modMe f).me = f s.me :=
  crs_modCrs_same hst hf

/-- R407. Leaving the trap handler changes the handler mask alone. -/
theorem me_leaveHandler (go : BitVec 32) (f : Nat → BitVec 32) : Stands (s.leaveHandler go f) s.iss.k s.iss.c ∧
    ∃ h, (s.leaveHandler go f).me = { s.me with hmask := h } := by
  rcases leaveHandler_cases s go f with e | ⟨m, e⟩ <;> rw [e]
  · exact ⟨hst, s.me.hmask, rfl⟩
  · exact ⟨modCrs_stands hst, _, me_modMe hst⟩

theorem me_linkIf (linked : Bool) (go : BitVec 32) : Stands (linkIf s linked go) s.iss.k s.iss.c ∧
    (linkIf s linked go).me = linkedBy s.iss.own linked go s.me := by
  cases linked
  · exact ⟨hst, rfl⟩
  · exact ⟨modCrs_stands hst, me_modMe hst⟩

theorem me_moveSome (go : BitVec 32) (f : Nat → BitVec 32) : (s.moveSome go f false).me =
    { (s.me.setLpc go f).lapTo go s.iss.own false with stall := none } := me_modMe hst

theorem went_sentTo (linked : Bool) (go : BitVec 32) (f : Nat → BitVec 32) :
    Went s (sentTo s linked go f) linked go f ∧ (sentTo s linked go f).me.missref = s.me.missref := by
  obtain ⟨honly, -⟩ := sentTo_frame s linked go f
  have hiss : (linkIf s linked go).iss = s.iss := by cases linked <;> rfl
  obtain ⟨hlst, hlink⟩ := me_linkIf hst linked go
  rw [← hiss] at hlst
  obtain ⟨hst2, h, hme⟩ := me_leaveHandler (s := (linkIf s linked go).moveSome go f false) (modCrs_stands hlst) go f
  rw [me_moveSome hlst go f, hlink, hiss] at hme
  change Stands _ (linkIf s linked go).iss.k (linkIf s linked go).iss.c at hst2
  rw [hiss] at hst2
  obtain ⟨vs, hvs⟩ := linkedBy_frame s.iss.own linked go s.me
  refine ⟨went_of_me honly hst2 ?_, ?_⟩ <;> rw [sentTo, hme]
  · exact ⟨rfl, rfl, rfl, rfl, rfl, rfl⟩
  · rw [hvs]
    rfl

end

/-- R178, R180. The lanes of set gone to the overlay manager. -/
def toManager (s : State) (set : BitVec 32) (mr : DWord) (mgr : BitVec 32) : State :=
  (s.modMe (fun c => { c with missref := mr })).modMe (fun c => (c.setLpc set (fun _ => mgr)).lapTo set s.iss.own false)

theorem went_toManager {s : State} (hst : Stands s s.iss.k s.iss.c) (set : BitVec 32) (mr : DWord) (mgr : BitVec 32) :
    Went s (toManager s set mr mgr) false set (fun _ => mgr) ∧ (toManager s set mr mgr).me.missref = mr := by
  have hst1 : Stands (s.modMe (fun c => { c with missref := mr })) s.iss.k s.iss.c := modCrs_stands hst
  have hme : (toManager s set mr mgr).me =
      (({ s.me with missref := mr } : Course).setLpc set (fun _ => mgr)).lapTo set s.iss.own false := by
    rw [toManager, me_modMe (s := s.modMe _) hst1, me_modMe hst]
  refine ⟨went_of_me ((modMe_only s _).trans (modMe_only _ _)) (modCrs_stands hst1) ?_, ?_⟩
  · rw [hme]
    generalize s.me = x
    exact ⟨rfl, rfl, rfl, rfl, rfl, rfl⟩
  · rw [hme]
    rfl

theorem miss_of_manager {s : State} {set : BitVec 32} {kind : Nat} {ov : BitVec 16} (h : s.mine.hdr.ovmgr ≠ 0xFFFFFFFF#32) :
    s.miss set kind ov = toManager s set (missref kind ov.toNat s.iss.own) s.mine.hdr.ovmgr := by
  rw [State.miss]
  exact if_neg h

/-- Where no lane moves, the course agrees with what it was. -/
theorem went_nowhere {s t : State} (honly : OnlyConsorts s t) (hst : Stands t s.iss.k s.iss.c) (h : AgreeOnLanes s.me t.me)
    (f : Nat → BitVec 32) : Went s t false 0 f := by
  obtain ⟨hpc, hlap, hv, hs, hm, hlane⟩ := h
  have hno (l : Nat) : ¬ bit 0 l = true := Bool.eq_false_iff.1 (bit_zero l)
  refine ⟨fun l _ => ?_, fun l _ => ?_, fun h => (nomatch h), fun n _ => ?_, fun _ => hv, hs, hm, hlane, honly,
    by rwa [honly.iss]⟩
  · rw [if_neg (hno l), Course.lpcAt, hpc, Course.lpcAt]
  · rw [hlap, or_iff_left (fun h => hno l h.1)]
  · rw [Course.getV, hv, Course.getV]

/-- R178, R180. The state after the lanes of away have gone to the manager, if there are any and there is one. -/
def afterMiss (s : State) (away : BitVec 32) (mr : DWord) (mgr : BitVec 32) : State :=
  if away = 0 then s
  else if mgr = 0xFFFFFFFF#32 then s.modMe (fun c => { c with missref := mr })
  else toManager s away mr mgr

theorem went_afterMiss {s : State} (hst : Stands s s.iss.k s.iss.c) (away : BitVec 32) (mr : DWord) (mgr : BitVec 32) :
    Went s (afterMiss s away mr mgr) false (if mgr = 0xFFFFFFFF#32 then 0 else away) (fun _ => mgr) ∧
      (afterMiss s away mr mgr).me.missref = if away = 0 then s.me.missref else mr := by
  rw [afterMiss]
  by_cases ha : away = 0
  · rw [if_pos ha, if_pos ha, ha, ite_self]
    exact ⟨went_nowhere (.refl s) hst ⟨rfl, rfl, rfl, rfl, rfl, rfl⟩ _, rfl⟩
  · rw [if_neg ha, if_neg ha]
    by_cases hm : mgr = 0xFFFFFFFF#32
    · rw [if_pos hm, if_pos hm, me_modMe hst]
      refine ⟨went_nowhere (modMe_only s _) (modCrs_stands hst) ?_ _, rfl⟩
      rw [me_modMe hst]
      exact ⟨rfl, rfl, rfl, rfl, rfl, rfl⟩
    · rw [if_neg hm, if_neg hm]
      exact went_toManager hst away mr mgr

end Sys2Proof.Proofs
end

section
/-!
PROOFS. Transfers between overlays that are on the core, and what becomes of the lanes of one that misses (R27 to R29, R175 to R178).
-/

namespace Sys2Proof.Proofs

open Sys2Proof Sys2Proof.Machine Sys2Proof.Statements

/-! ### Reading the register that names a target (R52, R176) -/

theorem fault_of_role (v : BitVec 7) (tags accept : List (BitVec 4)) (ty : BitVec 4) (rawOk : Bool) (y : List Elem × VReg) :
    (Src.of v tags).fault ty accept rawOk y = (badSource y || !tags.contains y.2.tag) := rfl

section
variable {s : State} {r : BitVec 7} (hr : isPort r = false)
include hr

theorem takeSrcs_one_reg (n : Nat) : s.takeSrcs [r] none n = .ok (s, [([], s.me.getV r.toNat)]) := by
  have hreg : ∀ v ∈ [r], isPort v = false := fun v hv => by rw [List.mem_singleton.1 hv, hr]
  have hmis : s.portMisuse [r] none = none := by simp [State.portMisuse, hr]
  simp only [State.takeSrcs, hmis, popAll_regs s hreg, Option.filter_none, List.map_cons, List.map_nil, List.zip_cons_cons,
    List.zip_nil_right, srcVal_reg hr]

/-- R52, R176. A register of references has the tag N32 or RAW. -/
theorem vecRead_target (h : (s.me.getV r.toNat).tag = 5 ∨ (s.me.getV r.toNat).tag = 0) :
    s.vecRead [Src.of r [5, 0]] none false [] true noCheck = .ok (s, 0, [s.me.getV r.toNat]) := by
  have htake : s.takeSrcs ([Src.of r [5, 0]].map (·.v)) none 1 = _ := takeSrcs_one_reg hr 1
  have hmem : (s.me.getV r.toNat).tag ∈ ([5, 0] : List (BitVec 4)) := List.mem_pair.2 h
  have hlt : ¬ 12 ≤ (s.me.getV r.toNat).tag.toNat := by rcases h with h | h <;> rw [h] <;> decide
  refine vecRead_of_takeSrcs (check := noCheck) rfl htake rfl (fun z hz => ?_) rfl
  rw [List.mem_singleton.1 hz, fault_of_role, badSource, mixedTags, decide_eq_false hlt, List.contains_iff_mem.2 hmem]
  rfl

/-- R52, R404. One with another tag is at fault. -/
theorem vecRead_bad_target (h5 : (s.me.getV r.toNat).tag ≠ 5) (h0 : (s.me.getV r.toNat).tag ≠ 0) :
    s.vecRead [Src.of r [5, 0]] none false [] true noCheck = .error (s.fail .format r.toNat) := by
  have hfault (ty : BitVec 4) : (Src.of r [5, 0]).fault ty [] true ([], s.me.getV r.toNat) = true := by
    have htags : ([5, 0] : List (BitVec 4)).contains (s.me.getV r.toNat).tag = false := by
      rw [Bool.eq_false_iff, Ne, List.contains_iff_mem]
      exact fun h => (List.mem_pair.1 h).elim h5 h0
    rw [fault_of_role, htags, Bool.not_false, Bool.or_true]
  have htake : s.takeSrcs ([Src.of r [5, 0]].map (·.v)) none 1 = _ := takeSrcs_one_reg hr 1
  rw [State.vecRead, htake]
  change (match [(Src.of r [5, 0], ([], s.me.getV r.toNat))].find? (fun x => x.1.fault (typeOf []) [] true x.2) with
    | some x => Except.error (s.fail .format x.1.v.toNat)
    | none => Except.ok (s, typeOf [], [s.me.getV r.toNat])) = _
  rw [List.find?_cons, hfault]
  rfl

end

/-! ### The overlay table (R27, R29) -/

theorem validId_iff (n : Nat) (ov : BitVec 16) : validId n ov.toNat = true ↔ ov.toNat < n ∧ ov ≠ 0xFFFF#16 := by
  have hov : ov.toNat < 0xFFFF ↔ ov ≠ 0xFFFF#16 := by
    rw [Ne, ← BitVec.toNat_inj]
    have := ov.isLt
    change ov.toNat < 65535 ↔ ¬ ov.toNat = 65535
    omega
  rw [validId, Bool.and_eq_true, decide_eq_true_eq, decide_eq_true_eq, hov]

theorem validId_eq_false_iff (n : Nat) (ov : BitVec 16) : validId n ov.toNat = false ↔ n ≤ ov.toNat ∨ ov = 0xFFFF#16 := by
  rw [Bool.eq_false_iff, Ne, validId_iff, not_and_or, Nat.not_lt, not_not]

/-- R405. Where no lane has taken a cause and REFUSE has let none go, nothing is delivered. -/
theorem deliver_nil {s : State} {k c : Nat} {ref : BitVec 32} {ret : Nat → BitVec 32} (h : s.iss.refused = 0) :
    s.deliver k c ref ret [] = s := by
  have hnow : s.refusedNow k c = 0 := by
    rw [State.refusedNow]
    split
    · refine maskOf_of_false (fun l => ?_)
      rw [h, bit_zero, Bool.false_and, Bool.false_and, Bool.false_and]
    · rfl
  rw [State.deliver, State.refusedGroups, if_pos hnow]
  rfl

/-! ### CALLX (R175) -/

section
variable {s : State} {o : BitVec 16} {e : BitVec 5} {cnt : List Byte} {pa : Nat} (hover : s.overCount (.callx o e) = none)
  (hcnt : s.fetchCount s.mine = .bytes cnt pa)
include hover hcnt

theorem exec_callx_of_count : exec (.callx o e) s = .next (
    if !validId (leNat cnt) o.toNat then s.fail .badHandle 0
    else match s.instFor s.mine o with
      | none => s.tableOr (s.fetchEntry s.mine o.toNat) 0 (fun bs =>
        if (OvEntry.ofBytes bs).ok then s.miss s.iss.set 1 o else s.fail .badHandle 0)
      | some x =>
        if x.entry.nentry ≤ e.toNat then s.fail .badHandle 0
        else sentTo s true s.iss.set (fun _ => BitVec.ofNat 32 (o.toNat * 65536 + x.entry.entryoff.getD e.toNat 0))) := by
  rw [exec_callx, execCallx, gate_none _ hover, State.callx, hcnt]
  rfl

theorem callx_of_unlisted (h : leNat cnt ≤ o.toNat ∨ o = 0xFFFF#16) : exec (.callx o e) s = .next (s.fail .badHandle 0) := by
  rw [exec_callx_of_count hover hcnt, (validId_eq_false_iff _ _).2 h]
  rfl

section
variable (hlt : o.toNat < leNat cnt) (hne : o ≠ 0xFFFF#16)
include hlt hne

theorem callx_of_no_entry {x : Inst} (hx : s.instFor s.mine o = some x) (h : x.entry.nentry ≤ e.toNat) :
    exec (.callx o e) s = .next (s.fail .badHandle 0) := by
  rw [exec_callx_of_count hover hcnt, (validId_iff _ _).2 ⟨hlt, hne⟩, hx]
  simp only [h, if_true, Bool.not_true, Bool.false_eq_true, if_false]

theorem callx_of_resident {x : Inst} (hx : s.instFor s.mine o = some x) (h : e.toNat < x.entry.nentry) :
    exec (.callx o e) s = .next (sentTo s true s.iss.set
      (fun _ => BitVec.ofNat 32 (o.toNat * 65536 + x.entry.entryoff.getD e.toNat 0))) := by
  rw [exec_callx_of_count hover hcnt, (validId_iff _ _).2 ⟨hlt, hne⟩, hx]
  simp only [Nat.not_le.2 h, Bool.not_true, Bool.false_eq_true, if_false]

/-- R177, R178. A miss reads the entry first. -/
theorem callx_of_absent (hx : s.instFor s.mine o = none) {ent : List Byte} {p2 : Nat}
    (hent : s.fetchEntry s.mine o.toNat = .bytes ent p2) : exec (.callx o e) s = .next (
      if (OvEntry.ofBytes ent).ok then s.miss s.iss.set 1 o else s.fail .badHandle 0) := by
  rw [exec_callx_of_count hover hcnt, (validId_iff _ _).2 ⟨hlt, hne⟩, hx, hent]
  rfl

end

end

/-! ### CALLXR and RETX (R176, R177) -/

/-- R29, R176, R180. The fate of a lane whose target is in an overlay, none where it goes on. -/
def targetFate (s : State) (count : Nat) (ov : BitVec 16) : Option Missed :=
  if !validId count ov.toNat then some .bad
  else if (s.instFor s.mine ov).isNone then some (s.missed ov)
  else none

/-- R176 to R178. Of the issue set, whose targets x names, go goes on, bad names no overlay or a malformed entry, and away misses;
no lane's entry is on a page that parks or traps it. -/
structure Parted (s : State) (count : Nat) (x : VReg) (go bad away : BitVec 32) : Prop where
  go : ∀ l : Nat, l < 32 → (bit go l = true ↔ bit s.iss.set l = true ∧ targetFate s count (refOv (x.at l)) = none)
  bad : ∀ l : Nat, l < 32 → (bit bad l = true ↔ bit s.iss.set l = true ∧ targetFate s count (refOv (x.at l)) = some .bad)
  away : ∀ l : Nat, l < 32 → (bit away l = true ↔ bit s.iss.set l = true ∧ targetFate s count (refOv (x.at l)) = some .away)
  all : ∀ l : Nat, l < 32 → bit s.iss.set l = true → targetFate s count (refOv (x.at l)) = none ∨
    targetFate s count (refOv (x.at l)) = some .bad ∨ targetFate s count (refOv (x.at l)) = some .away

/-- CALLXR where linked, else RETX. -/
def transferBy (linked : Bool) (r : BitVec 7) : Instr := if linked then .callxr r else .retx r

/-- R179. The kind of a miss of either. -/
def transferKind (linked : Bool) : Nat := if linked then 2 else 3

/-- R176. The cause that the lanes take whose register names no overlay of the table. -/
def badTargets (s : State) (r : BitVec 7) (bad : BitVec 32) : List TrapGroup :=
  if bad = 0 then [] else [{ cause := .badHandle, lanes := bad, info := info79 s.iss.enc 0 r.toNat }]

/-- R180. The cause that the lanes of away take without a manager. -/
def missTargets (s : State) (away : BitVec 32) (mr : DWord) : List TrapGroup :=
  if away ≠ 0 ∧ s.mine.hdr.ovmgr = 0xFFFFFFFF#32 then [{ cause := .overlayMiss, lanes := away, info := mr }] else []

theorem exec_transferBy {s : State} {linked : Bool} {r : BitVec 7} (hover : s.overCount (transferBy linked r) = none) :
    exec (transferBy linked r) s = .next (s.transferReg r (transferKind linked)) := by
  cases linked
  · rw [transferBy, if_neg Bool.false_ne_true, exec_retx, execRetx]
    exact gate_none _ hover
  · rw [transferBy, if_pos rfl, exec_callxr, execCallxr]
    exact gate_none _ hover

theorem transferBy_of_bad_tag {s : State} {linked : Bool} {r : BitVec 7} (hover : s.overCount (transferBy linked r) = none)
    (hr : isPort r = false) (h5 : (s.me.getV r.toNat).tag ≠ 5) (h0 : (s.me.getV r.toNat).tag ≠ 0) :
    exec (transferBy linked r) s = .next (s.fail .format r.toNat) := by
  have hread : s.vecRead [Src.of r [5, 0]] none false [] true (fun _ => none) = _ := vecRead_bad_target hr h5 h0
  rw [exec_transferBy hover, State.transferReg, hread]

theorem park_of_eq_nil {s : State} {xs : List LaneFate} {access cls : Nat} (h : xs = []) : s.park xs access cls = s := by
  rw [h]
  rfl

/-! ### The fate of a lane whose target names an overlay (R29, R176) -/

section
variable {s : State} {n : Nat} {ov : BitVec 16}

theorem missed_of_bytes {ent : List Byte} {p2 : Nat} (h : s.fetchEntry s.mine ov.toNat = .bytes ent p2) :
    s.missed ov = if (OvEntry.ofBytes ent).ok then .away else .bad := by
  unfold State.missed
  rw [h]

theorem targetFate_of_unlisted (h : ¬ (ov.toNat < n ∧ ov ≠ 0xFFFF#16)) : targetFate s n ov = some .bad := by
  rw [targetFate, Bool.eq_false_iff.2 (fun e => h ((validId_iff n ov).1 e))]
  rfl

theorem targetFate_of_resident (h : ov.toNat < n ∧ ov ≠ 0xFFFF#16) (hx : (s.instFor s.mine ov).isSome = true) :
    targetFate s n ov = none := by
  rw [targetFate, (validId_iff n ov).2 h, Option.isNone_eq_false_iff.2 hx]
  rfl

theorem targetFate_of_absent (h : ov.toNat < n ∧ ov ≠ 0xFFFF#16) (hx : s.instFor s.mine ov = none) :
    targetFate s n ov = some (s.missed ov) := by
  rw [targetFate, (validId_iff n ov).2 h, hx]
  rfl

end

section
variable {s : State} {linked : Bool} {r : BitVec 7} {cnt : List Byte} {pa : Nat} {go bad away : BitVec 32}

/-- R176 to R178, R405. Where no lane's entry is on a page that parks or traps it, the lanes go on, go to the manager, or take
their causes. -/
theorem transferReg_eq (hr : isPort r = false) (htag : (s.me.getV r.toNat).tag = 5 ∨ (s.me.getV r.toNat).tag = 0)
    (hcnt : s.fetchCount s.mine = .bytes cnt pa) (h : Parted s (leNat cnt) (s.me.getV r.toNat) go bad away) :
    let mr := missref (transferKind linked) (refOv ((s.me.getV r.toNat).at (lowest away))).toNat s.iss.own
    s.transferReg r (transferKind linked) =
      (afterMiss (sentTo s linked go (s.me.getV r.toNat).at) away mr s.mine.hdr.ovmgr).deliver s.iss.k s.iss.c s.iss.own
        (fun _ => s.iss.at_) (badTargets s r bad ++ missTargets s away mr) := by
  have hread : s.vecRead [Src.of r [5, 0]] none false [] true (fun _ => none) = _ := vecRead_target hr htag
  rw [State.transferReg, hread, hcnt]
  intro mr
  dsimp -zeta only [State.tableOr]
  extract_lets x fate those bad' away' go' s0 s1 s2 ov' mr' trapped badGroup
  have hthose (p : Missed → Bool) (a : BitVec 32) (h : ∀ l : Nat, l < 32 →
      (bit a l = true ↔ bit s.iss.set l = true ∧ (fate l).any p = true)) : those p = a :=
    maskOf_eq (fun l hl => (h l hl).trans Bool.and_eq_true_iff.symm)
  have hfate : ∀ l : Nat, l < 32 → bit s.iss.set l = true → fate l = none ∨ fate l = some .bad ∨ fate l = some .away := h.all
  have hbad' : bad' = bad := hthose _ _ (fun l hl => (h.bad l hl).trans (and_congr_right (fun hset => by
    change fate l = _ ↔ _
    rcases hfate l hl hset with h | h | h <;> simp [h])))
  have haway' : away' = away := hthose _ _ (fun l hl => (h.away l hl).trans (and_congr_right (fun hset => by
    change fate l = _ ↔ _
    rcases hfate l hl hset with h | h | h <;> simp [h])))
  have hgo' : go' = go := mask_ext (fun l hl => by
    have hand : bit go' l = (bit s.iss.set l && bit (maskOf (fun l => (fate l).isNone)) l) := BitVec.getLsbD_and
    rw [hand, bit_maskOf _ hl, Bool.eq_iff_iff, Bool.and_eq_true, Option.isNone_iff_eq_none]
    exact (h.go l hl).symm)
  have htrapped (c : Cause) : trapped c = [] := if_pos (hthose _ 0 (fun l hl => by
    rw [bit_zero]
    refine iff_of_false Bool.false_ne_true (fun ⟨hset, h⟩ => ?_)
    rcases hfate l hl hset with e | e | e <;> simp [e] at h))
  have hs0 : s0 = s := by
    refine park_of_eq_nil (List.filterMap_eq_nil_iff.2 (fun l hl => ?_))
    obtain ⟨hlt, hset⟩ := mem_lanesOf.1 hl
    rcases hfate l hlt hset with e | e | e <;> rw [e]
  have hs2 : s2 = sentTo s linked go (s.me.getV r.toNat).at := by
    change ((if transferKind linked = 2 then s0.link go' else s0).moveSome go' x.at false).leaveHandler go' x.at = _
    rw [hs0, hgo', sentTo]
    cases linked <;> rfl
  have hgroups : badGroup = badTargets s r bad := by
    change (if bad' = 0 then [] else [_]) ++ trapped _ ++ trapped _ = _
    rw [htrapped, htrapped, List.append_nil, List.append_nil, hbad']
    rfl
  have hmr : mr' = mr := by
    change missref (transferKind linked) (refOv (x.at (lowest away'))).toNat s.iss.own = _
    rw [haway']
    rfl
  have hmiss (h : s.mine.hdr.ovmgr ≠ 0xFFFFFFFF#32) : s2.miss away (transferKind linked) ov' = toManager s2 away mr s.mine.hdr.ovmgr := by
    obtain ⟨honly, hhdr⟩ := sentTo_frame s linked go (s.me.getV r.toNat).at
    rw [← hs2] at honly hhdr
    rw [miss_of_manager (by rwa [hhdr]), hhdr, honly.iss, ← hmr]
  rw [haway', hgroups, hmr, ← hs2, afterMiss, missTargets]
  by_cases ha : away = 0
  · rw [if_pos ha, if_pos ha, if_neg (fun h => h.1 ha), List.append_nil]
  · rw [if_neg ha, if_neg ha]
    by_cases hm : s.mine.hdr.ovmgr = 0xFFFFFFFF#32
    · rw [if_pos hm, if_pos hm, if_pos ⟨ha, hm⟩]
    · rw [if_neg hm, if_neg hm, if_neg (fun h => hm h.2), hmiss hm, List.append_nil]

/-- R176. Where every target is on the core, every lane goes on. -/
theorem transferBy_of_resident (hover : s.overCount (transferBy linked r) = none) (hrefused : s.iss.refused = 0)
    (hr : isPort r = false) (htag : (s.me.getV r.toNat).tag = 5 ∨ (s.me.getV r.toNat).tag = 0)
    (hcnt : s.fetchCount s.mine = .bytes cnt pa)
    (hall : ∀ l : Nat, l < 32 → bit s.iss.set l = true → (refOv ((s.me.getV r.toNat).at l)).toNat < leNat cnt ∧
      refOv ((s.me.getV r.toNat).at l) ≠ 0xFFFF#16 ∧ (s.instFor s.mine (refOv ((s.me.getV r.toNat).at l))).isSome = true) :
    exec (transferBy linked r) s = .next (sentTo s linked s.iss.set (s.me.getV r.toNat).at) := by
  have hgo (l : Nat) (hl : l < 32) (hset : bit s.iss.set l = true) :
      targetFate s (leNat cnt) (refOv ((s.me.getV r.toNat).at l)) = none := by
    obtain ⟨hlt, hne, hx⟩ := hall l hl hset
    exact targetFate_of_resident ⟨hlt, hne⟩ hx
  have hnone (m : Missed) (l : Nat) (hl : l < 32) : bit 0 l = true ↔
      bit s.iss.set l = true ∧ targetFate s (leNat cnt) (refOv ((s.me.getV r.toNat).at l)) = some m := by
    rw [bit_zero]
    refine iff_of_false Bool.false_ne_true (fun ⟨hset, h⟩ => ?_)
    rw [hgo l hl hset] at h
    cases h
  have hparted : Parted s (leNat cnt) (s.me.getV r.toNat) s.iss.set 0 0 :=
    ⟨fun l hl => (and_iff_left_of_imp (hgo l hl)).symm, hnone .bad, hnone .away, fun l hl hset => .inl (hgo l hl hset)⟩
  rw [exec_transferBy hover, transferReg_eq hr htag hcnt hparted]
  refine congrArg Host.Outcome.next (deliver_nil ?_)
  obtain ⟨honly, -⟩ := sentTo_frame s linked s.iss.set (s.me.getV r.toNat).at
  rw [afterMiss, if_pos rfl, honly.iss, hrefused]

end

/-- Settles O31: each transfer to overlays on the core sends its lanes as `went_sentTo` says, or fails its check. -/
theorem overlayTransferResults : Obligations.OverlayTransferResults := by
  intro s o e r cnt pa hi hcnt set x Goes
  have hst := stands_of_issuing hi
  have hgoes {j : Instr} {linked : Bool} {f : Nat → BitVec 32} (h : exec j s = .next (sentTo s linked set f)) : Goes j linked f := by
    obtain ⟨hw, -⟩ := went_sentTo hst linked set f
    refine ⟨_, h, fun l hl hset => ⟨?_, ?_, fun hk => hw.link hk l hl hset⟩, fun l hl hset => ?_, hw.regs, hw.scalars, hw.masks,
      hw.lanes, hw.only.ms⟩
    · rw [hw.lpc l hl, if_pos hset]
    · rw [hw.lapped l hl, and_iff_right hset]
    · rw [hw.lpc l hl, hset, if_neg Bool.false_ne_true]
  refine ⟨fun inst hover hlt hne hx hn => hgoes (callx_of_resident hover hcnt hlt hne hx hn),
    fun hover h => callx_of_unlisted hover hcnt h, fun inst hover hlt hne hx hn => callx_of_no_entry hover hcnt hlt hne hx hn,
    fun hr h5 h0 => ⟨fun hover => transferBy_of_bad_tag (linked := true) hover hr h5 h0,
      fun hover => transferBy_of_bad_tag (linked := false) hover hr h5 h0⟩,
    fun hrefused hr htag hall => ⟨fun hover => hgoes (transferBy_of_resident (linked := true) hover hrefused hr htag hcnt hall),
      fun hover => hgoes (transferBy_of_resident (linked := false) hover hrefused hr htag hcnt hall)⟩⟩

end Sys2Proof.Proofs
end

section
/-!
PROOFS. A trap whose handler's overlay is not on the core, and the lanes of a transfer that misses (R29, R177 to R182, R406, R410).
-/

namespace Sys2Proof.Proofs

open Sys2Proof Sys2Proof.Machine Sys2Proof.Statements

/-! ### What reading a table depends on (R28, R254) -/

section
variable {s t : State} (h : OnlyConsorts s t)
include h

theorem xlateRange_of_only (aspace : BitVec 16) (chk : Bool) (va : DWord) (rd wr : Bool) (n : Nat) :
    t.xlateRange aspace chk va rd wr n = s.xlateRange aspace chk va rd wr n := by
  have hx (a : DWord) : t.xlate aspace chk a rd wr = s.xlate aspace chk a rd wr := by rw [h]; rfl
  induction n with
  | zero => rfl
  | succ n ih => simp only [State.xlateRange, ih, hx]

/-- What tables hold does not depend on the consorts. -/
theorem fetchVa_of_only (aspace : BitVec 16) (va : DWord) (n : Nat) : t.fetchVa aspace va n = s.fetchVa aspace va n := by
  have hp (pa : Nat) : t.poisoned pa = s.poisoned pa := by rw [State.poisoned, h.ms, State.poisoned]
  simp only [State.fetchVa, xlateRange_of_only h, hp, h.ms]

theorem handlerBad_of_only (q : Consort) : t.handlerBad q = s.handlerBad q := by
  unfold State.handlerBad
  simp only [State.fetchCount, State.fetchEntry, fetchVa_of_only h]

theorem instFor_of_only (q : Consort) (ov : BitVec 16) : t.instFor q ov = s.instFor q ov := by
  rw [State.instFor, State.inst, h.core, State.instFor, State.inst]

end

/-- R29. The table can be read and has no such handler, or a malformed entry for it. -/
def NoHandler (s : State) (q : Consort) : Prop :=
  ∃ cnt pa, s.fetchCount q = .bytes cnt pa ∧ (leNat cnt ≤ (refOv q.hdr.traph).toNat ∨ refOv q.hdr.traph = 0xFFFF#16 ∨
    ∃ ent p2, s.fetchEntry q (refOv q.hdr.traph).toNat = .bytes ent p2 ∧ (OvEntry.ofBytes ent).ok = false)

theorem handlerBad_iff (s : State) (q : Consort) : s.handlerBad q = true ↔ NoHandler s q := by
  unfold State.handlerBad NoHandler
  cases hc : s.fetchCount q with
  | bytes cnt pa =>
    cases he : s.fetchEntry q (refOv q.hdr.traph).toNat with
    | bytes ent p2 => simp [validId_eq_false_iff, he, or_assoc]
    | _ => simp [validId_eq_false_iff, he]
  | _ => simp

/-! ### A course that ends (R197, R410) -/

theorem laneAt_setLane (c : Course) (m : BitVec 32) (x : LaneState) {l : Nat} (h : l < 32) :
    (c.setLane m x).laneAt l = if bit m l then x else c.laneAt l := vget_vof _ _ h

theorem bit_allOnes {l : Nat} (h : l < 32) : bit 0xFFFFFFFF#32 l = true := by
  have : (0xFFFFFFFF#32) = BitVec.allOnes 32 := rfl
  rw [this, bit, BitVec.getLsbD_allOnes, decide_eq_true h]

/-- R198. Where no lane waits, no mask is released. -/
theorem release1_of_exited {c : Course} (h : ∀ l : Nat, l < 32 → c.laneAt l = .exited) (n : Nat) : c.release1 n = c := by
  have hw : c.waitingOn n = 0 := maskOf_eq (fun l hl => by
    rw [h l hl, bit_zero]
    exact iff_of_false Bool.false_ne_true (fun e => nomatch beq_iff_eq.1 e))
  rw [Course.release1, hw]
  exact if_neg (fun e => e.1 rfl)

theorem releaseMasks_of_exited {c : Course} (h : ∀ l : Nat, l < 32 → c.laneAt l = .exited) : c.releaseMasks = c :=
  forAll_induct (P := fun x => x = c) (fun x n e => by rw [e]; exact release1_of_exited h n) _ c rfl

/-- R197. Every lane of a course exits. -/
theorem leave_all (c : Course) : ∃ m hm lp, c.leave 0xFFFFFFFF#32 .exited =
    { c.setLane 0xFFFFFFFF#32 .exited with m := m, hmask := hm, lapped := lp } := by
  refine ⟨_, _, _, releaseMasks_of_exited (fun l hl => ?_)⟩
  exact (laneAt_setLane c _ _ hl).trans (if_pos (bit_allOnes hl))

theorem breakMember_frame (q : Consort) (n epoch num : Nat) : ∃ cs, q.breakMember n epoch num = { q with chains := cs } := by
  rw [Consort.breakMember]
  split
  · exact ⟨_, rfl⟩
  · exact ⟨q.chains, rfl⟩

/-- R355. Breaking a course's bindings touches no course. -/
theorem crs_breakBindings (s : State) (k c k' c' : Nat) : (s.breakBindings k c).crs k' c' = s.crs k' c' := by
  refine forAll_induct (P := fun t : State => t.crs k' c' = s.crs k' c') (fun t b ht => ?_) _ _ crs_modCons
  have hkeep (r : Consort) : (if (s.cons k).mateOf r && r.num == b.rcv.toNat && r.place != .retired
      then r.breakMember b.chn.toNat b.epoch (s.cons k).num else r).id = r.id ∧
      (if (s.cons k).mateOf r && r.num == b.rcv.toNat && r.place != .retired
      then r.breakMember b.chn.toNat b.epoch (s.cons k).num else r).crs c' = r.crs c' := by
    split
    · obtain ⟨cs, e⟩ := breakMember_frame r b.chn.toNat b.epoch (s.cons k).num
      rw [e]
      exact ⟨rfl, rfl⟩
    · exact ⟨rfl, rfl⟩
  exact (cons_map_field (s := t) rfl (fun r => (hkeep r).1) (fun q => q.crs c') (fun r => (hkeep r).2)).trans ht

/-- R410. A course that ends: every lane has exited, and the cause is kept that ended it first. -/
theorem crs_terminate {s : State} {k c : Nat} (hst : Stands s k c) (t : Termination) :
    (∀ l : Nat, l < 32 → ((s.terminate k c t).crs k c).laneAt l = .exited) ∧
      ((s.terminate k c t).crs k c).term = some ((s.crs k c).term.getD t) := by
  have hidx (x : Course) : (x.leave 0xFFFFFFFF#32 .exited).idx = x.idx := by
    obtain ⟨m, hm, lp, e⟩ := leave_all x
    rw [e]
    rfl
  rw [State.terminate, crs_breakBindings, crs_modCrs_same hst (hf := ?hf)]
  case hf =>
    intro x
    dsimp only
    exact hidx x
  generalize s.crs k c = x
  obtain ⟨m, hm, lp, e⟩ := leave_all x
  rw [e]
  exact ⟨fun l hl => (laneAt_setLane x _ _ hl).trans (if_pos (bit_allOnes hl)), rfl⟩

/-! ### Taking one cause (R405, R406, R182) -/

section
variable {s : State} {k c : Nat} {ref : BitVec 32} {ret : Nat → BitVec 32} {g : TrapGroup}

/-- R405. The lanes of the only cause of an issue enter the handler with it. -/
theorem resolve_one (hm : (s.crs k c).hmask = 0) (hl : g.lanes ≠ 0) :
    s.resolve k c ref ret [g] = (s.modCrs k c (·.unrefuse g)).enterHandler k c ref ret g := by
  have hall : [g].foldl (fun m h => m ||| h.lanes) 0 = g.lanes := BitVec.zero_or
  have hfind : [g].find? (fun h => bit h.lanes (lowest g.lanes)) = some g := List.find?_cons_of_pos (bit_lowest hl)
  have hlanes : [g].foldl (fun m h => if h.cause = g.cause then m ||| h.lanes else m) 0 = g.lanes := by
    rw [List.foldl_cons, if_pos rfl]
    exact BitVec.zero_or
  have hlap (x : Course) : ({ x with lapped := x.lapped ||| (g.lanes &&& ~~~g.lanes) } : Course) = x := by
    rw [show g.lanes &&& ~~~g.lanes = 0#32 from BitVec.and_not_self _, BitVec.or_zero]
  have hid : ∀ x : Course, ({ x with lapped := x.lapped ||| (g.lanes &&& ~~~g.lanes) } : Course).idx = x.idx := fun _ => rfl
  unfold State.resolve
  dsimp only
  rw [hall, if_neg hl, if_pos hm, hfind]
  dsimp only [Option.map_some]
  rw [hlanes, modCrs_modCrs hid]
  simp only [hlap]

/-- R405, R413. So too where REFUSE has let no lane go. -/
theorem deliver_one (hnow : s.refusedNow k c = 0) (hm : (s.crs k c).hmask = 0) (hl : g.lanes ≠ 0) :
    s.deliver k c ref ret [g] = (s.modCrs k c (·.unrefuse g)).enterHandler k c ref ret g := by
  have hnil : s.refusedGroups k c = [] := if_pos hnow
  rw [State.deliver, hnil]
  exact resolve_one hm hl

/-- R177, R182. The course whose lanes d go to the manager instead of to an absent handler. -/
structure EntersManager (hdr : Header) (g : TrapGroup) (ref : BitVec 32) (y : Course) : Prop where
  cause : y.trapcause = g.cause.code
  info : y.trapinfo = g.info
  missref : y.missref = missref 4 (refOv hdr.traph).toNat hdr.traph
  lpc : ∀ l : Nat, l < 32 → bit g.lanes l = true → y.lpcAt l = hdr.ovmgr
  lapped : ∀ l : Nat, l < 32 → bit g.lanes l = true → (bit y.lapped l = true ↔ hdr.ovmgr.toNat < ref.toNat)

theorem enterHandler_absent (hst : Stands s k c) (htraph : (s.cons k).hdr.traph ≠ 0xFFFFFFFF#32)
    (hx : s.instFor (s.cons k) (refOv (s.cons k).hdr.traph) = none) :
    let y := (s.enterHandler k c ref ret g).crs k c
    let ends (e : Cause) : Prop := y = (s.terminate k c { cls := 1, cause := e, lanes := g.lanes, ref := ref }).crs k c
    (s.handlerBad (s.cons k) = true → ends .badHandle) ∧
    (s.handlerBad (s.cons k) = false → (s.cons k).hdr.ovmgr = 0xFFFFFFFF#32 → ends g.cause) ∧
    (s.handlerBad (s.cons k) = false → (s.cons k).hdr.ovmgr ≠ 0xFFFFFFFF#32 → EntersManager (s.cons k).hdr g ref y) := by
  intro y ends
  have hy : y = (s.enterHandler k c ref ret g).crs k c := rfl
  unfold State.enterHandler at hy
  dsimp only at hy
  rw [if_neg htraph, hx] at hy
  dsimp only at hy
  refine ⟨fun hb => ?_, fun hb hm => ?_, fun hb hm => ?_⟩
  · rw [if_pos hb] at hy
    exact hy
  · rw [hb, if_neg Bool.false_ne_true, if_pos hm] at hy
    exact hy
  · rw [hb, if_neg Bool.false_ne_true, if_neg hm, crs_modCrs_same hst] at hy
    have hlpc (l : Nat) (hl : l < 32) (hd : bit g.lanes l = true) : y.lpcAt l = (s.cons k).hdr.ovmgr := by
      rw [hy]
      exact (lpcAt_setLpc _ g.lanes _ hl).trans (if_pos hd)
    have hlap (l : Nat) (hl : l < 32) : bit y.lapped l = true ↔
        bit ((s.crs k c).lapped &&& ~~~g.lanes) l = true ∨ bit g.lanes l = true ∧ (y.lpcAt l).toNat < ref.toNat := by
      rw [hy]
      exact bit_lapTo _ g.lanes ref hl
    refine ⟨by rw [hy]; rfl, by rw [hy]; rfl, by rw [hy], hlpc, fun l hl hd => ?_⟩
    have hno : bit ((s.crs k c).lapped &&& ~~~g.lanes) l = false := by
      have hd' : g.lanes.getLsbD l = true := hd
      rw [bit, BitVec.getLsbD_and, BitVec.getLsbD_not, hd', Bool.not_true, Bool.and_false, Bool.and_false]
    rw [hlap l hl, hno, hlpc l hl hd, hd]
    simp only [Bool.false_eq_true, false_or, true_and]

end

/-! ### Lanes whose target is absent (R29, R176, R177) -/

/-- R29. The entry of an overlay reads, well formed or not. -/
def ReadsEntry (s : State) (ov : BitVec 16) (good : Bool) : Prop :=
  ∃ ent p2, s.fetchEntry s.mine ov.toNat = .bytes ent p2 ∧ (OvEntry.ofBytes ent).ok = good

section
variable {s : State} {n : Nat} {ov : BitVec 16}

theorem missed_iff (good : Bool) : s.missed ov = (if good then .away else .bad) ↔ ReadsEntry s ov good := by
  unfold State.missed ReadsEntry
  cases s.fetchEntry s.mine ov.toNat with
  | bytes ent p2 => cases h : (OvEntry.ofBytes ent).ok <;> cases good <;> simp [h]
  | _ => cases good <;> simp

theorem targetFate_eq_none_iff : targetFate s n ov = none ↔
    (ov.toNat < n ∧ ov ≠ 0xFFFF#16) ∧ (s.instFor s.mine ov).isSome = true := by
  by_cases hn : ov.toNat < n ∧ ov ≠ 0xFFFF#16
  · cases hx : s.instFor s.mine ov with
    | none => simp [targetFate_of_absent hn hx]
    | some x => simp [targetFate_of_resident hn (by rw [hx]; rfl), hn]
  · simp [targetFate_of_unlisted hn, hn]

theorem targetFate_eq_bad_iff : targetFate s n ov = some .bad ↔
    ¬ (ov.toNat < n ∧ ov ≠ 0xFFFF#16) ∨ s.instFor s.mine ov = none ∧ ReadsEntry s ov false := by
  by_cases hn : ov.toNat < n ∧ ov ≠ 0xFFFF#16
  · rw [← missed_iff false]
    cases hx : s.instFor s.mine ov with
    | none => simp [targetFate_of_absent hn hx, hn]
    | some x => simp [targetFate_of_resident hn (by rw [hx]; rfl), hn]
  · exact iff_of_true (targetFate_of_unlisted hn) (.inl hn)

theorem targetFate_eq_away_iff : targetFate s n ov = some .away ↔
    (ov.toNat < n ∧ ov ≠ 0xFFFF#16) ∧ s.instFor s.mine ov = none ∧ ReadsEntry s ov true := by
  rw [← missed_iff true]
  by_cases hn : ov.toNat < n ∧ ov ≠ 0xFFFF#16
  · cases hx : s.instFor s.mine ov with
    | none => simp [targetFate_of_absent hn hx, hn]
    | some x => simp [targetFate_of_resident hn (by rw [hx]; rfl)]
  · simp [targetFate_of_unlisted hn, hn]

end

/-! ### The obligation -/

/-- R176 to R178. The lanes of a CALLXR or RETX part as their targets' overlays and entries are. -/
theorem parted_of_reads {s : State} {n : Nat} {x : VReg} {bad away : BitVec 32}
    (hread : ∀ l : Nat, l < 32 → bit s.iss.set l = true → (refOv (x.at l)).toNat < n ∧ refOv (x.at l) ≠ 0xFFFF#16 →
      s.instFor s.mine (refOv (x.at l)) = none → ReadsEntry s (refOv (x.at l)) true ∨ ReadsEntry s (refOv (x.at l)) false)
    (hbad : ∀ l : Nat, l < 32 → (bit bad l = true ↔ bit s.iss.set l = true ∧ targetFate s n (refOv (x.at l)) = some .bad))
    (haway : ∀ l : Nat, l < 32 → (bit away l = true ↔ bit s.iss.set l = true ∧ targetFate s n (refOv (x.at l)) = some .away)) :
    Parted s n x (maskOf (fun l => bit s.iss.set l && (targetFate s n (refOv (x.at l))).isNone)) bad away := by
  refine ⟨fun l hl => ?_, hbad, haway, fun l hl hset => ?_⟩
  · rw [bit_maskOf _ hl, Bool.and_eq_true, Option.isNone_iff_eq_none]
  · by_cases hn : (refOv (x.at l)).toNat < n ∧ refOv (x.at l) ≠ 0xFFFF#16
    · cases hx : s.instFor s.mine (refOv (x.at l)) with
      | some y => exact .inl (targetFate_eq_none_iff.2 ⟨hn, by rw [hx]; rfl⟩)
      | none =>
        rcases hread l hl hset hn hx with h | h
        · exact .inr (.inr (targetFate_eq_away_iff.2 ⟨hn, hx, h⟩))
        · exact .inr (.inl (targetFate_eq_bad_iff.2 (.inr ⟨hx, h⟩)))
    · exact .inr (.inl (targetFate_of_unlisted hn))

/-- R176 to R178. Where the lanes stand after some have gone on and others to the manager, if there is one. -/
theorem sentTo_afterMiss {s : State} (hst : Stands s s.iss.k s.iss.c) {linked : Bool} {go away : BitVec 32} {f : Nat → BitVec 32}
    {mr : DWord} {mgr : BitVec 32} (hapart : ∀ l : Nat, l < 32 → bit away l = true → bit go l = false) :
    let u := afterMiss (sentTo s linked go f) away mr mgr
    (∀ l : Nat, l < 32 → (bit go l = true → u.me.lpcAt l = f l ∧ (linked = true → (u.me.getV 0).at l = refAdd s.iss.own 2)) ∧
      (bit away l = true → mgr ≠ 0xFFFFFFFF#32 → u.me.lpcAt l = mgr ∧
        (bit u.me.lapped l = true ↔ bit s.me.lapped l = true ∨ mgr.toNat < s.iss.own.toNat)) ∧
      (¬ bit go l = true → bit away l = false ∨ mgr = 0xFFFFFFFF#32 → u.me.lpcAt l = s.me.lpcAt l)) ∧
    (∀ n : Nat, n ≠ 0 ∨ linked = false → u.me.getV n = s.me.getV n) ∧ u.me.s = s.me.s ∧ u.ms = s.ms ∧
    u.me.missref = if away = 0 then s.me.missref else mr := by
  intro u
  obtain ⟨hsent, hkept⟩ := went_sentTo hst linked go f
  obtain ⟨hmiss, hmr⟩ := went_afterMiss hsent.stands away mr mgr
  have hown : (sentTo s linked go f).iss.own = s.iss.own := by rw [hsent.only.iss]
  have hnone {l : Nat} (h : bit away l = false ∨ mgr = 0xFFFFFFFF#32) :
      ¬ bit (if mgr = 0xFFFFFFFF#32 then 0 else away) l = true := by
    rw [Bool.not_eq_true]
    split
    · exact bit_zero l
    next hm => exact h.resolve_right hm
  refine ⟨fun l hl => ⟨fun hgo => ?_, fun haway hm => ?_, fun hgo h => ?_⟩, fun n hn => (hmiss.regs n (.inr rfl)).trans (hsent.regs n hn),
    hmiss.scalars.trans hsent.scalars, hmiss.only.ms.trans hsent.only.ms, by rw [hmr, hkept]⟩
  · have haway : bit away l = false := Bool.eq_false_iff.2 (fun h => by rw [hapart l hl h] at hgo; cases hgo)
    rw [hmiss.lpc l hl, if_neg (hnone (.inl haway)), hsent.lpc l hl, if_pos hgo, hmiss.regs 0 (.inr rfl)]
    exact ⟨rfl, fun hk => hsent.link hk l hl hgo⟩
  · have hgo := hapart l hl haway
    rw [hmiss.lpc l hl, hmiss.lapped l hl, if_neg hm, if_pos haway, hsent.lapped l hl, hown, hgo, haway]
    simp only [Bool.false_eq_true, false_and, or_false, true_and]
  · rw [hmiss.lpc l hl, if_neg (hnone h), hsent.lpc l hl, if_neg hgo]

/-- R182, R406. What a trap does whose handler is absent. -/
theorem absentHandler_results {s : State} {k c : Nat} {ref : BitVec 32} {ret : Nat → BitVec 32} {g : TrapGroup} {q : Consort}
    (hq : s.consorts.find? (·.id == k) = some q) (hc : (q.courses.find? (·.idx == c)).isSome = true) (hm : (q.crs c).hmask = 0)
    (hl : g.lanes ≠ 0) (hnow : s.refusedNow k c = 0) (htraph : q.hdr.traph ≠ 0xFFFFFFFF#32)
    (hx : s.instFor q (refOv q.hdr.traph) = none) :
    let y := (s.deliver k c ref ret [g]).crs k c
    let ends (e : Cause) : Prop := (∀ l : Nat, l < 32 → y.laneAt l = .exited) ∧
      ((q.crs c).term = none → y.term = some { cls := 1, cause := e, lanes := g.lanes, ref := ref })
    (NoHandler s q → ends .badHandle) ∧ (¬ NoHandler s q → q.hdr.ovmgr = 0xFFFFFFFF#32 → ends g.cause) ∧
    (¬ NoHandler s q → q.hdr.ovmgr ≠ 0xFFFFFFFF#32 → EntersManager q.hdr g ref y) := by
  intro y ends
  have hcons : s.cons k = q := cons_of_find? hq
  have hst : Stands s k c := ⟨by rw [hq]; rfl, by rwa [hcons]⟩
  have hcrs : s.crs k c = q.crs c := by rw [State.crs, hcons]
  have hy : y = ((s.modCrs k c (·.unrefuse g)).enterHandler k c ref ret g).crs k c := by
    rw [← deliver_one hnow (by rwa [hcrs]) hl]
  generalize ht : s.modCrs k c (·.unrefuse g) = t at hy
  have honly : OnlyConsorts s t := ht ▸ modCrs_only s k c _
  have htst : Stands t k c := ht ▸ modCrs_stands hst
  obtain ⟨xs, hxs⟩ : ∃ xs, t.cons k = { q with courses := xs } := by
    rw [← ht, ← hcons]
    exact cons_modCrs_frame hst
  have hterm : (t.crs k c).term = (q.crs c).term := by
    rw [← ht, crs_modCrs_same hst, hcrs]
    rfl
  have hbad : t.handlerBad (t.cons k) = true ↔ NoHandler s q := by
    rw [handlerBad_of_only honly, hxs]
    exact handlerBad_iff s q
  have hends {e : Cause} (h : y = (t.terminate k c { cls := 1, cause := e, lanes := g.lanes, ref := ref }).crs k c) : ends e := by
    obtain ⟨hlanes, htm⟩ := crs_terminate htst { cls := 1, cause := e, lanes := g.lanes, ref := ref }
    change (∀ l : Nat, l < 32 → y.laneAt l = .exited) ∧ _
    rw [h]
    exact ⟨hlanes, fun hnone => by rw [htm, hterm, hnone]; rfl⟩
  have hfind : t.instFor (t.cons k) (refOv (t.cons k).hdr.traph) = none := by
    rw [instFor_of_only honly, hxs]
    exact hx
  obtain ⟨hno, hdead, hmgr⟩ := enterHandler_absent (ref := ref) (ret := ret) (g := g) htst (by rwa [hxs]) hfind
  rw [← hy] at hno hdead hmgr
  have hgood (h : ¬ NoHandler s q) : t.handlerBad (t.cons k) = false := Bool.eq_false_iff.2 (fun e => h (hbad.1 e))
  rw [hxs] at hdead hmgr hgood
  exact ⟨fun h => hends (hno (hbad.2 h)), fun h he => hends (hdead (hgood h) he), fun h he => hmgr (hgood h) he⟩

/-- Settles O32: a CALLX by what the entry reads, a CALLXR or RETX by how its lanes part, a trap by `absentHandler_results`. -/
theorem overlayMissGoesToManager : Obligations.OverlayMissGoesToManager := by
  refine ⟨?callx, ?registers, ?handler⟩
  case callx =>
    intro s o e cnt ent pa p2 hfits hcnt hlt hne hx hent
    obtain ⟨hi, hover⟩ := hfits
    have hex := callx_of_absent hover hcnt hlt hne hx hent
    refine ⟨fun hok => ?_, fun hok => ?_⟩
    · rw [hex, hok, if_neg Bool.false_ne_true]
    intro mr
    rw [hex, hok, if_pos rfl]
    refine ⟨fun hm => ?_, fun hm => ?_⟩
    · rw [miss_of_manager hm]
      obtain ⟨hw, hmr⟩ := went_toManager (stands_of_issuing hi) s.iss.set mr s.mine.hdr.ovmgr
      exact ⟨_, rfl, hmr, hw.vectors rfl, hw.only.ms, fun l hl => ⟨hw.lpc l hl, hw.lapped l hl⟩⟩
    · rw [State.miss, if_pos hm]
      rfl
  case registers =>
    intro s r linked cnt pa j hfits hr htag hcnt set x own ov named here read gone hread bad away hbad haway mr bads mgr
    obtain ⟨hi, hover⟩ := hfits
    have hst := stands_of_issuing hi
    have hfbad (l : Nat) (hl : l < 32) : bit bad l = true ↔ bit set l = true ∧ targetFate s (leNat cnt) (ov l) = some .bad := by
      rw [hbad l hl, targetFate_eq_bad_iff]
      refine and_congr_right (fun hset => or_congr_right' (fun hn => ?_))
      exact ⟨fun ⟨⟨_, _, hx⟩, h⟩ => ⟨hx, h⟩, fun ⟨hx, h⟩ => ⟨⟨hset, not_not.1 hn, hx⟩, h⟩⟩
    have hfaway (l : Nat) (hl : l < 32) : bit away l = true ↔ bit set l = true ∧ targetFate s (leNat cnt) (ov l) = some .away := by
      rw [haway l hl, targetFate_eq_away_iff]
      exact ⟨fun ⟨⟨hset, hn, hx⟩, h⟩ => ⟨hset, hn, hx, h⟩, fun ⟨hset, hn, hx, h⟩ => ⟨⟨hset, hn, hx⟩, h⟩⟩
    have hparted := parted_of_reads (fun l hl hset hn hx => hread l hl ⟨hset, hn, hx⟩) hfbad hfaway
    obtain ⟨go, hgo⟩ : ∃ go, go = maskOf (fun l => bit set l && (targetFate s (leNat cnt) (ov l)).isNone) := ⟨_, rfl⟩
    rw [← hgo] at hparted
    have hhere (l : Nat) (hl : l < 32) : bit go l = true ↔ here l := by
      rw [hparted.go l hl, targetFate_eq_none_iff]
    have hapart (l : Nat) (hl : l < 32) (ha : bit away l = true) : bit go l = false := by
      refine Bool.eq_false_iff.2 (fun hg => ?_)
      obtain ⟨-, hfate⟩ := (hparted.away l hl).1 ha
      rw [((hparted.go l hl).1 hg).2] at hfate
      cases hfate
    obtain ⟨hlanes, hregs, hs, hms, hmr⟩ := sentTo_afterMiss (linked := linked) (f := x.at) (mr := mr) (mgr := mgr) hst hapart
    refine ⟨afterMiss (sentTo s linked go x.at) away mr mgr, ?_, fun l hl => ?_, hregs, hs, hms, hmr⟩
    · exact (exec_transferBy hover).trans (congrArg Host.Outcome.next (transferReg_eq hr htag hcnt hparted))
    · rw [← hhere l hl]
      exact hlanes l hl
  case handler =>
    intro s k c ref ret g q hq hc hm hl hnow htraph hx y ov none_ ends
    obtain ⟨hno, hdead, hmgr⟩ := absentHandler_results (ref := ref) (ret := ret) hq hc hm hl hnow htraph hx
    refine ⟨hno, fun h he => ?_, hdead⟩
    obtain ⟨hcause, hinfo, hmissref, hlpc, hlapped⟩ := hmgr h he
    exact ⟨hcause, hinfo, hmissref, fun l hl hd => ⟨hlpc l hl hd, hlapped l hl hd⟩⟩

end Sys2Proof.Proofs
end

section
/-!
PROOFS. OVLD, OVPIN, OVUNPIN, OVEVICT and OVQRY (R162, R168 to R174, R183).
-/

namespace Sys2Proof.Proofs

open Sys2Proof Sys2Proof.Machine Sys2Proof.Statements

/-! ### A handle (R169) -/

section
variable {s : State} {i : BitVec 6} {cnt : List Byte} {pa : Nat} (hcnt : s.fetchCount s.mine = .bytes cnt pa)
include hcnt

/-- R169. The register holds an overlay id of the table, or the whole issue set takes BAD_HANDLE. -/
theorem withOverlay_of_count (f : BitVec 16 → State) : s.withOverlay i f =
    if (s.getS i.toNat).toNat < leNat cnt ∧ (s.getS i.toNat).toNat < 0xFFFF then f ((s.getS i.toNat).setWidth 16)
    else s.fail .badHandle i.toNat := by
  rw [State.withOverlay, hcnt]
  by_cases hbig : 2 ^ 16 ≤ (s.getS i.toNat).toNat
  · have hno : ¬ ((s.getS i.toNat).toNat < leNat cnt ∧ (s.getS i.toNat).toNat < 0xFFFF) := fun h => absurd h.2 (by omega)
    rw [if_pos hbig, if_neg hno]
  · rw [if_neg hbig]
    change (if validId (leNat cnt) (s.getS i.toNat).toNat = true then _ else _) = _
    simp only [validId, Bool.and_eq_true, decide_eq_true_eq]

end

/-! ### Answers (R171, R173, R174) -/

/-- R247. Where the destination passes its check, the answer goes to it. -/
theorem answer_of_read {s s1 : State} {v : BitVec 7} {t : BitVec 4} (f : State → State × Word)
    (hread : s.vecRead [] (some v) false [] true noCheck = .ok (s1, t, [])) :
    s.answer v f = ((f s1).1.writeDst v 5 (fun _ => (f s1).2)).done := by
  have hread' : s.vecRead [] (some v) false [] true (fun _ => none) = _ := hread
  rw [State.answer, hread']

section
variable {s : State} {q : Consort} {ov : BitVec 16}

theorem takeToken_of_max {t : RToken} (h : q.rtokens.find? (fun y => y.ov == ov) = some t) (hc : t.count = 255) :
    q.takeToken ov = none := by
  rw [Consort.takeToken, h]
  exact if_pos hc

theorem takeToken_of_held {t : RToken} (h : q.rtokens.find? (fun y => y.ov == ov) = some t) (hc : t.count ≠ 255) :
    q.takeToken ov = some { q with
      rtokens := modFirst (fun y => y.ov == ov) (fun y => { y with count := y.count + 1 }) q.rtokens } := by
  rw [Consort.takeToken, h]
  exact if_neg hc

theorem takeToken_of_none (h : q.rtokens.find? (fun y => y.ov == ov) = none) : q.takeToken ov =
    if q.rtokens.length < 8 then some { q with rtokens := q.rtokens ++ [{ ov := ov, count := 1 }] } else none := by
  rw [Consort.takeToken, h]

theorem ovpin_of_absent (h : s.instFor s.mine ov = none) : s.ovpin ov = (s, 0) := by
  rw [State.ovpin, h]

section
variable {x : Inst} (hx : s.instFor s.mine ov = some x)
include hx

theorem ovpin_of_refused (h : s.mine.takeToken ov = none) : s.ovpin ov = (s, 3) := by
  simp only [State.ovpin, hx, h]

theorem ovpin_of_taken (h : s.mine.takeToken ov = some q) :
    s.ovpin ov = (s.modMine (fun _ => q), if x.st = .resident then 1 else 2) := by
  simp only [State.ovpin, hx, h]

/-- R173. What OVEVICT does with an overlay that is on the core. -/
theorem ovevict_of_present : s.ovevict ov =
    if x.st = .loading then (s, 3)
    else if s.pins x (some s.mine.aspace) ≠ 0 then (s, 1)
    else if s.lanesInside x (some s.mine.aspace) then (s, 2)
    else
      let rest := x.sharers.filter (fun h => h.aspace != s.mine.aspace)
      (if rest.isEmpty then s.freeInst x.uid else s.modInst x.uid (fun x => { x with sharers := rest }), 0) := by
  rw [State.ovevict, hx]

end

theorem ovevict_of_absent (h : s.instFor s.mine ov = none) : s.ovevict ov = (s, 0) := by
  rw [State.ovevict, h]

end

/-! ### A request for an absent overlay (R162, R170, R183) -/

theorem exists_mem_modFirst {α : Type} {p : α → Bool} {f : α → α} {xs : List α} {y : α} (h : y ∈ xs) (hp : p y = true) :
    ∃ x ∈ xs, p x = true ∧ f x ∈ modFirst p f xs := by
  induction xs with
  | nil => cases h
  | cons x xs ih =>
    rw [modFirst]
    by_cases hx : p x = true
    · rw [if_pos hx]
      exact ⟨x, List.mem_cons_self, hx, List.mem_cons_self⟩
    · have hy : y ∈ xs := (List.mem_cons.1 h).resolve_left (fun e => hx (by rw [← e, hp]))
      obtain ⟨z, hz, hpz, hm⟩ := ih hy
      rw [if_neg hx]
      exact ⟨z, List.mem_cons_of_mem _ hz, hpz, List.mem_cons_of_mem _ hm⟩

/-- Of the table's entries, the first with the number of a given one is changed. -/
theorem exists_mem_modInst {s : State} {y : Inst} (h : y ∈ s.core.insts) (f : Inst → Inst) :
    ∃ x : Inst, x.uid = y.uid ∧ f x ∈ (s.modInst y.uid f).core.insts := by
  obtain ⟨x, -, hx, hm⟩ := exists_mem_modFirst (f := f) h (p := (·.uid == y.uid)) (beq_self_eq_true _)
  exact ⟨x, beq_iff_eq.1 hx, hm⟩

theorem guarded_find?_eq_none {α : Type} {b : Bool} {p : α → Bool} {xs : List α} :
    (if b then xs.find? p else none) = none ↔ ∀ y ∈ xs, ¬ (b = true ∧ p y = true) := by
  cases b <;> simp

theorem mem_of_guarded_find? {α : Type} {b : Bool} {p : α → Bool} {xs : List α} {y : α}
    (h : (if b then xs.find? p else none) = some y) : y ∈ xs := by
  cases b with
  | false => cases h
  | true => exact List.mem_of_find?_eq_some h

/-- R183. What another tenant has verified and a request fits. -/
def Offers (h : Sharer) (e : OvEntry) (y : Inst) : Prop :=
  e.shareable = true ∧ y.st = .resident ∧ y.verified = true ∧ y.entry.same e = true ∧ ∀ z ∈ y.sharers, z.aspace ≠ h.aspace

/-- R170, R183. Another tenant's first load that a request waits for. -/
def Awaits (h : Sharer) (e : OvEntry) (y : Inst) : Prop :=
  e.shareable = true ∧ y.st = .loading ∧ y.entry.shareable = true ∧ y.entry.same e = true ∧ y.owner ≠ h.aspace ∧
    ∀ z ∈ y.joiners, (z.aspace = h.aspace ∧ z.ot = h.ot ∧ z.ov = h.ov) ∨ z.aspace ≠ h.aspace

/-- R170, R183. The load with a request that waits for it. -/
def waitedBy (h : Sharer) (e : OvEntry) (toks : List (Nat × Nat × Nat)) (i : Inst) : Inst :=
  if i.joiners.any (·.is h) then i.addWaiters h toks
  else { i with joiners := i.joiners ++ [{ aspace := h.aspace, ot := h.ot, ov := h.ov, entry := e, tokens := toks }] }

theorem joiner_is_iff (j : Joiner) (h : Sharer) : j.is h = true ↔ j.aspace = h.aspace ∧ j.ot = h.ot ∧ j.ov = h.ov := by
  simp only [Joiner.is, Bool.and_eq_true, beq_iff_eq, and_assoc]

/-- A load that a request waits for has its token with a joiner of that request. -/
theorem exists_joiner_waitedBy (h : Sharer) (e : OvEntry) (tok : Nat × Nat × Nat) (i : Inst) :
    ∃ j ∈ (waitedBy h e [tok] i).joiners, (j.aspace = h.aspace ∧ j.ot = h.ot ∧ j.ov = h.ov) ∧ tok ∈ j.tokens := by
  rw [waitedBy]
  by_cases hany : i.joiners.any (·.is h) = true
  · obtain ⟨j, hj, his⟩ := List.any_eq_true.1 hany
    rw [if_pos hany]
    exact ⟨{ j with tokens := j.tokens ++ [tok] }, List.mem_map.2 ⟨j, hj, if_pos his⟩, (joiner_is_iff j h).1 his,
      List.mem_append_right _ List.mem_cons_self⟩
  · rw [if_neg hany]
    exact ⟨_, List.mem_append_right _ List.mem_cons_self, ⟨rfl, rfl, rfl⟩, List.mem_cons_self⟩

section
variable {s : State} {h : Sharer} {e : OvEntry} {toks : List (Nat × Nat × Nat)}

theorem offers_iff (y : Inst) : (e.shareable = true ∧
    (y.st == .resident && y.verified && y.entry.same e && !y.sharers.any (·.aspace == h.aspace)) = true) ↔ Offers h e y := by
  simp [Offers, and_assoc]

theorem awaits_iff (y : Inst) : (e.shareable = true ∧ y.joinable h e = true) ↔ Awaits h e y := by
  simp [Awaits, Inst.joinable, joiner_is_iff, and_assoc]

theorem request_of_offer {y : Inst} (hy : y ∈ s.core.insts) (hoff : Offers h e y) :
    ∃ z ∈ s.core.insts, s.request h e toks = (s.modInst z.uid (fun i => { i with sharers := i.sharers ++ [h] }), true) := by
  rw [State.request]
  split
  next z hz => exact ⟨z, mem_of_guarded_find? hz, rfl⟩
  next hnone => exact absurd ((offers_iff y).2 hoff) (guarded_find?_eq_none.1 hnone y hy)

section
variable (hno : ∀ y ∈ s.core.insts, ¬ Offers h e y)
include hno

theorem request_of_no_offer : s.request h e toks = match (if e.shareable then s.core.insts.find? (·.joinable h e) else none) with
    | some i => (s.modInst i.uid (waitedBy h e toks), false)
    | none => (s.createLoad h e toks, false) := by
  have hnone : (if e.shareable then s.core.insts.find? (fun i =>
      i.st == .resident && i.verified && i.entry.same e && !i.sharers.any (·.aspace == h.aspace)) else none) = none :=
    guarded_find?_eq_none.2 (fun y hy hp => hno y hy ((offers_iff y).1 hp))
  rw [State.request, hnone]
  rfl

theorem request_of_load {y : Inst} (hy : y ∈ s.core.insts) (hload : Awaits h e y) :
    ∃ z ∈ s.core.insts, s.request h e toks = (s.modInst z.uid (waitedBy h e toks), false) := by
  rw [request_of_no_offer hno]
  cases hf : (if e.shareable then s.core.insts.find? (·.joinable h e) else none) with
  | some z => exact ⟨z, mem_of_guarded_find? hf, rfl⟩
  | none => exact absurd ((awaits_iff y).2 hload) (guarded_find?_eq_none.1 hf y hy)

theorem request_of_new (hnl : ∀ y ∈ s.core.insts, ¬ Awaits h e y) : s.request h e toks = (s.createLoad h e toks, false) := by
  have hnone : (if e.shareable then s.core.insts.find? (·.joinable h e) else none) = none :=
    guarded_find?_eq_none.2 (fun y hy hp => hnl y hy ((awaits_iff y).1 hp))
  rw [request_of_no_offer hno, hnone]

theorem request_pending : (s.request h e toks).2 = false := by
  rw [request_of_no_offer hno]
  split <;> rfl

end

/-- A request touches the table of instances and their next number alone. -/
theorem request_frame (s : State) (h : Sharer) (e : OvEntry) (toks : List (Nat × Nat × Nat)) :
    ∃ n is, (s.request h e toks).1 = { s with nextId := n, core := { s.core with insts := is } } := by
  rw [State.request]
  split
  · exact ⟨s.nextId, _, rfl⟩
  · split
    · exact ⟨s.nextId, _, rfl⟩
    · obtain ⟨is, hi⟩ := createLoad_frame s h e toks
      exact ⟨_, is, hi⟩

end

/-! ### OVLD (R170) -/

section
variable {s : State} {i : BitVec 6} {k : BitVec 3} {ov : BitVec 16}

theorem exec_ovld_of_free (hover : s.overCount (.ovld i k) = none) (hfree : (s.me.token k.toNat).st = .free) :
    exec (.ovld i k) s = .next (s.ovld i k.toNat) := by
  rw [exec_ovld, execOvld, gate_none _ hover, State.withToken, hfree]

/-- R170. The course after its OVLD has taken a token. -/
theorem me_startToken_done {t : State} (hst : Stands t t.iss.k t.iss.c) (n : Nat) :
    (t.startToken n).done.me = pastIssue t (t.me.setToken n { Token.fresh with st := .pending }) := by
  have hst1 : Stands (t.startToken n) t.iss.k t.iss.c := modCrs_stands hst
  have hme : (t.startToken n).me = t.me.setToken n { Token.fresh with st := .pending } := me_modMe hst
  rw [me_done (by exact hst1), hme]
  rfl

/-- R170. The state after the token has been taken or, where the overlay is there already, not. -/
def tokenTaken (now : Bool) (n : Nat) (t : State) : State := (if now then t else t.startToken n).done

theorem tokenTaken_results {t : State} (hst : Stands t t.iss.k t.iss.c) (now : Bool) (n : Nat) :
    let u := tokenTaken now n t
    u.me.v = t.me.v ∧ u.me.s = t.me.s ∧ u.ms = t.ms ∧ u.core = t.core ∧
      (∀ l : Nat, l < 32 → u.me.lpcAt l = if bit t.iss.set l then refAdd t.iss.at_ t.iss.len else t.me.lpcAt l) ∧
      (now = true → u.me.token n = t.me.token n) ∧ (now = false → n < 8 → (u.me.token n).st = .pending) := by
  intro u
  cases now with
  | true =>
    have hme : u.me = pastIssue t t.me := me_done hst
    rw [hme]
    exact ⟨rfl, rfl, rfl, rfl, fun l hl => lpcAt_setLpc t.me _ _ hl, fun _ => rfl, fun h => (nomatch h)⟩
  | false =>
    have hme : u.me = pastIssue t (t.me.setToken n { Token.fresh with st := .pending }) := me_startToken_done hst n
    rw [hme]
    refine ⟨rfl, rfl, rfl, rfl, fun l hl => lpcAt_setLpc t.me _ _ hl, fun h => (nomatch h), fun _ hn => ?_⟩
    exact congrArg Token.st (token_setToken (c := t.me) hn)

end

/-- R162, R170, R183. OVLD of an absent overlay: it is there at once, its token waits with another tenant's load, or it waits for
a load of its own. -/
theorem tokenTaken_request {s : State} (hst : Stands s s.iss.k s.iss.c) (h : Sharer) (e : OvEntry) (tok : Nat × Nat × Nat) {n : Nat}
    (hn : n < 8) (hfree : (s.me.token n).st = .free) (hlt : ∀ y ∈ s.core.insts, y.uid < s.nextId) :
    let u := tokenTaken (s.request h e [tok]).2 n (s.request h e [tok]).1
    u.me.v = s.me.v ∧ u.me.s = s.me.s ∧ u.ms = s.ms ∧
    (∀ l : Nat, l < 32 → u.me.lpcAt l = if bit s.iss.set l then refAdd s.iss.at_ s.iss.len else s.me.lpcAt l) ∧
    ((∃ y ∈ s.core.insts, Offers h e y) → (u.me.token n).st = .free ∧ ∃ y ∈ u.core.insts, h ∈ y.sharers) ∧
    ((∀ y ∈ s.core.insts, ¬ Offers h e y) → (u.me.token n).st = .pending) ∧
    ((∀ y ∈ s.core.insts, ¬ Offers h e y) → (∃ y ∈ s.core.insts, Awaits h e y) →
      ∃ y ∈ u.core.insts, ∃ j ∈ y.joiners, (j.aspace = h.aspace ∧ j.ot = h.ot ∧ j.ov = h.ov) ∧ tok ∈ j.tokens) ∧
    ((∀ y ∈ s.core.insts, ¬ Offers h e y ∧ ¬ Awaits h e y) → ∃ y ∈ u.core.insts, y.uid = s.nextId ∧ y.owner = h.aspace ∧
      y.sharers = [h] ∧ y.entry = e ∧ y.st = .loading ∧ y.waiters = [tok]) := by
  intro u
  obtain ⟨id, is, hr⟩ := request_frame s h e [tok]
  obtain ⟨t, ht⟩ : ∃ t, (s.request h e [tok]).1 = t := ⟨_, rfl⟩
  have hu : u = tokenTaken (s.request h e [tok]).2 n t := by rw [← ht]
  rw [ht] at hr
  have hme : t.me = s.me := by
    rw [hr]
    rfl
  have htst : Stands t t.iss.k t.iss.c := by
    rw [hr]
    exact hst
  obtain ⟨hv, hs, hms, hcore, hlpc, hkept, hpending⟩ := tokenTaken_results htst (s.request h e [tok]).2 n
  rw [← hu] at hv hs hms hcore hlpc hkept hpending
  refine ⟨by rw [hv, hme], by rw [hs, hme], by rw [hms, hr], fun l hl => ?_, fun ⟨y, hy, hoff⟩ => ?_, fun hno => ?_,
    fun hno ⟨y, hy, hload⟩ => ?_, fun hno => ?_⟩
  · rw [hlpc l hl, hme, hr]
  · obtain ⟨z, hz, hreq⟩ := request_of_offer (toks := [tok]) hy hoff
    obtain ⟨x, -, hx⟩ := exists_mem_modInst hz (fun i => { i with sharers := i.sharers ++ [h] })
    rw [hreq] at hkept ht
    rw [hkept rfl, hme, hcore, ← ht]
    exact ⟨hfree, _, hx, List.mem_append_right _ List.mem_cons_self⟩
  · exact hpending (request_pending hno) hn
  · obtain ⟨z, hz, hreq⟩ := request_of_load (toks := [tok]) hno hy hload
    obtain ⟨x, -, hx⟩ := exists_mem_modInst hz (waitedBy h e [tok])
    rw [hreq] at ht
    rw [hcore, ← ht]
    exact ⟨_, hx, exists_joiner_waitedBy h e tok x⟩
  · obtain ⟨b, hb⟩ := exists_newInst_mem_createLoad (h := h) (e := e) (toks := [tok]) hlt
    rw [request_of_new (fun y hy => (hno y hy).1) (fun y hy => (hno y hy).2)] at ht
    rw [hcore, ← ht]
    exact ⟨_, hb, rfl, rfl, rfl, rfl, rfl, rfl⟩

/-! ### The members with an overlay of the table (R169 to R174) -/

section
variable {s : State} {i : BitVec 6} {k : BitVec 3} {v : BitVec 7} {cnt : List Byte} {pa : Nat} (hcnt : s.fetchCount s.mine = .bytes cnt pa)
include hcnt

/-- R169. Every member fails at a register that holds no overlay id of the table. -/
theorem overlay_of_unlisted (h : ¬ ((s.getS i.toNat).toNat < leNat cnt ∧ (s.getS i.toNat).toNat < 0xFFFF)) {j : Instr}
    (hj : j ∈ [Instr.ovld i k, .ovpin v i, .ovunpin i, .ovevict v i, .ovqry v i]) (hover : s.overCount j = none)
    (hfree : j = .ovld i k → (s.me.token k.toNat).st = .free) : exec j s = .next (s.fail .badHandle i.toNat) := by
  have hfail (f : BitVec 16 → State) : s.withOverlay i f = s.fail .badHandle i.toNat := by
    rw [withOverlay_of_count hcnt, if_neg h]
  simp only [List.mem_cons, List.not_mem_nil, or_false] at hj
  rcases hj with rfl | rfl | rfl | rfl | rfl
  · rw [exec_ovld_of_free hover (hfree rfl), State.ovld, hfail]
  · rw [exec_ovpin, execOvpin, gate_none _ hover, hfail]
  · rw [exec_ovunpin, execOvunpin, gate_none _ hover, hfail]
  · rw [exec_ovevict, execOvevict, gate_none _ hover, hfail]
  · rw [exec_ovqry, execOvqry, gate_none _ hover, hfail]

variable (hlisted : (s.getS i.toNat).toNat < leNat cnt ∧ (s.getS i.toNat).toNat < 0xFFFF)
include hlisted

theorem withOverlay_of_listed (f : BitVec 16 → State) : s.withOverlay i f = f ((s.getS i.toNat).setWidth 16) := by
  rw [withOverlay_of_count hcnt, if_pos hlisted]

theorem exec_ovpin_of_read {s1 : State} {t : BitVec 4} (hover : s.overCount (.ovpin v i) = none)
    (hread : s.vecRead [] (some v) false [] true noCheck = .ok (s1, t, [])) {u : State} {w : Word}
    (h : s1.ovpin ((s.getS i.toNat).setWidth 16) = (u, w)) : exec (.ovpin v i) s = .next ((u.writeDst v 5 (fun _ => w)).done) := by
  rw [exec_ovpin, execOvpin, gate_none _ hover, withOverlay_of_listed hcnt hlisted, answer_of_read _ hread, h]

theorem exec_ovevict_of_read {s1 : State} {t : BitVec 4} (hover : s.overCount (.ovevict v i) = none)
    (hread : s.vecRead [] (some v) false [] true noCheck = .ok (s1, t, [])) {u : State} {w : Word}
    (h : s1.ovevict ((s.getS i.toNat).setWidth 16) = (u, w)) : exec (.ovevict v i) s = .next ((u.writeDst v 5 (fun _ => w)).done) := by
  rw [exec_ovevict, execOvevict, gate_none _ hover, withOverlay_of_listed hcnt hlisted, answer_of_read _ hread, h]

theorem exec_ovqry_of_read {s1 : State} {t : BitVec 4} (hover : s.overCount (.ovqry v i) = none)
    (hread : s.vecRead [] (some v) false [] true noCheck = .ok (s1, t, [])) {w : Word}
    (h : s1.ovqry ((s.getS i.toNat).setWidth 16) = w) : exec (.ovqry v i) s = .next ((s1.writeDst v 5 (fun _ => w)).done) := by
  rw [exec_ovqry, execOvqry, gate_none _ hover, withOverlay_of_listed hcnt hlisted, answer_of_read _ hread, h]

/-- R172. OVUNPIN returns a token, unless the consort holds none but the manager's. -/
theorem exec_ovunpin_of_listed (hover : s.overCount (.ovunpin i) = none) : exec (.ovunpin i) s = .next (
    if s.mine.held ((s.getS i.toNat).setWidth 16) ≤ s.mine.permanent ((s.getS i.toNat).setWidth 16) then s.fail .badHandle i.toNat
    else (s.modMine (·.dropToken ((s.getS i.toNat).setWidth 16))).done) := by
  rw [exec_ovunpin, execOvunpin, gate_none _ hover, withOverlay_of_listed hcnt hlisted]

/-- R170. OVLD of an overlay that is on the core, or on its way there. -/
theorem ovld_of_present {x : Inst} (hx : s.instFor s.mine ((s.getS i.toNat).setWidth 16) = some x) (n : Nat) : s.ovld i n =
    if x.st = .resident then s.done
    else (s.startToken n).done.modInst x.uid (fun x => { x with waiters := x.waiters ++ [(s.iss.k, s.iss.c, n)] }) := by
  rw [State.ovld, withOverlay_of_listed hcnt hlisted]
  dsimp only
  rw [hx]

/-- R29, R170. OVLD of one that is absent reads its entry and asks for it. -/
theorem ovld_of_absent (hx : s.instFor s.mine ((s.getS i.toNat).setWidth 16) = none) {ent : List Byte} {p2 : Nat}
    (hent : s.fetchEntry s.mine ((s.getS i.toNat).setWidth 16 : BitVec 16).toNat = .bytes ent p2) (n : Nat) : s.ovld i n =
    if !(OvEntry.ofBytes ent).ok then s.fail .badHandle i.toNat
    else tokenTaken (s.request (s.mine.sharer ((s.getS i.toNat).setWidth 16)) (OvEntry.ofBytes ent) [(s.iss.k, s.iss.c, n)]).2 n
      (s.request (s.mine.sharer ((s.getS i.toNat).setWidth 16)) (OvEntry.ofBytes ent) [(s.iss.k, s.iss.c, n)]).1 := by
  rw [State.ovld, withOverlay_of_listed hcnt hlisted]
  dsimp only
  rw [hx, hent]
  rfl

end

/-- R174. What OVQRY reports, the residency count apart from what an overlay on the core adds. -/
theorem ovqry_eq (s : State) (ov : BitVec 16) :
    s.ovqry ov = BitVec.ofNat 32 (s.mine.held ov % 256 * 2 ^ 24 + match s.instFor s.mine ov with
    | none => 0
    | some x => x.verified.toNat * 2 ^ 23 + x.entry.frames * 2 ^ 16 + min (s.pins x none) 255 * 2 ^ 8 +
        (s.lanesInside x none).toNat * 4 + (if x.st = .resident then 2 else 1)) := by
  rw [State.ovqry]
  cases s.instFor s.mine ov with
  | none => simp only [Nat.add_zero]
  | some x => simp only [Nat.add_assoc]

/-- Settles O33, member by member; an OVLD of an absent overlay by `tokenTaken_request`. -/
theorem overlayInstructionResults : Obligations.OverlayInstructionResults := by
  intro s s1 i k v t cnt pa hi hcnt listed
  have hst := stands_of_issuing hi
  refine ⟨fun h j hj hover hfree => overlay_of_unlisted hcnt h hj hover hfree, fun hlisted => ?_⟩
  intro ov q tokens Says
  have hpin {u : State} {w : Word} (h : s.ovpin ov = (u, w)) : Says (.ovpin v i) u w := by
    intro hover hread e
    subst e
    exact exec_ovpin_of_read hcnt hlisted hover hread h
  have hevict {u : State} {w : Word} (h : s.ovevict ov = (u, w)) : Says (.ovevict v i) u w := by
    intro hover hread e
    subst e
    exact exec_ovevict_of_read hcnt hlisted hover hread h
  refine ⟨?resident, ?loading, ?absent, fun hx => ⟨hpin (ovpin_of_absent hx), hevict (ovevict_of_absent hx)⟩, ?present, ?query,
    ?unpin⟩
  case resident =>
    intro x hover hfree hx hres
    rw [exec_ovld_of_free hover hfree, ovld_of_present hcnt hlisted hx, if_pos hres, done_eq_moved]
    rfl
  case loading =>
    intro x hover hfree hx hres
    have hmem : x ∈ s.core.insts := List.mem_of_find?_eq_some hx
    obtain ⟨y, hy, hwait⟩ := exists_mem_modInst hmem (fun x => { x with waiters := x.waiters ++ [(s.iss.k, s.iss.c, k.toNat)] })
    have hex := (exec_ovld_of_free hover hfree).trans (congrArg _ ((ovld_of_present hcnt hlisted hx _).trans (if_neg hres)))
    refine ⟨_, hex, ?_, _, hwait, hy, List.mem_append_right _ List.mem_cons_self⟩
    obtain ⟨-, -, -, -, -, -, hpending⟩ := tokenTaken_results hst false k.toNat
    exact hpending rfl k.isLt
  case absent =>
    intro ent p2 hover hfree hx hent hlt e h tok mine offers loads
    have hex := (exec_ovld_of_free hover hfree).trans (congrArg _ (ovld_of_absent hcnt hlisted hx hent k.toNat))
    refine ⟨fun hok => ?_, fun hok => ⟨_, hex.trans ?_, tokenTaken_request hst h e tok k.isLt hfree hlt⟩⟩
    · have hbad : (OvEntry.ofBytes ent).ok = false := hok
      rw [hex, hbad]
      rfl
    · have hgood : (OvEntry.ofBytes ent).ok = true := hok
      rw [hgood]
      rfl
  case present =>
    intro x hx
    have hvict := ovevict_of_present hx
    refine ⟨fun h => hpin (ovpin_of_refused hx ?_), fun h hlen => hpin (ovpin_of_taken hx ?_), fun n h hn => hpin (ovpin_of_taken hx ?_),
      fun h => hevict (hvict.trans (if_pos h)), fun h hp hl => hevict ?_, fun h hp => hevict ?_, fun h hp hl => hevict ?_⟩
    · rcases h with h | ⟨h, hlen⟩
      · obtain ⟨y, hy, hc⟩ := Option.map_eq_some_iff.1 h
        exact takeToken_of_max hy hc
      · exact (takeToken_of_none (Option.map_eq_none_iff.1 h)).trans (if_neg (Nat.not_lt.2 hlen))
    · exact (takeToken_of_none (Option.map_eq_none_iff.1 h)).trans (if_pos hlen)
    · obtain ⟨y, hy, hc⟩ := Option.map_eq_some_iff.1 h
      exact takeToken_of_held hy (by rwa [hc])
    · rw [hvict, if_neg h, if_neg (not_not.2 hp), hl, if_neg Bool.false_ne_true]
    · rw [hvict, if_neg h, if_pos hp]
    · rw [hvict, if_neg h, if_neg (not_not.2 hp), if_pos hl]
  case query =>
    intro hover hread e
    subst e
    exact exec_ovqry_of_read hcnt hlisted hover hread (ovqry_eq _ _)
  case unpin =>
    intro hover
    have hex := exec_ovunpin_of_listed hcnt hlisted hover
    exact ⟨fun h => hex.trans (congrArg _ (if_pos h)), fun h => hex.trans (congrArg _ (if_neg (Nat.not_le.2 h)))⟩

end Sys2Proof.Proofs
end

section
/-!
PROOFS. The issue set of a course, and the clock and the count that a step leaves (R156, R192, R196, R201, R211, R221).
-/

namespace Sys2Proof.Proofs

open Sys2Proof Sys2Proof.Machine Sys2Proof.Statements

/-! ### The lanes at the least reference (R192) -/

/-- R192. The least reference at which a lane of a mask stands. -/
def leastRef (c : Course) (cand : BitVec 32) : Nat := (lanesOf cand).foldl (fun m l => min m (c.lpcAt l).toNat) (2 ^ 32)

/-- R192. The lanes of a mask that stand there. -/
def lowestLanes (c : Course) (cand : BitVec 32) : BitVec 32 := maskOf (fun l => bit cand l && (c.lpcAt l).toNat == leastRef c cand)

/-- A fold of minima is below its start and below every value it meets. -/
theorem foldl_min_le (g : Nat → Nat) (ls : List Nat) (m : Nat) :
    ls.foldl (fun m l => min m (g l)) m ≤ m ∧ ∀ l ∈ ls, ls.foldl (fun m l => min m (g l)) m ≤ g l := by
  induction ls generalizing m with
  | nil => exact ⟨Nat.le_refl m, fun l h => nomatch h⟩
  | cons x xs ih =>
    obtain ⟨hstart, hall⟩ := ih (min m (g x))
    rw [List.foldl_cons]
    refine ⟨by omega, fun l hl => ?_⟩
    rcases List.mem_cons.1 hl with rfl | hl
    · omega
    · exact hall l hl

/-- It is its start, or a value it meets. -/
theorem foldl_min_mem (g : Nat → Nat) (ls : List Nat) (m : Nat) :
    ls.foldl (fun m l => min m (g l)) m = m ∨ ∃ l ∈ ls, ls.foldl (fun m l => min m (g l)) m = g l := by
  induction ls generalizing m with
  | nil => exact .inl rfl
  | cons x xs ih =>
    rw [List.foldl_cons]
    rcases ih (min m (g x)) with h | ⟨l, hl, h⟩
    · rcases Nat.le_total m (g x) with hle | hle
      · exact .inl (by rw [h, Nat.min_eq_left hle])
      · exact .inr ⟨x, List.mem_cons_self, by rw [h, Nat.min_eq_right hle]⟩
    · exact .inr ⟨l, List.mem_cons_of_mem _ hl, h⟩

section
variable {c : Course} {cand : BitVec 32}

theorem leastRef_le {l : Nat} (hl : l < 32) (h : bit cand l = true) : leastRef c cand ≤ (c.lpcAt l).toNat := by
  obtain ⟨-, hall⟩ := foldl_min_le (fun l => (c.lpcAt l).toNat) (lanesOf cand) (2 ^ 32)
  exact hall l (mem_lanesOf.2 ⟨hl, h⟩)

theorem lowest_lt (m : BitVec 32) : lowest m < 32 := by
  rw [lowest]
  cases hl : lanesOf m with
  | nil => exact Nat.zero_lt_succ 31
  | cons l ls => exact (mem_lanesOf.1 (by rw [hl]; exact List.mem_cons_self)).1

theorem exists_leastRef (h : cand ≠ 0) : ∃ l : Nat, l < 32 ∧ bit cand l = true ∧ (c.lpcAt l).toNat = leastRef c cand := by
  rcases foldl_min_mem (fun l => (c.lpcAt l).toNat) (lanesOf cand) (2 ^ 32) with e | ⟨l, hl, e⟩
  · have hle : leastRef c cand ≤ (c.lpcAt (lowest cand)).toNat := leastRef_le (lowest_lt cand) (bit_lowest h)
    rw [leastRef, e] at hle
    exact absurd (c.lpcAt (lowest cand)).isLt (Nat.not_lt.2 hle)
  · obtain ⟨hlt, hbit⟩ := mem_lanesOf.1 hl
    exact ⟨l, hlt, hbit, e.symm⟩

/-- R192. A lane stands at the least reference where its own is at most every other's. -/
theorem bit_lowestLanes {l : Nat} (hl : l < 32) : bit (lowestLanes c cand) l = true ↔
    bit cand l = true ∧ ∀ l' : Nat, l' < 32 → bit cand l' = true → (c.lpcAt l).toNat ≤ (c.lpcAt l').toNat := by
  rw [lowestLanes, bit_maskOf _ hl, Bool.and_eq_true, beq_iff_eq]
  refine and_congr_right (fun hbit => ⟨fun e l' hl' hbit' => e ▸ leastRef_le hl' hbit', fun hall => ?_⟩)
  have hcand : cand ≠ 0 := by
    rintro rfl
    rw [bit_zero] at hbit
    cases hbit
  obtain ⟨l', hl', hbit', e⟩ := exists_leastRef (c := c) hcand
  exact Nat.le_antisymm (e ▸ hall l' hl' hbit') (leastRef_le hl hbit)

theorem lowestLanes_ne_zero (h : cand ≠ 0) : lowestLanes c cand ≠ 0 := by
  intro e
  obtain ⟨l, hl, hbit, href⟩ := exists_leastRef (c := c) h
  have hlane : bit (lowestLanes c cand) l = true := by
    rw [lowestLanes, bit_maskOf _ hl, hbit, beq_iff_eq.2 href]
    rfl
  rw [e, bit_zero] at hlane
  cases hlane

end

/-! ### The issue set (R192, R196, R211) -/

/-- R196, R211. The lanes of the instruction in which a course waits that still run. -/
def Staying (c : Course) : BitVec 32 := ((c.standing.map (·.set)).getD 0) &&& c.running

/-- R192. The running lanes without a lapped mark. -/
def unlapped (c : Course) : BitVec 32 := c.running &&& ~~~c.lapped

section
variable {c : Course}

theorem issueSet_of_not_running (h : c.running = 0) : c.issueSet = none := if_pos h

theorem issueSet_of_staying (h : Staying c ≠ 0) : c.issueSet = some (Staying c, c.lapped) := by
  have hrun : c.running ≠ 0 := fun e => h (by rw [Staying, e]; exact BitVec.and_zero)
  rw [Course.issueSet]
  exact (if_neg hrun).trans (if_pos h)

/-- R192. Of a course that stays at no instruction: the lowest of its lanes without a lapped mark, or of all where every lane is lapped. -/
theorem issueSet_of_running (hrun : c.running ≠ 0) (hstay : Staying c = 0) : c.issueSet =
    if unlapped c = 0 then some (lowestLanes c c.running, 0) else some (lowestLanes c (unlapped c), c.lapped) := by
  rw [Course.issueSet]
  refine (if_neg hrun).trans ((if_neg (not_not.2 hstay)).trans ?_)
  by_cases h : unlapped c = 0
  · rw [if_pos h]
    unfold unlapped at h
    simp only [h, if_true]
    rfl
  · rw [if_neg h]
    unfold unlapped at h
    simp only [h, if_false]
    rfl

theorem issueSet_eq_none_iff : c.issueSet = none ↔ c.running = 0 := by
  refine ⟨fun h => ?_, issueSet_of_not_running⟩
  by_contra hrun
  by_cases hstay : Staying c = 0
  · rw [issueSet_of_running hrun hstay] at h
    split at h <;> cases h
  · rw [issueSet_of_staying hstay] at h
    cases h

end

theorem ready_of_not_running {s : State} {k c : Nat} (h : (s.crs k c).running = 0) : s.ready k c = false := by
  simp only [State.ready, h, bne_self_eq_false, Bool.and_false, Bool.false_and]

/-- Settles O7: a course that stays, one whose running lanes are all lapped, and any other. -/
theorem issueSetIsLowestUnlapped : Obligations.IssueSetIsLowestUnlapped := by
  refine ⟨fun s k c h => ready_of_not_running (issueSet_eq_none_iff.1 h), fun c => ?_⟩
  intro stay
  refine ⟨issueSet_eq_none_iff, issueSet_of_staying, ?_⟩
  intro set laps hstay h fresh cand
  have hrun : c.running ≠ 0 := fun e => by
    rw [issueSet_of_not_running e] at h
    cases h
  rw [issueSet_of_running hrun hstay] at h
  by_cases hfresh : unlapped c = 0
  · have hcand : cand = c.running := if_pos hfresh
    rw [if_pos hfresh] at h
    cases h
    rw [hcand]
    exact ⟨(if_pos hfresh).symm, lowestLanes_ne_zero hrun, fun l => bit_lowestLanes⟩
  · have hcand : cand = unlapped c := if_neg hfresh
    rw [if_neg hfresh] at h
    cases h
    rw [hcand]
    exact ⟨(if_neg hfresh).symm, lowestLanes_ne_zero hfresh, fun l => bit_lowestLanes⟩

/-! ### The clock and the count of steps (R157, R201, R221, R406) -/

/-- The clock and the core are as they were. -/
def SameClockAndCore (s t : State) : Prop := t.clock = s.clock ∧ t.core = s.core

theorem SameClockAndCore.trans {s t u : State} (h : SameClockAndCore s t) (g : SameClockAndCore t u) : SameClockAndCore s u :=
  ⟨g.1.trans h.1, g.2.trans h.2⟩

theorem putLine_sameClockAndCore (s : State) (k c r : Nat) : SameClockAndCore s (s.putLine k c r) := by
  rw [State.putLine, State.partWrite]
  split
  · exact ⟨rfl, rfl⟩
  · exact ⟨rfl, rfl⟩

theorem dropLine_sameClockAndCore (s : State) (x : LineOf) : SameClockAndCore s (s.dropLine x) := by
  rw [State.dropLine]
  split
  · exact putLine_sameClockAndCore s x.k x.c x.line.reg
  · exact ⟨rfl, rfl⟩

/-- R157, R406. The line of the trap link register changes courses and their images alone. -/
theorem linkLine_sameClockAndCore (s : State) (k c v : Nat) (e : TrapEntry) : SameClockAndCore s (s.linkLine k c v e) := by
  unfold State.linkLine
  dsimp only
  split
  · exact ⟨rfl, rfl⟩
  · split
    · exact ⟨rfl, rfl⟩
    · split
      · split
        · exact putLine_sameClockAndCore _ k c _
        · exact dropLine_sameClockAndCore _ _
      · exact putLine_sameClockAndCore _ k c _

theorem linkLines_sameClockAndCore (before s : State) : SameClockAndCore s (before.linkLines s) := by
  refine forAll_induct (P := SameClockAndCore s) (fun t q ht => ?_) _ s ⟨rfl, rfl⟩
  refine forAll_induct (P := SameClockAndCore s) (fun u x hu => ?_) _ t ht
  cases x.entered with
  | none => exact hu
  | some e =>
    dsimp only
    split
    · exact hu
    · exact hu.trans (linkLine_sameClockAndCore _ _ _ _ _)

/-- R201, R221. A step leaves the count one higher, and a later clock but where another course may issue in this one. -/
theorem finish_clock (s u : State) : u.clock ≤ (s.finish u).clock ∧ (s.finish u).tick = u.tick + 1 ∧
    ((s.finish u).clock = u.clock → u.core.issues ≠ s.core.issues ∧ (s.linkLines u).issuable ≠ []) := by
  obtain ⟨hclock, hcore⟩ := linkLines_sameClockAndCore s u
  have hafter : (s.finish u).clock = s.clockAfter (s.linkLines u) := rfl
  rw [hafter, State.clockAfter, hclock, hcore]
  refine ⟨?_, rfl, fun h => ?_⟩
  · split <;> omega
  · split at h
    next hmore =>
      obtain ⟨hissues, hready⟩ := hmore
      refine ⟨hissues, fun e => ?_⟩
      rw [e] at hready
      cases hready
    next => omega

/-- Settles O8: whatever the act, `finish_clock` says what the step leaves. -/
theorem stepAdvancesClock : Obligations.StepAdvancesClock := by
  refine ⟨fun s t h => ?_, fun s a b h => ?_⟩
  · rw [step] at h
    cases hnext : s.next with
    | none =>
      rw [hnext] at h
      cases h
      exact ⟨s, .inl ⟨rfl, rfl⟩, finish_clock s s⟩
    | some a =>
      rw [hnext] at h
      cases hact : s.act a with
      | next u =>
        simp only [hact, State.stepEnd] at h
        cases h
        exact ⟨u, .inr ⟨a, rfl, hact⟩, finish_clock s u⟩
      | fault | refused =>
        simp only [hact, State.stepEnd] at h
        cases h
  · rw [State.issuable, State.issuedNow, h]
    simp

end Sys2Proof.Proofs
end

section
/-!
PROOFS. The system instructions, the special registers and the patterns that are not instructions (R3, R34, R48, R60, R61, R78, R79, R218
to R221).
-/

namespace Sys2Proof.Proofs

open Sys2Proof Sys2Proof.Machine Sys2Proof.Statements

section
variable {s : State}

theorem modMe_done (f : Course → Course) : s.done.modMe f = s.modMe (fun x => f (pastIssue s x)) := by
  rw [done_eq_moved]
  exact modCrs_modCrs (fun _ => rfl)

/-- R47. A change of the course that does not depend on where its lanes stand may come before the move past the instruction. -/
theorem modMe_done_eq_moved {f : Course → Course} (h : ∀ x, f (pastIssue s x) = pastIssue s (f x)) : s.done.modMe f = moved s f :=
  (modMe_done f).trans (congrArg s.modMe (funext h))

/-- R225. A scalar result. -/
theorem putScalar_eq_moved (d : BitVec 6) (v : DWord) : s.putScalar d v = moved s (·.setS d.toNat v) := done_modMe (fun _ => rfl)

/-- R220. What RDSR reads. -/
theorem exec_rdsr_of_fits {d n : BitVec 6} (h : Fits s (.rdsr d n)) :
    exec (.rdsr d n) s = .next (moved s (·.setS d.toNat (s.special n.toNat))) := by
  rw [exec_rdsr, execRdsr, gate_none _ h.2, putScalar_eq_moved]

/-- R34, R78. A pattern that is no instruction. -/
theorem illegal_eq (enc : BitVec 32) (sub : Nat) : s.illegal enc sub =
    if s.mine.hdr.probe then moved s (fun x => { x with probef := true }) else s.trapWhole .illegal (info79 enc sub 0) := by
  rw [State.illegal]
  split
  · exact modMe_done_eq_moved (fun _ => rfl)
  · rfl

end

/-- Settles O27, member by member. -/
theorem systemInstructionResults : Obligations.SystemInstructionResults := by
  intro s d n c p fw enc soft illegal rd
  have hrd {v : DWord} (h : s.special n.toNat = v) : rd v := fun hfits => h ▸ exec_rdsr_of_fits hfits
  refine ⟨?nop, ?yield, ?clock, ?prbclr, ?wrsr, fun h => hrd (h ▸ rfl), fun h => hrd (h ▸ rfl), fun h => hrd (h ▸ rfl),
    fun h => hrd (h ▸ rfl), fun h => hrd (h ▸ rfl), fun h => hrd (h ▸ rfl), fun h => hrd (h ▸ rfl), fun h => hrd (h ▸ rfl),
    fun h => hrd (h ▸ rfl), rfl, rfl, ?limm, ?undefined, rfl⟩
  case nop => rw [exec_nop, execNop, done_eq_moved]; rfl
  case yield => exact congrArg Host.Outcome.next (modMe_done_eq_moved (fun _ => rfl))
  case clock =>
    intro h
    rw [exec_clock, execClock, gate_none _ h.2, putScalar_eq_moved]
  case prbclr => exact congrArg Host.Outcome.next (modMe_done_eq_moved (fun _ => rfl))
  case wrsr =>
    intro h
    rw [exec_wrsr, execWrsr, gate_none _ h.2]
    exact congrArg Host.Outcome.next (done_modMe (fun _ => rfl))
  case limm => rw [exec_limm, execLimm, illegal_eq]
  case undefined => rw [exec_undefinedEncoding, execUndefinedEncoding, illegal_eq]

end Sys2Proof.Proofs
end

section
/-!
PROOFS. Transfers within an overlay and NAP: displacements, laps and where each lane goes (R63, R64, R75, R193, R213 to R215, R217).
-/

namespace Sys2Proof.Proofs

open Sys2Proof Sys2Proof.Machine Sys2Proof.Statements

/-! ### Displacements (R63, R75) -/

theorem sextInt_toNat {n : Nat} (x : BitVec n) : sextInt n x.toNat = x.toInt := by
  rw [sextInt, BitVec.toInt, Nat.mod_eq_of_lt x.isLt]
  split <;> split <;> omega

/-- R75. The value of an immediate, alone or behind a LIMM, is that of its 64-bit form. -/
theorem immInt_eq_wide {n : Nat} (hn : n + 25 ≤ 64) (i : BitVec n) (px : Option (BitVec 25)) :
    immInt n i.toNat px = (wide n i px).toInt := by
  cases px with
  | none => exact (sextInt_toNat i).trans (BitVec.toInt_signExtend_of_le (by omega)).symm
  | some p =>
    have hcat : (p ++ i).toNat = p.toNat * 2 ^ n + i.toNat % 2 ^ n := by
      rw [BitVec.toNat_append, ← Nat.shiftLeft_add_eq_or_of_lt i.isLt, Nat.shiftLeft_eq, Nat.mod_eq_of_lt i.isLt]
    change sextInt (n + 25) (p.toNat * 2 ^ n + i.toNat % 2 ^ n) = ((p ++ i).signExtend 64).toInt
    rw [BitVec.toInt_signExtend_of_le (by omega), ← hcat, ← sextInt_toNat, Nat.add_comm]

/-! ### Lanes of two masks -/

theorem bit_and (a b : BitVec 32) (l : Nat) : bit (a &&& b) l = (bit a l && bit b l) := BitVec.getLsbD_and

theorem bit_and_not (a b : BitVec 32) {l : Nat} (hl : l < 32) : bit (a &&& ~~~b) l = true ↔ bit a l = true ∧ bit b l = false := by
  have h : bit (~~~b) l = !bit b l := by
    rw [bit, BitVec.getLsbD_not, decide_eq_true hl, Bool.true_and]
    rfl
  rw [bit_and, h, Bool.and_eq_true, Bool.not_eq_true']

/-! ### Where the lanes of a transfer stand (R193, R213 to R215) -/

/-- R193. The lanes that go to the instruction or below it are lapped. -/
theorem bit_lapTo_inclusive (c : Course) (set own : BitVec 32) {l : Nat} (h : l < 32) :
    bit (c.lapTo set own true).lapped l = true ↔ bit c.lapped l = true ∨ bit set l = true ∧ (c.lpcAt l).toNat ≤ own.toNat := by
  have hbit : bit (c.lapTo set own true).lapped l =
      (bit c.lapped l || bit (maskOf (fun l => bit set l && decide ((c.lpcAt l).toNat ≤ own.toNat))) l) := BitVec.getLsbD_or
  rw [hbit, bit_maskOf _ h, Bool.or_eq_true, Bool.and_eq_true, decide_eq_true_eq]

/-- R193, R213. From s to t the lanes of the issue set that are taken stand where f says, lapped where that is not above the
instruction; the others of it stand past the instruction; the rest of the course is as it was, but for v0, and so is all that is no
consort. -/
structure Steered (s t : State) (taken : Nat → Prop) (f : Nat → BitVec 32) : Prop where
  gone : ∀ l : Nat, l < 32 → bit s.iss.set l = true → taken l →
    t.me.lpcAt l = f l ∧ (bit t.me.lapped l = true ↔ bit s.me.lapped l = true ∨ (f l).toNat ≤ s.iss.own.toNat)
  past : ∀ l : Nat, l < 32 → bit s.iss.set l = true → ¬ taken l →
    t.me.lpcAt l = refAdd s.iss.at_ s.iss.len ∧ bit t.me.lapped l = bit s.me.lapped l
  outside : ∀ l : Nat, l < 32 → bit s.iss.set l = false → t.me.lpcAt l = s.me.lpcAt l ∧ bit t.me.lapped l = bit s.me.lapped l
  regs : ∀ n : Nat, n ≠ 0 → t.me.getV n = s.me.getV n
  scalars : t.me.s = s.me.s
  masks : t.me.m = s.me.m
  lanes : t.me.lane = s.me.lane
  only : OnlyConsorts s t

/-- R193. The course with the lanes of go gone where f says. -/
def steeredTo (own go : BitVec 32) (f : Nat → BitVec 32) (x : Course) : Course := (x.setLpc go f).lapTo go own true

section
variable {s t : State} {go : BitVec 32} {taken : Nat → Prop} {f : Nat → BitVec 32} {z : Course}

/-- What the issuing course has become tells where its lanes went: it is a course z with the lanes of go gone, and z stands as the
issuing course did, but that lanes of the issue set that are not taken have moved past the instruction. -/
theorem steered_of_me (honly : OnlyConsorts s t) (hgo : ∀ l : Nat, l < 32 → (bit go l = true ↔ bit s.iss.set l = true ∧ taken l))
    (hme : AgreeOnLanes (steeredTo s.iss.own go f z) t.me)
    (hpast : ∀ l : Nat, l < 32 → bit s.iss.set l = true → ¬ taken l → z.lpcAt l = refAdd s.iss.at_ s.iss.len)
    (houtside : ∀ l : Nat, l < 32 → bit s.iss.set l = false → z.lpcAt l = s.me.lpcAt l)
    (hlapped : z.lapped = s.me.lapped) (hregs : ∀ n : Nat, n ≠ 0 → z.getV n = s.me.getV n) (hs : z.s = s.me.s) (hm : z.m = s.me.m)
    (hlane : z.lane = s.me.lane) : Steered s t taken f := by
  obtain ⟨hpc, hlap, hv, hs', hm', hlane'⟩ := hme
  have hlpc (l : Nat) (hl : l < 32) : t.me.lpcAt l = if bit go l then f l else z.lpcAt l := by
    rw [Course.lpcAt, hpc]
    exact lpcAt_setLpc z go f hl
  have hlaps (l : Nat) (hl : l < 32) :
      bit t.me.lapped l = true ↔ bit s.me.lapped l = true ∨ bit go l = true ∧ (f l).toNat ≤ s.iss.own.toNat := by
    rw [hlap, ← hlapped]
    refine (bit_lapTo_inclusive _ go s.iss.own hl).trans (or_congr_right (and_congr_right (fun h => ?_)))
    rw [lpcAt_setLpc _ _ _ hl, if_pos h]
  have hstay (l : Nat) (hl : l < 32) (h : ¬ bit go l = true) :
      t.me.lpcAt l = z.lpcAt l ∧ bit t.me.lapped l = bit s.me.lapped l := by
    refine ⟨(hlpc l hl).trans (if_neg h), Bool.eq_iff_iff.2 ((hlaps l hl).trans (or_iff_left (fun e => h e.1)))⟩
  refine ⟨fun l hl hset htaken => ?_, fun l hl hset hno => ?_, fun l hl hset => ?_, fun n hn => ?_, hs'.trans hs, hm'.trans hm,
    hlane'.trans hlane, honly⟩
  · have h := (hgo l hl).2 ⟨hset, htaken⟩
    exact ⟨(hlpc l hl).trans (if_pos h), (hlaps l hl).trans (or_congr_right (and_iff_right h))⟩
  · obtain ⟨hat, hsame⟩ := hstay l hl (fun e => hno ((hgo l hl).1 e).2)
    exact ⟨hat.trans (hpast l hl hset hno), hsame⟩
  · obtain ⟨hat, hsame⟩ := hstay l hl (fun e => Bool.eq_false_iff.1 hset ((hgo l hl).1 e).1)
    exact ⟨hat.trans (houtside l hl hset), hsame⟩
  · rw [Course.getV, hv]
    exact hregs n hn

end

section
variable {s : State} (hst : Stands s s.iss.k s.iss.c)
include hst

theorem me_transfer (taken : BitVec 32) (f : Nat → BitVec 32) :
    (s.transfer taken f).me = steeredTo s.iss.own (taken &&& s.iss.set) f (pastIssue s s.me) := by
  rw [State.transfer, modMe_done]
  exact me_modMe hst

/-- R213, R214. Where a transfer sends its lanes, with the link of a call if it has one. -/
theorem steered_transfer (linked : Bool) {mask : BitVec 32} {taken : Nat → Prop} (f : Nat → BitVec 32)
    (h : ∀ l : Nat, l < 32 → bit s.iss.set l = true → (bit mask l = true ↔ taken l)) :
    Steered s ((linkIf s linked s.iss.set).transfer mask f) taken f := by
  have hiss : (linkIf s linked s.iss.set).iss = s.iss := by cases linked <;> rfl
  have honly : OnlyConsorts s (linkIf s linked s.iss.set) := by
    cases linked
    · exact .refl s
    · exact modMe_only s _
  obtain ⟨hlst, hlink⟩ := me_linkIf hst linked s.iss.set
  have hme := me_transfer (s := linkIf s linked s.iss.set) (by rwa [hiss]) mask f
  rw [hlink, hiss] at hme
  obtain ⟨vs, hvs⟩ := linkedBy_frame s.iss.own linked s.iss.set s.me
  have hpast : pastIssue (linkIf s linked s.iss.set) (linkedBy s.iss.own linked s.iss.set s.me) =
      pastIssue s (linkedBy s.iss.own linked s.iss.set s.me) := by rw [pastIssue, hiss, pastIssue]
  rw [hpast] at hme
  have hlpc (l : Nat) (hl : l < 32) : (pastIssue s (linkedBy s.iss.own linked s.iss.set s.me)).lpcAt l =
      if bit s.iss.set l then refAdd s.iss.at_ s.iss.len else s.me.lpcAt l := by
    rw [hvs]
    exact lpcAt_setLpc _ _ _ hl
  refine steered_of_me (go := mask &&& s.iss.set) (z := pastIssue s (linkedBy s.iss.own linked s.iss.set s.me)) ?_ (fun l hl => ?_) ?_
    (fun l hl hset _ => ?_) (fun l hl hset => ?_) ?_ (fun n hn => ?_) ?_ ?_ ?_
  · exact honly.trans ((done_only _).trans (modMe_only _ _))
  · rw [bit_and, Bool.and_eq_true, and_comm]
    exact and_congr_right (h l hl)
  · rw [hme]
    exact ⟨rfl, rfl, rfl, rfl, rfl, rfl⟩
  · rw [hlpc l hl, if_pos hset]
  · rw [hlpc l hl, hset, if_neg Bool.false_ne_true]
  · rw [hvs]
    rfl
  · exact getV_linkedBy (.inl hn)
  · rw [hvs]
    rfl
  · rw [hvs]
    rfl
  · rw [hvs]
    rfl

end

/-! ### Reading one source in a role (R52, R223, R247, R404) -/

section
variable {s s1 : State} {v : BitVec 7} {tags : List (BitVec 4)} {check : List VReg → Option (Cause × Nat)} {es : List Elem} {y : VReg}
  (htake : s.takeSrcs [v] none 1 = .ok (s1, [(es, y)]))
include htake

/-- A source that no instruction accepts, or of a tag that its role does not, is at fault. -/
theorem vecRead_one_fault (h : (badSource (es, y) || !tags.contains y.tag) = true) :
    s.vecRead [Src.of v tags] none false [] true check = .error (s.fail .format v.toNat) := by
  have htake' : s.takeSrcs ([Src.of v tags].map (·.v)) none 1 = _ := htake
  have hfind : [(Src.of v tags, (es, y))].find? (fun x => x.1.fault (typeOf []) [] true x.2) = some (Src.of v tags, (es, y)) :=
    List.find?_cons_of_pos ((fault_of_role v tags [] (typeOf []) true (es, y)).trans h)
  rw [State.vecRead, htake']
  change (match [(Src.of v tags, (es, y))].find? (fun x => x.1.fault (typeOf []) [] true x.2) with
    | some x => Except.error (s.fail .format x.1.v.toNat)
    | none => _) = _
  rw [hfind]
  rfl

section
variable (h : (badSource (es, y) || !tags.contains y.tag) = false)
include h

theorem vecRead_one_ok (hcheck : check [y] = none) : s.vecRead [Src.of v tags] none false [] true check = .ok (s1, 0, [y]) := by
  have htake' : s.takeSrcs ([Src.of v tags].map (·.v)) none 1 = _ := htake
  refine vecRead_of_takeSrcs rfl htake' rfl (fun z hz => ?_) hcheck
  rw [List.mem_singleton.1 hz]
  exact h

/-- The member's own check comes after its source's. -/
theorem vecRead_one_checked {cause : Cause} {reg : Nat} (hcheck : check [y] = some (cause, reg)) :
    s.vecRead [Src.of v tags] none false [] true check = .error (s.fail cause reg) := by
  have htake' : s.takeSrcs ([Src.of v tags].map (·.v)) none 1 = _ := htake
  have hfind : [(Src.of v tags, (es, y))].find? (fun x => x.1.fault (typeOf []) [] true x.2) = none := by
    rw [List.find?_eq_none]
    intro z hz
    rw [List.mem_singleton.1 hz, fault_of_role, h]
    exact Bool.false_ne_true
  rw [State.vecRead, htake']
  change (match [(Src.of v tags, (es, y))].find? (fun x => x.1.fault (typeOf []) [] true x.2) with
    | some x => Except.error (s.fail .format x.1.v.toNat)
    | none => match check [y] with
      | some (c, r) => Except.error (s.fail c r)
      | none => Except.ok (s1, typeOf [], [y])) = _
  rw [hfind, hcheck]

end

end

/-- A register of an assigned tag that its role accepts is read as it stands. -/
theorem vecRead_reg {s : State} {r : BitVec 7} {tags : List (BitVec 4)} {check : List VReg → Option (Cause × Nat)} (hr : isPort r = false)
    (hlt : (s.me.getV r.toNat).tag.toNat < 12) (hmem : (s.me.getV r.toNat).tag ∈ tags) (hcheck : check [s.me.getV r.toNat] = none) :
    s.vecRead [Src.of r tags] none false [] true check = .ok (s, 0, [s.me.getV r.toNat]) := by
  refine vecRead_one_ok (takeSrcs_one_reg hr 1) ?_ hcheck
  rw [badSource, mixedTags, decide_eq_false (Nat.not_le.2 hlt), List.contains_iff_mem.2 hmem]
  rfl

/-! ### BRNZ, BRZ, JMP and CALL (R213, R214) -/

section
variable {s : State} {c : BitVec 7} {o : BitVec 17} {i : BitVec 21} {px : Option (BitVec 25)}

theorem branch_of_reg (hc : isPort c = false) (htag : (s.me.getV c.toNat).tag.toNat < 12) (zero : Bool) : s.branch c o px zero =
    s.transfer (maskOf (fun l => ((s.me.getV c.toNat).at l == 0) == zero)) (fun _ => refOff s.iss.own (immInt 17 o.toNat px)) := by
  have hread : s.vecRead [Src.of c anyTag] none false [] true (fun _ => none) = _ := vecRead_reg hc htag (mem_anyTag htag) rfl
  rw [State.branch, hread]
  rfl

theorem exec_brnz_of_reg (hover : s.overCount (.brnz c o px) = none) (hc : isPort c = false)
    (htag : (s.me.getV c.toNat).tag.toNat < 12) : exec (.brnz c o px) s = .next (s.transfer
      (maskOf (fun l => ((s.me.getV c.toNat).at l == 0) == false)) (fun _ => refOff s.iss.own (immInt 17 o.toNat px))) := by
  rw [exec_brnz, execBrnz, gate_none _ hover, branch_of_reg hc htag]

theorem exec_brz_of_reg (hover : s.overCount (.brz c o px) = none) (hc : isPort c = false)
    (htag : (s.me.getV c.toNat).tag.toNat < 12) : exec (.brz c o px) s = .next (s.transfer
      (maskOf (fun l => ((s.me.getV c.toNat).at l == 0) == true)) (fun _ => refOff s.iss.own (immInt 17 o.toNat px))) := by
  rw [exec_brz, execBrz, gate_none _ hover, branch_of_reg hc htag]

/-- R64. A CALL links the reference after it, whatever stands before it. -/
theorem exec_call_of_count (hover : s.overCount (.call i px) = none) : exec (.call i px) s = .next
    ((linkIf s true s.iss.set).transfer s.iss.set (fun _ => refOff s.iss.own (immInt 21 i.toNat px))) := by
  rw [exec_call, execCall, gate_none _ hover]
  rfl

theorem link_transfer (hst : Stands s s.iss.k s.iss.c) (mask : BitVec 32) (f : Nat → BitVec 32) :
    ((linkIf s true s.iss.set).transfer mask f).me.getV 0 = (s.me.putV 0 5 s.iss.set (fun _ => refAdd s.iss.own 2)).getV 0 := by
  obtain ⟨hlst, hlink⟩ := me_linkIf hst true s.iss.set
  have hme := me_transfer (s := linkIf s true s.iss.set) hlst mask f
  rw [hlink] at hme
  rw [hme]
  rfl

end

/-! ### RET (R215) -/

/-- R215. The lanes whose word names another overlay than the instruction's. -/
def strays (s : State) (x : VReg) : BitVec 32 := maskOf (fun l => bit s.iss.set l && refOv (x.at l) != refOv s.iss.own)

section
variable {s : State} {r : BitVec 7}

theorem bit_strays (s : State) (x : VReg) {l : Nat} (hl : l < 32) :
    bit (strays s x) l = true ↔ bit s.iss.set l = true ∧ refOv (x.at l) ≠ refOv s.iss.own := by
  rw [strays, bit_maskOf _ hl, Bool.and_eq_true, bne_iff_ne]

theorem exec_ret_of_read (hover : s.overCount (.ret r) = none) (hr : isPort r = false)
    (htag : (s.me.getV r.toNat).tag = 5 ∨ (s.me.getV r.toNat).tag = 0) : exec (.ret r) s = .next (
      (s.moveSome (s.iss.set &&& ~~~strays s (s.me.getV r.toNat)) (s.me.getV r.toNat).at true).badLanes
        (strays s (s.me.getV r.toNat)) r.toNat) := by
  have hread : s.vecRead [Src.of r [5, 0]] none false [] true (fun _ => none) = _ := vecRead_target hr htag
  rw [exec_ret, execRet, gate_none _ hover, State.ret, hread]
  rfl

theorem me_moveSome_inclusive (hst : Stands s s.iss.k s.iss.c) (go : BitVec 32) (f : Nat → BitVec 32) :
    (s.moveSome go f true).me = { steeredTo s.iss.own go f s.me with stall := none } := me_modMe hst

theorem lpcAt_moveSome (hst : Stands s s.iss.k s.iss.c) (go : BitVec 32) (f : Nat → BitVec 32) {l : Nat} (hl : l < 32) :
    (s.moveSome go f true).me.lpcAt l = if bit go l then f l else s.me.lpcAt l := by
  rw [me_moveSome_inclusive hst]
  exact lpcAt_setLpc s.me go f hl

/-- R193, R215. A RET whose every lane stays in its overlay. -/
theorem steered_moveSome (hst : Stands s s.iss.k s.iss.c) (f : Nat → BitVec 32) :
    Steered s (s.moveSome s.iss.set f true) (fun _ => True) f := by
  refine steered_of_me (go := s.iss.set) (z := s.me) (modMe_only s _) (fun l _ => (and_iff_left trivial).symm) ?_
    (fun l _ _ hno => absurd trivial hno) (fun _ _ _ => rfl) rfl (fun _ _ => rfl) rfl rfl rfl
  rw [me_moveSome_inclusive hst]
  exact ⟨rfl, rfl, rfl, rfl, rfl, rfl⟩

theorem strays_eq_zero {x : VReg} (h : ∀ l : Nat, l < 32 → bit s.iss.set l = true → refOv (x.at l) = refOv s.iss.own) :
    strays s x = 0 := by
  refine mask_ext (fun l hl => ?_)
  rw [bit_zero, Bool.eq_false_iff, Ne, bit_strays s x hl]
  exact fun ⟨hset, hne⟩ => hne (h l hl hset)

theorem exec_ret_of_no_strays (hover : s.overCount (.ret r) = none) (hr : isPort r = false)
    (htag : (s.me.getV r.toNat).tag = 5 ∨ (s.me.getV r.toNat).tag = 0) (h : strays s (s.me.getV r.toNat) = 0) :
    exec (.ret r) s = .next (s.moveSome s.iss.set (s.me.getV r.toNat).at true) := by
  rw [exec_ret_of_read hover hr htag, h, State.badLanes, if_pos rfl,
    show s.iss.set &&& ~~~(0 : BitVec 32) = s.iss.set from BitVec.and_allOnes]

end

/-- Settles O29: a register of another tag is at fault; else each lane goes, or takes its cause where it stands. -/
theorem returnFaults : Obligations.ReturnFaults := by
  intro s r hfits hr x bad
  obtain ⟨hi, hover⟩ := hfits
  have hst := stands_of_issuing hi
  refine ⟨fun h5 h0 => ?_, fun htag hbad => ?_, fun htag hbad => ?_⟩
  · have hread : s.vecRead [Src.of r [5, 0]] none false [] true (fun _ => none) = _ := vecRead_bad_target hr h5 h0
    rw [exec_ret, execRet, gate_none _ hover, State.ret, hread]
  · refine ⟨_, exec_ret_of_no_strays hover hr htag hbad, ?_, rfl, fun l hl => lpcAt_moveSome hst s.iss.set x.at hl⟩
    rw [me_moveSome_inclusive hst]
    rfl
  · have hlpc (l : Nat) (hl : l < 32) := lpcAt_moveSome hst (s.iss.set &&& ~~~bad) x.at hl
    refine ⟨s.moveSome (s.iss.set &&& ~~~bad) x.at true, ?_, fun l hl hset hov => ?_, fun l hl hb => ?_, rfl⟩
    · exact (exec_ret_of_read hover hr htag).trans (congrArg Host.Outcome.next (if_neg hbad))
    · refine (hlpc l hl).trans (if_pos ((bit_and_not _ _ hl).2 ⟨hset, ?_⟩))
      exact Bool.eq_false_iff.2 (fun h => ((bit_strays s x hl).1 h).2 hov)
    · refine (hlpc l hl).trans (if_neg (fun h => ?_))
      rw [((bit_and_not _ _ hl).1 h).2] at hb
      cases hb

/-- R217. NAP moves on at once and, with a count, holds the course. -/
theorem exec_nap_eq (s : State) (n : BitVec 21) :
    exec (.nap n) s = .next (moved s (fun c => if n = 0 then c else { c with hold := .nap (s.clock + n.toNat + 1) })) := by
  rw [exec_nap, execNap, modMe_done_eq_moved]
  intro x
  split
  · rfl
  · rfl

end Sys2Proof.Proofs
end

section
/-!
PROOFS. The release of masks: which lanes it lets run, and which stay as they are (R197 to R199).
-/

namespace Sys2Proof.Proofs

open Sys2Proof Sys2Proof.Machine Sys2Proof.Statements

/-! ### Loops over the entries of a list -/

/-- What every update by an entry of the list keeps holds at the end. -/
theorem forAll_keeps {α β : Type} {f : α → β → α} {P : α → Prop} {xs : List β} (hf : ∀ s, ∀ x ∈ xs, P s → P (f s x)) {s : α} (h : P s) :
    P (forAll xs s f) := List.foldlRecOn xs f h (fun s hs x hx => hf s x hx hs)

/-- An update that brings Q about, among updates that keep P until then and Q from then on. -/
theorem forAll_reaches {α β : Type} {f : α → β → α} {P Q : α → Prop} {xs : List β} {a : β} (ha : a ∈ xs)
    (hP : ∀ s, ∀ x ∈ xs, P s → P (f s x) ∨ Q (f s x)) (hQ : ∀ s, ∀ x ∈ xs, Q s → Q (f s x)) (hat : ∀ s, P s → Q (f s a)) {s : α} (h : P s) :
    Q (forAll xs s f) := by
  induction xs generalizing s with
  | nil => cases ha
  | cons x xs ih =>
    have hQ' : ∀ s, ∀ y ∈ xs, Q s → Q (f s y) := fun s y hy => hQ s y (List.mem_cons_of_mem _ hy)
    have hend (h : Q (f s x)) : Q (forAll xs (f s x) f) := forAll_keeps hQ' h
    change Q (forAll xs (f s x) f)
    rcases List.mem_cons.1 ha with rfl | ha
    · exact hend (hat s h)
    · exact (hP s x List.mem_cons_self h).elim (ih ha (fun s y hy => hP s y (List.mem_cons_of_mem _ hy)) hQ') hend

/-! ### One mask (R198) -/

section
variable {c : Course} {n l : Nat}

theorem bit_waitingOn (hl : l < 32) : bit (c.waitingOn n) l = true ↔ c.laneAt l = .waiting (BitVec.ofNat 4 n) := by
  rw [Course.waitingOn, Course.inState, bit_maskOf _ hl, beq_iff_eq]

/-- R198. A release moves waiting lanes on, and what failed loads gave them; nothing else of the course changes. -/
theorem release1_frame (c : Course) (n : Nat) : ∃ ls ps fs, c.release1 n = { c with lane := ls, lpc := ps, fetchFault := fs } := by
  rw [Course.release1]
  split
  · exact ⟨_, _, _, rfl⟩
  · exact ⟨c.lane, c.lpc, c.fetchFault, rfl⟩

theorem release1_of_ne (hl : l < 32) (h : c.laneAt l ≠ .waiting (BitVec.ofNat 4 n)) :
    (c.release1 n).laneAt l = c.laneAt l ∧ (c.release1 n).lpcAt l = c.lpcAt l := by
  have hno : ¬ bit (c.waitingOn n) l = true := fun e => h ((bit_waitingOn hl).1 e)
  rw [Course.release1]
  split
  · exact ⟨(laneAt_setLane c _ _ hl).trans (if_neg hno), (lpcAt_setLpc _ _ _ hl).trans (if_neg hno)⟩
  · exact ⟨rfl, rfl⟩

/-- R198. A member that does not wait on the mask holds it. -/
theorem release1_of_member (hl : l < 32) (hm : bit (c.getM n) l = true) (h : c.laneAt l ≠ .waiting (BitVec.ofNat 4 n)) :
    c.release1 n = c := by
  refine if_neg (fun ⟨_, hnone⟩ => ?_)
  have hbit : bit (c.getM n &&& ~~~c.waitingOn n) l = true :=
    (bit_and_not _ _ hl).2 ⟨hm, Bool.eq_false_iff.2 (fun e => h ((bit_waitingOn hl).1 e))⟩
  rw [hnone, bit_zero] at hbit
  cases hbit

/-- R198. Where every member waits on the mask, those that do run. -/
theorem release1_of_all_waiting (hall : ∀ l : Nat, l < 32 → bit (c.getM n) l = true → c.laneAt l = .waiting (BitVec.ofNat 4 n)) (hl : l < 32)
    (h : c.laneAt l = .waiting (BitVec.ofNat 4 n)) : (c.release1 n).laneAt l = .running := by
  have hw : bit (c.waitingOn n) l = true := (bit_waitingOn hl).2 h
  have hsome : c.waitingOn n ≠ 0 := by
    intro e
    rw [e, bit_zero] at hw
    cases hw
  have hnone : c.getM n &&& ~~~c.waitingOn n = 0 := by
    refine mask_ext (fun i hi => ?_)
    rw [bit_zero, Bool.eq_false_iff, Ne, bit_and_not _ _ hi]
    rintro ⟨hm, hno⟩
    rw [(bit_waitingOn hi).2 (hall i hi hm)] at hno
    cases hno
  rw [Course.release1, if_pos ⟨hsome, hnone⟩]
  exact (laneAt_setLane c _ _ hl).trans (if_pos hw)

end

/-! ### Every mask (R198) -/

section
variable {c : Course} {l : Nat}

theorem releaseMasks_frame (c : Course) : ∃ ls ps fs, c.releaseMasks = { c with lane := ls, lpc := ps, fetchFault := fs } := by
  refine forAll_induct (P := fun x => ∃ ls ps fs, x = { c with lane := ls, lpc := ps, fetchFault := fs }) ?_ _ c ⟨_, _, _, rfl⟩
  rintro x n ⟨ls, ps, fs, rfl⟩
  exact release1_frame _ n

theorem getM_release1 (c : Course) (n i : Nat) : (c.release1 n).getM i = c.getM i := by
  obtain ⟨ls, ps, fs, e⟩ := release1_frame c n
  rw [e]
  rfl

/-- A lane that does not wait stays as it is, and where it is. -/
theorem releaseMasks_of_not_waiting (hl : l < 32) (h : ∀ m, c.laneAt l ≠ .waiting m) :
    c.releaseMasks.laneAt l = c.laneAt l ∧ c.releaseMasks.lpcAt l = c.lpcAt l := by
  refine forAll_induct (P := fun x => x.laneAt l = c.laneAt l ∧ x.lpcAt l = c.lpcAt l) ?_ _ c ⟨rfl, rfl⟩
  rintro x n ⟨hlane, hlpc⟩
  obtain ⟨hlane', hlpc'⟩ := release1_of_ne (c := x) (n := n) hl (by rw [hlane]; exact h _)
  exact ⟨hlane'.trans hlane, hlpc'.trans hlpc⟩

theorem ofNat_mask_eq_iff {m : BitVec 4} {n : Nat} (h : n < 12) : BitVec.ofNat 4 n = m ↔ n = m.toNat := by
  rw [← BitVec.toNat_inj, BitVec.toNat_ofNat, Nat.mod_eq_of_lt (by omega)]

/-- A lane waits on a mask, at a reference, and a member of the mask that does not wait on it holds it there. -/
structure HeldWaiting (m : BitVec 4) (member lane : Nat) (ref : BitVec 32) (x : Course) : Prop where
  inMask : bit (x.getM m.toNat) member = true
  holds : x.laneAt member ≠ .waiting m
  waits : x.laneAt lane = .waiting m
  lpc : x.lpcAt lane = ref

/-- R198. A release lets no lane wait that did not. -/
theorem release1_not_waiting {m : BitVec 4} {n : Nat} (hl : l < 32) (h : c.laneAt l ≠ .waiting m) : (c.release1 n).laneAt l ≠ .waiting m := by
  by_cases e : c.laneAt l = .waiting (BitVec.ofNat 4 n)
  · rw [Course.release1]
    split
    · have hrun : (c.setLane (c.waitingOn n) .running).laneAt l = .running :=
        (laneAt_setLane c _ _ hl).trans (if_pos ((bit_waitingOn hl).2 e))
      exact fun e' => LaneState.noConfusion (hrun.symm.trans e')
    · exact h
  · rwa [(release1_of_ne hl e).1]

theorem release1_heldWaiting {m : BitVec 4} {l₀ n : Nat} {ref : BitVec 32} (hl₀ : l₀ < 32) (hl : l < 32) (hn : n < 12)
    (h : HeldWaiting m l₀ l ref c) : HeldWaiting m l₀ l ref (c.release1 n) := by
  by_cases e : BitVec.ofNat 4 n = m
  · have hnm : n = m.toNat := (ofNat_mask_eq_iff hn).1 e
    rwa [release1_of_member hl₀ (hnm ▸ h.inMask) (by rw [e]; exact h.holds)]
  · obtain ⟨hlane, hlpc⟩ := release1_of_ne (n := n) hl (by rw [h.waits]; exact fun e' => e (LaneState.waiting.inj e').symm)
    exact ⟨by rw [getM_release1]; exact h.inMask, release1_not_waiting hl₀ h.holds, hlane.trans h.waits, hlpc.trans h.lpc⟩

/-- A lane that waits on a mask that a member holds goes on waiting. -/
theorem releaseMasks_heldWaiting {m : BitVec 4} {l₀ : Nat} {ref : BitVec 32} (hl₀ : l₀ < 32) (hl : l < 32) (h : HeldWaiting m l₀ l ref c) :
    HeldWaiting m l₀ l ref c.releaseMasks :=
  forAll_keeps (fun _ _ hn hx => release1_heldWaiting hl₀ hl (List.mem_range.1 hn) hx) h

/-- R198. The lanes that wait on a mask all of whose members wait on it run. -/
theorem releaseMasks_of_all_waiting {m : BitVec 4} (hm : m.toNat < 12)
    (hall : ∀ l : Nat, l < 32 → bit (c.getM m.toNat) l = true → c.laneAt l = .waiting m) (hl : l < 32) (h : c.laneAt l = .waiting m) :
    c.releaseMasks.laneAt l = .running := by
  have hself : BitVec.ofNat 4 m.toNat = m := (ofNat_mask_eq_iff hm).2 rfl
  refine forAll_reaches (a := m.toNat) (Q := fun x : Course => x.laneAt l = .running)
    (P := fun x : Course => (∀ l : Nat, l < 32 → bit (x.getM m.toNat) l = true → x.laneAt l = .waiting m) ∧ x.laneAt l = .waiting m)
    (List.mem_range.2 hm) ?_ ?_ ?_ ⟨hall, h⟩
  · rintro x n hn ⟨hx, hxl⟩
    by_cases e : BitVec.ofNat 4 n = m
    · have hnm : n = m.toNat := (ofNat_mask_eq_iff (List.mem_range.1 hn)).1 e
      subst hnm
      exact .inr (release1_of_all_waiting (by rwa [e]) hl (by rwa [e]))
    · have hstay {i : Nat} (hi : i < 32) (hw : x.laneAt i = .waiting m) : (x.release1 n).laneAt i = .waiting m := by
        rw [(release1_of_ne hi (by rw [hw]; exact fun e' => e (LaneState.waiting.inj e').symm)).1, hw]
      refine .inl ⟨fun i hi hbit => hstay hi (hx i hi ?_), hstay hl hxl⟩
      rwa [getM_release1] at hbit
  · intro x n _ hx
    rw [(release1_of_ne hl (by rw [hx]; exact LaneState.noConfusion)).1, hx]
  · rintro x ⟨hx, hxl⟩
    exact release1_of_all_waiting (by rwa [hself]) hl (by rwa [hself])

end

/-! ### Lanes that leave (R197) -/

section
variable {c : Course} {set : BitVec 32}

theorem leave_frame (c : Course) (set : BitVec 32) (x : LaneState) : ∃ ls ps fs, c.leave set x =
    { c with lane := ls, lpc := ps, fetchFault := fs, m := vof 12 (fun n => c.getM n &&& ~~~set), hmask := c.hmask &&& ~~~set
             lapped := c.lapped &&& ~~~set } := releaseMasks_frame _

theorem laneAt_leave_exited {l : Nat} (hl : l < 32) (h : bit set l = true) : (c.leave set .exited).laneAt l = .exited := by
  have hset : (c.setLane set .exited).laneAt l = .exited := (laneAt_setLane c _ _ hl).trans (if_pos h)
  refine (releaseMasks_of_not_waiting hl (fun m e => ?_)).1.trans hset
  exact LaneState.noConfusion (hset.symm.trans e)

theorem getM_leave (x : LaneState) {n : Nat} (hn : n < 12) : (c.leave set x).getM n = c.getM n &&& ~~~set := by
  obtain ⟨ls, ps, fs, e⟩ := leave_frame c set x
  rw [e]
  exact vget_vof _ _ hn

end

end Sys2Proof.Proofs
end

section
/-!
PROOFS. Taking causes: what becomes of the course, and what a trap leaves of the others (R355, R405 to R410, R413).
-/

namespace Sys2Proof.Proofs

open Sys2Proof Sys2Proof.Machine Sys2Proof.Statements

/-! ### What a course keeps -/

/-- What a course has in flight, its tokens and region, its launches and its exits are as they were. -/
structure InFlight (x y : Course) : Prop where
  loads : y.loads = x.loads
  stores : y.stores = x.stores
  copies : y.copies = x.copies
  tiles : y.tiles = x.tiles
  tokens : y.tokens = x.tokens
  region : y.region = x.region
  pending : y.pending = x.pending
  exitRef : y.exitRef = x.exitRef
  exitMask : y.exitMask = x.exitMask

theorem InFlight.refl (x : Course) : InFlight x x := ⟨rfl, rfl, rfl, rfl, rfl, rfl, rfl, rfl, rfl⟩

theorem InFlight.trans {x y z : Course} (h : InFlight x y) (g : InFlight y z) : InFlight x z :=
  ⟨g.loads.trans h.loads, g.stores.trans h.stores, g.copies.trans h.copies, g.tiles.trans h.tiles, g.tokens.trans h.tokens,
    g.region.trans h.region, g.pending.trans h.pending, g.exitRef.trans h.exitRef, g.exitMask.trans h.exitMask⟩

/-- The lanes outside d are where and as they were, with their words, and the course has not ended. -/
structure Outside (d : BitVec 32) (x y : Course) : Prop where
  term : y.term = x.term
  masks : y.m = x.m
  lanes : ∀ l : Nat, l < 32 → bit d l = false → y.lpcAt l = x.lpcAt l ∧ y.laneAt l = x.laneAt l ∧ ∀ n : Nat, (y.getV n).at l = (x.getV n).at l

theorem Outside.refl (d : BitVec 32) (x : Course) : Outside d x x := ⟨rfl, rfl, fun _ _ _ => ⟨rfl, rfl, fun _ => rfl⟩⟩

theorem Outside.trans {d : BitVec 32} {x y z : Course} (h : Outside d x y) (g : Outside d y z) : Outside d x z := by
  refine ⟨g.term.trans h.term, g.masks.trans h.masks, fun l hl hd => ?_⟩
  obtain ⟨hpc, hlane, hv⟩ := h.lanes l hl hd
  obtain ⟨gpc, glane, gv⟩ := g.lanes l hl hd
  exact ⟨gpc.trans hpc, glane.trans hlane, fun n => (gv n).trans (hv n)⟩

theorem Outside.mono {d e : BitVec 32} {x y : Course} (h : Outside d x y) (hde : ∀ l : Nat, l < 32 → bit d l = true → bit e l = true) :
    Outside e x y :=
  ⟨h.term, h.masks, fun l hl he => h.lanes l hl (Bool.eq_false_iff.2 (fun hd => Bool.eq_false_iff.1 he (hde l hl hd)))⟩

/-- A course of which the same lanes stand as they did, with the same registers. -/
theorem outside_of_eq {d : BitVec 32} {x y : Course} (hterm : y.term = x.term) (hm : y.m = x.m) (hpc : y.lpc = x.lpc) (hlane : y.lane = x.lane)
    (hv : y.v = x.v) : Outside d x y := by
  refine ⟨hterm, hm, fun l _ _ => ⟨?_, ?_, fun n => ?_⟩⟩
  · rw [Course.lpcAt, hpc, Course.lpcAt]
  · rw [Course.laneAt, hlane, Course.laneAt]
  · rw [Course.getV, hv, Course.getV]

theorem vget_of_ge {α : Type} {n : Nat} (v : Vector α n) (d : α) {i : Nat} (h : n ≤ i) : vget v d i = d := by
  simp [vget, List.getD, h]

theorem at_putV_of_not (c : Course) (n : Nat) (tag : BitVec 4) (set : BitVec 32) (f : Nat → Word) {l : Nat} (hl : l < 32)
    (h : bit set l = false) (m : Nat) : ((c.putV n tag set f).getV m).at l = (c.getV m).at l := by
  by_cases hm : m = n
  · subst hm
    by_cases hlt : m < 112
    · rw [getV_putV_same hlt, VReg.at, vget_vof _ _ hl, h, if_neg Bool.false_ne_true]
    · rw [Course.getV, vget_of_ge _ _ (Nat.le_of_not_lt hlt), Course.getV, vget_of_ge _ _ (Nat.le_of_not_lt hlt)]
  · rw [getV_putV_ne hm]

/-- R410. A course that has ended: every lane has exited, and has left every mask. -/
structure Ended (y : Course) : Prop where
  term : y.term ≠ none
  lanes : ∀ l : Nat, l < 32 → y.laneAt l = .exited
  masks : ∀ n : Nat, n < 12 → y.getM n = 0

/-- A course has ended, or the lanes outside d are as they were. -/
def EndedOr (d : BitVec 32) (x y : Course) : Prop := InFlight x y ∧ (Ended y ∨ Outside d x y)

theorem EndedOr.after {d e : BitVec 32} {x y z : Course} (g : EndedOr e y z) (hf : InFlight x y) (ho : Outside d x y)
    (hed : ∀ l : Nat, l < 32 → bit e l = true → bit d l = true) : EndedOr d x z := by
  obtain ⟨gf, hend | gout⟩ := g
  · exact ⟨hf.trans gf, .inl hend⟩
  · exact ⟨hf.trans gf, .inr (ho.trans (gout.mono hed))⟩

/-! ### What a trap leaves of everything else -/

/-- From s to t course (k, c) changed, and of the consorts only the channels of its own, chains and bindings. -/
structure Aside (s t : State) (k c : Nat) : Prop where
  stands : ∀ k' c' : Nat, Stands s k' c' → Stands t k' c'
  others : ∀ k' c' : Nat, ¬ (k' = k ∧ c' = c) → t.crs k' c' = s.crs k' c'
  scratch : ∀ k' : Nat, (t.cons k').scratch = (s.cons k').scratch
  tiles : ∀ k' : Nat, (t.cons k').tiles = (s.cons k').tiles
  slots : ∀ k' : Nat, (t.cons k').slots = (s.cons k').slots
  rtokens : ∀ k' : Nat, (t.cons k').rtokens = (s.cons k').rtokens
  bars : ∀ k' : Nat, (t.cons k').bars = (s.cons k').bars
  place : ∀ k' : Nat, (t.cons k').place = (s.cons k').place
  channels : ∀ k' : Nat, k' ≠ k → (t.cons k').channels = (s.cons k').channels

section
variable {s t u : State} {k c : Nat}

theorem Aside.refl (s : State) (k c : Nat) : Aside s s k c :=
  ⟨fun _ _ => id, fun _ _ _ => rfl, fun _ => rfl, fun _ => rfl, fun _ => rfl, fun _ => rfl, fun _ => rfl, fun _ => rfl, fun _ _ => rfl⟩

theorem Aside.trans (h : Aside s t k c) (g : Aside t u k c) : Aside s u k c :=
  ⟨fun k' c' e => g.stands k' c' (h.stands k' c' e), fun k' c' e => (g.others k' c' e).trans (h.others k' c' e),
    fun k' => (g.scratch k').trans (h.scratch k'), fun k' => (g.tiles k').trans (h.tiles k'), fun k' => (g.slots k').trans (h.slots k'),
    fun k' => (g.rtokens k').trans (h.rtokens k'), fun k' => (g.bars k').trans (h.bars k'), fun k' => (g.place k').trans (h.place k'),
    fun k' e => (g.channels k' e).trans (h.channels k' e)⟩

theorem aside_modCrs {f : Course → Course} (hf : ∀ x, (f x).idx = x.idx := by intro _; rfl) : Aside s (s.modCrs k c f) k c := by
  have hcons {β : Type} (p : Consort → β) (hp : ∀ q xs, p { q with courses := xs } = p q) (k' : Nat) :
      p ((s.modCrs k c f).cons k') = p (s.cons k') := cons_modCons_field p (fun q => hp q _)
  refine ⟨fun _ _ h => modCrs_stands h hf, fun k' c' h => ?_, hcons _ (fun _ _ => rfl), hcons _ (fun _ _ => rfl), hcons _ (fun _ _ => rfl),
    hcons _ (fun _ _ => rfl), hcons _ (fun _ _ => rfl), hcons _ (fun _ _ => rfl), fun k' _ => hcons _ (fun _ _ => rfl) k'⟩
  by_cases hst : Stands s k c
  · exact crs_modCrs_ne hst (fun e => h ⟨e.1.symm, e.2.symm⟩) hf
  · exact crs_modCrs_of_not_stands hst

/-- R247. What passes through a channel of the consort. -/
theorem aside_channels {f : Consort → Consort} (hf : ∀ q, ∃ ch, f q = { q with channels := ch }) : Aside s (s.modCons k f) k c := by
  have hid (q : Consort) : (f q).id = q.id := by
    obtain ⟨ch, e⟩ := hf q
    rw [e]
  have hcourses (q : Consort) : (f q).courses = q.courses := by
    obtain ⟨ch, e⟩ := hf q
    rw [e]
  have hcons {β : Type} (p : Consort → β) (hp : ∀ q ch, p { q with channels := ch } = p q) (k' : Nat) :
      p ((s.modCons k f).cons k') = p (s.cons k') := by
    refine cons_modCons_field p (fun q => ?_) hid
    obtain ⟨ch, e⟩ := hf q
    rw [e]
    exact hp q ch
  exact ⟨fun _ _ h => stands_modCons h hid hcourses, fun _ _ _ => crs_modCons hid hcourses, hcons _ (fun _ _ => rfl), hcons _ (fun _ _ => rfl),
    hcons _ (fun _ _ => rfl), hcons _ (fun _ _ => rfl), hcons _ (fun _ _ => rfl), hcons _ (fun _ _ => rfl),
    fun k' h => by rw [cons_modCons_ne (Ne.symm h) hid]⟩

/-- R352, R355. Broken bindings touch chains and bindings alone. -/
theorem aside_breakBindings (s : State) (k c : Nat) : Aside s (s.breakBindings k c) k c := by
  have hdrop (p : Binding → Bool) : Aside s (s.dropBindings k p) k c := by
    have hcons {β : Type} (g : Consort → β) (hg : ∀ q bs, g { q with bindings := bs } = g q) (k' : Nat) :
        g ((s.dropBindings k p).cons k') = g (s.cons k') := cons_modCons_field g (fun q => hg q _)
    exact ⟨fun _ _ h => stands_modCons h, fun _ _ _ => crs_modCons, hcons _ (fun _ _ => rfl), hcons _ (fun _ _ => rfl),
      hcons _ (fun _ _ => rfl), hcons _ (fun _ _ => rfl), hcons _ (fun _ _ => rfl), hcons _ (fun _ _ => rfl),
      fun k' _ => hcons _ (fun _ _ => rfl) k'⟩
  refine forAll_induct (P := fun t => Aside s t k c) (fun t b ht => ht.trans ?_) _ _ (hdrop _)
  have hmap {g : Consort → Consort} (hg : ∀ r, ∃ cs, g r = { r with chains := cs }) :
      Aside t { t with consorts := t.consorts.map g } k c := by
    have hkeep {β : Type} (p : Consort → β) (hp : ∀ q cs, p { q with chains := cs } = p q) (q : Consort) : p (g q) = p q := by
      obtain ⟨cs, e⟩ := hg q
      rw [e, hp]
    have hid := hkeep Consort.id (fun _ _ => rfl)
    have hcons {β : Type} (p : Consort → β) (hp : ∀ q cs, p { q with chains := cs } = p q) (k' : Nat) :
        p (State.cons { t with consorts := t.consorts.map g } k') = p (t.cons k') := cons_map_field rfl hid p (hkeep p hp)
    exact ⟨fun _ _ h => (stands_map rfl hid (hkeep Consort.courses (fun _ _ => rfl))).2 h, fun k' c' _ => hcons (fun q => q.crs c') (fun _ _ => rfl) k',
      hcons _ (fun _ _ => rfl), hcons _ (fun _ _ => rfl), hcons _ (fun _ _ => rfl), hcons _ (fun _ _ => rfl), hcons _ (fun _ _ => rfl),
      hcons _ (fun _ _ => rfl), fun k' _ => hcons _ (fun _ _ => rfl) k'⟩
  refine hmap (fun r => ?_)
  split
  · exact breakMember_frame r _ _ _
  · exact ⟨r.chains, rfl⟩

end

/-! ### Termination and trap entry (R405 to R410) -/

theorem idx_leave (x : Course) (set : BitVec 32) (l : LaneState) : (x.leave set l).idx = x.idx := by
  obtain ⟨ls, ps, fs, e⟩ := leave_frame x set l
  rw [e]

/-- R410. What a course is that has been ended. -/
def terminated (t : Termination) (x : Course) : Course :=
  { (x.leave 0xFFFFFFFF#32 .exited) with
    term := some (x.term.getD t), hold := .none, stall := none, refused := [], fetchFault := [], entered := none }

theorem idx_terminated (t : Termination) (x : Course) : (terminated t x).idx = x.idx := by
  dsimp only [terminated]
  exact idx_leave x _ _

theorem lanes_terminated (t : Termination) (x : Course) :
    (terminated t x).lane = (x.leave 0xFFFFFFFF#32 .exited).lane ∧ (terminated t x).m = (x.leave 0xFFFFFFFF#32 .exited).m := by
  dsimp only [terminated]
  exact ⟨rfl, rfl⟩

theorem endedOr_terminated (t : Termination) (d : BitVec 32) (x : Course) : EndedOr d x (terminated t x) := by
  obtain ⟨hlane, hm⟩ := lanes_terminated t x
  refine ⟨?_, .inl ⟨(fun e => nomatch e), fun l hl => ?_, fun n hn => ?_⟩⟩
  · obtain ⟨ls, ps, fs, e⟩ := leave_frame x 0xFFFFFFFF#32 .exited
    rw [terminated, e]
    exact ⟨rfl, rfl, rfl, rfl, rfl, rfl, rfl, rfl, rfl⟩
  · rw [Course.laneAt, hlane]
    exact laneAt_leave_exited hl (bit_allOnes hl)
  · rw [Course.getM, hm]
    refine (getM_leave (c := x) .exited hn).trans (mask_ext (fun l hl => ?_))
    rw [bit_zero, Bool.eq_false_iff, Ne, bit_and_not _ _ hl, bit_allOnes hl]
    exact fun h => nomatch h.2

section
variable {s : State} {k c : Nat} {ref : BitVec 32} {ret : Nat → BitVec 32} {g : TrapGroup}

theorem terminate_eq (t : Termination) : s.terminate k c t = (s.modCrs k c (terminated t)).breakBindings k c := by
  unfold State.terminate terminated
  rfl

theorem aside_terminate (t : Termination) : Aside s (s.terminate k c t) k c := by
  rw [terminate_eq]
  exact (aside_modCrs (idx_terminated t)).trans (aside_breakBindings _ k c)

theorem crs_terminate_eq (hst : Stands s k c) (t : Termination) : (s.terminate k c t).crs k c = terminated t (s.crs k c) := by
  rw [terminate_eq, crs_breakBindings, crs_modCrs_same hst (idx_terminated t)]

theorem aside_enterHandler : Aside s (s.enterHandler k c ref ret g) k c := by
  unfold State.enterHandler
  dsimp only
  split
  · exact aside_terminate _
  · split
    · exact aside_modCrs
    · split
      · exact aside_terminate _
      · split
        · exact aside_terminate _
        · exact aside_modCrs

/-- R406, R408. Lanes that enter a handler take a reference, run, and find their return references in the link register. -/
theorem outside_of_entry {x y : Course} {d : BitVec 32} {link : Nat} {target : BitVec 32} (hterm : y.term = x.term) (hm : y.m = x.m)
    (hpc : y.lpc = (x.setLpc d (fun _ => target)).lpc) (hlane : y.lane = (x.setLane d .running).lane) (hv : y.v = (x.putV link 5 d ret).v) :
    Outside d x y := by
  refine ⟨hterm, hm, fun l hl hd => ⟨?_, ?_, fun n => ?_⟩⟩
  · rw [Course.lpcAt, hpc]
    exact (lpcAt_setLpc x d _ hl).trans (by rw [hd, if_neg Bool.false_ne_true])
  · rw [Course.laneAt, hlane]
    exact (laneAt_setLane x d _ hl).trans (by rw [hd, if_neg Bool.false_ne_true])
  · have hget : y.getV n = (x.putV link 5 d ret).getV n := by rw [Course.getV, hv, Course.getV]
    rw [hget, at_putV_of_not x link 5 d ret hl hd]

theorem endedOr_enterHandler (hst : Stands s k c) : EndedOr g.lanes (s.crs k c) ((s.enterHandler k c ref ret g).crs k c) := by
  have hterm (t : Termination) : EndedOr g.lanes (s.crs k c) ((s.terminate k c t).crs k c) := by
    rw [crs_terminate_eq hst]
    exact endedOr_terminated t _ _
  have hflight {y : Course} (hf : InFlight (s.crs k c) y) (ho : Outside g.lanes (s.crs k c) y) : EndedOr g.lanes (s.crs k c) y := ⟨hf, .inr ho⟩
  unfold State.enterHandler
  dsimp only
  split
  · exact hterm _
  · split
    · rw [crs_modCrs_same hst]
      exact hflight ⟨rfl, rfl, rfl, rfl, rfl, rfl, rfl, rfl, rfl⟩ (outside_of_entry rfl rfl rfl rfl rfl)
    · split
      · exact hterm _
      · split
        · exact hterm _
        · rw [crs_modCrs_same hst]
          exact hflight ⟨rfl, rfl, rfl, rfl, rfl, rfl, rfl, rfl, rfl⟩ (outside_of_entry rfl rfl rfl rfl rfl)

end

/-! ### Resolving the causes of one issue (R405, R407) -/

/-- The lanes of some causes. -/
def lanesTaking (gs : List TrapGroup) : BitVec 32 := gs.foldl (fun m g => m ||| g.lanes) 0

theorem bit_or (a b : BitVec 32) (l : Nat) : bit (a ||| b) l = (bit a l || bit b l) := BitVec.getLsbD_or

/-- The lanes of those of some causes that p picks are among the lanes of all. -/
theorem bit_foldl_lanes (p : TrapGroup → Prop) [DecidablePred p] (gs : List TrapGroup) {a b : BitVec 32} {l : Nat}
    (hab : bit a l = true → bit b l = true) (h : bit (gs.foldl (fun m g => if p g then m ||| g.lanes else m) a) l = true) :
    bit (gs.foldl (fun m g => m ||| g.lanes) b) l = true := by
  induction gs generalizing a b with
  | nil => exact hab h
  | cons g gs ih =>
    rw [List.foldl_cons] at h ⊢
    refine ih (fun ha => ?_) h
    rw [bit_or, Bool.or_eq_true]
    split at ha
    · rw [bit_or, Bool.or_eq_true] at ha
      exact ha.imp_left hab
    · exact .inl (hab ha)

section
variable {s : State} {k c : Nat} {ref : BitVec 32} {ret : Nat → BitVec 32} {gs : List TrapGroup}

theorem aside_resolve : Aside s (s.resolve k c ref ret gs) k c := by
  unfold State.resolve
  dsimp only
  split
  · exact .refl s k c
  · split
    · split
      · exact Aside.trans (Aside.trans aside_modCrs aside_modCrs) aside_enterHandler
      · exact .refl s k c
    · split
      · exact Aside.trans aside_modCrs aside_modCrs
      · split
        · exact aside_terminate _
        · exact .refl s k c

/-- R405, R407. Of a course whose lanes take causes the other lanes are as they were, unless it ends. -/
theorem endedOr_resolve (hst : Stands s k c) : EndedOr (lanesTaking gs) (s.crs k c) ((s.resolve k c ref ret gs).crs k c) := by
  have hself : EndedOr (lanesTaking gs) (s.crs k c) (s.crs k c) := ⟨.refl _, .inr (.refl _ _)⟩
  have hlap (keep : BitVec 32) : Stands (s.modCrs k c (fun x => { x with lapped := x.lapped ||| keep })) k c := modCrs_stands hst
  unfold State.resolve
  dsimp only
  split
  · exact hself
  · split
    · split
      next g hg =>
        obtain ⟨g₀, -, rfl⟩ := Option.map_eq_some_iff.1 hg
        refine EndedOr.after (endedOr_enterHandler (modCrs_stands (hlap _))) ?_ ?_ (fun l _ h => bit_foldl_lanes (·.cause = g₀.cause) gs id h)
        · rw [crs_modCrs_same (hlap _), crs_modCrs_same hst]
          exact ⟨rfl, rfl, rfl, rfl, rfl, rfl, rfl, rfl, rfl⟩
        · rw [crs_modCrs_same (hlap _), crs_modCrs_same hst]
          exact outside_of_eq rfl rfl rfl rfl rfl
      next => exact hself
    · split
      · rw [crs_modCrs_same (hlap _), crs_modCrs_same hst]
        exact ⟨⟨rfl, rfl, rfl, rfl, rfl, rfl, rfl, rfl, rfl⟩, .inr (outside_of_eq rfl rfl rfl rfl rfl)⟩
      · split
        · rw [crs_terminate_eq hst]
          exact endedOr_terminated _ _ _
        · exact hself

/-! ### Delivery (R405, R413) -/

theorem aside_deliver : Aside s (s.deliver k c ref ret gs) k c := by
  rw [State.deliver]
  split
  · exact aside_resolve
  · exact aside_resolve

theorem inFlight_deliver (hst : Stands s k c) : InFlight (s.crs k c) ((s.deliver k c ref ret gs).crs k c) := by
  rw [State.deliver]
  split
  · exact (endedOr_resolve hst).1
  · exact (endedOr_resolve hst).1

theorem endedOr_deliver (hst : Stands s k c) (hnow : s.refusedNow k c = 0) :
    EndedOr (lanesTaking gs) (s.crs k c) ((s.deliver k c ref ret gs).crs k c) := by
  have hnil : s.refusedGroups k c = [] := if_pos hnow
  rw [State.deliver, hnil]
  exact endedOr_resolve hst

theorem refusedNow_of_none (h : s.iss.refused = 0) : s.refusedNow k c = 0 := by
  rw [State.refusedNow]
  split
  · refine maskOf_of_false (fun l => ?_)
    rw [h, bit_zero, Bool.false_and, Bool.false_and, Bool.false_and]
  · rfl

theorem refusedNow_of_not_running (h : (s.crs k c).running = 0) : s.refusedNow k c = 0 := by
  rw [State.refusedNow]
  split
  · refine maskOf_of_false (fun l => ?_)
    rw [h, bit_zero, Bool.and_false, Bool.false_and, Bool.false_and]
  · rfl

end

/-! ### EXIT (R197, R216, R425) -/

/-- R425. What a course is whose lanes of set have exited at a reference. -/
def exitedAt (own set : BitVec 32) (x : Course) : Course :=
  { (x.leave set .exited) with exitRef := own, exitMask := x.exitMask ||| set, stall := none }

theorem lanes_exitedAt (own set : BitVec 32) (x : Course) :
    (exitedAt own set x).lane = (x.leave set .exited).lane ∧ (exitedAt own set x).m = (x.leave set .exited).m := by
  dsimp only [exitedAt]
  exact ⟨rfl, rfl⟩

theorem idx_exitedAt (own set : BitVec 32) (x : Course) : (exitedAt own set x).idx = x.idx := by
  dsimp only [exitedAt]
  exact idx_leave x _ _

section
variable {s : State} {k c : Nat}

/-- R196. A deadlock of masks is met by the lanes that wait. -/
theorem endedOr_checkDeadlock (hst : Stands s k c) : EndedOr (s.crs k c).waitingLanes (s.crs k c) ((s.checkDeadlock k c).crs k c) := by
  rw [State.checkDeadlock]
  split
  next h =>
    obtain ⟨-, hrun, -⟩ := h
    have hend := endedOr_deliver (gs := [{ cause := .maskDeadlock, lanes := (s.crs k c).waitingLanes, info := BitVec.ofNat 64 (s.crs k c).waitingLanes.toNat }])
      (ref := (s.crs k c).lpcAt (lowest (s.crs k c).waitingLanes)) (ret := (s.crs k c).lpcAt) hst (refusedNow_of_not_running hrun)
    rwa [show lanesTaking _ = (s.crs k c).waitingLanes from BitVec.zero_or] at hend
  next => exact ⟨.refl _, .inr (.refl _ _)⟩

theorem exec_exit_eq (s : State) :
    exec .exit s = .next ((s.modMe (exitedAt s.iss.own s.iss.set)).checkDeadlock s.iss.k s.iss.c) := by
  unfold exitedAt
  rfl

/-- R197, R216. The lanes of the issue set exit and leave every mask, whatever becomes of the lanes that wait. -/
theorem exec_exit_results (hst : Stands s s.iss.k s.iss.c) : ∃ t : State, exec .exit s = .next t ∧
    (∀ l : Nat, l < 32 → bit s.iss.set l = true → t.me.laneAt l = .exited) ∧ (∀ n : Nat, n < 12 → t.me.getM n &&& s.iss.set = 0) ∧
    t.me.exitRef = s.iss.own ∧ t.me.exitMask = s.me.exitMask ||| s.iss.set := by
  have hidx := idx_exitedAt s.iss.own s.iss.set
  obtain ⟨hlane, hmask⟩ := lanes_exitedAt s.iss.own s.iss.set s.me
  have hme : (s.modMe (exitedAt s.iss.own s.iss.set)).crs s.iss.k s.iss.c = exitedAt s.iss.own s.iss.set s.me := crs_modCrs_same hst hidx
  obtain ⟨hflight, hend⟩ := endedOr_checkDeadlock (s := s.modMe (exitedAt s.iss.own s.iss.set)) (modCrs_stands hst hidx)
  rw [hme] at hflight hend
  have hexited (l : Nat) (hl : l < 32) (hset : bit s.iss.set l = true) : (exitedAt s.iss.own s.iss.set s.me).laneAt l = .exited := by
    rw [Course.laneAt, hlane]
    exact laneAt_leave_exited hl hset
  have hiss : ((s.modMe (exitedAt s.iss.own s.iss.set)).checkDeadlock s.iss.k s.iss.c).iss = s.iss := (checkDeadlock_only _ _ _).iss
  refine ⟨_, exec_exit_eq s, ?_⟩
  rw [State.me, hiss]
  refine ⟨fun l hl hset => ?_, fun n hn => ?_, hflight.exitRef, hflight.exitMask⟩
  · rcases hend with hend | hout
    · exact hend.lanes l hl
    · obtain ⟨-, hsame, -⟩ := hout.lanes l hl (by
        rw [Course.waitingLanes, Course.inState, bit_maskOf _ hl, hexited l hl hset]
        rfl)
      rw [hsame, hexited l hl hset]
  · rcases hend with hend | hout
    · rw [hend.masks n hn]
      exact BitVec.zero_and
    · rw [Course.getM, hout.masks, hmask, ← Course.getM, getM_leave _ hn]
      refine mask_ext (fun l hl => ?_)
      rw [bit_zero, bit_and, Bool.eq_false_iff, Ne, Bool.and_eq_true, bit_and_not _ _ hl]
      rintro ⟨⟨-, hno⟩, hset⟩
      rw [hset] at hno
      cases hno

end

/-- Settles O28: `steered_transfer` says where each transfer's lanes go, `exec_exit_results` what EXIT leaves. -/
theorem controlTransferResults : Obligations.ControlTransferResults := by
  intro s r o i px hi set x own hop next Goes
  have hst := stands_of_issuing hi
  have hgoes {j : Instr} {t : State} {taken : Nat → Prop} {f : Nat → BitVec 32} (h : exec j s = .next t) (hs : Steered s t taken f) :
      Goes j taken f :=
    ⟨t, h, fun l hl hset => ⟨hs.gone l hl hset, hs.past l hl hset⟩, hs.outside, hs.regs, hs.scalars, hs.masks, hs.lanes, hs.only.ms, hs.only.core⟩
  have hhop17 : refOff own (immInt 17 o.toNat px) = hop (wide 17 o px) := by rw [immInt_eq_wide (by decide), refOff]
  have hhop21 : refOff own (immInt 21 i.toNat px) = hop (wide 21 i px) := by rw [immInt_eq_wide (by decide), refOff]
  refine ⟨fun hr htag => ⟨fun hover => ?_, fun hover => ?_⟩, ?_, fun hover => ⟨?_, fun t ht => ?_⟩, fun hr hover htag hov => ?_,
    exec_exit_results hst, exec_nap_eq s i⟩
  · rw [← hhop17]
    refine hgoes (exec_brnz_of_reg hover hr htag) (steered_transfer hst false _ (fun l hl _ => ?_))
    rw [bit_maskOf _ hl]
    simp [x]
  · rw [← hhop17]
    refine hgoes (exec_brz_of_reg hover hr htag) (steered_transfer hst false _ (fun l hl _ => ?_))
    rw [bit_maskOf _ hl]
    simp [x]
  · rw [← hhop21]
    exact hgoes (exec_jmp i px s) (steered_transfer hst false _ (fun l _ hset => iff_of_true hset trivial))
  · rw [← hhop21]
    exact hgoes (exec_call_of_count hover) (steered_transfer hst true _ (fun l _ hset => iff_of_true hset trivial))
  · rw [exec_call_of_count hover] at ht
    cases ht
    rw [link_transfer hst, getV_putV_same (by decide)]
    exact ⟨rfl, fun l hl hset => (vget_vof _ _ hl).trans (if_pos hset)⟩
  · exact hgoes (exec_ret_of_no_strays hover hr htag (strays_eq_zero hov)) (steered_moveSome hst _)

end Sys2Proof.Proofs
end

section
/-!
PROOFS. Masks, WAITM and WAITC (R196 to R199, R211, R297, R407).
-/

namespace Sys2Proof.Proofs

open Sys2Proof Sys2Proof.Machine Sys2Proof.Statements

/-! ### A change of one mask (R198, R199) -/

section
variable {s : State} {m : BitVec 4}

theorem putMask_done (s : State) (m : BitVec 4) (y : BitVec 32) :
    s.done.putMask m y = (moved s (·.setM m.toNat y)).modMe Course.releaseMasks := by
  have hin : (moved s (·.setM m.toNat y)).modMe Course.releaseMasks =
      s.modMe (fun x => (pastIssue s (x.setM m.toNat y)).releaseMasks) := modCrs_modCrs (fun _ => rfl)
  rw [hin, State.putMask, modMe_done]
  exact congrArg s.modMe (funext (fun x => congrArg Course.releaseMasks rfl))

/-- R75, R199. A LIMM that leaves the ten low bits alone leaves the number of a mask. -/
theorem imm32_of_pxLow {px : Option (BitVec 25)} {i : BitVec 10} (hpx : pxLow px = true) (hi : i.toNat < 12) :
    (imm32 10 i.toNat px).toNat = i.toNat := by
  rw [imm32, BitVec.toNat_ofInt]
  cases px with
  | none =>
    rw [immInt, sextInt]
    omega
  | some p =>
    have hp : p.toNat % 2 ^ 22 = 0 := by
      have h : p.setWidth 22 = 0#22 := beq_iff_eq.1 hpx
      rw [← BitVec.toNat_setWidth, h]
      rfl
    have hlt := p.isLt
    rw [immInt, sextInt]
    omega

theorem exec_mmov_of_wf {i : BitVec 10} {px : Option (BitVec 25)} (hwf : (Instr.mmov m i px).wf = true) : i.toNat < 12 ∧
    exec (.mmov m i px) s = .next (s.done.putMask m (s.me.getM i.toNat &&& ~~~s.me.gone)) := by
  have h : (m < 12 && i < 12 && pxLow px) = true := hwf
  obtain ⟨h12, hpx⟩ := Bool.and_eq_true_iff.1 h
  have hi : i.toNat < 12 := of_decide_eq_true (Bool.and_eq_true_iff.1 h12).2
  refine ⟨hi, ?_⟩
  rw [exec_mmov, execMmov, imm32_of_pxLow hpx hi]

end

/-! ### One value across the issue set (R199, R247) -/

/-- The lanes of a set hold different words where two of them do. -/
theorem differs_iff (set : BitVec 32) (y : VReg) : differs set y = true ↔
    ∃ l l' : Nat, l < 32 ∧ l' < 32 ∧ bit set l = true ∧ bit set l' = true ∧ y.at l ≠ y.at l' := by
  rw [differs, List.any_eq_true]
  constructor
  · rintro ⟨l, hl, hne⟩
    obtain ⟨hlt, hset⟩ := mem_lanesOf.1 hl
    have hsome : set ≠ 0 := by
      rintro rfl
      rw [bit_zero] at hset
      cases hset
    exact ⟨l, lowest set, hlt, lowest_lt set, hset, bit_lowest hsome, bne_iff_ne.1 hne⟩
  · rintro ⟨l, l', hl, hl', hset, hset', hne⟩
    by_cases h : y.at l = y.at (lowest set)
    · exact ⟨l', mem_lanesOf.2 ⟨hl', hset'⟩, bne_iff_ne.2 (fun e => hne (h.trans e.symm))⟩
    · exact ⟨l, mem_lanesOf.2 ⟨hl, hset⟩, bne_iff_ne.2 h⟩

section
variable {s s1 : State} {m : BitVec 4} {v : BitVec 7} {y : VReg}

theorem readSrcs_reg (hv : isPort v = false) (hlt : (s.me.getV v.toNat).tag.toNat < 12) :
    s.readSrcs [v] none 0 = .ok (s, [s.me.getV v.toNat]) := by
  have hgood : badSource ([], s.me.getV v.toNat) = false := by
    rw [badSource, mixedTags, decide_eq_false (Nat.not_le.2 hlt), Bool.or_false]
  simp [State.readSrcs, takeSrcs_one_reg hv, hgood]

/-- R247. What a source is read as, whatever the instruction pushes. -/
theorem takeSrcs_of_readSrcs_one (h : s.readSrcs [v] none 0 = .ok (s1, [y])) :
    ∃ es, s.takeSrcs [v] none 1 = .ok (s1, [(es, y)]) ∧ badSource (es, y) = false := by
  obtain ⟨xs, htake, hmap, hgood⟩ := takeSrcs_of_readSrcs h
  obtain ⟨⟨es, y'⟩, rfl, hy⟩ := List.map_eq_singleton_iff.1 hmap
  cases hy
  exact ⟨es, htake, hgood (v, (es, y')) (List.mem_singleton.2 rfl)⟩

/-- R247. A pop or its fault, whatever the instruction pushes. -/
theorem takeSrcs_one_eq (dst : Option (BitVec 7)) (n : Nat) {xs : List (List Elem × VReg)} (h : s.takeSrcs [v] dst n = .ok (s1, xs)) :
    xs = [] ∨ ∃ x, xs = [x] := by
  rw [State.takeSrcs] at h
  split at h
  · cases h
  · split at h
    · cases h
    · next pops _ =>
      split at h
      · cases h
      · cases h
        cases pops with
        | nil => exact .inl rfl
        | cons p _ => exact .inr ⟨_, rfl⟩

/-- R199. The check of MWRITE's source: one word across the issue set. -/
def uniformCheck (set : BitVec 32) (v : BitVec 7) (vs : List VReg) : Option (Cause × Nat) :=
  if differs set (arg vs 0) then some (.uniform, v.toNat) else none

theorem readUniform_error {e : State} (h : s.vecRead [Src.of v [5, 0]] none false [] true (uniformCheck s.iss.set v) = .error e) :
    s.readUniform v = .error e := by
  have h' : s.vecRead [Src.of v [5, 0]] none false [] true (fun vs => if differs s.iss.set (arg vs 0) then some (.uniform, v.toNat) else none) =
    .error e := h
  simp only [State.readUniform, h']

theorem readUniform_ok {t : BitVec 4} (h : s.vecRead [Src.of v [5, 0]] none false [] true (uniformCheck s.iss.set v) = .ok (s1, t, [y])) :
    s.readUniform v = .ok (s1, y.at (lowest s.iss.set)) := by
  have h' : s.vecRead [Src.of v [5, 0]] none false [] true (fun vs => if differs s.iss.set (arg vs 0) then some (.uniform, v.toNat) else none) =
    .ok (s1, t, [y]) := h
  simp only [State.readUniform, h']
  rfl

/-- R247. What stops the reading of one source of any tag stops MWRITE. -/
theorem readUniform_of_error {e : State} (h : s.readSrcs [v] none 0 = .error e) : s.readUniform v = .error e := by
  have hpushes : s.takeSrcs ([Src.of v [5, 0]].map (·.v)) none 1 = s.takeSrcs [v] none 0 := rfl
  refine readUniform_error ?_
  rw [State.readSrcs] at h
  cases htake : s.takeSrcs [v] none 0 with
  | error t =>
    rw [htake] at h
    cases h
    rw [State.vecRead, hpushes, htake]
    rfl
  | ok r =>
    obtain ⟨s1, xs⟩ := r
    simp only [htake] at h
    split at h
    · next z hz =>
      cases h
      rcases takeSrcs_one_eq none 0 htake with rfl | ⟨⟨es, y⟩, rfl⟩
      · cases hz
      · obtain rfl := List.mem_singleton.1 (List.mem_of_find?_eq_some hz)
        have hbad : badSource (es, y) = true := List.find?_some (p := fun x : BitVec 7 × (List Elem × VReg) => badSource x.2) hz
        exact vecRead_one_fault htake (by rw [hbad, Bool.true_or])
    · cases h

section
variable (h : s.readSrcs [v] none 0 = .ok (s1, [y]))
include h

theorem readUniform_of_tag (hN32 : y.tag ≠ 5) (hRaw : y.tag ≠ 0) : s.readUniform v = .error (s.fail .format v.toNat) := by
  obtain ⟨es, htake, -⟩ := takeSrcs_of_readSrcs_one h
  have hno : ([5, 0] : List (BitVec 4)).contains y.tag = false := by
    rw [Bool.eq_false_iff, Ne, List.contains_iff_mem, List.mem_pair]
    exact not_or.2 ⟨hN32, hRaw⟩
  exact readUniform_error (vecRead_one_fault htake (by rw [hno, Bool.not_false, Bool.or_true]))

section
variable (htag : y.tag = 5 ∨ y.tag = 0)
include htag

/-- R199. An accepted source as it is taken. -/
theorem taken_without_fault : ∃ es, s.takeSrcs [v] none 1 = .ok (s1, [(es, y)]) ∧
    (badSource (es, y) || !([5, 0] : List (BitVec 4)).contains y.tag) = false := by
  obtain ⟨es, htake, hgood⟩ := takeSrcs_of_readSrcs_one h
  refine ⟨es, htake, ?_⟩
  rw [hgood, List.contains_iff_mem.2 (List.mem_pair.2 htag)]
  rfl

theorem readUniform_of_differs (hd : differs s.iss.set y = true) : s.readUniform v = .error (s.fail .uniform v.toNat) := by
  obtain ⟨es, htake, hfault⟩ := taken_without_fault h htag
  exact readUniform_error (vecRead_one_checked htake hfault (if_pos hd))

theorem readUniform_of_uniform (hd : ¬ differs s.iss.set y = true) : s.readUniform v = .ok (s1, y.at (lowest s.iss.set)) := by
  obtain ⟨es, htake, hfault⟩ := taken_without_fault h htag
  exact readUniform_ok (vecRead_one_ok htake hfault (if_neg hd))

end

end

/-! ### MWRITE (R199) -/

section
variable (hover : s.overCount (.mwrite m v) = none)
include hover

theorem exec_mwrite_error {e : State} (h : s.readUniform v = .error e) : exec (.mwrite m v) s = .next e := by
  rw [exec_mwrite, execMwrite, gate_none _ hover, h]

theorem exec_mwrite_ok {w : Word} (h : s.readUniform v = .ok (s1, w)) :
    exec (.mwrite m v) s = .next ((moved s1 (·.setM m.toNat (w &&& ~~~s.me.gone))).modMe Course.releaseMasks) := by
  rw [exec_mwrite, execMwrite, gate_none _ hover, h, ← putMask_done]

end

end

/-! ### WAITM (R196, R198, R199) -/

/-- R196, R199. The issue set waits at mask m, of which it is made members. -/
def enlist (s : State) (m : BitVec 4) (y : Course) : Course :=
  { (y.setLane s.iss.set (.waiting m)).setM m.toNat (s.me.getM m.toNat ||| s.iss.set) with stall := none }

/-- R198, R199. The state after a WAITM and the release of masks, before the test for a deadlock. -/
def waitsAt (s : State) (m : BitVec 4) : State := (s.modMe (enlist s m)).modMe Course.releaseMasks

section
variable {s : State} {m : BitVec 4}

theorem exec_waitm_eq (s : State) (m : BitVec 4) : exec (.waitm m) s = .next ((waitsAt s m).checkDeadlock s.iss.k s.iss.c) := by
  have hin : waitsAt s m = s.modMe (fun y => (enlist s m y).releaseMasks) := modCrs_modCrs (fun _ => rfl)
  have hout : (s.modMe (fun y => ({ (y.setLane s.iss.set (.waiting m)) with stall := none }))).putMask m (s.me.getM m.toNat ||| s.iss.set) =
    s.modMe (fun y => (({ (y.setLane s.iss.set (.waiting m)) with stall := none } : Course).setM m.toNat
      (s.me.getM m.toNat ||| s.iss.set)).releaseMasks) := modCrs_modCrs (fun _ => rfl)
  rw [exec_waitm, execWaitm, hin, hout]
  rfl

theorem idx_releaseMasks (x : Course) : x.releaseMasks.idx = x.idx := by
  obtain ⟨ls, ps, fs, e⟩ := releaseMasks_frame x
  rw [e]

theorem me_waitsAt (hst : Stands s s.iss.k s.iss.c) : (waitsAt s m).me = (enlist s m s.me).releaseMasks := by
  have hst' : Stands (s.modMe (enlist s m)) s.iss.k s.iss.c := modCrs_stands hst
  exact (me_modMe hst' idx_releaseMasks).trans (congrArg Course.releaseMasks (me_modMe hst))

theorem laneAt_enlist (s : State) (m : BitVec 4) {l : Nat} (hl : l < 32) :
    (enlist s m s.me).laneAt l = if bit s.iss.set l then .waiting m else s.me.laneAt l := laneAt_setLane s.me _ _ hl

theorem getM_enlist (s : State) (hm : m.toNat < 12) : (enlist s m s.me).getM m.toNat = s.me.getM m.toNat ||| s.iss.set :=
  vget_vset_same _ _ _ hm

theorem inState_eq_zero_iff {x : Course} {p : LaneState → Bool} : x.inState p = 0 ↔ ∀ l : Nat, l < 32 → p (x.laneAt l) = false := by
  constructor
  · intro h l hl
    rw [Bool.eq_false_iff, Ne, ← bit_maskOf (fun l => p (x.laneAt l)) hl]
    change ¬ bit (x.inState p) l = true
    rw [h, bit_zero]
    exact Bool.false_ne_true
  · intro h
    refine maskOf_eq (fun l hl => ?_)
    rw [bit_zero, h l hl]

/-- R196. Does a lane run, or is one parked? -/
theorem nothing_moves_iff {x : Course} :
    x.running = 0 ∧ x.parkedLanes = 0 ↔ ∀ l : Nat, l < 32 → x.laneAt l ≠ .running ∧ x.laneAt l ≠ .parked := by
  rw [Course.running, Course.parkedLanes, inState_eq_zero_iff, inState_eq_zero_iff]
  constructor
  · rintro ⟨hrun, hpark⟩ l hl
    exact ⟨beq_eq_false_iff_ne.1 (hrun l hl), beq_eq_false_iff_ne.1 (hpark l hl)⟩
  · exact fun h => ⟨fun l hl => beq_eq_false_iff_ne.2 (h l hl).1, fun l hl => beq_eq_false_iff_ne.2 (h l hl).2⟩

/-- R196. While a lane runs, or is parked, no wait is a deadlock. -/
theorem checkDeadlock_of_moving {k c : Nat} {l : Nat} (hl : l < 32)
    (h : (s.crs k c).laneAt l = .running ∨ (s.crs k c).laneAt l = .parked) : s.checkDeadlock k c = s :=
  if_neg (fun ⟨_, hno⟩ => h.elim (nothing_moves_iff.1 hno l hl).1 (nothing_moves_iff.1 hno l hl).2)

theorem checkDeadlock_of_none_waiting {k c : Nat} (h : (s.crs k c).waitingLanes = 0) : s.checkDeadlock k c = s :=
  if_neg (fun ⟨hw, _⟩ => hw h)

theorem checkDeadlock_of_deadlock {k c : Nat} (hw : (s.crs k c).waitingLanes ≠ 0)
    (h : ∀ l : Nat, l < 32 → (s.crs k c).laneAt l ≠ .running ∧ (s.crs k c).laneAt l ≠ .parked) :
    s.checkDeadlock k c = s.deliver k c ((s.crs k c).lpcAt (lowest (s.crs k c).waitingLanes)) (s.crs k c).lpcAt
      [{ cause := .maskDeadlock, lanes := (s.crs k c).waitingLanes, info := (s.crs k c).waitingLanes.setWidth 64 }] := by
  rw [State.checkDeadlock, if_pos ⟨hw, nothing_moves_iff.2 h⟩, BitVec.ofNat_toNat]

/-- R196, R199. WAITM where another lane runs and a member of the mask does not wait there: the lanes of the issue set wait. -/
theorem exec_waitm_waits (hst : Stands s s.iss.k s.iss.c) (hm : m.toNat < 12)
    (hrun : ∃ l : Nat, l < 32 ∧ bit s.iss.set l = false ∧ s.me.laneAt l = .running)
    (hhold : ∃ l : Nat, l < 32 ∧ bit (s.me.getM m.toNat) l = true ∧ bit s.iss.set l = false ∧ s.me.laneAt l ≠ .waiting m) :
    exec (.waitm m) s = .next (waitsAt s m) ∧
    ∀ l : Nat, l < 32 → bit s.iss.set l = true → (waitsAt s m).me.laneAt l = .waiting m ∧ (waitsAt s m).me.lpcAt l = s.me.lpcAt l := by
  rw [exec_waitm_eq, me_waitsAt hst]
  constructor
  · obtain ⟨l, hl, hset, hl'⟩ := hrun
    have hstays : (enlist s m s.me).laneAt l = .running := by
      rw [laneAt_enlist s m hl, hset]
      exact hl'
    have hruns : (waitsAt s m).me.laneAt l = .running := by
      rw [me_waitsAt hst, ← hstays]
      exact (releaseMasks_of_not_waiting hl (fun n e => LaneState.noConfusion (hstays.symm.trans e))).1
    exact congrArg Host.Outcome.next (checkDeadlock_of_moving hl (.inl hruns))
  · obtain ⟨l₀, hl₀, hin, hset₀, hno⟩ := hhold
    intro l hl hset
    have hheld : HeldWaiting m l₀ l (s.me.lpcAt l) (enlist s m s.me) := by
      refine ⟨?_, ?_, ?_, rfl⟩
      · rw [getM_enlist s hm, bit_or, hin, Bool.true_or]
      · rw [laneAt_enlist s m hl₀, hset₀]
        exact hno
      · rw [laneAt_enlist s m hl, if_pos hset]
    have hend := releaseMasks_heldWaiting hl₀ hl hheld
    exact ⟨hend.waits, hend.lpc⟩

/-- R196, R198. WAITM where every member of the mask waits at it: all are released. -/
theorem exec_waitm_releases (hst : Stands s s.iss.k s.iss.c) (hm : m.toNat < 12) (hsome : s.iss.set ≠ 0)
    (hall : ∀ l : Nat, l < 32 → bit (s.me.getM m.toNat) l = true → bit s.iss.set l = true ∨ s.me.laneAt l = .waiting m) :
    exec (.waitm m) s = .next (waitsAt s m) ∧ ∀ l : Nat, l < 32 → bit s.iss.set l = true → (waitsAt s m).me.laneAt l = .running := by
  have hmembers (l : Nat) (hl : l < 32) (h : bit s.iss.set l = true ∨ s.me.laneAt l = .waiting m) :
      (enlist s m s.me).laneAt l = .waiting m := by
    rw [laneAt_enlist s m hl]
    split
    · rfl
    · next hset => exact h.resolve_left hset
  have hruns (l : Nat) (hl : l < 32) (hset : bit s.iss.set l = true) : (waitsAt s m).me.laneAt l = .running := by
    rw [me_waitsAt hst]
    refine releaseMasks_of_all_waiting hm (fun i hi hin => hmembers i hi ?_) hl (hmembers l hl (.inl hset))
    rw [getM_enlist s hm, bit_or, Bool.or_eq_true] at hin
    exact hin.elim (hall i hi) .inl
  refine ⟨?_, hruns⟩
  rw [exec_waitm_eq]
  exact congrArg Host.Outcome.next (checkDeadlock_of_moving (lowest_lt _) (.inl (hruns _ (lowest_lt _) (bit_lowest hsome))))

end

/-! ### WAITC (R211, R297, R407) -/

section
variable {c : Course} {k : BitVec 8}

/-- R211. What WAITC waits for. -/
theorem waitcMet_iff (ld : BitVec 5) (st cp tl : BitVec 4) : c.waitcMet ld.toNat st.toNat cp.toNat tl.toNat k = true ↔
    (ld = 31 ∨ c.loads ≤ ld.toNat) ∧ (st = 15 ∨ c.stores ≤ st.toNat) ∧ (cp = 15 ∨ c.copies ≤ cp.toNat) ∧
      (tl = 15 ∨ c.tiles ≤ tl.toNat) ∧ ∀ n : Nat, n < 8 → k.getLsbD n = true → (c.token n).st ≠ .pending := by
  have hall {w : Nat} (x y : BitVec w) : (x.toNat == y.toNat) = true ↔ x = y := beq_iff_eq.trans BitVec.toNat_inj
  have hld := hall ld 31
  have hst := hall st 15
  have hcp := hall cp 15
  have htl := hall tl 15
  have hpending : (!(List.range 8).any (fun n => k.getLsbD n && (c.token n).pending)) = true ↔
      ∀ n : Nat, n < 8 → k.getLsbD n = true → (c.token n).st ≠ .pending := by
    simp [Token.pending]
  rw [Course.waitcMet]
  simp only [Bool.and_eq_true, Bool.or_eq_true, hpending, decide_eq_true_eq, and_assoc]
  exact and_congr (or_congr hld Iff.rfl) (and_congr (or_congr hst Iff.rfl) (and_congr (or_congr hcp Iff.rfl)
    (and_congr (or_congr htl Iff.rfl) Iff.rfl)))

/-- R297. The error of token n, where the mask names it. -/
def errorAt (c : Course) (k : BitVec 8) (n : Nat) : Option (Nat × Cause) :=
  if k.getLsbD n then (match (c.token n).st with
    | .error cause => some (n, cause)
    | _ => none) else none

theorem errorAt_eq_none_iff {n : Nat} : errorAt c k n = none ↔ (k.getLsbD n = true → ∀ cause, (c.token n).st ≠ .error cause) := by
  rw [errorAt]
  split
  · next hk =>
    cases hst : (c.token n).st <;> simp [hk]
  · next hk => simp [hk]

theorem errorAt_of_error {n : Nat} {cause : Cause} (hk : k.getLsbD n = true) (h : (c.token n).st = .error cause) :
    errorAt c k n = some (n, cause) := by
  rw [errorAt, if_pos hk, h]

theorem tokenError_eq (c : Course) (k : BitVec 8) : c.tokenError k = (List.range 8).findSome? (errorAt c k) := by
  unfold errorAt
  rfl

theorem tokenError_eq_none_iff :
    c.tokenError k = none ↔ ∀ n : Nat, n < 8 → k.getLsbD n = true → ∀ cause, (c.token n).st ≠ .error cause := by
  rw [tokenError_eq, List.findSome?_eq_none_iff]
  exact ⟨fun h n hn => errorAt_eq_none_iff.1 (h n (List.mem_range.2 hn)), fun h n hn => errorAt_eq_none_iff.2 (h n (List.mem_range.1 hn))⟩

theorem tokenError_of_lowest {n : Nat} {cause : Cause} (hn : n < 8) (hk : k.getLsbD n = true) (h : (c.token n).st = .error cause)
    (hlow : ∀ i, i < n → k.getLsbD i = true → ∀ cause, (c.token i).st ≠ .error cause) : c.tokenError k = some (n, cause) := by
  have hsplit : List.range 8 = List.range n ++ n :: ((List.range (7 - n)).map (n + 1 + ·)) := by
    rw [show 8 = n + 1 + (7 - n) by omega, List.range_add, List.range_succ, List.append_assoc]
    rfl
  have hbefore : (List.range n).findSome? (errorAt c k) = none :=
    List.findSome?_eq_none_iff.2 (fun i hi => errorAt_eq_none_iff.2 (hlow i (List.mem_range.1 hi)))
  rw [tokenError_eq, hsplit, List.findSome?_append, hbefore, List.findSome?_cons, errorAt_of_error hk h]
  rfl

end

/-- R297, R407. The error is delivered, and its token freed unless no lane of the issue set may take it. -/
theorem tokenTrap_eq (s : State) (n : Nat) (cause : Cause) : s.tokenTrap n cause =
    if s.me.hmask ≠ 0 ∧ s.iss.set &&& s.me.hmask = 0 then s.trapWhole cause ((s.me.token n).info n cause)
    else (s.modMe (fun y => { y with tokens := vset y.tokens n Token.fresh })).trapWhole cause ((s.me.token n).info n cause) :=
  apply_ite (fun t : State => t.trapWhole cause ((s.me.token n).info n cause)) _ _ _

/-- Settles O30: the release of masks as the laws about it have it, a uniform source, and the condition and error of WAITC. -/
theorem maskAndWaitResults : Obligations.MaskAndWaitResults := by
  intro s s1 m i px v t ld st cp tl tk hi hm x set put
  have hst := stands_of_issuing hi
  have hput (y : BitVec 32) : s.done.putMask m y = put y := putMask_done s m y
  refine ⟨?join, ?leave, fun hwf => ?mmov, fun hover hv htag hsame => ?mwriteReg,
    fun hover y hread => ⟨fun h5 h0 => ?mwriteFormat, fun htag hd => ?mwriteUniform, fun htag hd => ?mwriteRead⟩,
    fun hover e he => ?mwriteError, fun hover hread => ?mread, fun hover hread => ?mcount, fun hsome hrun hhold => ?waitmWaits,
    fun hsome hall => ?waitmReleases, ⟨fun h => ?waitmStays, fun hw hno => ?waitmDeadlock⟩, ?waitc⟩
  case join => rw [exec_join, execJoin, hput]
  case leave => rw [exec_leave, execLeave, hput]
  case mmov =>
    rw [← hput]
    exact exec_mmov_of_wf hwf
  case mwriteReg =>
    have hlt : (x.getV v.toNat).tag.toNat < 12 := by rcases htag with h | h <;> rw [h] <;> decide
    refine exec_mwrite_ok hover (readUniform_of_uniform (readSrcs_reg hv hlt) htag (fun hd => ?_))
    obtain ⟨l, l', hl, hl', hset, hset', hne⟩ := (differs_iff _ _).1 hd
    exact hne (hsame l l' hl hl' hset hset')
  case mwriteFormat => exact exec_mwrite_error hover (readUniform_of_tag hread h5 h0)
  case mwriteUniform => exact exec_mwrite_error hover (readUniform_of_differs hread htag ((differs_iff _ _).2 hd))
  case mwriteRead => exact exec_mwrite_ok hover (readUniform_of_uniform hread htag (fun h => hd ((differs_iff _ _).1 h)))
  case mwriteError => exact exec_mwrite_error hover (readUniform_of_error he)
  case mread => exact yields_vec (u := fun _ => 5) (f := fun _ _ _ => x.getM m.toNat) (exec_mread m v s) rfl hover hread (fun _ _ _ => rfl)
  case mcount =>
    refine yields_vec (u := fun _ => 5) (f := fun _ _ _ => BitVec.ofNat 32 (popcount (x.getM m.toNat))) (exec_mcount m v s) rfl hover hread
      (fun _ _ _ => ?_)
    have hle : popcount (x.getM m.toNat) ≤ 32 := (List.length_filter_le _ _).trans_eq List.length_range
    exact Nat.mod_eq_of_lt (by omega)
  case waitmWaits =>
    obtain ⟨hexec, hlanes⟩ := exec_waitm_waits hst hm hrun hhold
    obtain ⟨ls, ps, fs, hframe⟩ := releaseMasks_frame (enlist s m s.me)
    refine ⟨_, hexec, hlanes, ?_, ?_, ?_, rfl⟩ <;> rw [me_waitsAt hst, hframe]
    · exact getM_enlist s hm
    · rfl
    · rfl
  case waitmReleases => exact ⟨_, exec_waitm_releases hst hm hsome hall⟩
  case waitmStays =>
    rw [exec_waitm_eq]
    rcases h with hw | ⟨l, hl, hmoves⟩
    · exact congrArg Host.Outcome.next (checkDeadlock_of_none_waiting hw)
    · exact congrArg Host.Outcome.next (checkDeadlock_of_moving hl hmoves)
  case waitmDeadlock =>
    rw [exec_waitm_eq]
    exact congrArg Host.Outcome.next (checkDeadlock_of_deadlock hw hno)
  case waitc =>
    intro met
    have hmet : x.waitcMet ld.toNat st.toNat cp.toNat tl.toNat tk = true ↔ met := waitcMet_iff ld st cp tl
    refine ⟨fun h => ⟨tokenError_eq_none_iff, fun hnone => ?_, fun n cause hn hk herr hlow => ?_⟩, fun h => ?_⟩
    · rw [exec_waitc, execWaitc, if_pos (hmet.2 h), hnone, done_eq_moved]
      rfl
    · rw [exec_waitc, execWaitc, if_pos (hmet.2 h), tokenError_of_lowest hn hk herr hlow]
      exact congrArg Host.Outcome.next (tokenTrap_eq s n cause)
    · rw [exec_waitc, execWaitc, if_neg (fun e => h (hmet.1 e))]

end Sys2Proof.Proofs
end

section
/-!
PROOFS. Computing in registers: what it writes, and what it leaves (R192, R195, R223, R247, R405).
-/

namespace Sys2Proof.Proofs

open Sys2Proof Sys2Proof.Machine Sys2Proof.Statements

/-- From s to t the issuing course's registers, ports and place changed, in the lanes of the issue set, and the channels of its consort. -/
structure Writes (s t : State) : Prop where
  only : OnlyConsorts s t
  aside : Aside s t s.iss.k s.iss.c
  flight : InFlight s.me t.me
  outside : Outside s.iss.set s.me t.me

/-- From s to t no more changed than a result or a trap of the issue set changes, and the causes of lanes that REFUSE let go. -/
structure Leaves (s t : State) : Prop where
  only : OnlyConsorts s t
  aside : Aside s t s.iss.k s.iss.c
  flight : InFlight s.me t.me
  lanes : s.iss.refused = 0 → EndedOr s.iss.set s.me t.me

section
variable {s t u : State}

theorem Writes.refl (s : State) : Writes s s := ⟨.refl s, .refl s _ _, .refl _, .refl _ _⟩

theorem Writes.trans (h : Writes s t) (g : Writes t u) : Writes s u := by
  have hiss := h.only.iss
  refine ⟨h.only.trans g.only, h.aside.trans ?_, h.flight.trans g.flight, h.outside.trans ?_⟩
  · rw [← hiss]
    exact g.aside
  · rw [← hiss]
    exact g.outside

theorem Writes.leaves (h : Writes s t) : Leaves s t := ⟨h.only, h.aside, h.flight, fun _ => ⟨h.flight, .inr h.outside⟩⟩

theorem Writes.stands (h : Writes s t) (hst : Stands s s.iss.k s.iss.c) : Stands t t.iss.k t.iss.c := by
  rw [h.only.iss]
  exact h.aside.stands _ _ hst

end

/-! ### Writing (R195, R247) -/

theorem outside_putV (x : Course) (n : Nat) (tag : BitVec 4) (set : BitVec 32) (f : Nat → Word) : Outside set x (x.putV n tag set f) :=
  ⟨rfl, rfl, fun _ hl hno => ⟨rfl, rfl, at_putV_of_not x n tag set f hl hno⟩⟩

theorem outside_setLpc (x : Course) (set : BitVec 32) (f : Nat → BitVec 32) : Outside set x (x.setLpc set f) := by
  refine ⟨rfl, rfl, fun l hl hno => ⟨?_, rfl, fun _ => rfl⟩⟩
  rw [lpcAt_setLpc x set f hl, hno, if_neg Bool.false_ne_true]

section
variable {s t : State} (hst : Stands s s.iss.k s.iss.c)
include hst

theorem writes_modMe {f : Course → Course} (hidx : ∀ x, (f x).idx = x.idx) (hflight : InFlight s.me (f s.me))
    (hout : Outside s.iss.set s.me (f s.me)) : Writes s (s.modMe f) := by
  have hme : (s.modMe f).me = f s.me := me_modMe hst hidx
  refine ⟨modMe_only s f, aside_modCrs hidx, ?_, ?_⟩
  · rwa [hme]
  · rwa [hme]

theorem writes_done : Writes s s.done := by
  rw [done_eq_moved]
  exact writes_modMe hst (fun _ => rfl) ⟨rfl, rfl, rfl, rfl, rfl, rfl, rfl, rfl, rfl⟩
    ((outside_setLpc s.me s.iss.set _).trans (outside_of_eq rfl rfl rfl rfl rfl))

theorem writes_setS (n : Nat) (x : DWord) : Writes s (s.setS n x) :=
  writes_modMe hst (fun _ => rfl) ⟨rfl, rfl, rfl, rfl, rfl, rfl, rfl, rfl, rfl⟩ (outside_of_eq rfl rfl rfl rfl rfl)

theorem writes_putV (n : Nat) (tag : BitVec 4) (f : Nat → Word) : Writes s (s.modMe (fun c => c.putV n tag s.iss.set f)) :=
  writes_modMe hst (fun _ => rfl) ⟨rfl, rfl, rfl, rfl, rfl, rfl, rfl, rfl, rfl⟩
    (outside_putV s.me n tag s.iss.set f)

/-- What every step of a loop keeps, the loop keeps. -/
theorem writes_forAll {β : Type} {g : Course → β → Course} (hidx : ∀ x j, (g x j).idx = x.idx) (hflight : ∀ x j, InFlight x (g x j))
    (hout : ∀ x j, Outside s.iss.set x (g x j)) (ns : List β) : Writes s (s.modMe (fun c => forAll ns c g)) :=
  writes_modMe hst (fun x => forAll_induct (P := fun y => y.idx = x.idx) (fun y j h => (hidx y j).trans h) ns x rfl)
    (forAll_induct (P := InFlight s.me) (fun y j h => h.trans (hflight y j)) ns s.me (.refl _))
    (forAll_induct (P := Outside s.iss.set s.me) (fun y j h => h.trans (hout y j)) ns s.me (.refl _ _))

/-- R110, R243. Several registers written one after another. -/
theorem writes_putVs (ns : List Nat) (reg : Nat → Nat) (tag : BitVec 4) (f : Nat → Nat → Word) :
    Writes s (s.modMe (fun c => forAll ns c (fun c j => c.putV (reg j) tag s.iss.set (f j)))) :=
  writes_forAll (g := fun c j => c.putV (reg j) tag s.iss.set (f j)) hst (fun _ _ => rfl) (fun _ _ => ⟨rfl, rfl, rfl, rfl, rfl, rfl, rfl, rfl, rfl⟩)
    (fun y j => outside_putV y (reg j) tag s.iss.set (f j)) ns

theorem writes_setPort (q : Nat) (p : Port) : Writes s (s.modMe (·.setPort q p)) :=
  writes_modMe hst (fun _ => rfl) ⟨rfl, rfl, rfl, rfl, rfl, rfl, rfl, rfl, rfl⟩ (outside_of_eq rfl rfl rfl rfl rfl)

theorem writes_setProbef : Writes s (s.modMe (fun c => { c with probef := true })) :=
  writes_modMe hst (fun _ => rfl) ⟨rfl, rfl, rfl, rfl, rfl, rfl, rfl, rfl, rfl⟩ (outside_of_eq rfl rfl rfl rfl rfl)

theorem writes_stallAt (why : StallWhy) (reg : Nat) : Writes s (s.stallAt why reg) :=
  writes_modMe hst (fun _ => rfl) ⟨rfl, rfl, rfl, rfl, rfl, rfl, rfl, rfl, rfl⟩ (outside_of_eq rfl rfl rfl rfl rfl)

end

section
variable {s t : State}

theorem writes_channels {f : Consort → Consort} (hf : ∀ q, ∃ ch, f q = { q with channels := ch }) : Writes s (s.modMine f) := by
  have hcourses (q : Consort) : (f q).id = q.id ∧ (f q).courses = q.courses := by
    obtain ⟨ch, e⟩ := hf q
    rw [e]
    exact ⟨rfl, rfl⟩
  have hme : (s.modMine f).me = s.me := crs_modCons (fun q => (hcourses q).1) (fun q => (hcourses q).2)
  refine ⟨modMine_only s f, aside_channels hf, ?_, ?_⟩
  · rw [hme]
    exact .refl _
  · rw [hme]
    exact .refl _ _

section
variable (hst : Stands s s.iss.k s.iss.c)
include hst

theorem writes_portDrop (q n : Nat) : Writes s (s.portDrop s.iss.k s.iss.c q n) := by
  rw [State.portDrop]
  split
  · exact writes_channels (fun _ => ⟨_, rfl⟩)
  · exact writes_setPort hst q _

theorem writes_portPush (q : Nat) (es : List Elem) : Writes s (s.portPush s.iss.k s.iss.c q es) := by
  rw [State.portPush]
  split
  · exact writes_channels (fun _ => ⟨_, rfl⟩)
  · exact writes_setPort hst q _

theorem writes_writeDst (d : BitVec 7) (tag : BitVec 4) (f : Nat → Word) : Writes s (s.writeDst d tag f) := by
  rw [State.writeDst]
  split
  · exact writes_portPush hst _ _
  · exact writes_putV hst _ _ _

theorem writes_popOne {v : BitVec 7} {n : Nat} {es : List Elem} (h : s.popOne v n = some (t, es)) : Writes s t := by
  rw [State.popOne] at h
  split at h
  · dsimp only at h
    split at h
    · cases h
    · cases h
      exact writes_portDrop hst _ _
  · cases h
    exact .refl s

end

theorem writes_popAll {n : Nat} {vs : List (BitVec 7)} {es : List (List Elem)} (hst : Stands s s.iss.k s.iss.c)
    (h : s.popAll n vs = some (t, es)) : Writes s t := by
  induction vs generalizing s t es with
  | nil =>
    cases h
    exact .refl s
  | cons v vs ih =>
    rw [State.popAll] at h
    split at h
    · cases h
    · next s1 _ hone =>
      have hw := writes_popOne hst hone
      split at h
      · cases h
      · next hrest =>
        cases h
        exact hw.trans (ih (hw.stands hst) hrest)

/-! ### Traps of the whole issue set (R80, R405) -/

section
variable (hst : Stands s s.iss.k s.iss.c)
include hst

theorem leaves_trapWhole (cause : Cause) (info : DWord) : Leaves s (s.trapWhole cause info) := by
  have hme : (s.trapWhole cause info).me = (s.trapWhole cause info).crs s.iss.k s.iss.c := by rw [State.me, (trapWhole_only s cause info).iss]
  refine ⟨trapWhole_only s cause info, aside_deliver, ?_, fun h => ?_⟩
  · rw [hme]
    exact inFlight_deliver hst
  · have hnow : s.refusedNow s.iss.k s.iss.c = 0 := refusedNow_of_none h
    have hend := endedOr_deliver (ref := s.iss.own) (ret := fun _ => s.iss.at_)
      (gs := [{ cause := cause, lanes := s.iss.set ||| s.refusedNow s.iss.k s.iss.c, info := info }]) hst hnow
    have hlanes : lanesTaking [{ cause := cause, lanes := s.iss.set ||| s.refusedNow s.iss.k s.iss.c, info := info }] = s.iss.set := by
      rw [hnow]
      exact BitVec.zero_or.trans BitVec.or_zero
    rw [hlanes] at hend
    rw [hme]
    exact hend

theorem leaves_fail (cause : Cause) (reg : Nat) : Leaves s (s.fail cause reg) := leaves_trapWhole hst _ _

theorem leaves_noProfile : Leaves s s.noProfile := by
  rw [State.noProfile]
  split
  · have hdone := writes_done hst
    exact (hdone.trans (writes_setProbef (hdone.stands hst))).leaves
  · exact leaves_trapWhole hst _ _

/-! ### Reading operands (R223, R247) -/

/-- R247. Sources are taken, or the instruction ends in a trap or a stall. -/
theorem takeSrcs_leaves (srcs : List (BitVec 7)) (dst : Option (BitVec 7)) (n : Nat) :
    (∀ t, s.takeSrcs srcs dst n = .error t → Leaves s t) ∧ ∀ t xs, s.takeSrcs srcs dst n = .ok (t, xs) → Writes s t := by
  rw [State.takeSrcs]
  split
  · exact ⟨fun t h => Except.error.inj h ▸ leaves_fail hst _ _, fun t xs h => nomatch h⟩
  · split
    · exact ⟨fun t h => Except.error.inj h ▸ (writes_stallAt hst _ _).leaves, fun t xs h => nomatch h⟩
    · next hpop =>
      split
      · exact ⟨fun t h => Except.error.inj h ▸ (writes_stallAt hst _ _).leaves, fun t xs h => nomatch h⟩
      · refine ⟨fun t h => (nomatch h), fun t xs h => ?_⟩
        cases h
        exact writes_popAll hst hpop

theorem vecRead_leaves (srcs : List Src) (d : Option (BitVec 7)) (fp : Bool) (accept : List (BitVec 4)) (rawOk : Bool)
    (check : List VReg → Option (Cause × Nat)) : (∀ t, s.vecRead srcs d fp accept rawOk check = .error t → Leaves s t) ∧
      ∀ t ty vs, s.vecRead srcs d fp accept rawOk check = .ok (t, ty, vs) → Writes s t := by
  obtain ⟨hend, hread⟩ := takeSrcs_leaves hst (srcs.map (·.v)) d 1
  rw [State.vecRead]
  split
  · exact ⟨fun t h => Except.error.inj h ▸ leaves_noProfile hst, fun t ty vs h => nomatch h⟩
  · cases htake : s.takeSrcs (srcs.map (·.v)) d 1 with
    | error e => exact ⟨fun t h => Except.error.inj h ▸ hend e htake, fun t ty vs h => nomatch h⟩
    | ok r =>
      obtain ⟨s1, ys⟩ := r
      dsimp only
      split
      · exact ⟨fun t h => Except.error.inj h ▸ leaves_fail hst _ _, fun t ty vs h => nomatch h⟩
      · split
        · exact ⟨fun t h => Except.error.inj h ▸ leaves_fail hst _ _, fun t ty vs h => nomatch h⟩
        · refine ⟨fun t h => (nomatch h), fun t ty vs h => ?_⟩
          cases h
          exact hread _ _ htake

end

/-! ### The forms in which instructions compute -/

/-- What a computing instruction makes of s, by the form of its result. -/
inductive Computed (s : State) : State → Prop
  | vec (srcs : List Src) (d : BitVec 7) (fp : Bool) (accept : List (BitVec 4)) (rawOk : Bool)
      (f : BitVec 4 → List VReg → BitVec 4 × (Nat → Word)) : Computed s (s.vec srcs d fp accept rawOk f)
  | short (d : BitVec 6) (sOp : Option (BitVec 5)) (accept : List (BitVec 4)) (sTag : BitVec 4 → BitVec 4 → Bool)
      (f : BitVec 4 → Word → Word → Word) : Computed s (s.short d sOp accept sTag f)
  | scalar (d : BitVec 6) (x : DWord) : Computed s (s.putScalar d x)
  | vtos (d : BitVec 6) (a : BitVec 7) (h : BitVec 1) : Computed s (s.vtos d a h)
  | rng4 (d : BitVec 5) (a : BitVec 7) (k : BitVec 6) : Computed s (s.rng4 d a k)
  | qdec (d : BitVec 5) (a b : BitVec 7) : Computed s (s.qdec d a b)

section
variable (hst : Stands s s.iss.k s.iss.c)
include hst

theorem Writes.done (h : Writes s t) : Writes s t.done := h.trans (writes_done (h.stands hst))

theorem writes_putScalar (d : BitVec 6) (x : DWord) : Writes s (s.putScalar d x) := (writes_setS hst _ _).done hst

theorem leaves_vec (srcs : List Src) (d : BitVec 7) (fp : Bool) (accept : List (BitVec 4)) (rawOk : Bool)
    (f : BitVec 4 → List VReg → BitVec 4 × (Nat → Word)) : Leaves s (s.vec srcs d fp accept rawOk f) := by
  obtain ⟨hend, hread⟩ := vecRead_leaves hst srcs (some d) fp accept rawOk (fun _ => none)
  rw [State.vec]
  split
  · next t h => exact hend t h
  · next s1 ty vs h =>
    have hw := hread s1 ty vs h
    exact ((hw.trans (writes_writeDst (hw.stands hst) _ _ _)).done hst).leaves

theorem leaves_short (d : BitVec 6) (sOp : Option (BitVec 5)) (accept : List (BitVec 4)) (sTag : BitVec 4 → BitVec 4 → Bool)
    (f : BitVec 4 → Word → Word → Word) : Leaves s (s.short d sOp accept sTag f) := by
  have hput (tag : BitVec 4) (g : Nat → Word) : Leaves s (s.modMe (fun c => c.putV d.toNat tag s.iss.set g)).done :=
    ((writes_putV hst d.toNat tag g).done hst).leaves
  unfold State.short
  dsimp only
  split
  · exact leaves_fail hst _ _
  · cases sOp with
    | none => exact hput _ _
    | some r =>
      dsimp only
      split
      · exact leaves_fail hst _ _
      · exact hput _ _

theorem leaves_vtos (d : BitVec 6) (a : BitVec 7) (h : BitVec 1) : Leaves s (s.vtos d a h) := by
  obtain ⟨hend, hread⟩ := vecRead_leaves hst [Src.of a anyTag] none false [] true (uniformCheck s.iss.set a)
  unfold State.vtos
  dsimp only
  split
  · next t h => exact hend t h
  · next s1 ty vs h =>
    have hw := hread s1 ty vs h
    exact (hw.trans (writes_putScalar (hw.stands hst) _ _)).leaves

/-- The four registers of QDEC and RNG4, written after the operands' pops. -/
theorem leaves_put4 {s1 : State} (h : Writes s s1) (d : BitVec 5) (tag : BitVec 4) (f : Nat → Nat → Word) :
    Leaves s (s1.modMe (fun c => forAll (List.range 4) c (fun c j => c.putV (4 * d.toNat + j) tag s.iss.set (f j)))).done := by
  have hput := writes_putVs (h.stands hst) (List.range 4) (fun j => 4 * d.toNat + j) tag f
  rw [h.only.iss] at hput
  exact ((h.trans hput).done hst).leaves

theorem leaves_rng4 (d : BitVec 5) (a : BitVec 7) (k : BitVec 6) : Leaves s (s.rng4 d a k) := by
  obtain ⟨hend, hread⟩ := vecRead_leaves hst [Src.of a counterTags] none false [] true (fun _ => none)
  rw [State.rng4]
  split
  · next t h => exact hend t h
  · next s1 ty vs h => exact leaves_put4 hst (hread s1 ty vs h) d 5 _

theorem leaves_qdec (d : BitVec 5) (a b : BitVec 7) : Leaves s (s.qdec d a b) := by
  obtain ⟨hend, hread⟩ := vecRead_leaves hst [Src.typed a, Src.of b [1]] none false [9, 10] false
    (fun vs => if (arg vs 0).tag = 10 ∧ !s.mine.hdr.ctabbed then some (.badHandle, a.toNat) else none)
  rw [State.qdec]
  dsimp only
  split
  · next t h => exact hend t h
  · next s1 ty vs h => exact leaves_put4 hst (hread s1 ty vs h) d 2 _

theorem leaves_of_computed (h : Computed s t) : Leaves s t := by
  cases h with
  | vec srcs d fp accept rawOk f => exact leaves_vec hst srcs d fp accept rawOk f
  | short d sOp accept sTag f => exact leaves_short hst d sOp accept sTag f
  | scalar d x => exact (writes_putScalar hst d x).leaves
  | vtos d a h => exact leaves_vtos hst d a h
  | rng4 d a k => exact leaves_rng4 hst d a k
  | qdec d a b => exact leaves_qdec hst d a b

end

end

/-- R32, R223. A computing instruction passes the gate of the declared counts, and then computes in one of the forms. -/
theorem exec_of_computes {i : Instr} (s : State) (hi : computes i = true) : ∃ f, exec i s = s.gate i f ∧ Computed s (f s) := by
  cases i
  case movShort | iaddShort | isubShort | iandShort | iorShort | ixorShort | shlShort | shrlShort | shraShort | imulShort | moviShort
    | faddShort | fsubShort | fmulShort | fminShort | fmaxShort =>
    apply Exists.intro
    constructor
    · rfl
    · exact .short ..
  case sadd | ssub | smul | sand | sor | sxor | sshl | sshrl | sshra | smin | smax | snmin | snmax | scmpeq | scmplt | scmpnlt | ssel
    | saddi | sandi | sori | sxori | sshli | sshrli | scmpeqi | smovi =>
    apply Exists.intro
    constructor
    · rfl
    · exact .scalar ..
  case vtos =>
    apply Exists.intro
    constructor
    · rfl
    · exact .vtos ..
  case rng4 =>
    apply Exists.intro
    constructor
    · rfl
    · exact .rng4 ..
  case qdec =>
    apply Exists.intro
    constructor
    · rfl
    · exact .qdec ..
  case iadd | isub | iand | ior | ixor | andn | shl | shrl | shra | imin | imax | nmin | nmax | iabs | ineg | mov | imul | imulhi | nmulhi
    | imad | popc | clz | brev | iaddsat | iaddi | andi | ori | xori | shli | shrli | shrai | movi | ialusIadd | ialusIsub | ialusAnd
    | ialusOr | ialusXor | ialusAndn | ialusShl | ialusShrl | ialusShra | ialusImin | ialusImax | ialusNmin | ialusNmax | ialusIabs
    | icmpEq | icmpNe | icmpLt | icmpLe | icmpGt | icmpGe | icmpNlt | icmpNle | icmpNgt | icmpNge | sel | fadd | fsub | fmul | fmin | fmax
    | fabs | fneg | fcopysign | frint | fma | fms | fnma | fnms | falusFadd | falusFsub | falusFmul | falusFmin | falusFmax | fcmpEq
    | fcmpNe | fcmpLt | fcmpLe | fcmpGt | fcmpGe | fcmpUn | fcmpOrd | rcp | rsq | exp2 | log2 | sin | cos | sqrt | div | cvt | cast | pack
    | unpacklo | unpackhi | shfl | shflup | shfldn | shflx | ballot | voteall | voteany | matchv | redadd | scanadd | redmin | redmax
    | movs | laneid | wid | widf | rng =>
    apply Exists.intro
    constructor
    · rfl
    · exact .vec ..
  all_goals exact nomatch hi

/-- Settles O60: every form of result, and every stall and trap on the way to it, leaves the rest. -/
theorem computingLeavesTheRest : Obligations.ComputingLeavesTheRest := by
  intro s i hi hissuing
  have hst := stands_of_issuing hissuing
  obtain ⟨t, hexec, hleaves⟩ : ∃ t, exec i s = .next t ∧ Leaves s t := by
    obtain ⟨f, hexec, hf⟩ := exec_of_computes s hi
    cases hover : s.overCount i with
    | none => exact ⟨_, hexec.trans (gate_none f hover), leaves_of_computed hst hf⟩
    | some r => exact ⟨_, hexec.trans (gate_some f hover), leaves_trapWhole hst _ _⟩
  obtain ⟨honly, haside, hflight, hlanes⟩ := hleaves
  refine ⟨t, hexec, honly.ms, honly.core, honly.work, honly.hub, honly.clock, honly.inputs, honly.outbox, fun k c hne => ?_, fun k => ?_,
    hflight.loads, hflight.stores, hflight.copies, hflight.tiles, hflight.tokens, hflight.region, hflight.pending,
    fun hrefused _ hterm l hl hset => ?_⟩
  · rw [haside.others k c hne]
    exact ⟨rfl, rfl, rfl, rfl, rfl, rfl, rfl, rfl, rfl, rfl, rfl, rfl, rfl, rfl, rfl, rfl, rfl, rfl, rfl⟩
  · exact ⟨haside.scratch k, haside.tiles k, haside.slots k, haside.rtokens k, haside.bars k, haside.place k, haside.channels k⟩
  · obtain ⟨-, hended | hout⟩ := hlanes hrefused
    · exact absurd hterm hended.term
    · exact hout.lanes l hl hset

end Sys2Proof.Proofs
end
